-- ==== Sys2Proof/Word.lean ====
section
/-! DEFINITION. The plain word types: bytes, 64-bit words, device time; and the small types that commands carry. -/

-- The package is also checked as one text: one declaration at a time keeps that check within its memory.
set_option Elab.async false

namespace Sys2Proof

/-- One byte of memory or of a frame. -/
abbrev Byte := BitVec 8

/-- One 64-bit register value (R6). -/
abbrev Word := BitVec 64

/-- A device time or another signed count of nanoseconds; held times may be rebased by a signed step (R20). -/
abbrev Time := Int

/-- Units that service levels require (R2, 00). -/
inductive ReqUnit where
  | toffee | rootOfTrust | pralineCores | nougatBank0 | hostPorts | refclk
  | solver | timeEngine | imuWheel
  | pointEngine | lidarPath | checker
  | arrayTiles
  /-- A unit the image enables, by window index. -/
  | enabled (window : Nat)
  deriving DecidableEq, Repr

/-- Who sends an Announce message: its grandmaster's identity, priority1, clockAccuracy, offsetScaledLogVariance and priority2,
stepsRemoved and the sender's port identity (R21). -/
structure Announcer where
  id       : Nat
  prio1    : Nat
  accuracy : Nat
  variance : Nat
  prio2    : Nat
  steps    : Nat
  sender   : Nat
  deriving DecidableEq, Repr

/-- Parity that fails as a word leaves the head, the middle and the tail of its queue (R61). -/
structure StageParity where
  head : Bool
  mid  : Bool
  tail : Bool
  deriving DecidableEq, Repr

/-- An engine's read of an item: the slot or queue it reads from, and the checks that fail as the item's last word is delivered:
parity on leaving the tail, CRC16 at the consumer port (R61). -/
structure ItemRead where
  src    : Nat
  parBad : Bool
  crcBad : Bool
  deriving DecidableEq, Repr

/-- The cells that the heads give for a tile, and whether they or the history tokens met a poisoned input (R146, R147). -/
structure HeadCells where
  cells    : List (BitVec 64)
  poisoned : Bool
  deriving DecidableEq, Repr

/-- One cell of a sentinel output (R275, 17). -/
structure SentCell where
  occ    : Nat
  eg     : Nat
  egConf : Nat
  deriving DecidableEq, Repr

/-- A sentinel output, and what its run met in the checker's SRAM (R274, R275, 17): 0 nothing, 1 a corrected error, 2 an
uncorrectable one. -/
structure SentOut where
  cells : List SentCell
  fault : Nat
  deriving DecidableEq, Repr

end Sys2Proof
end

