-- ==== Sys2Proof/Syntax.lean ====
section
/-! DEFINITION. The commands of the block: one constructor per row of the command table (spec/opcode_table.json),
with the row's operands. Bytes that arrive from outside, and physical outcomes that the device only observes (a check
failed on a wire or in a cell, the output of a learned network), are operands. -/

namespace Sys2Proof

/-- The commands the device takes from outside, from its own clocks and from its engines. -/
inductive Instr where
  /-- REGISTER_WRITE (R7): A write to a register that has no row of its own takes effect under its access type (RW, W1C, RWS, RWL, reserved-field and gated-window rules). -/
  | registerWrite (addr value : Nat) (half : Bool)
  /-- TIM_NOW_LOW_READ (R15): A 32-bit read of the low half of TIM_NOW latches the high half for the next 32-bit read. -/
  | timNowLowRead
  /-- REQUIRED_UNIT_LOSS (R3): A required unit faults, is fenced or loses its input path during operation, and the service level drops at once to the highest level whose units remain. -/
  | requiredUnitLoss (unit : ReqUnit)
  /-- INSTANCE_OPEN (R137): At ToV of the previous instance (or at first Full), GLZ opens the next instance in its slot and fixes its ToV and deadline; consumers place their marks. -/
  | instanceOpen
  /-- SYNC (R387): A Sync message on host port A or B is assigned to its domain slot, measured and judged healthy or not. -/
  | sync (port domain seq : Nat) (twoStep : Bool) (origin correction logInterval : Int)
  /-- FOLLOW_UP (R386): A Follow_Up message completes a two-step Sync of its domain slot. -/
  | followUp (port domain seq : Nat) (origin correction : Int)
  /-- ANNOUNCE (R22): An Announce message updates its slot's grandmaster data and may degrade the domain on clockClass or identity change. -/
  | announce (port domain clockClass : Nat) (gm : Announcer) (utcOffset logInterval : Int)
  /-- PDELAY (R21): A Pdelay message on a host port serves the peer-delay measurement of every slot using that port. -/
  | pdelay (port kind : Nat) (stamp : Int)
  /-- SIGNALING (R21): A received gPTP signaling message is discarded. -/
  | signaling (port : Nat)
  /-- SYNC_RECEIPT_TIMEOUT (R22): The Sync receipt timeout of a port expires, and the domain is lost when it has expired on every port of its mask. -/
  | syncReceiptTimeout (slot port : Nat)
  /-- ANNOUNCE_RECEIPT_TIMEOUT (R22): The Announce receipt timeout of a port expires, and the domain is lost when it has expired on every port of its mask. -/
  | announceReceiptTimeout (slot port : Nat)
  /-- SLEW_COMPLETE (R24): The remaining slew phase reaches 0 and the state becomes LOCKED. -/
  | slewComplete
  /-- ACQ_TIMEOUT (R19): No domain qualifies within ACQ_TIMEOUT of acquisition start, and start-up continues in FREE. -/
  | acqTimeout
  /-- HOLDOVER_LIMIT (R19): Holdover exceeds HOLDOVER_LIMIT and UNTRACEABLE is set. -/
  | holdoverLimit
  /-- REVERT (R23): With REVERT set, the preferred slot has qualified without a break for REVERT_HOLD and the device switches back to it. -/
  | revert
  /-- SENSOR_PTP_RX (R27): Announce or Sync received on a sensor port is discarded, counted and sets FOREIGN_MASTER. -/
  | sensorPtpRx (port : Nat) (isSync : Bool)
  /-- SENSOR_ANNOUNCE_TX (R27): Every 1 s the device sends Announce as grandmaster on each enabled sensor port. -/
  | sensorAnnounceTx (port : Nat)
  /-- SENSOR_SYNC_TX (R28): At each Sync interval the device sends a one-step Sync with originTimestamp inserted on the fly. -/
  | sensorSyncTx (port : Nat)
  /-- SENSOR_PDELAY_TX (R27): At each pdelay interval a sensor port sends a Pdelay request as requester. -/
  | sensorPdelayTx (port : Nat)
  /-- LAUNCH_REQUEST (R29): A frame is queued with a launch time, or refused with LAUNCH_FULL when the launch queue is full. -/
  | launchRequest (port : Nat) (time : Int) (dropLate : Bool) (dst : Nat) (payload : List Byte)
  /-- LAUNCH (R30): A queued frame reaches its launch time at the head of its queue and leaves its port. -/
  | launch (port : Nat)
  /-- TRIGGER_EDGE (R31): Device time reaches t_k and the camera trigger output drives the leading edge of its pulse. -/
  | triggerEdge (output : Nat)
  /-- TRIGGER_PULSE_END (R31): WIDTH ns after the leading edge the trigger output returns to its inactive level. -/
  | triggerPulseEnd (output : Nat)
  /-- FRAME_START (R36): A CSI-2 Frame Start short packet is timestamped, stamped and written as a FRAME_START item. -/
  | frameStart (rx vc frameNumber : Nat)
  /-- CSI_LINE (R38): A CSI-2 long packet is checked and written as a line item, or discarded making the frame incomplete. -/
  | csiLine (rx vc dataType : Nat) (data : List Byte) (headerOk crcOk : Bool)
  /-- FRAME_END (R39): A CSI-2 Frame End closes the frame and writes its FRAME_END item with arrival time and flags. -/
  | frameEnd (rx vc frameNumber : Nat)
  /-- EMBEDDED_DATA (R388): The first embedded-data packet after Frame Start supplies the frame's embedded time on a CHECK = 2 stream. -/
  | embeddedData (rx vc : Nat) (data : List Byte) (crcOk : Bool)
  /-- FRAME_END_TIMEOUT (R39): No Frame End arrives within PERIOD of Frame Start and ING closes the frame as incomplete. -/
  | frameEndTimeout (stream : Nat)
  /-- LIDAR_DATAGRAM (R41): A UDP datagram on a sensor port is matched to a lidar stream, checked and written as an ingest item. -/
  | lidarDatagram (port : Nat) (frame : List Byte)
  /-- ARP_REQUEST (R40): A broadcast ARP request for the port's IPv4 address is answered. -/
  | arpRequest (port senderIp targetIp : Nat)
  /-- CAN_FRAME (R44): A CAN FD frame accepted by a filter is stamped and written as an item. -/
  | canFrame (ctrl id : Nat) (ide fdf brs : Bool) (data : List Byte)
  /-- BUS_OFF (R44): A CAN FD controller enters bus-off and CAN_ERR is set. -/
  | busOff (ctrl : Nat)
  /-- BUS_OFF_RECOVERY (R44): After 128 occurrences of 11 recessive bits the controller recovers from bus-off. -/
  | busOffRecovery (ctrl : Nat)
  /-- DATA_READY_EDGE (R45): An active data-ready edge of an SPI slot is stamped and a read is scheduled. -/
  | dataReadyEdge (slot : Nat)
  /-- SPI_READ_DONE (R45): The SPI read of a slot completes and its IMU sample is written as an item. -/
  | spiReadDone (slot : Nat) (data : List Byte)
  /-- ENCODER_EDGE (R46): A filtered encoder edge is counted, and the first edge after INTERVAL emits a record. -/
  | encoderEdge (input : Nat) (rising : Bool) (held : Nat) (lost : Bool)
  /-- ENCODER_IDLE_TIMEOUT (R46): No edge for IDLE_TIMEOUT makes the stream emit an idle record. -/
  | encoderIdleTimeout (stream : Nat)
  /-- ABSENT_TIMEOUT (R51): An admitted stream with no sample for ABSENT_PERIODS × PERIOD becomes ABSENT. -/
  | absentTimeout (stream : Nat)
  /-- DISC_GRACE_END (R53): The grace of DISC_GRACE × 100 ms after a discontinuity ends and inconsistent samples advance BAD_RUN again. -/
  | discGraceEnd
  /-- GOLDEN_LINE_INJECT (R48): In a qualifying vertical blanking, ING injects an armed golden burst into a receiver's packet stream. -/
  | goldenLineInject (rx : Nat)
  /-- GOLDEN_PACKET_INSERT (R49): ING inserts armed golden lidar packets into a port's ingest queue between real packets. -/
  | goldenPacketInsert (port : Nat)
  /-- QUEUE_WRITE (R65): A producer writes an item to a queue, which is accepted or dropped whole under the full rule. -/
  | queueWrite (queue : Nat) (data : List Byte)
  /-- FLUSH_STROBE (R60): A producer flush strobe stores the partial packing word padded with zeros. -/
  | flushStrobe (queue : Nat)
  /-- PENDING_MARKER_STORE (R65): Once space is freed, a queue stores the gap marker carrying its pending drop count. -/
  | pendingMarkerStore (queue : Nat)
  /-- MARK (R63): The consumer records its read position in a mark slot, or the command is refused. -/
  | mark (queue slot : Nat)
  /-- REWIND (R63): The consumer's read position returns to the mark in a slot. -/
  | rewind (queue slot : Nat)
  /-- RELEASE (R63): A mark slot is cleared and space behind the hold point freed. -/
  | release (queue slot : Nat)
  /-- READ (R63): The consumer reads the next word, which is checked on delivery. -/
  | read (queue : Nat) (parBad : StageParity) (crcBad eccBad : Bool)
  /-- READ_TIMEOUT (R67): A queue's read timer expires with data held, flushing the packing word and sending a notice. -/
  | readTimeout (queue : Nat)
  /-- POINTER_MISMATCH (R62): A mismatch of duplicated queue pointers resets the queue and stores a RESET gap marker. -/
  | pointerMismatch (queue : Nat)
  /-- POINT_ITEM_READ (R71): PTS reads a lidar ingest item and decodes, slices and stages its points. -/
  | pointItemRead (slot : ItemRead)
  /-- INTAKE_END (R74): At W_c + 50 µs the intake of a window ends and its open parts complete. -/
  | intakeEnd
  /-- PART_COMPENSATE (R75): Once the trajectory covers a part's mid-time, PTS compensates its records and inserts them into the pillar table. -/
  | partCompensate (slot : Nat)
  /-- POSE_WAIT_TIMEOUT (R76): The trajectory does not cover a part within POSE_WAIT and PTS compensates with the forward prediction. -/
  | poseWaitTimeout (slot : Nat)
  /-- TABLE_CLOSE (R82): With intake ended and every part inserted, the table closes and emits its pillars. -/
  | tableClose
  /-- TABLE_FREE (R82): A table consumed by sparse convolution and read by the checker is freed, and a waiting window takes it. -/
  | tableFree
  /-- SPARSE_CONV_START (R91): Sparse convolution of an instance starts after its table closed and the previous instance emitted its last block. -/
  | sparseConvStart (golden : Bool)
  /-- DILATE (R95): Before a dilating layer, PTS grows the site set by one 3 × 3 neighbourhood near to far. -/
  | dilate (golden : Bool)
  /-- STAGING_BLOCK (R98): PTS stages a block of 64 output sites with its present offsets for the array. -/
  | stagingBlock (golden : Bool)
  /-- OUTPUT_BLOCK (R99): After the last layer PTS emits a tile's output block into a free tile-ring buffer. -/
  | outputBlock (golden : Bool)
  /-- LFT_ITEM_READ (R105): LFT reads a camera ingest item of a bound stream. -/
  | lftItemRead (cam : ItemRead)
  /-- BACKBONE_DONE (R109): The backbone writes its last feature-column record and the frame slot is released. -/
  | backboneDone (slot : Nat) (records : List (List Byte))
  /-- LIFT (R111): The lift unit starts lifting a frame in backbone-completion order through its depth-bin table. -/
  | lift
  /-- LIFT_BLOCK_EMIT (R112): A lifted block is emitted once a ring buffer is free. -/
  | liftBlockEmit
  /-- LIFT_DONE (R111): The lift emits LAST and its completion token, making the frame ready. -/
  | liftDone
  /-- EGO_SAMPLE_READ (R118): SLV reads an IMU, wheel or CAN FD sample into the node of its interval. -/
  | egoSampleRead (queue : ItemRead)
  /-- REGISTRATION_RECORD (R118): A registration record from firmware is attached to its node or dropped with REG_DROP. -/
  | registrationRecord
  /-- UPDATE_RECORD (R125): With ASM_EN = 0, an update record replaces or adds to an H block or g segment. -/
  | updateRecord
  /-- EGO_INTAKE_CLOSE (R118): At t_k + EGO_INTAKE the node intake closes and the ego solve starts. -/
  | egoIntakeClose
  /-- ASM_BUDGET_EXPIRY (R124): Assembly not ended ASM_BUDGET after intake close stops, and the solve falls back. -/
  | asmBudgetExpiry (done : Nat)
  /-- EGO_ITERATION_DONE (R124): An ego iteration of assembly, factorisation and substitution completes. -/
  | egoIterationDone
  /-- EGO_SOLVE_DONE (R127): An ego solve ends and its result is kept, or discarded on overflow or failed pivot. -/
  | egoSolveDone (nougat : Bool)
  /-- EGO_PUBLISH (R121): At t_k + EGO_DEADLINE SLV publishes the node's estimate to its queues. -/
  | egoPublish
  /-- BA_START (R131): START in SLV_BA_CMD begins one bundle-adjustment step, or is refused with BA_REJECT. -/
  | baStart (value : Nat)
  /-- BA_ABORT (R133): ABORT in SLV_BA_CMD abandons the running step with RESULT 3. -/
  | baAbort (value : Nat)
  /-- BA_STEP_DONE (R132): A bundle-adjustment step ends and writes its result header and BA_DONE. -/
  | baStepDone
  /-- BA_TIMEOUT (R133): A step not ended BA_TIMEOUT after START is abandoned. -/
  | baTimeout
  /-- WARP_START (R142): Once E(ToV) is available, GLZ starts warping contributions to the ToV for the heads. -/
  | warpStart
  /-- TILE_HEADS_DONE (R276): A tile's fusion heads complete and its comparison against the sentinel starts. -/
  | tileHeadsDone (cycle tile : Nat) (cells : List (BitVec 64)) (poisoned : Bool)
  /-- COMPARE_DONE (R12): A tile's comparison ends and the tile becomes issuable. -/
  | compareDone (cycle tile : Nat)
  /-- AMEND_WINDOW_CLOSE (R150): The amend window of a cycle closes. -/
  | amendWindowClose
  /-- AMEND_RECOMPUTE (R150): With the window closed and every amending frame ready, GLZ recomputes each amended tile once. -/
  | amendRecompute (tile : Nat) (cells : HeadCells)
  /-- REUSE_DEADLINE (R151): At deadline − REUSE_LEAD unfinished tiles are missed and pending amendments abandoned. -/
  | reuseDeadline
  /-- TOKEN_RECEIVE (R156): A token reaches its consumer entry, or is discarded for a stale epoch. -/
  | tokenReceive (token : List Byte)
  /-- ENTRY_FIRE (R157): A firing unit fires its next entry once inputs are present and output credits are held. -/
  | entryFire (unit graph slot tile : Nat)
  /-- ENTRY_COMPLETE (R159): An entry completes and sends DONE or ERROR on every output edge. -/
  | entryComplete (unit graph slot : Nat) (error : Bool) (arg : Nat)
  /-- CREDIT_RETURN (R157): A consumer returns an edge credit to its producer. -/
  | creditReturn (edge : Nat)
  /-- SQUASH_DONE (R165): A squash completes and the squashed instances restart from their first entries. -/
  | squashDone
  /-- BUDGET_OVERRUN (R170): A task class's end event has not occurred at start + BUDGET and an overrun is reported. -/
  | budgetOverrun (cls key : Nat)
  /-- TILE_OPERATION_DONE (R173): An array tile operation completes, reaching a tile-operation boundary. -/
  | tileOperationDone (tile fault : Nat) (tableErr : Bool)
  /-- CHAIN_STORE_DONE (R174): A chain's requantising store completes and its accumulator set is freed. -/
  | chainStoreDone (tile : Nat) (golden : Bool) (fault : Nat) (tableErr : Bool)
  /-- PRALINE_ACCESS (R211): A Praline core load or store reaches memory directly. -/
  | pralineAccess (core priv : Nat) (store : Bool) (addr size value : Nat) (err : Nat)
  /-- ECC_WRITE_BACK (R214): A corrected Nougat word is written back in the bank's next free access slot. -/
  | eccWriteBack (bank : Nat)
  /-- SCRUB (R215): The patrol scrubber reads one word of a bank every SCRUB_INTERVAL cycles. -/
  | scrub (bank err : Nat)
  /-- DDR_SCRUB (R220): The DDR4 patrol scrub reads one burst per channel every SCRUB_INTERVAL ns. -/
  | ddrScrub (channel err : Nat)
  /-- ALERT_N (R220): A CA parity error signalled on ALERT_N retries the command up to twice. -/
  | alertN (channel addr : Nat) (again : Bool)
  /-- SCORE_DONE (R231): ATN finishes scoring a row block and sends NORM to the head's core. -/
  | scoreDone
  /-- NORM_DONE (R234): The core finishes normalising a row block and returns DONE. -/
  | normDone (slot : Nat) (golden : Bool)
  /-- VALUE_DONE (R235): ATN forms and writes the block's output rows and frees the slot; a step's end is a head-step boundary. -/
  | valueDone (slot : Nat) (golden : Bool)
  /-- GRADIENT_DONE (R236): A BACKWARD block's gradient phase adds into dK, dV and dQ. -/
  | gradientDone (slot : Nat) (golden : Bool)
  /-- GENERATION_CHANGE (R244): At a head-step boundary with a staged batch, the shadow becomes current and the generation increments. -/
  | generationChange
  /-- SHADOW_COPY_DONE (R244): The copy of the current bank into a new shadow completes and waiting batches may apply. -/
  | shadowCopyDone
  /-- DROP_RANGE (R245): Edit record removing every entry lying wholly in -/
  | dropRange
  /-- SHARE (R245): Edit record appending the first C entries of another sequence's list. -/
  | share
  /-- RENUMBER (R245): Edit record lowering positions at or above A by B. -/
  | renumber
  /-- CLEAR (R245): Edit record removing every entry of a sequence and defining it. -/
  | clear
  /-- UNDEFINE (R245): Edit record clearing a sequence and marking it undefined. -/
  | undefine
  /-- COMMIT (R246): Edit record checking the batch against the shadow and staging it, or rejecting it. -/
  | commit
  /-- WALK (R247): The walker firmware walks a sequence's list of the held generation and emits page descriptors. -/
  | walk (step seq : Nat) (badPage : Option (Nat × Bool))
  /-- APPEND (R249): A KVC APPEND entry writes key and value rows into pending pages of their sequences. -/
  | append
  /-- PREFETCH (R253): A KVC PREFETCH entry copies spilled pages back to Nougat and pins them. -/
  | prefetch
  /-- TRAINING_START (R261): An enabled Barmusa port, or one DOWN for 1 s, starts training. -/
  | trainingStart (port : Nat)
  /-- TRAINING_DONE (R261): Lanes lock and the handshake completes, and the port goes UP or FAILED. -/
  | trainingDone (port peer : Nat) (profileOk : Bool)
  /-- TRAINING_TIMEOUT (R261): Training or retraining not done within 50 ms sends the port DOWN. -/
  | trainingTimeout (port : Nat)
  /-- LINK_TIMEOUT (R261): No flit received for LINK_TIMEOUT sends an UP port DOWN. -/
  | linkTimeout (port : Nat)
  /-- LANE_LOCK_LOSS (R261): Loss of lane lock sends an UP port to RETRAIN. -/
  | laneLockLoss (port : Nat)
  /-- FLIT (R260): A data flit is received, CRC-checked and delivered, or discarded with a nack. -/
  | flit (port : Nat) (flit : List Byte)
  /-- NACK_FLIT (R260): A received nack makes the sender replay from the flit after ACK. -/
  | nackFlit (port ack : Nat)
  /-- CREDIT_FLIT (R260): A credit flit returns flit credits for a virtual channel. -/
  | creditFlit (port vc count ack : Nat)
  /-- KEEPALIVE (R269): A received keepalive updates the link delay and neighbour time offset, setting TIME_SKEW when beyond SKEW_LIMIT. -/
  | keepalive (port ack : Nat) (peerTime roundTrip : Int)
  /-- KEEPALIVE_TX (R260): A port that has sent nothing for 10 µs sends a keepalive. -/
  | keepaliveTx (port : Nat)
  /-- DISPATCH_COMMAND (R265): A Praline dispatch entry commands BML to send one DISPATCH packet per token choice. -/
  | dispatchCommand (layer : Nat) (records : List Nat) (rows : List (List Byte))
  /-- DISPATCH (R266): A DISPATCH packet is admitted into an expert's input buffer or refused with a reason. -/
  | dispatch
  /-- RESULT (R267): A RESULT packet fills its combine slot, or counts as LATE_RESULT after the deadline. -/
  | result
  /-- REFUSE (R267): A REFUSE packet marks its combine slot for fallback. -/
  | refuse
  /-- SERVE (R266): Once its instance is the head and collection closed, the serve entry runs the expert and returns RESULT packets. -/
  | serve (layer slot : Nat) (rows : List (List Byte))
  /-- COMBINE_DEADLINE (R267): At TOV + COLLECT_CLOSE + RETURN_WAIT, empty or refused slots take home rows and the combine token is sent. -/
  | combineDeadline (layer : Nat) (home : List (List Byte))
  /-- REMOTE_COPY (R268): A Praline copy entry commands BML to send COPY packets of a local tensor to a remote context. -/
  | remoteCopy (core desc dest target : Nat)
  /-- COPY (R268): A COPY packet's payload is written through translation in REMOTE_CTX, or aborted with NACK. -/
  | copy (last : Bool)
  /-- COPY_DONE (R268): A COPY_DONE packet completes the source copy entry. -/
  | copyDone
  /-- NACK (R268): A NACK packet ends the source copy entry with ERROR. -/
  | nack
  /-- COPY_TIMEOUT (R268): No COPY_DONE within COPY_TIMEOUT ends the copy entry with ERROR. -/
  | copyTimeout
  /-- SENTINEL_RUN (R275): When an instance's table closes, CHK reads it and runs the sentinel network. -/
  | sentinelRun (cycle : Nat)
  /-- SENTINEL_DONE (R275): The sentinel output of an instance is complete and warped to its ToV. -/
  | sentinelDone (cycle : Nat) (cells : SentOut)
  /-- GOLDEN_COMPARE_DONE (R281): Pair B finishes checking a golden frame against its ranges and tells SAF pass or fail. -/
  | goldenCompareDone (num : Nat) (error : Bool)
  /-- GOLDEN_SPAN (R282): No golden frame finishes within GOLDEN_SPAN_MAX and GOLDEN_SPAN is reported. -/
  | goldenSpan
  /-- GUARD_TILE_ISSUE (R278): At Guard with GUARD_OUT, CHK issues 256 guard tiles at each schedule point. -/
  | guardTileIssue (cells : List SentCell)
  /-- HEARTBEAT_TIMEOUT (R283): The heartbeat timer expires and cause HEARTBEAT enters Safe. -/
  | heartbeatTimeout
  /-- WATCHDOG_SERVICE (R283): Every 10 ms the safety agent checks SAF state and services the Toffee watchdog. -/
  | watchdogService
  /-- WATCHDOG_EXPIRY (R283): The watchdog expires, asserting SAFE_N and forcing a watchdog reset. -/
  | watchdogExpiry
  /-- LOCKSTEP (R285): A mismatch in a checker pair is detected and enters Safe. -/
  | lockstep (pairB : Bool)
  /-- SAF_SELF (R285): A mismatch of SAF's duplicated state is detected and enters Halted. -/
  | safSelf
  /-- SAFE_PATH (R288): SAFE_N readback differs from the requested level and enters Halted. -/
  | safePath
  /-- ENV (R376): A rail or temperature outside its operating range trips the monitor and enters Safe. -/
  | env (source : Nat)
  /-- NOTICE_REPEAT (R289): In Safe or Halted the latest SAFETY_NOTICE repeats every NOTICE_REPEAT. -/
  | noticeRepeat
  /-- COMMIT_NEXT_BOUNDARY (R306): A commit request with MODE NEXT_BOUNDARY consumes the shadow and is checked. -/
  | commitNextBoundary (host : Option (Nat × Nat × Nat)) (id : Nat) (items : List (Nat × Nat)) (crcOk : Bool)
  /-- COMMIT_AT_TIME (R306): A commit request with MODE AT_TIME consumes the shadow and is checked. -/
  | commitAtTime (host : Option (Nat × Nat × Nat)) (id : Nat) (time : Int) (items : List (Nat × Nat)) (crcOk : Bool)
  /-- COMMIT_CANCEL (R307): CANCEL cancels a pending commit and every commit accepted after it. -/
  | commitCancel (host : Option (Nat × Nat × Nat)) (id : Nat) (crcOk : Bool)
  /-- COMMIT_CHECK_DONE (R305): Checking of a commit ends and it becomes pending or is rejected with a reason. -/
  | commitCheckDone
  /-- COMMIT_APPLY (R306): At the apply instant every item takes effect in one cycle and run-ahead is squashed. -/
  | commitApply
  /-- POWER_ON_RESET (R378): VDD_AON rises through its threshold and a power-on reset occurs. -/
  | powerOnReset
  /-- RESET_N (R355): RESET_N low for at least 1 µs resets the device. -/
  | resetN
  /-- PWR_GOOD_LOW (R379): PWR_GOOD low for 1 µs while MAIN_EN is high resets the device as RESET_N. -/
  | pwrGoodLow
  /-- WARM (R356): RST_CTRL written with WARM and KEY 0xA5 starts a warm reset. -/
  | warm
  /-- RESET_RELEASE (R301): The device releases reset and runs the start-up sequence through image verification and load. -/
  | resetRelease (provEn testEn shieldBad pufBad : Bool) (flashBad : Nat)
  /-- BIST_DONE (R303): Start-up self-test completes and fences failing units. -/
  | bistDone (failed : List ReqUnit) (cores tilesMem tilesLogic banks ports : Nat)
  /-- DDR_TRAINING_DONE (R219): DDR4 training completes, or DDR4 is marked absent on a failing channel. -/
  | ddrTrainingDone (failedChannels : Nat)
  /-- IMAGE_LOAD_DONE (R298): Sections are loaded, registers written, block settings checked and RWL fields locked. -/
  | imageLoadDone (flashBad : Bool) (latent : Nat)
  /-- ROLLBACK_ADVANCE (R312): ADVANCE in SEC_ROLLBACK_CMD starts blowing rollback fuses toward TARGET, or is refused. -/
  | rollbackAdvance (target : Nat)
  /-- ROLLBACK_FUSE_BLOWN (R312): One rollback fuse finishes blowing; at TARGET ROLLBACK_DONE is set. -/
  | rollbackFuseBlown
  /-- ATTEST_REQ (R314): An ATTEST_REQ frame captures the quote body for signing, or is refused. -/
  | attestReq (port src reqId : Nat) (nonce : List Byte) (flags : Nat)
  /-- QUOTE_READY (R315): Quote signing completes and the quote is sent as ATTEST_QUOTE fragments. -/
  | quoteReady
  /-- CHALLENGE_READ (R317): A read of the debug CHALLENGE register returns a fresh nonce. -/
  | challengeRead
  /-- RESPONSE_WRITE (R317): A write of the debug RESPONSE register starts verification of an unlock request. -/
  | responseWrite (bytes : List Byte)
  /-- DEBUG_VERIFY_DONE (R317): SEC finishes verifying a response and grants the scope or refuses, with lockout after 8 refusals. -/
  | debugVerifyDone
  /-- KEY_PROV_WRITE (R319): Through scope KEY_PROV a CAK is wrapped and blown into the first free slot. -/
  | keyProvWrite (cak ckn : List Byte)
  /-- CAK_REVOKE (R319): Through scope KEY_PROV a slot's REVOKED bit is blown. -/
  | cakRevoke (slot : Nat)
  /-- DECOMMISSION (R316): Through scope LIFECYCLE the lifecycle is blown to DECOMMISSIONED. -/
  | decommission
  /-- DEBUG_DISABLE_BLOW (R316): Through scope LIFECYCLE DEBUG_DISABLE is blown. -/
  | debugDisableBlow
  /-- TAMPER_TRIP (R321): A tamper monitor trips, secrets are zeroised, SAFE_N asserted and the device reset. -/
  | tamperTrip (monitor rail : Nat)
  /-- MKA_HELLO (R318): Every 2 s each host port sends an MKA hello. -/
  | mkaHello (port : Nat)
  /-- MACSEC_DROP (R318): An unprotected or failing Deruento frame under REQUIRE is discarded and counted. -/
  | macsecDrop (port : Nat)
  /-- STATUS_READ (R328): A STATUS_READ frame is answered with STATUS_REPLY. -/
  | statusRead (port src reqId : Nat)
  /-- TILE_READ (R329): A TILE_READ frame is answered tile by tile with TILE_DATA or status frames. -/
  | tileRead (port src reqId cycle options : Nat) (mask : Nat)
  /-- TUNE_STAGE (R334): A TUNE_STAGE frame adds items to the host shadow under STAGE_SEQ. -/
  | tuneStage (port src reqId stageSeq flags : Nat) (items : List (Nat × Nat))
  /-- TUNE_COMMIT (R335): A TUNE_COMMIT frame submits the host shadow as a commit, or returns a remembered result. -/
  | tuneCommit (port src reqId : Nat) (header : List Byte)
  /-- HEARTBEAT (R336): A HEARTBEAT frame restarts the heartbeat timer and is echoed when asked. -/
  | heartbeat (port src reqId hbSeq flags : Nat)
  /-- HEARTBEAT_RESET_REQ (R337): A HEARTBEAT with RESET_REQ is answered with a fresh link-reset nonce. -/
  | heartbeatResetReq (port src reqId hbSeq : Nat) (prot : Bool)
  /-- HEARTBEAT_RESET_CONFIRM (R337): A HEARTBEAT with RESET_CONFIRM and the nonce starts a link reset. -/
  | heartbeatResetConfirm (port src reqId hbSeq nonce : Nat) (prot : Bool)
  /-- LOG_READ_ERROR_LOG (R338): LOG_READ with SELECT 0 returns error-log entries and moves READ_MARK. -/
  | logReadErrorLog (port src reqId fromIndex count : Nat)
  /-- LOG_READ_START_RECORD (R338): LOG_READ with SELECT 1 returns the start record. -/
  | logReadStartRecord (port src reqId : Nat)
  /-- LOG_READ_LIFETIME (R338): LOG_READ with SELECT 2 returns the lifetime record. -/
  | logReadLifetime (port src reqId : Nat)
  /-- MALFORMED_FRAME (R324): A Deruento frame of unknown type or version, or not served in the state, is discarded and counted. -/
  | malformedFrame (port : Nat) (malformed : Bool)
  /-- TRAIN_BUILD (R331): At ToV + LAUNCH_OFFSET − 50 µs HST builds a subscriber's train as a launch entry. -/
  | trainBuild (subscriber cycle : Nat)
  /-- HOST_LINK_DOWN (R332): A host port's link goes down; queued replies are discarded and a train fails over. -/
  | hostLinkDown (port : Nat) (left : Bool)
  /-- HOST_LINK_UP (R289): A host port's link comes up and sends the notice of the latest safety state. -/
  | hostLinkUp (port : Nat)
  /-- TC10_SLEEP_REQUEST (R340): A TC10 sleep request from the link partner is accepted only while a low-power request is accepted. -/
  | tc10SleepRequest (port : Nat)
  /-- TC10_WAKE (R340): A TC10 wake-up pulse or request on a host port wakes the device. -/
  | tc10Wake (port : Nat)
  /-- WAKE_N (R352): WAKE_N held low for 10 µs with WAKE_PIN_EN wakes the device. -/
  | wakeN
  /-- WAKE_ALARM (R352): Device time reaching PWR_WAKE_TIME with WAKE_ALARM_EN wakes the device. -/
  | wakeAlarm
  /-- WAKE_DONE (R352): Wake from Doze completes restore and copy-back and the device returns to Active. -/
  | wakeDone (bad : List Nat)
  /-- STANDBY_WAKE (R353): PWR_GOOD high for 1 ms after a Standby wake event performs a standby-wake reset. -/
  | standbyWake
  /-- PLL_READY (R344): 8,192 REFCLK cycles after its enable a PLL sets READY. -/
  | pllReady (pll : Nat)
  /-- CLK_SRC_WRITE (R345): A write to CLK_SRC switches domain sources glitch-free or is refused with SWITCH_ERR or PLL_OFF_ERR. -/
  | clkSrcWrite (value : Nat)
  /-- REFCLK_LOSS (R348): No REFCLK edge for 200 ns forces SAFE_N, silent transmitters and CKE low. -/
  | refclkLoss
  /-- REFCLK_RECOVERY (R348): 8,192 clean REFCLK cycles release the forced levels and start a safety reset. -/
  | refclkRecovery (lossUs : Nat)
  /-- VID_STEP (R377): Every 10 ms the VDD_CORE VID code may move one step with junction temperature. -/
  | vidStep (up : Bool)
  /-- ERROR_LOG_DRAIN (R364): Each cycle the error-log input buffer writes its oldest pending entry into the ring. -/
  | errorLogDrain
  /-- LIFETIME_INTERVAL (R368): Each ten-minute interval appends a tick and event slots to the flash ring. -/
  | lifetimeInterval (measured : Bool) (tempBin droopBin fails : Nat)
  /-- SECTOR_ERASE_DONE (R368): The erase of the ring sector ahead completes. -/
  | sectorEraseDone
  /-- HOST_PDELAY_TX (R21): At each host-port pdelay interval (TIM_QUALIFY.PDELAY_LOG_INTERVAL) the port sends a Pdelay request for the peer-to-peer delay mechanism. -/
  | hostPdelayTx (port : Nat)
  /-- SENSOR_PDELAY (R27): A Pdelay message received on a sensor port is answered as responder or completes the device's own delay measurement. -/
  | sensorPdelay (port kind : Nat) (stamp : Int)
  /-- MKPDU (R318): An EAPOL-MKA frame received on a host port advances MKA, bringing it live or distributing a new SAK. -/
  | mkpdu (port kind sak : Nat)
  /-- TC10_SLEEP_ACK (R340): The link partner acknowledges the device's TC10 sleep request and the host port goes silent. -/
  | tc10SleepAck (port : Nat)
  /-- TC10_SLEEP_TIMEOUT (R340): 16 ms after its TC10 sleep request with no acknowledgement, the host port goes silent anyway. -/
  | tc10SleepTimeout (port : Nat)
  /-- LINK_ENERGY (R340): With TC10_EN = 0, any energy on a host-port link wakes the device from Doze or Standby. -/
  | linkEnergy (port : Nat)
  /-- DOZE_ENTRY_DONE (R351): The Doze entry sequence of saving, copying, parking DDR4 and stopping PLLs completes and the device rests in Doze. -/
  | dozeEntryDone (bad : List Nat)
  /-- PAGE_COPY_END (R252): The copy of a page in STATE moving ends and the page becomes spilled or resident. -/
  | pageCopyEnd (page : Nat)
  /-- VDD_AON_FALL (R378): VDD_AON falls through 0.67 V and the power-on reset is asserted again, taking the device to Off. -/
  | vddAonFall
  deriving DecidableEq, Repr

end Sys2Proof
end

