-- ==== Sys2Proof/Config.lean ====
section
/-! DEFINITION. What the spec leaves open, as constants with no body: no proof can see a value of theirs, so a claim
holds whatever they are. A number argument called `n` is the state's counter of free values. -/

namespace Sys2Proof.Config

/-! ## Arithmetic whose rounding the spec does not state -/

/-- Whether an exact value that no number of the result's format equals is rounded away from the lower (towards plus infinity, or away
from zero for a float): numerator and denominator (R75, R122, R141). (DESIGN CHOICE: log entry 42) -/
opaque roundsUp : Int → Nat → Bool
/-- A quotient by 0, which a pose of no rotation makes. (DESIGN CHOICE: log entry 42) -/
opaque noQuotient : Int → Int
/-- Which binary32 number within 1 ulp of the exact cos or sin is given (R71): 0 the next below, 1 the exact one or the one towards
zero, 2 the next above; cos or sin, and the angle. (DESIGN CHOICE: log entry 42) -/
opaque trigChoice : Bool → Nat → Fin 3

/-- The fixed tree of a BF16 lane (R179): where the node at a place of the tree splits its leaves, and which of the leaves left comes
next in order. (DESIGN CHOICE: log entry 73) -/
opaque laneSplit : Nat → Nat
opaque laneLeaf : Nat → Nat
/-- An operand byte beyond what a read descriptor delivers (R181), and a column beyond a block's 32 in a BS4 store (R184).
(DESIGN CHOICE: log entry 74) -/
opaque missingOperand : Nat → BitVec 8
opaque missingColumn : Nat → Nat

/-- Which binary32 number within 2 ulp of the exact exp is given (R234, R236): 2 the one towards zero, above and below it the
neighbours. (DESIGN CHOICE: log entry 88) -/
opaque expChoice : Nat → Fin 5

/-- The address of the golden depth-bin table of the image (R114). (DESIGN CHOICE: log entry 186) -/
opaque goldenTable : Nat

/-! ## Secrets and cryptography (spec/19_security.md) -/

/-- The corrected PUF response of this die, K_PUF (R310). (DEDUCED: log entry 129) -/
opaque kPuf : List Byte → List Byte
/-- AES-256 key unwrap under a key (RFC 3394), 32 or 40 bytes in, the key out. (DEDUCED: log entry 129) -/
opaque aesUnwrap : List Byte → List Byte → List Byte
/-- AES-256 key wrap under a key (RFC 3394). (DEDUCED: log entry 129) -/
opaque aesWrap : List Byte → List Byte → List Byte
/-- HKDF-SHA-256 of a seed with an info string's index (0 identity, 1 key-encryption key) and a length (R310).
(DEDUCED: log entry 129) -/
opaque hkdf : List Byte → Nat → Nat → List Byte
/-- The SLH-DSA-SHA2-192f public key derived from the seed's 72 bytes (R310). (DEDUCED: log entry 129) -/
opaque slhPublicKey : List Byte → List Byte
/-- The SLH-DSA-SHA2-192f signature of a message under the identity key (R314), 35,664 bytes. (DEDUCED: log entry 129) -/
opaque slhSign : List Byte → List Byte → List Byte
/-- Whether an SLH-DSA-SHA2-192s signature verifies: key, message, signature (R295, R317). (DEDUCED: log entry 129) -/
opaque slhVerify : List Byte → List Byte → List Byte → Bool
/-- The random generator's output: 32 bytes, by the state's counter of free values (R317, R337). (DEDUCED: log entry 129) -/
opaque random : Nat → List Byte
/-- The NONCE of a HEARTBEAT reply that answers no RESET_REQ (R336). (DEDUCED: log entry 141) -/
opaque echoNonce : Nat → Nat
/-- The register image that Doze entry writes into the save area, whose layout is not stated (R351).
(DESIGN CHOICE: log entry 153) -/
opaque saveImage : List (Nat × BitVec 64) → List Byte
/-- The VID code that the loader sets from the ring-oscillator measurement, at most 16 (R377).
(DESIGN CHOICE: log entry 128) -/
opaque trimmedVid : Fin 17

/-! ## The solver (spec/08_solver.md): the evaluation of factors and states, for which the spec gives no formulas -/

/-- A block of H (row and column node, 225 mantissas) or a segment of g (row, 15 mantissas) as assembled from the parameter block, the
scale table, the factors of the nodes (their times, freshness, wheel speed, samples and records as numbers), their states and the prior,
before saturation (R124). (DESIGN CHOICE: log entry 53) -/
opaque assembleH : List Byte → List Byte → List (List Int) → List (List Int) → List Int → Nat → Nat → List Int
opaque assembleG : List Byte → List Byte → List (List Int) → List (List Int) → List Int → Nat → List Int
/-- The solution of L D L^T x = g as mantissas at the DX exponents, before saturation: rows of L, D, g, scale table (R126).
(DESIGN CHOICE: log entry 53) -/
opaque substitute : List (List Int) → List Int → List Int → List Byte → List Int
/-- Whether a state saturates when its 15 solution mantissas are added (R127). (DESIGN CHOICE: log entry 53) -/
opaque stateSaturates : List Int → List Int → Bool
/-- A rotation turned by three solution numbers of the orientation error, each a mantissa and an exponent (R117).
(DESIGN CHOICE: log entry 53) -/
opaque turnState : Int × Int × Int × Int → List Int → Int × Int × Int × Int
/-- Of the prior state of the first solve, in 2^-40 units: velocity, gyro bias, accelerometer bias, by index; and the half-angle of its roll
or pitch, as cosine and sine of any scale (R117). (DESIGN CHOICE: log entry 53) -/
opaque priorPart : List Byte → List Int → Nat → Int
opaque priorTilt : List Byte → List Int → Bool → Int × Int
/-- The marginal of a dropped node as the prior on its successor: the prior before, both nodes' factors and states (R117).
(DESIGN CHOICE: log entry 53) -/
opaque marginal : List Int → List Int → List Int → List Int
/-- The bias-corrected angular rate in 2^-12 rad/s, from the parameter block, the node's samples and its state (R120).
(DESIGN CHOICE: log entry 53) -/
opaque angularRate : List Byte → List Int → List Int → List Int
/-- Of a bundle-adjustment step: what the elimination of a landmark takes from an entry, from the landmark's L and D and its coupling rows (of
the right-hand side with `true`); the solution of the reduced system; a landmark's step from its factor, its coupling rows, its right-hand
side and that solution; all as mantissas at their exponents, before saturation (R131). (DESIGN CHOICE: log entry 53) -/
opaque schurTerm : List (List Int) → List Int → List Int → List Int → List Byte → Bool → Int
opaque baSubstitute : List (List Int) → List Int → List Int → List Byte → List Int
opaque baBack : List (List Int) → List Int → List (List Int) → List Int → List Int → List Byte → List Int
/-- X (binary32 values) after a step, from X, the solution and the scale table, and MAX_STEP (R132).
(DESIGN CHOICE: log entry 53) -/
opaque baApply : List Byte → List Int → List Byte → List Byte
opaque baMaxStep : List Int → Nat
/-- The lane rate of a CSI-2 receiver, from which a golden line's length in time follows (R48).
(DESIGN CHOICE: log entry 34) -/
opaque laneRate : Nat → Nat

/-! ## Sensor ingest (spec/03_sensor_ingest.md) -/

/-- The residual of a sample that lacks the time its check needs, which DRIFT_EST takes in (R50).
(DESIGN CHOICE: log entry 25) -/
opaque missingResidual : Nat → Int
/-- The stamp of the previous record in a stream's first encoder record (R47). (DESIGN CHOICE: log entry 25) -/
opaque firstPrevious : Nat → Int

/-- FIRST_FAIL of a golden frame in which no element failed (R281). (DEDUCED: log entry 114) -/
opaque noElement : Nat → Nat

/-! ## Links (spec/16_multi_device.md): contents whose layout is not stated -/

/-- The bytes over which the system profile's CRC runs: RINGS, RING_SIZE, PERIOD, PHASE, MODE, HIDDEN, TOPK and the expert maps, whose
packing is not stated (R260). (DESIGN CHOICE: log entry 196) -/
opaque profileBytes : List Nat → List (BitVec 8) → List (BitVec 8)
/-- The payload of a credit flit (VC, count) and of a keepalive (device time) (R259, R269). (DEDUCED: log entry 100) -/
opaque creditPayload : Nat → Nat → List Byte
opaque keepalivePayload : Int → List Byte
/-- The 64-byte copy notice: source device, target address of the last packet (R268). (DESIGN CHOICE: log entry 105) -/
opaque copyNotice : Nat → Nat → List Byte

end Sys2Proof.Config
end

