-- ==== Sys2Proof/Machine/Bits.lean ====
section
/-! DEFINITION. Bit fields, byte order, signed fields, saturation, and the sparse map that holds memory and the
registers in one canonical form. -/

namespace Sys2Proof.Machine

/-- A field of a register: the register's address, the field's lowest bit and its width. -/
structure Fld where
  addr : Nat
  lo   : Nat
  w    : Nat
  deriving DecidableEq, Repr

/-- The `w` bits of `n` from bit `lo`. -/
def bitsAt (n lo w : Nat) : Nat := n / 2 ^ lo % 2 ^ w

/-- Whether bit `i` of `n` is set. -/
def bitSet (n i : Nat) : Bool := n / 2 ^ i % 2 == 1

/-- `n` with bit `i` set. -/
def setBit (n i : Nat) : Nat := if bitSet n i then n else n + 2 ^ i

/-- `n` with bit `i` cleared. -/
def clearBit (n i : Nat) : Nat := if bitSet n i then n - 2 ^ i else n

/-- The number of set bits of `n` among its `w` lowest. -/
def popCount (w n : Nat) : Nat := (List.range w).countP (bitSet n)

/-- A `w`-bit field read as a two's complement number. -/
def toSigned (w n : Nat) : Int :=
  let m := n % 2 ^ w
  if 2 ^ (w - 1) ≤ m then (m : Int) - 2 ^ w else m

/-- A number as a `w`-bit field, modulo 2^w. -/
def ofInt (w : Nat) (i : Int) : Nat := (i % (2 ^ w : Nat)).toNat

/-- A number as a two's complement `w`-bit field, saturated to the field's range. -/
def satSigned (w : Nat) (i : Int) : Nat :=
  ofInt w (max (-(2 ^ (w - 1) : Nat)) (min ((2 ^ (w - 1) : Nat) - 1) i))

/-- A number clamped to a range. -/
def clampInt (lo hi v : Int) : Int := max lo (min hi v)

/-- A count clamped to `w` bits. -/
def satNat (w n : Nat) : Nat := min n (2 ^ w - 1)

/-- A number of at least 0 as a count, saturated to `w` bits. -/
def satCount (w : Nat) (i : Int) : Nat := satNat w i.toNat

/-- a / b rounded to the nearest integer, halves away from zero (b positive). -/
def divRound (a : Int) (b : Nat) : Int :=
  let n := a.natAbs
  let q : Int := ((2 * n + b) / (2 * b) : Nat)
  if a < 0 then -q else q

/-- A little-endian byte list as a number (R4). -/
def leNat : List Byte → Nat
  | [] => 0
  | b :: r => b.toNat + 256 * leNat r

/-- The `k` little-endian bytes of a number (R4). -/
def natLe : Nat → Nat → List Byte
  | 0, _ => []
  | k + 1, n => BitVec.ofNat 8 n :: natLe k (n / 256)

/-- A big-endian byte list as a number (network order). -/
def beNat (l : List Byte) : Nat := leNat l.reverse

/-- The `k` big-endian bytes of a number (network order). -/
def natBe (k n : Nat) : List Byte := (natLe k n).reverse

/-- `k` bytes of a list from an offset. -/
def slice (l : List Byte) (off k : Nat) : List Byte := (l.drop off).take k

/-- The little-endian number in `k` bytes at an offset. -/
def leAt (l : List Byte) (off k : Nat) : Nat := leNat (slice l off k)

/-- The big-endian number in `k` bytes at an offset. -/
def beAt (l : List Byte) (off k : Nat) : Nat := beNat (slice l off k)

/-- `k` zero bytes. -/
def zeroBytes (k : Nat) : List Byte := List.replicate k 0

/-- A byte list padded with zeros, or cut, to `k` bytes. -/
def padTo (k : Nat) (l : List Byte) : List Byte := (l ++ zeroBytes (k - l.length)).take k

/-- A byte list cut into pieces of `k` bytes (`fuel` bounds the number of pieces). -/
def chunksAux (k : Nat) : Nat → List Byte → List (List Byte)
  | 0, _ => []
  | _, [] => []
  | f + 1, l => l.take k :: chunksAux k f (l.drop k)

/-- A byte list cut into pieces of `k` bytes, the last holding the remainder. -/
def chunks (k : Nat) (l : List Byte) : List (List Byte) := chunksAux k l.length l

/-! ## The sparse map

A list of (key, value) pairs in one canonical form: keys strictly rising, and no value equal to what an unlisted
key reads as. Equal maps are equal lists. -/

/-- The value at a key; an unlisted key reads as `d` of the key. -/
def sparseGet {α : Type} (d : Nat → α) (l : List (Nat × α)) (a : Nat) : α :=
  match l with
  | [] => d a
  | (b, v) :: r => if b = a then v else sparseGet d r a

/-- Insert an entry before the first greater key. -/
def sparseIns {α : Type} (a : Nat) (v : α) : List (Nat × α) → List (Nat × α)
  | [] => [(a, v)]
  | p :: r => if a < p.1 then (a, v) :: p :: r else p :: sparseIns a v r

/-- Write a value at a key, keeping the canonical form: writing the unlisted value removes the entry. -/
def sparseSet {α : Type} [DecidableEq α] (d : Nat → α) (l : List (Nat × α)) (a : Nat) (v : α) : List (Nat × α) :=
  let rest := l.filter (fun p => p.1 != a)
  if v = d a then rest else sparseIns a v rest

/-- The canonical form, with every key at least `lo`. -/
def sparseWf {α : Type} [DecidableEq α] (d : Nat → α) (lo : Nat) (l : List (Nat × α)) : Bool :=
  match l with
  | [] => true
  | (a, v) :: r => decide (lo ≤ a) && !decide (v = d a) && sparseWf d (a + 1) r

/-! ## Small list operations -/

/-- The first element that meets `p`, replaced by `f` of it. -/
def updateFirst {α : Type} (p : α → Bool) (f : α → α) : List α → List α
  | [] => []
  | x :: r => if p x then f x :: r else x :: updateFirst p f r

/-- A list with the first element that meets `p` removed. -/
def removeFirst {α : Type} (p : α → Bool) : List α → List α
  | [] => []
  | x :: r => if p x then r else x :: removeFirst p r

/-- A list with the element at index `i` replaced by `f` of it. -/
def modifyAt {α : Type} (f : α → α) : Nat → List α → List α
  | _, [] => []
  | 0, x :: r => f x :: r
  | i + 1, x :: r => x :: modifyAt f i r

/-- Insert into a list kept in rising order of `key`, after equal keys. -/
def insertBy {α : Type} (key : α → Int) (x : α) : List α → List α
  | [] => [x]
  | y :: r => if key x < key y then x :: y :: r else y :: insertBy key x r

end Sys2Proof.Machine
end

