-- ==== Sys2Proof/Machine/Numeric.lean ====
section
/-! DEFINITION. Checks and numbers: CRC-32C, CRC-16/CCITT-FALSE, SHA-256, and exact binary32 arithmetic over
dyadic numbers m * 2^e with one rounding to nearest, ties to even (IEEE 754 binary32). -/

namespace Sys2Proof.Machine

/-! ## Checks -/

/-- One bit step of the reflected CRC-32C (polynomial 0x1EDC6F41, reflected 0x82F63B78). -/
def crc32cBit (c : BitVec 32) : BitVec 32 :=
  if c.getLsbD 0 then (c >>> 1) ^^^ 0x82F63B78#32 else c >>> 1

/-- One byte step of CRC-32C. -/
def crc32cByte (c : BitVec 32) (b : Byte) : BitVec 32 :=
  let c := c ^^^ b.zeroExtend 32
  crc32cBit (crc32cBit (crc32cBit (crc32cBit (crc32cBit (crc32cBit (crc32cBit (crc32cBit c)))))))

/-- CRC-32C of a byte list: initial value and final inversion all ones. -/
def crc32c (l : List Byte) : Nat := ((l.foldl crc32cByte 0xFFFFFFFF#32) ^^^ 0xFFFFFFFF#32).toNat

/-- A record followed by its CRC-32C in the last four bytes. -/
def withCrc (l : List Byte) : List Byte := l ++ natLe 4 (crc32c l)

/-- Whether the last four bytes of a record are the CRC-32C of the bytes before them. -/
def crcOk (l : List Byte) : Bool := decide (4 ≤ l.length) && crc32c (l.take (l.length - 4)) == leNat (l.drop (l.length - 4))

/-- One bit step of CRC-16/CCITT-FALSE (polynomial 0x1021, most significant bit first). -/
def crc16Bit (c : BitVec 16) : BitVec 16 :=
  if c.getLsbD 15 then (c <<< 1) ^^^ 0x1021#16 else c <<< 1

/-- CRC-16/CCITT-FALSE of a byte list: initial value all ones, no final inversion. -/
def crc16 (l : List Byte) : Nat :=
  (l.foldl (fun (c : BitVec 16) b =>
    let c := c ^^^ ((b.zeroExtend 16 : BitVec 16) <<< (8 : Nat))
    crc16Bit (crc16Bit (crc16Bit (crc16Bit (crc16Bit (crc16Bit (crc16Bit (crc16Bit c)))))))) 0xFFFF#16).toNat

/-! ## SHA-256 (FIPS 180-4) -/

/-- The eight 32-bit words of a 256-bit number, the highest first. -/
def wordsOf256 (n : Nat) : List (BitVec 32) := (List.range 8).map (fun i => BitVec.ofNat 32 (n >>> (224 - 32 * i)))

/-- The round constants: the first 32 bits of the fractions of the cube roots of the first 64 primes, eight to a number. -/
def shaK : List (BitVec 32) :=
  [0x428a2f9871374491b5c0fbcfe9b5dba53956c25b59f111f1923f82a4ab1c5ed5,
   0xd807aa9812835b01243185be550c7dc372be5d7480deb1fe9bdc06a7c19bf174,
   0xe49b69c1efbe47860fc19dc6240ca1cc2de92c6f4a7484aa5cb0a9dc76f988da,
   0x983e5152a831c66db00327c8bf597fc7c6e00bf3d5a7914706ca635114292967,
   0x27b70a852e1b21384d2c6dfc53380d13650a7354766a0abb81c2c92e92722c85,
   0xa2bfe8a1a81a664bc24b8b70c76c51a3d192e819d6990624f40e3585106aa070,
   0x19a4c1161e376c082748774c34b0bcb5391c0cb34ed8aa4a5b9cca4f682e6ff3,
   0x748f82ee78a5636f84c878148cc7020890befffaa4506cebbef9a3f7c67178f2].flatMap wordsOf256

/-- The start value: the first 32 bits of the fractions of the square roots of the first 8 primes. -/
def shaInit : List (BitVec 32) :=
  wordsOf256 0x6a09e667bb67ae853c6ef372a54ff53a510e527f9b05688c1f83d9ab5be0cd19

/-- The 64 words of the message schedule of one block, newest first while it is built. -/
def shaExtend : Nat → List (BitVec 32) → List (BitVec 32)
  | 0, w => w
  | k + 1, w =>
    let w15 := w.getD 14 0
    let w2 := w.getD 1 0
    let s0 := w15.rotateRight 7 ^^^ w15.rotateRight 18 ^^^ (w15 >>> 3)
    let s1 := w2.rotateRight 17 ^^^ w2.rotateRight 19 ^^^ (w2 >>> 10)
    shaExtend k ((w.getD 15 0 + s0 + w.getD 6 0 + s1) :: w)

/-- A word against itself turned by three amounts. -/
def threeTurns (x : BitVec 32) (a b c : Nat) : BitVec 32 := x.rotateRight a ^^^ x.rotateRight b ^^^ x.rotateRight c

/-- One round on the eight working words, with its constant and its schedule word. -/
def shaRound (h : List (BitVec 32)) (kw : BitVec 32 × BitVec 32) : List (BitVec 32) :=
  match h with
  | [a, b, c, d, e, f, g, hh] =>
    let s1 := threeTurns e 6 11 25
    let ch := (e &&& f) ^^^ (~~~e &&& g)
    let t1 := hh + s1 + ch + kw.1 + kw.2
    let s0 := threeTurns a 2 13 22
    let mj := (a &&& b) ^^^ (a &&& c) ^^^ (b &&& c)
    [t1 + (s0 + mj), a, b, c, d + t1, e, f, g]
  | _ => h

def shaBlock (h : List (BitVec 32)) (blk : List Byte) : List (BitVec 32) :=
  let w0 := (chunks 4 blk).map (fun b => BitVec.ofNat 32 (beNat b))
  let w := (shaExtend 48 w0.reverse).reverse
  List.zipWith (· + ·) h ((shaK.zip w).foldl shaRound h)

/-- SHA-256 of a byte list, as 32 bytes. -/
def sha256 (l : List Byte) : List Byte :=
  let padLen := (119 - l.length % 64) % 64
  let m := l ++ [0x80] ++ zeroBytes padLen ++ natBe 8 (8 * l.length)
  ((chunks 64 m).foldl shaBlock shaInit).flatMap (fun w => natBe 4 w.toNat)

/-! ## binary32 -/

/-- A dyadic number m * 2^e. -/
structure Dy where
  m : Int
  e : Int
  deriving DecidableEq, Repr

def Dy.ofInt (i : Int) : Dy := ⟨i, 0⟩

/-- Two dyadic numbers at one exponent. -/
def dyAlign (a b : Dy) : Int × Int × Int :=
  let e := min a.e b.e
  (a.m * 2 ^ (a.e - e).toNat, b.m * 2 ^ (b.e - e).toNat, e)

def dyAdd (a b : Dy) : Dy := let (x, y, e) := dyAlign a b; ⟨x + y, e⟩
def dySub (a b : Dy) : Dy := let (x, y, e) := dyAlign a b; ⟨x - y, e⟩
def dyMul (a b : Dy) : Dy := ⟨a.m * b.m, a.e + b.e⟩
def dyLe (a b : Dy) : Bool := let (x, y, _) := dyAlign a b; decide (x ≤ y)
def dyLt (a b : Dy) : Bool := let (x, y, _) := dyAlign a b; decide (x < y)
def dyEq (a b : Dy) : Bool := let (x, y, _) := dyAlign a b; decide (x = y)

/-- The floor of a dyadic number. -/
def dyFloor (a : Dy) : Int := if 0 ≤ a.e then a.m * 2 ^ a.e.toNat else a.m / (2 ^ (-a.e).toNat : Nat)

/-- n / 2^k rounded to nearest, ties to even. -/
def shiftRne (n k : Nat) : Nat :=
  let q := n / 2 ^ k
  let r := n % 2 ^ k
  if 2 * r > 2 ^ k || (2 * r == 2 ^ k && q % 2 == 1) then q + 1 else q

/-- A dyadic number rounded to the nearest integer, ties to even. -/
def dyRound (a : Dy) : Int :=
  if 0 ≤ a.e then a.m * 2 ^ a.e.toNat
  else
    let r := (shiftRne a.m.natAbs (-a.e).toNat : Int)
    if a.m < 0 then -r else r

/-- The bits of a binary32 number: sign, biased exponent, fraction. -/
def f32Sign (x : Nat) : Bool := bitSet x 31
def f32Exp (x : Nat) : Nat := bitsAt x 23 8
def f32Frac (x : Nat) : Nat := bitsAt x 0 23
def f32IsNan (x : Nat) : Bool := f32Exp x == 255 && f32Frac x != 0
def f32IsInf (x : Nat) : Bool := f32Exp x == 255 && f32Frac x == 0
def f32Nan : Nat := 0x7FC00000
def f32Inf (neg : Bool) : Nat := if neg then 0xFF800000 else 0x7F800000

/-- The exact value of a finite binary32 number. -/
def f32Val (x : Nat) : Dy :=
  let m : Nat := if f32Exp x = 0 then f32Frac x else f32Frac x + 2 ^ 23
  let e : Int := if f32Exp x = 0 then -149 else (f32Exp x : Int) - 150
  ⟨if f32Sign x then -(m : Int) else m, e⟩

/-- A dyadic number rounded once to a format of `p` significant bits, least exponent `emin` (of the last place)
and `ebits` exponent bits: sign, biased exponent and fraction packed; infinity on overflow. -/
def roundFloat (p ebits : Nat) (neg : Bool) (mag : Nat) (e : Int) : Nat :=
  let bias : Int := 2 ^ (ebits - 1) - 1
  let emin : Int := 2 - bias - p
  let sgn := if neg then 2 ^ (p - 1 + ebits) else 0
  if mag = 0 then sgn
  else
    let len : Int := (Nat.log2 mag : Int) + 1
    let lsb : Int := max emin (e + len - p)
    let q : Nat := if lsb ≤ e then mag * 2 ^ (e - lsb).toNat else shiftRne mag (lsb - e).toNat
    -- q < 2^p, or = 2^p after rounding up, which carries into the exponent by plain addition
    let be : Int := lsb - emin
    let packed : Nat := if q < 2 ^ (p - 1) then q else (be.toNat * 2 ^ (p - 1)) + q
    let top : Nat := (2 ^ ebits - 1) * 2 ^ (p - 1)
    sgn + min packed top

/-- A dyadic number rounded once to binary32. -/
def f32Round (a : Dy) (negZero : Bool := false) : Nat :=
  roundFloat 24 8 (if a.m = 0 then negZero else decide (a.m < 0)) a.m.natAbs a.e

/-- An integer as binary32. -/
def f32OfInt (i : Int) : Nat := f32Round ⟨i, 0⟩

def f32Neg (a : Nat) : Nat := if f32Sign a then a - 2 ^ 31 else a + 2 ^ 31

/-- binary32 addition. -/
def f32Add (a b : Nat) : Nat :=
  if f32IsNan a || f32IsNan b then f32Nan
  else if f32IsInf a then (if f32IsInf b && f32Sign a != f32Sign b then f32Nan else a)
  else if f32IsInf b then b
  else f32Round (dyAdd (f32Val a) (f32Val b)) (f32Sign a && f32Sign b)

def f32Sub (a b : Nat) : Nat := f32Add a (f32Neg b)

/-- binary32 multiplication. -/
def f32Mul (a b : Nat) : Nat :=
  let neg := f32Sign a != f32Sign b
  if f32IsNan a || f32IsNan b then f32Nan
  else if f32IsInf a || f32IsInf b then
    (if (f32Val a).m = 0 && !f32IsInf a || (f32Val b).m = 0 && !f32IsInf b then f32Nan else f32Inf neg)
  else f32Round (dyMul (f32Val a) (f32Val b)) neg

/-- a / b rounded once to binary32, for finite operands with b not 0 (a quotient digit beyond the last place
keeps the remainder, so that the one rounding is exact). -/
def f32DivDy (a b : Dy) : Nat :=
  let na := a.m.natAbs
  let nb := b.m.natAbs
  let k : Nat := Nat.log2 nb + 30
  let n := na * 2 ^ k
  let q := n / nb
  let sticky := if n % nb = 0 then 0 else 1
  roundFloat 24 8 (decide ((a.m < 0) ≠ (b.m < 0))) (2 * q + sticky) (a.e - b.e - k - 1)

/-- binary32 division. -/
def f32Div (a b : Nat) : Nat :=
  let neg := f32Sign a != f32Sign b
  if f32IsNan a || f32IsNan b then f32Nan
  else if f32IsInf a then (if f32IsInf b then f32Nan else f32Inf neg)
  else if f32IsInf b then roundFloat 24 8 neg 0 0
  else if (f32Val b).m = 0 then (if (f32Val a).m = 0 then f32Nan else f32Inf neg)
  else f32DivDy (f32Val a) (f32Val b)

/-- a ≤ b in exact arithmetic; false when either is a NaN. -/
def f32Le (a b : Nat) : Bool :=
  if f32IsNan a || f32IsNan b then false
  else if f32IsInf a then (f32Sign a || (f32IsInf b && !f32Sign b))
  else if f32IsInf b then !f32Sign b
  else dyLe (f32Val a) (f32Val b)

/-- The floor of a finite binary32 number; 0 for an infinity or a NaN. -/
def f32Floor (a : Nat) : Int := if f32Exp a = 255 then 0 else dyFloor (f32Val a)

end Sys2Proof.Machine
end

