-- ==== Sys2Proof/Machine/Fields.lean ====
section
/-! DEFINITION. The fields of the register map, one constant per field (a function of the index for register
arrays), from the register tables of the chapters of spec/: REGISTER_FIELD names the field FIELD of REGISTER. -/

namespace Sys2Proof.Machine.F

-- ARR: spec/11_matrix_array.md
def ARR_CTRL_ENABLE : Fld := ⟨0xe00000000, 0, 1⟩
def ARR_CTRL_FORCE_SHARED : Fld := ⟨0xe00000000, 1, 1⟩
def ARR_STATUS_PRESENT_COUNT : Fld := ⟨0xe00000008, 0, 7⟩
def ARR_STATUS_SHARED : Fld := ⟨0xe00000008, 7, 1⟩
def ARR_STATUS_RUNNING : Fld := ⟨0xe00000008, 8, 1⟩
def ARR_STATUS_CHAINS_OPEN : Fld := ⟨0xe00000008, 9, 7⟩
def ARR_PRESENT_MASK : Fld := ⟨0xe00000010, 0, 64⟩
def ARR_FENCE_REQ_MASK : Fld := ⟨0xe00000018, 0, 64⟩
def ARR_EVENT_DESC_ERR : Fld := ⟨0xe00000020, 0, 1⟩
def ARR_EVENT_ACC_OVF : Fld := ⟨0xe00000020, 1, 1⟩
def ARR_EVENT_STORE_SAT : Fld := ⟨0xe00000020, 2, 1⟩
def ARR_EVENT_NAN_OUT : Fld := ⟨0xe00000020, 3, 1⟩
def ARR_EVENT_ECC_CORR : Fld := ⟨0xe00000020, 4, 1⟩
def ARR_EVENT_ECC_UNCORR : Fld := ⟨0xe00000020, 5, 1⟩
def ARR_EVENT_LOCK_ERR : Fld := ⟨0xe00000020, 6, 1⟩
def ARR_LAST_ERR_TILE : Fld := ⟨0xe00000028, 0, 6⟩
def ARR_LAST_ERR_CAUSE : Fld := ⟨0xe00000028, 8, 4⟩
def ARR_LAST_ERR_CYCLE : Fld := ⟨0xe00000028, 32, 32⟩
def ARR_ECC_CORRECTED : Fld := ⟨0xe00000030, 0, 32⟩
def ARR_ECC_UNCORRECTED : Fld := ⟨0xe00000030, 32, 16⟩
def ARR_NUMERIC_STORE_SAT : Fld := ⟨0xe00000038, 0, 32⟩
def ARR_NUMERIC_NAN_OUT : Fld := ⟨0xe00000038, 32, 16⟩
def ARR_NUMERIC_ACC_OVF : Fld := ⟨0xe00000038, 48, 16⟩
def ARR_TILE_STAT_OPS (i : Nat) : Fld := ⟨0xe00000100 + 8 * i, 0, 32⟩
def ARR_TILE_STAT_BIST (i : Nat) : Fld := ⟨0xe00000100 + 8 * i, 32, 2⟩
def ARR_TILE_STAT_FENCED (i : Nat) : Fld := ⟨0xe00000100 + 8 * i, 34, 1⟩
def ARR_TILE_STAT_ECC_CORR (i : Nat) : Fld := ⟨0xe00000100 + 8 * i, 48, 16⟩
-- NGT: spec/13_memory.md
def NGT_CTRL_ACT_BANKS : Fld := ⟨0xe00010000, 0, 7⟩
def NGT_CTRL_HIST_BANKS : Fld := ⟨0xe00010000, 7, 7⟩
def NGT_CTRL_WEIGHT_BANKS : Fld := ⟨0xe00010000, 14, 7⟩
def NGT_CTRL_RETAIN_HIST : Fld := ⟨0xe00010000, 21, 1⟩
def NGT_CTRL_RETAIN_WEIGHT : Fld := ⟨0xe00010000, 22, 1⟩
def NGT_CTRL_SCRUB_EN : Fld := ⟨0xe00010000, 23, 1⟩
def NGT_CTRL_SCRUB_INTERVAL : Fld := ⟨0xe00010000, 32, 16⟩
def NGT_STATUS_BANKS_OK : Fld := ⟨0xe00010008, 0, 7⟩
def NGT_STATUS_READY : Fld := ⟨0xe00010008, 7, 1⟩
def NGT_EVENT_CORR : Fld := ⟨0xe00010010, 0, 1⟩
def NGT_EVENT_UNCORR : Fld := ⟨0xe00010010, 1, 1⟩
def NGT_EVENT_SCRUB_UNCORR : Fld := ⟨0xe00010010, 2, 1⟩
def NGT_EVENT_HOLE : Fld := ⟨0xe00010010, 3, 1⟩
def NGT_EVENT_LOCK_ERR : Fld := ⟨0xe00010010, 4, 1⟩
def NGT_FAIL_MASK : Fld := ⟨0xe00010018, 0, 64⟩
def NGT_LAST_ERR_BANK : Fld := ⟨0xe00010020, 0, 6⟩
def NGT_LAST_ERR_ROW : Fld := ⟨0xe00010020, 6, 16⟩
def NGT_LAST_ERR_KIND : Fld := ⟨0xe00010020, 22, 2⟩
def NGT_LAST_ERR_ADDR : Fld := ⟨0xe00010020, 24, 40⟩
def NGT_BANK_ECC_CORRECTED (i : Nat) : Fld := ⟨0xe00010100 + 8 * i, 0, 32⟩
def NGT_BANK_ECC_UNCORRECTED (i : Nat) : Fld := ⟨0xe00010100 + 8 * i, 32, 16⟩
-- CHK: spec/17_safety.md
def CHK_CTRL_ENABLE : Fld := ⟨0xe00040000, 0, 1⟩
def CHK_CTRL_GUARD_OUT : Fld := ⟨0xe00040000, 1, 1⟩
def CHK_CTRL_GUARD_Q : Fld := ⟨0xe00040000, 2, 10⟩
def CHK_CTRL_ENTRIES : Fld := ⟨0xe00040000, 12, 4⟩
def CHK_STATUS_RUNNING : Fld := ⟨0xe00040008, 0, 1⟩
def CHK_STATUS_PAIR_A_OK : Fld := ⟨0xe00040008, 1, 1⟩
def CHK_STATUS_PAIR_B_OK : Fld := ⟨0xe00040008, 2, 1⟩
def CHK_STATUS_SENT_READY : Fld := ⟨0xe00040008, 3, 1⟩
def CHK_STATUS_SENT_CYCLE : Fld := ⟨0xe00040008, 32, 32⟩
def CHK_EVENT_DISAGREE : Fld := ⟨0xe00040010, 0, 1⟩
def CHK_EVENT_UNCHECKED : Fld := ⟨0xe00040010, 1, 1⟩
def CHK_EVENT_GOLDEN_FAIL : Fld := ⟨0xe00040010, 2, 1⟩
def CHK_EVENT_LOCKSTEP_A : Fld := ⟨0xe00040010, 3, 1⟩
def CHK_EVENT_LOCKSTEP_B : Fld := ⟨0xe00040010, 4, 1⟩
def CHK_EVENT_ECC_CORR : Fld := ⟨0xe00040010, 5, 1⟩
def CHK_EVENT_ECC_UNCORR : Fld := ⟨0xe00040010, 6, 1⟩
def CHK_EVENT_LOCK_ERR : Fld := ⟨0xe00040010, 7, 1⟩
def CHK_TOL_NEAR_OCC_MARGIN : Fld := ⟨0xe00040018, 0, 8⟩
def CHK_TOL_NEAR_OCC_CELLS : Fld := ⟨0xe00040018, 8, 7⟩
def CHK_TOL_NEAR_EG_CONF_MIN : Fld := ⟨0xe00040018, 16, 4⟩
def CHK_TOL_NEAR_EG_CELLS : Fld := ⟨0xe00040018, 20, 7⟩
def CHK_TOL_FAR_OCC_MARGIN : Fld := ⟨0xe00040020, 0, 8⟩
def CHK_TOL_FAR_OCC_CELLS : Fld := ⟨0xe00040020, 8, 7⟩
def CHK_TOL_FAR_EG_CONF_MIN : Fld := ⟨0xe00040020, 16, 4⟩
def CHK_TOL_FAR_EG_CELLS : Fld := ⟨0xe00040020, 20, 7⟩
def CHK_LAST_TILE : Fld := ⟨0xe00040028, 0, 8⟩
def CHK_LAST_OCC_DIFF : Fld := ⟨0xe00040028, 8, 7⟩
def CHK_LAST_EG_DIFF : Fld := ⟨0xe00040028, 15, 7⟩
def CHK_LAST_CYCLE : Fld := ⟨0xe00040028, 32, 32⟩
def CHK_COUNTS_COMPARES : Fld := ⟨0xe00040030, 0, 32⟩
def CHK_COUNTS_DISAGREES : Fld := ⟨0xe00040030, 32, 16⟩
def CHK_COUNTS_UNCHECKED : Fld := ⟨0xe00040030, 48, 16⟩
def CHK_GOLDEN_BASE_BASE : Fld := ⟨0xe00040038, 16, 24⟩
def CHK_GOLDEN_LAST_ENTRY : Fld := ⟨0xe00040040, 0, 4⟩
def CHK_GOLDEN_LAST_FAILED : Fld := ⟨0xe00040040, 4, 1⟩
def CHK_GOLDEN_LAST_EXTRA : Fld := ⟨0xe00040040, 5, 1⟩
def CHK_GOLDEN_LAST_FIRST_FAIL : Fld := ⟨0xe00040040, 8, 24⟩
def CHK_GOLDEN_LAST_FRAME : Fld := ⟨0xe00040040, 32, 32⟩
-- PTS: spec/05_point_pipeline.md
def PTS_CTRL_ENABLE : Fld := ⟨0xe00050000, 0, 1⟩
def PTS_CTRL_TABLES : Fld := ⟨0xe00050000, 1, 3⟩
def PTS_CTRL_GOLDEN_EN : Fld := ⟨0xe00050000, 4, 1⟩
def PTS_CTRL_POSE_WAIT : Fld := ⟨0xe00050000, 8, 16⟩
def PTS_GEOM_GUARD_RADIUS : Fld := ⟨0xe00050008, 0, 16⟩
def PTS_GEOM_CLASS_WIDTH : Fld := ⟨0xe00050008, 16, 16⟩
def PTS_EVENT_OVERFLOW_POINTS : Fld := ⟨0xe00050010, 0, 1⟩
def PTS_EVENT_OVERFLOW_PILLARS : Fld := ⟨0xe00050010, 1, 1⟩
def PTS_EVENT_PROBE_LIMIT : Fld := ⟨0xe00050010, 2, 1⟩
def PTS_EVENT_POSE_PREDICTED : Fld := ⟨0xe00050010, 3, 1⟩
def PTS_EVENT_LATE_ITEM : Fld := ⟨0xe00050010, 4, 1⟩
def PTS_EVENT_REBUILD : Fld := ⟨0xe00050010, 5, 1⟩
def PTS_EVENT_TABLE_WAIT : Fld := ⟨0xe00050010, 6, 1⟩
def PTS_EVENT_ITEM_DISCARD : Fld := ⟨0xe00050010, 7, 1⟩
def PTS_EVENT_DT_SAT : Fld := ⟨0xe00050010, 8, 1⟩
def PTS_EVENT_SLICE_CLAMPED : Fld := ⟨0xe00050010, 9, 1⟩
def PTS_EVENT_LOCK_ERR : Fld := ⟨0xe00050010, 10, 1⟩
def PTS_STATUS_TABLES : Fld := ⟨0xe00050018, 0, 3⟩
def PTS_STATUS_BUSY : Fld := ⟨0xe00050018, 3, 4⟩
def PTS_STATUS_OPEN_SLOT : Fld := ⟨0xe00050018, 7, 2⟩
def PTS_STATUS_OPEN : Fld := ⟨0xe00050018, 9, 1⟩
def PTS_STATUS_WAITING : Fld := ⟨0xe00050018, 10, 1⟩
def PTS_STATUS_OPEN_PILLARS : Fld := ⟨0xe00050018, 11, 17⟩
def PTS_STAGE_BASE_BASE : Fld := ⟨0xe00050020, 16, 12⟩
def PTS_GOLDEN_BASE_BASE : Fld := ⟨0xe00050028, 16, 12⟩
def PTS_TABLE_BASE (i : Nat) : Fld := ⟨0xe00050030 + 8 * i, 16, 12⟩
def PTS_LAST_POINTS_IN : Fld := ⟨0xe00050050, 0, 24⟩
def PTS_LAST_POINTS_KEPT : Fld := ⟨0xe00050050, 24, 24⟩
def PTS_LAST_POINTS_OVERFLOW : Fld := ⟨0xe00050050, 48, 16⟩
def PTS_LAST_DROPS_NO_RETURN : Fld := ⟨0xe00050058, 0, 16⟩
def PTS_LAST_DROPS_OUTSIDE_GRID : Fld := ⟨0xe00050058, 16, 16⟩
def PTS_LAST_DROPS_OUTSIDE_Z : Fld := ⟨0xe00050058, 32, 16⟩
def PTS_LAST_DROPS_SUPERSEDED : Fld := ⟨0xe00050058, 48, 16⟩
def PTS_LAST_PILLARS_PILLARS : Fld := ⟨0xe00050060, 0, 17⟩
def PTS_LAST_PILLARS_GUARD : Fld := ⟨0xe00050060, 17, 17⟩
def PTS_LAST_PILLARS_REFUSED : Fld := ⟨0xe00050060, 34, 16⟩
def PTS_LAST_PILLARS_EVICTED : Fld := ⟨0xe00050060, 50, 14⟩
def PTS_LIDAR_CFG_ENABLE (i : Nat) : Fld := ⟨0xe00050100 + 32 * i, 0, 1⟩
def PTS_LIDAR_CFG_STREAM (i : Nat) : Fld := ⟨0xe00050100 + 32 * i, 1, 6⟩
def PTS_LIDAR_CFG_SLICES (i : Nat) : Fld := ⟨0xe00050100 + 32 * i, 8, 7⟩
def PTS_LIDAR_ROT_QW (i : Nat) : Fld := ⟨0xe00050108 + 32 * i, 0, 16⟩
def PTS_LIDAR_ROT_QX (i : Nat) : Fld := ⟨0xe00050108 + 32 * i, 16, 16⟩
def PTS_LIDAR_ROT_QY (i : Nat) : Fld := ⟨0xe00050108 + 32 * i, 32, 16⟩
def PTS_LIDAR_ROT_QZ (i : Nat) : Fld := ⟨0xe00050108 + 32 * i, 48, 16⟩
def PTS_LIDAR_TRANS_TX (i : Nat) : Fld := ⟨0xe00050110 + 32 * i, 0, 21⟩
def PTS_LIDAR_TRANS_TY (i : Nat) : Fld := ⟨0xe00050110 + 32 * i, 21, 21⟩
def PTS_LIDAR_TRANS_TZ (i : Nat) : Fld := ⟨0xe00050110 + 32 * i, 42, 21⟩
def PTS_LIDAR_STAT_SWEEPS (i : Nat) : Fld := ⟨0xe00050118 + 32 * i, 0, 32⟩
def PTS_LIDAR_STAT_CLAMPED (i : Nat) : Fld := ⟨0xe00050118 + 32 * i, 32, 16⟩
def PTS_LIDAR_STAT_PREDICTED (i : Nat) : Fld := ⟨0xe00050118 + 32 * i, 48, 16⟩
-- PTS: spec/06_sparse_convolution.md
def PTS_SPC_CTRL_LAYERS : Fld := ⟨0xe00050400, 0, 6⟩
def PTS_SPC_CTRL_TILE_BUFS : Fld := ⟨0xe00050400, 8, 11⟩
def PTS_SPC_CTRL_SITE_LIMIT : Fld := ⟨0xe00050400, 20, 19⟩
def PTS_SPC_EVENT_SITE_FULL : Fld := ⟨0xe00050408, 0, 1⟩
def PTS_SPC_EVENT_PROBE_LIMIT_S : Fld := ⟨0xe00050408, 1, 1⟩
def PTS_SPC_EVENT_DEGRADED : Fld := ⟨0xe00050408, 2, 1⟩
def PTS_SPC_EVENT_LOCK_ERR : Fld := ⟨0xe00050408, 3, 1⟩
def PTS_SPC_LAST_SITES_IN : Fld := ⟨0xe00050410, 0, 19⟩
def PTS_SPC_LAST_SITES_OUT : Fld := ⟨0xe00050410, 19, 19⟩
def PTS_SPC_LAST_REFUSED : Fld := ⟨0xe00050410, 38, 16⟩
def PTS_SPC_LAST_FULL_LAYER : Fld := ⟨0xe00050410, 54, 5⟩
def PTS_LAYER_BASE_BASE : Fld := ⟨0xe00050418, 16, 12⟩
def PTS_SITE_BASE_BASE : Fld := ⟨0xe00050420, 16, 12⟩
def PTS_FEAT_BASE0_BASE : Fld := ⟨0xe00050428, 16, 12⟩
def PTS_FEAT_BASE1_BASE : Fld := ⟨0xe00050430, 16, 12⟩
def PTS_CONV_STAGE_BASE_BASE : Fld := ⟨0xe00050438, 16, 12⟩
def PTS_TILE_BUF_BASE_BASE : Fld := ⟨0xe00050440, 16, 24⟩
def PTS_GOLDEN_SITE_BASE_BASE : Fld := ⟨0xe00050448, 16, 12⟩
-- LFT: spec/07_camera_lift.md
def LFT_CTRL_ENABLE : Fld := ⟨0xe00060000, 0, 1⟩
def LFT_CTRL_GOLDEN_EN : Fld := ⟨0xe00060000, 1, 1⟩
def LFT_CTRL_FRAME_SLOTS : Fld := ⟨0xe00060000, 2, 6⟩
def LFT_CTRL_C_LIFT : Fld := ⟨0xe00060000, 8, 2⟩
def LFT_CTRL_LIFT_SHIFT : Fld := ⟨0xe00060000, 10, 5⟩
def LFT_CTRL_LIFT_BUFS : Fld := ⟨0xe00060000, 16, 10⟩
def LFT_EVENT_FRAME_DISCARD : Fld := ⟨0xe00060008, 0, 1⟩
def LFT_EVENT_SLOT_SKIP : Fld := ⟨0xe00060008, 1, 1⟩
def LFT_EVENT_SHAPE_ERR : Fld := ⟨0xe00060008, 2, 1⟩
def LFT_EVENT_DEGRADED : Fld := ⟨0xe00060008, 3, 1⟩
def LFT_EVENT_CAL_APPLIED : Fld := ⟨0xe00060008, 4, 1⟩
def LFT_EVENT_LOCK_ERR : Fld := ⟨0xe00060008, 5, 1⟩
def LFT_STATUS_SLOTS : Fld := ⟨0xe00060010, 0, 6⟩
def LFT_STATUS_SLOTS_BUSY : Fld := ⟨0xe00060010, 6, 6⟩
def LFT_STATUS_BUFS_FREE : Fld := ⟨0xe00060010, 12, 10⟩
def LFT_STATUS_LIFTING : Fld := ⟨0xe00060010, 22, 1⟩
def LFT_COUNTS_WITHHELD : Fld := ⟨0xe00060018, 0, 16⟩
def LFT_COUNTS_INCOMPLETE : Fld := ⟨0xe00060018, 16, 16⟩
def LFT_COUNTS_SKIPPED : Fld := ⟨0xe00060018, 32, 16⟩
def LFT_COUNTS_SHAPE : Fld := ⟨0xe00060018, 48, 16⟩
def LFT_SLOT_BASE_BASE : Fld := ⟨0xe00060020, 16, 24⟩
def LFT_OUT_BASE_BASE : Fld := ⟨0xe00060028, 16, 24⟩
def LFT_GOLDEN_BASE_BASE : Fld := ⟨0xe00060030, 16, 24⟩
def LFT_CAM_CFG_ENABLE (i : Nat) : Fld := ⟨0xe00060100 + 32 * i, 0, 1⟩
def LFT_CAM_CFG_STREAM (i : Nat) : Fld := ⟨0xe00060100 + 32 * i, 1, 6⟩
def LFT_CAM_CFG_CFA (i : Nat) : Fld := ⟨0xe00060100 + 32 * i, 7, 3⟩
def LFT_CAM_CFG_BACKBONE (i : Nat) : Fld := ⟨0xe00060100 + 32 * i, 10, 2⟩
def LFT_CAM_CFG_WIDTH8 (i : Nat) : Fld := ⟨0xe00060100 + 32 * i, 12, 9⟩
def LFT_CAM_CFG_HEIGHT8 (i : Nat) : Fld := ⟨0xe00060100 + 32 * i, 21, 9⟩
def LFT_CAM_CFG_U_COLS (i : Nat) : Fld := ⟨0xe00060100 + 32 * i, 30, 9⟩
def LFT_CAM_CFG_D_BINS (i : Nat) : Fld := ⟨0xe00060100 + 32 * i, 39, 7⟩
def LFT_CAM_NORM_BLACK0 (i : Nat) : Fld := ⟨0xe00060108 + 32 * i, 0, 16⟩
def LFT_CAM_NORM_BLACK1 (i : Nat) : Fld := ⟨0xe00060108 + 32 * i, 16, 16⟩
def LFT_CAM_NORM_BLACK2 (i : Nat) : Fld := ⟨0xe00060108 + 32 * i, 32, 16⟩
def LFT_CAM_NORM_BLACK3 (i : Nat) : Fld := ⟨0xe00060108 + 32 * i, 48, 16⟩
def LFT_CAM_GAIN_GAIN0 (i : Nat) : Fld := ⟨0xe00060110 + 32 * i, 0, 16⟩
def LFT_CAM_GAIN_GAIN1 (i : Nat) : Fld := ⟨0xe00060110 + 32 * i, 16, 16⟩
def LFT_CAM_GAIN_GAIN2 (i : Nat) : Fld := ⟨0xe00060110 + 32 * i, 32, 16⟩
def LFT_CAM_GAIN_GAIN3 (i : Nat) : Fld := ⟨0xe00060110 + 32 * i, 48, 16⟩
def LFT_CAM_STAT_ACTIVE_BANK (i : Nat) : Fld := ⟨0xe00060118 + 32 * i, 0, 1⟩
def LFT_CAM_STAT_SHADOW_FREE (i : Nat) : Fld := ⟨0xe00060118 + 32 * i, 1, 1⟩
def LFT_CAM_STAT_CAL_GEN (i : Nat) : Fld := ⟨0xe00060118 + 32 * i, 2, 8⟩
def LFT_CAM_STAT_FRAMES (i : Nat) : Fld := ⟨0xe00060118 + 32 * i, 32, 32⟩
def LFT_TAB_BASE_BASE (i j : Nat) : Fld := ⟨0xe00060400 + 16 * i + 8 * j, 16, 24⟩
-- GLZ: spec/09_fusion_alignment.md
def GLZ_CTRL_ENABLE : Fld := ⟨0xe00070000, 0, 1⟩
def GLZ_CTRL_MODE : Fld := ⟨0xe00070000, 1, 1⟩
def GLZ_CTRL_STORE_CYCLES : Fld := ⟨0xe00070000, 2, 4⟩
def GLZ_CTRL_ISSUE_Q : Fld := ⟨0xe00070000, 6, 10⟩
def GLZ_TOV_PERIOD : Fld := ⟨0xe00070008, 0, 32⟩
def GLZ_TOV_PHASE : Fld := ⟨0xe00070008, 32, 32⟩
def GLZ_DEADLINE_DEADLINE : Fld := ⟨0xe00070010, 0, 24⟩
def GLZ_DEADLINE_REUSE_LEAD : Fld := ⟨0xe00070010, 24, 16⟩
def GLZ_LATEST_B_MIN : Fld := ⟨0xe00070018, 0, 24⟩
def GLZ_LATEST_B_MAX : Fld := ⟨0xe00070018, 24, 24⟩
def GLZ_LATEST_MARGIN : Fld := ⟨0xe00070018, 48, 16⟩
def GLZ_GRID_CELL_SIZE : Fld := ⟨0xe00070020, 0, 10⟩
def GLZ_GRID_OFFSET_X : Fld := ⟨0xe00070020, 16, 10⟩
def GLZ_GRID_OFFSET_Y : Fld := ⟨0xe00070020, 26, 10⟩
def GLZ_AMEND_WINDOW_WINDOW : Fld := ⟨0xe00070028, 0, 13⟩
def GLZ_EVENT_REUSE : Fld := ⟨0xe00070030, 0, 1⟩
def GLZ_EVENT_AMEND : Fld := ⟨0xe00070030, 1, 1⟩
def GLZ_EVENT_AMEND_LOST : Fld := ⟨0xe00070030, 2, 1⟩
def GLZ_EVENT_LATE : Fld := ⟨0xe00070030, 3, 1⟩
def GLZ_EVENT_STALE_POSE : Fld := ⟨0xe00070030, 4, 1⟩
def GLZ_EVENT_NO_SOURCE : Fld := ⟨0xe00070030, 5, 1⟩
def GLZ_EVENT_INPUT_ERR : Fld := ⟨0xe00070030, 6, 1⟩
def GLZ_EVENT_SAFE_ISSUE : Fld := ⟨0xe00070030, 7, 1⟩
def GLZ_EVENT_LOCK_ERR : Fld := ⟨0xe00070030, 8, 1⟩
def GLZ_STATUS_HEAD_CYCLE : Fld := ⟨0xe00070038, 0, 32⟩
def GLZ_STATUS_HEAD_ISSUED : Fld := ⟨0xe00070038, 32, 9⟩
def GLZ_STATUS_INSTANCES : Fld := ⟨0xe00070038, 41, 3⟩
def GLZ_STATUS_RUNNING : Fld := ⟨0xe00070038, 44, 1⟩
def GLZ_HEAD_TOV_TOV : Fld := ⟨0xe00070040, 0, 64⟩
def GLZ_SEQ_LAST_SEQ : Fld := ⟨0xe00070048, 0, 32⟩
def GLZ_SEQ_LAST_CYCLE : Fld := ⟨0xe00070048, 32, 32⟩
def GLZ_COUNTS_REUSED : Fld := ⟨0xe00070050, 0, 16⟩
def GLZ_COUNTS_AMENDED : Fld := ⟨0xe00070050, 16, 16⟩
def GLZ_COUNTS_AMEND_LOST : Fld := ⟨0xe00070050, 32, 16⟩
def GLZ_COUNTS_LATE : Fld := ⟨0xe00070050, 48, 16⟩
def GLZ_STORE_BASE_BASE : Fld := ⟨0xe00070058, 16, 24⟩
def GLZ_TRAJ_BASE_BASE : Fld := ⟨0xe00070060, 16, 24⟩
def GLZ_ORDER_BASE_BASE : Fld := ⟨0xe00070068, 16, 24⟩
def GLZ_BUDGET_BUDGET : Fld := ⟨0xe00070070, 0, 22⟩
def GLZ_LV_TIME_TIME (i : Nat) : Fld := ⟨0xe00070100 + 8 * i, 0, 64⟩
-- SLV: spec/08_solver.md
def SLV_CTRL_ENABLE : Fld := ⟨0xe00080000, 0, 1⟩
def SLV_CTRL_EGO_EN : Fld := ⟨0xe00080000, 1, 1⟩
def SLV_CTRL_BA_EN : Fld := ⟨0xe00080000, 2, 1⟩
def SLV_CTRL_ASM_EN : Fld := ⟨0xe00080000, 3, 1⟩
def SLV_CTRL_ITERS : Fld := ⟨0xe00080000, 4, 4⟩
def SLV_CTRL_WINDOW : Fld := ⟨0xe00080000, 8, 7⟩
def SLV_CTRL_ASM_BUDGET : Fld := ⟨0xe00080000, 16, 12⟩
def SLV_TIMING_NODE_PERIOD : Fld := ⟨0xe00080008, 0, 28⟩
def SLV_TIMING_EGO_INTAKE : Fld := ⟨0xe00080008, 28, 12⟩
def SLV_TIMING_EGO_DEADLINE : Fld := ⟨0xe00080008, 40, 14⟩
def SLV_TIMING_PREDICT_MAX : Fld := ⟨0xe00080008, 54, 10⟩
def SLV_PIVOT_PIVOT_MIN : Fld := ⟨0xe00080010, 0, 32⟩
def SLV_PIVOT_LAMBDA : Fld := ⟨0xe00080010, 32, 32⟩
def SLV_CONV_EGO_CONV : Fld := ⟨0xe00080018, 0, 16⟩
def SLV_CONV_BA_CONV : Fld := ⟨0xe00080018, 16, 16⟩
def SLV_CONV_BA_TIMEOUT : Fld := ⟨0xe00080018, 32, 16⟩
def SLV_EVENT_DEGRADED : Fld := ⟨0xe00080020, 0, 1⟩
def SLV_EVENT_MISSED : Fld := ⟨0xe00080020, 1, 1⟩
def SLV_EVENT_OVERFLOW : Fld := ⟨0xe00080020, 2, 1⟩
def SLV_EVENT_SAT : Fld := ⟨0xe00080020, 3, 1⟩
def SLV_EVENT_PIVOT_REG : Fld := ⟨0xe00080020, 4, 1⟩
def SLV_EVENT_WARM_DISCARDED : Fld := ⟨0xe00080020, 5, 1⟩
def SLV_EVENT_FALLBACK : Fld := ⟨0xe00080020, 6, 1⟩
def SLV_EVENT_LATE_MEAS : Fld := ⟨0xe00080020, 7, 1⟩
def SLV_EVENT_REG_DROP : Fld := ⟨0xe00080020, 8, 1⟩
def SLV_EVENT_BA_DONE : Fld := ⟨0xe00080020, 9, 1⟩
def SLV_EVENT_BA_TIMEOUT : Fld := ⟨0xe00080020, 10, 1⟩
def SLV_EVENT_BA_REJECT : Fld := ⟨0xe00080020, 11, 1⟩
def SLV_EVENT_NGT_ERR : Fld := ⟨0xe00080020, 12, 1⟩
def SLV_EVENT_LOCK_ERR : Fld := ⟨0xe00080020, 13, 1⟩
def SLV_STATUS_NODES : Fld := ⟨0xe00080028, 0, 7⟩
def SLV_STATUS_EGO_BUSY : Fld := ⟨0xe00080028, 7, 1⟩
def SLV_STATUS_BA_BUSY : Fld := ⟨0xe00080028, 8, 1⟩
def SLV_STATUS_RESIDENT : Fld := ⟨0xe00080028, 9, 1⟩
def SLV_SIG_EGO_SIG : Fld := ⟨0xe00080030, 0, 32⟩
def SLV_SIG_BA_SIG : Fld := ⟨0xe00080030, 32, 32⟩
def SLV_COUNTS_MISSES : Fld := ⟨0xe00080038, 0, 16⟩
def SLV_COUNTS_PIVOT_REGS : Fld := ⟨0xe00080038, 16, 16⟩
def SLV_COUNTS_SATS : Fld := ⟨0xe00080038, 32, 16⟩
def SLV_COUNTS_WARM_DISCARDS : Fld := ⟨0xe00080038, 48, 16⟩
def SLV_EGO_LAST_SEQ : Fld := ⟨0xe00080040, 0, 32⟩
def SLV_EGO_LAST_FLAGS : Fld := ⟨0xe00080040, 32, 16⟩
def SLV_EGO_LAST_DURATION : Fld := ⟨0xe00080040, 48, 16⟩
def SLV_BA_CMD_START : Fld := ⟨0xe00080048, 0, 1⟩
def SLV_BA_CMD_ABORT : Fld := ⟨0xe00080048, 1, 1⟩
def SLV_BA_CMD_CAMERAS : Fld := ⟨0xe00080048, 2, 4⟩
def SLV_BA_CMD_KEYFRAMES : Fld := ⟨0xe00080048, 6, 10⟩
def SLV_BA_CMD_LANDMARKS : Fld := ⟨0xe00080048, 16, 12⟩
def SLV_BA_CMD_OBSERVATIONS : Fld := ⟨0xe00080048, 28, 18⟩
def SLV_BA_CMD_WARM : Fld := ⟨0xe00080048, 46, 1⟩
def SLV_BA_STAT_RESULT : Fld := ⟨0xe00080050, 0, 2⟩
def SLV_BA_STAT_WARM_DISCARDED : Fld := ⟨0xe00080050, 2, 1⟩
def SLV_BA_STAT_PIVOT_REG : Fld := ⟨0xe00080050, 3, 1⟩
def SLV_BA_STAT_SAT : Fld := ⟨0xe00080050, 4, 1⟩
def SLV_BA_STAT_SKIPPED : Fld := ⟨0xe00080050, 5, 27⟩
def SLV_BA_STAT_RUNS : Fld := ⟨0xe00080050, 32, 32⟩
def SLV_PARAM_BASE_BASE : Fld := ⟨0xe00080058, 16, 24⟩
def SLV_SCALE_BASE_BASE : Fld := ⟨0xe00080060, 16, 24⟩
def SLV_WORK_BASE_BASE : Fld := ⟨0xe00080068, 16, 24⟩
def SLV_BA_BASE_BASE : Fld := ⟨0xe00080070, 16, 24⟩
def SLV_QUEUES_EGO_Q0 : Fld := ⟨0xe00080078, 0, 10⟩
def SLV_QUEUES_EGO_Q1 : Fld := ⟨0xe00080078, 10, 10⟩
def SLV_QUEUES_EGO_Q2 : Fld := ⟨0xe00080078, 20, 10⟩
def SLV_QUEUES_EGO_Q3 : Fld := ⟨0xe00080078, 30, 10⟩
def SLV_QUEUES_EGO_Q_EN : Fld := ⟨0xe00080078, 40, 4⟩
def SLV_QUEUES_REG_Q : Fld := ⟨0xe00080078, 44, 10⟩
def SLV_QUEUES_UPD_Q : Fld := ⟨0xe00080078, 54, 10⟩
-- LAY: spec/12_tensor_layout.md
def LAY_CTRL_ENABLE : Fld := ⟨0xe00090000, 0, 1⟩
def LAY_CTRL_OWNER_EN : Fld := ⟨0xe00090000, 1, 1⟩
def LAY_STATUS_RUNNING : Fld := ⟨0xe00090008, 0, 1⟩
def LAY_STATUS_CONTEXTS : Fld := ⟨0xe00090008, 1, 5⟩
def LAY_STATUS_TABLE_ENTRIES : Fld := ⟨0xe00090008, 6, 17⟩
def LAY_EVENT_BAD_FIELD : Fld := ⟨0xe00090010, 0, 1⟩
def LAY_EVENT_ALIGN : Fld := ⟨0xe00090010, 1, 1⟩
def LAY_EVENT_BAD_RANGE : Fld := ⟨0xe00090010, 2, 1⟩
def LAY_EVENT_ALIASING_WRITE : Fld := ⟨0xe00090010, 3, 1⟩
def LAY_EVENT_CTX_DENIED : Fld := ⟨0xe00090010, 4, 1⟩
def LAY_EVENT_GROUP_RANGE : Fld := ⟨0xe00090010, 5, 1⟩
def LAY_EVENT_XLATE_FAULT : Fld := ⟨0xe00090010, 6, 1⟩
def LAY_EVENT_PERM_FAULT : Fld := ⟨0xe00090010, 7, 1⟩
def LAY_EVENT_OWNER_FAULT : Fld := ⟨0xe00090010, 8, 1⟩
def LAY_EVENT_TABLE_ERR : Fld := ⟨0xe00090010, 9, 1⟩
def LAY_EVENT_CRC_ERR : Fld := ⟨0xe00090010, 10, 1⟩
def LAY_EVENT_LOCK_ERR : Fld := ⟨0xe00090010, 11, 1⟩
def LAY_LAST_ERR_UNIT : Fld := ⟨0xe00090018, 0, 7⟩
def LAY_LAST_ERR_CODE : Fld := ⟨0xe00090018, 8, 8⟩
def LAY_LAST_ERR_CTX : Fld := ⟨0xe00090018, 16, 4⟩
def LAY_LAST_ERR_CYCLE : Fld := ⟨0xe00090018, 32, 32⟩
def LAY_LAST_ADDR_ADDR : Fld := ⟨0xe00090020, 0, 40⟩
def LAY_COUNTS_DESCRIPTORS : Fld := ⟨0xe00090028, 0, 32⟩
def LAY_COUNTS_REJECTED : Fld := ⟨0xe00090028, 32, 16⟩
def LAY_COUNTS_FAULTS : Fld := ⟨0xe00090028, 48, 16⟩
def LAY_GROUP_BASE_BASE : Fld := ⟨0xe00090030, 16, 24⟩
def LAY_CTX_CFG_ENABLE (i : Nat) : Fld := ⟨0xe00090100 + 8 * i, 0, 1⟩
def LAY_CTX_CFG_ROOT (i : Nat) : Fld := ⟨0xe00090100 + 8 * i, 1, 16⟩
def LAY_ALLOW_MASK0 (i : Nat) : Fld := ⟨0xe00090200 + 8 * i, 0, 16⟩
def LAY_ALLOW_MASK1 (i : Nat) : Fld := ⟨0xe00090200 + 8 * i, 16, 16⟩
def LAY_ALLOW_MASK2 (i : Nat) : Fld := ⟨0xe00090200 + 8 * i, 32, 16⟩
def LAY_ALLOW_MASK3 (i : Nat) : Fld := ⟨0xe00090200 + 8 * i, 48, 16⟩
-- ATN: spec/14_temporal_attention.md
def ATN_CTRL_ENABLE : Fld := ⟨0xe000a0000, 0, 1⟩
def ATN_CTRL_GOLDEN_EN : Fld := ⟨0xe000a0000, 1, 1⟩
def ATN_CTRL_SCORE_SLOTS : Fld := ⟨0xe000a0000, 2, 5⟩
def ATN_CTRL_SLOT_SIZE : Fld := ⟨0xe000a0000, 16, 4⟩
def ATN_STATUS_RUNNING : Fld := ⟨0xe000a0008, 0, 1⟩
def ATN_STATUS_HEADS : Fld := ⟨0xe000a0008, 1, 7⟩
def ATN_STATUS_OPEN_STEPS : Fld := ⟨0xe000a0008, 8, 3⟩
def ATN_STATUS_SLOTS_BUSY : Fld := ⟨0xe000a0008, 11, 16⟩
def ATN_EVENT_BAD_FIELD : Fld := ⟨0xe000a0010, 0, 1⟩
def ATN_EVENT_LEN_RANGE : Fld := ⟨0xe000a0010, 1, 1⟩
def ATN_EVENT_ALIGN : Fld := ⟨0xe000a0010, 2, 1⟩
def ATN_EVENT_HISTORY : Fld := ⟨0xe000a0010, 3, 1⟩
def ATN_EVENT_CRC_ERR : Fld := ⟨0xe000a0010, 4, 1⟩
def ATN_EVENT_ECC : Fld := ⟨0xe000a0010, 5, 1⟩
def ATN_EVENT_EMPTY_ROW : Fld := ⟨0xe000a0010, 6, 1⟩
def ATN_EVENT_NAN_ROW : Fld := ⟨0xe000a0010, 7, 1⟩
def ATN_EVENT_REMAP : Fld := ⟨0xe000a0010, 8, 1⟩
def ATN_EVENT_LOCK_ERR : Fld := ⟨0xe000a0010, 9, 1⟩
def ATN_LAST_ERR_HEAD : Fld := ⟨0xe000a0018, 0, 6⟩
def ATN_LAST_ERR_CODE : Fld := ⟨0xe000a0018, 8, 8⟩
def ATN_LAST_ERR_SEQ : Fld := ⟨0xe000a0018, 16, 13⟩
def ATN_LAST_ERR_CYCLE : Fld := ⟨0xe000a0018, 32, 32⟩
def ATN_COUNTS_STEPS : Fld := ⟨0xe000a0020, 0, 32⟩
def ATN_COUNTS_REJECTED : Fld := ⟨0xe000a0020, 32, 16⟩
def ATN_COUNTS_FAULTS : Fld := ⟨0xe000a0020, 48, 16⟩
def ATN_ROWS_ROWS : Fld := ⟨0xe000a0028, 0, 32⟩
def ATN_ROWS_EMPTY_ROWS : Fld := ⟨0xe000a0028, 32, 16⟩
def ATN_ROWS_NAN_ROWS : Fld := ⟨0xe000a0028, 48, 16⟩
def ATN_CANDS_CANDIDATES : Fld := ⟨0xe000a0030, 0, 48⟩
def ATN_SCORE_BASE_BASE : Fld := ⟨0xe000a0038, 16, 24⟩
def ATN_GOLDEN_BASE_BASE : Fld := ⟨0xe000a0040, 16, 24⟩
def ATN_HEAD_CORE (j : Nat) : Fld := ⟨0xe000a0100 + 8 * (j / 8), 8 * (j % 8) + 0, 5⟩
def ATN_HEAD_VALID (j : Nat) : Fld := ⟨0xe000a0100 + 8 * (j / 8), 8 * (j % 8) + 5, 1⟩
def ATN_HEAD_REMAPPED (j : Nat) : Fld := ⟨0xe000a0100 + 8 * (j / 8), 8 * (j % 8) + 6, 1⟩
-- KVC: spec/15_history_cache.md
def KVC_CTRL_ENABLE : Fld := ⟨0xe000b0000, 0, 1⟩
def KVC_CTRL_SPILL_EN : Fld := ⟨0xe000b0000, 1, 1⟩
def KVC_CTRL_GOLDEN_EN : Fld := ⟨0xe000b0000, 2, 1⟩
def KVC_CTRL_SEQS : Fld := ⟨0xe000b0000, 8, 17⟩
def KVC_CTRL_SPILL_LOW : Fld := ⟨0xe000b0000, 32, 16⟩
def KVC_STATUS_RUNNING : Fld := ⟨0xe000b0008, 0, 1⟩
def KVC_STATUS_HELD : Fld := ⟨0xe000b0008, 1, 3⟩
def KVC_STATUS_SHADOW_READY : Fld := ⟨0xe000b0008, 4, 1⟩
def KVC_STATUS_STAGED : Fld := ⟨0xe000b0008, 5, 1⟩
def KVC_STATUS_PAGES_USED : Fld := ⟨0xe000b0008, 6, 16⟩
def KVC_STATUS_RESIDENT_FREE : Fld := ⟨0xe000b0008, 22, 15⟩
def KVC_GEN_CURRENT : Fld := ⟨0xe000b0010, 0, 32⟩
def KVC_GEN_OLDEST_HELD : Fld := ⟨0xe000b0010, 32, 32⟩
def KVC_EVENT_EDIT_REJECT : Fld := ⟨0xe000b0018, 0, 1⟩
def KVC_EVENT_HIST_FULL : Fld := ⟨0xe000b0018, 1, 1⟩
def KVC_EVENT_PAGES_FULL : Fld := ⟨0xe000b0018, 2, 1⟩
def KVC_EVENT_SEQ_FULL : Fld := ⟨0xe000b0018, 3, 1⟩
def KVC_EVENT_APPEND_LOST : Fld := ⟨0xe000b0018, 4, 1⟩
def KVC_EVENT_BAD_PAGE : Fld := ⟨0xe000b0018, 5, 1⟩
def KVC_EVENT_ECC : Fld := ⟨0xe000b0018, 6, 1⟩
def KVC_EVENT_LOCK_ERR : Fld := ⟨0xe000b0018, 7, 1⟩
def KVC_LAST_ERR_SEQ : Fld := ⟨0xe000b0020, 0, 16⟩
def KVC_LAST_ERR_PAGE : Fld := ⟨0xe000b0020, 16, 15⟩
def KVC_LAST_ERR_CAUSE : Fld := ⟨0xe000b0020, 32, 4⟩
def KVC_TRAFFIC_SPILLED : Fld := ⟨0xe000b0028, 0, 32⟩
def KVC_TRAFFIC_PREFETCHED : Fld := ⟨0xe000b0028, 32, 32⟩
def KVC_COUNTS_COW : Fld := ⟨0xe000b0030, 0, 16⟩
def KVC_COUNTS_APPEND_LOST : Fld := ⟨0xe000b0030, 16, 16⟩
def KVC_COUNTS_REJECTED : Fld := ⟨0xe000b0030, 32, 16⟩
def KVC_COUNTS_DDR_READS : Fld := ⟨0xe000b0030, 48, 16⟩
def KVC_PAGE_SEL_PAGE : Fld := ⟨0xe000b0038, 0, 15⟩
def KVC_PAGE_DATA0_DATA : Fld := ⟨0xe000b0040, 0, 64⟩
def KVC_PAGE_DATA1_DATA : Fld := ⟨0xe000b0048, 0, 64⟩
def KVC_DIR_BASE_BASE : Fld := ⟨0xe000b0050, 16, 24⟩
def KVC_LIST_BASE_BASE : Fld := ⟨0xe000b0058, 16, 24⟩
def KVC_SPILL_BASE_BASE : Fld := ⟨0xe000b0060, 16, 24⟩
def KVC_GOLDEN_BASE_BASE : Fld := ⟨0xe000b0068, 16, 24⟩
def KVC_SIZES_LIST_UNITS : Fld := ⟨0xe000b0070, 0, 16⟩
def KVC_SIZES_SPILL_UNITS : Fld := ⟨0xe000b0070, 16, 9⟩
def KVC_QUEUES_EDIT_Q : Fld := ⟨0xe000b0078, 0, 10⟩
def KVC_QUEUES_PAGE_Q : Fld := ⟨0xe000b0078, 10, 10⟩
-- TIM: spec/02_time_base.md
def TIM_CTRL_DOM0_EN : Fld := ⟨0xe000c0000, 0, 1⟩
def TIM_CTRL_DOM1_EN : Fld := ⟨0xe000c0000, 1, 1⟩
def TIM_CTRL_PREFERRED : Fld := ⟨0xe000c0000, 2, 1⟩
def TIM_CTRL_REVERT : Fld := ⟨0xe000c0000, 3, 1⟩
def TIM_CTRL_ACQ_TIMEOUT : Fld := ⟨0xe000c0000, 8, 8⟩
def TIM_CTRL_REVERT_HOLD : Fld := ⟨0xe000c0000, 16, 16⟩
def TIM_CTRL_HOLDOVER_LIMIT : Fld := ⟨0xe000c0000, 32, 16⟩
def TIM_STATUS_STATE : Fld := ⟨0xe000c0008, 0, 2⟩
def TIM_STATUS_ACTIVE_SLOT : Fld := ⟨0xe000c0008, 2, 1⟩
def TIM_STATUS_UNTRACEABLE : Fld := ⟨0xe000c0008, 3, 1⟩
def TIM_STATUS_ACTIVE_DOMAIN : Fld := ⟨0xe000c0008, 8, 8⟩
def TIM_STATUS_DOM0_QUALIFIED : Fld := ⟨0xe000c0008, 16, 1⟩
def TIM_STATUS_DOM1_QUALIFIED : Fld := ⟨0xe000c0008, 17, 1⟩
def TIM_STATUS_SENSOR_ASCAPABLE : Fld := ⟨0xe000c0008, 18, 6⟩
def TIM_NOW_NOW : Fld := ⟨0xe000c0010, 0, 64⟩
def TIM_DOM_CFG0_DOMAIN_NUMBER : Fld := ⟨0xe000c0018, 0, 7⟩
def TIM_DOM_CFG0_PORTS : Fld := ⟨0xe000c0018, 8, 2⟩
def TIM_DOM_CFG1_DOMAIN_NUMBER : Fld := ⟨0xe000c0020, 0, 7⟩
def TIM_DOM_CFG1_PORTS : Fld := ⟨0xe000c0020, 8, 2⟩
def TIM_DOM_STAT0_HEALTHY : Fld := ⟨0xe000c0028, 0, 1⟩
def TIM_DOM_STAT0_LOST : Fld := ⟨0xe000c0028, 1, 1⟩
def TIM_DOM_STAT0_ASCAPABLE_A : Fld := ⟨0xe000c0028, 2, 1⟩
def TIM_DOM_STAT0_ASCAPABLE_B : Fld := ⟨0xe000c0028, 3, 1⟩
def TIM_DOM_STAT0_SLAVE_PORT : Fld := ⟨0xe000c0028, 4, 1⟩
def TIM_DOM_STAT0_GM_CLOCK_CLASS : Fld := ⟨0xe000c0028, 8, 8⟩
def TIM_DOM_STAT0_GM_ID_LOW : Fld := ⟨0xe000c0028, 32, 32⟩
def TIM_DOM_STAT1_HEALTHY : Fld := ⟨0xe000c0030, 0, 1⟩
def TIM_DOM_STAT1_LOST : Fld := ⟨0xe000c0030, 1, 1⟩
def TIM_DOM_STAT1_ASCAPABLE_A : Fld := ⟨0xe000c0030, 2, 1⟩
def TIM_DOM_STAT1_ASCAPABLE_B : Fld := ⟨0xe000c0030, 3, 1⟩
def TIM_DOM_STAT1_SLAVE_PORT : Fld := ⟨0xe000c0030, 4, 1⟩
def TIM_DOM_STAT1_GM_CLOCK_CLASS : Fld := ⟨0xe000c0030, 8, 8⟩
def TIM_DOM_STAT1_GM_ID_LOW : Fld := ⟨0xe000c0030, 32, 32⟩
def TIM_DOM_OFFSET0_VALUE : Fld := ⟨0xe000c0038, 0, 64⟩
def TIM_DOM_OFFSET1_VALUE : Fld := ⟨0xe000c0040, 0, 64⟩
def TIM_SERVO_GAIN_KP : Fld := ⟨0xe000c0048, 0, 32⟩
def TIM_SERVO_GAIN_KI : Fld := ⟨0xe000c0048, 32, 32⟩
def TIM_FREQ_ADJ_SERVO_ADJ : Fld := ⟨0xe000c0050, 0, 32⟩
def TIM_FREQ_ADJ_SLEW_ADJ : Fld := ⟨0xe000c0050, 32, 32⟩
def TIM_SLEW_REMAIN_VALUE : Fld := ⟨0xe000c0058, 0, 64⟩
def TIM_DISC_THRESHOLD_THRESHOLD : Fld := ⟨0xe000c0060, 0, 40⟩
def TIM_QUALIFY_CLASS_LIMIT : Fld := ⟨0xe000c0068, 0, 8⟩
def TIM_QUALIFY_RESIDUAL_BOUND : Fld := ⟨0xe000c0068, 8, 16⟩
def TIM_QUALIFY_BAD_COUNT : Fld := ⟨0xe000c0068, 24, 4⟩
def TIM_QUALIFY_GOOD_COUNT : Fld := ⟨0xe000c0068, 28, 4⟩
def TIM_QUALIFY_SYNC_TIMEOUT : Fld := ⟨0xe000c0068, 32, 4⟩
def TIM_QUALIFY_ANNOUNCE_TIMEOUT : Fld := ⟨0xe000c0068, 36, 4⟩
def TIM_QUALIFY_PDELAY_LOG_INTERVAL : Fld := ⟨0xe000c0068, 40, 4⟩
def TIM_SENSOR_DOM_DOMAIN_NUMBER : Fld := ⟨0xe000c0070, 0, 7⟩
def TIM_SENSOR_DOM_PORT_EN : Fld := ⟨0xe000c0070, 8, 6⟩
def TIM_SENSOR_DOM_SYNC_LOG_INTERVAL : Fld := ⟨0xe000c0070, 16, 4⟩
def TIM_SENSOR_DOM_PDELAY_LOG_INTERVAL : Fld := ⟨0xe000c0070, 20, 4⟩
def TIM_SENSOR_DOM_PRIORITY1 : Fld := ⟨0xe000c0070, 24, 8⟩
def TIM_PORT_ASYM_INGRESS_ADJ (i : Nat) : Fld := ⟨0xe000c0078 + 8 * i, 0, 16⟩
def TIM_PORT_ASYM_EGRESS_ADJ (i : Nat) : Fld := ⟨0xe000c0078 + 8 * i, 16, 16⟩
def TIM_EVENT_DISCONTINUITY : Fld := ⟨0xe000c00b8, 0, 1⟩
def TIM_EVENT_SWITCH : Fld := ⟨0xe000c00b8, 1, 1⟩
def TIM_EVENT_HOLDOVER : Fld := ⟨0xe000c00b8, 2, 1⟩
def TIM_EVENT_UNTRACEABLE : Fld := ⟨0xe000c00b8, 3, 1⟩
def TIM_EVENT_ACQ_TIMEOUT : Fld := ⟨0xe000c00b8, 4, 1⟩
def TIM_EVENT_LAUNCH_LATE : Fld := ⟨0xe000c00b8, 5, 1⟩
def TIM_EVENT_LAUNCH_FULL : Fld := ⟨0xe000c00b8, 6, 1⟩
def TIM_EVENT_FOREIGN_MASTER : Fld := ⟨0xe000c00b8, 7, 1⟩
def TIM_EVENT_CLAMP : Fld := ⟨0xe000c00b8, 8, 1⟩
def TIM_EVENT_LOCK_ERR : Fld := ⟨0xe000c00b8, 9, 1⟩
def TIM_LAST_STEP_VALUE : Fld := ⟨0xe000c00c0, 0, 64⟩
def TIM_COUNTS_DISC_COUNT : Fld := ⟨0xe000c00c8, 0, 16⟩
def TIM_COUNTS_SWITCH_COUNT : Fld := ⟨0xe000c00c8, 16, 16⟩
def TIM_COUNTS_HOLDOVER_COUNT : Fld := ⟨0xe000c00c8, 32, 16⟩
def TIM_COUNTS_LATE_LAUNCH_COUNT : Fld := ⟨0xe000c00c8, 48, 16⟩
def TIM_TRIG_TIME_NUM (i : Nat) : Fld := ⟨0xe000c0100 + 16 * i, 0, 40⟩
def TIM_TRIG_TIME_DEN (i : Nat) : Fld := ⟨0xe000c0100 + 16 * i, 40, 8⟩
def TIM_TRIG_CTL_PHASE (i : Nat) : Fld := ⟨0xe000c0108 + 16 * i, 0, 30⟩
def TIM_TRIG_CTL_WIDTH (i : Nat) : Fld := ⟨0xe000c0108 + 16 * i, 30, 30⟩
def TIM_TRIG_CTL_ENABLE (i : Nat) : Fld := ⟨0xe000c0108 + 16 * i, 60, 1⟩
def TIM_TRIG_CTL_POLARITY (i : Nat) : Fld := ⟨0xe000c0108 + 16 * i, 61, 1⟩
-- ING: spec/03_sensor_ingest.md
def ING_CTRL_CSI_EN : Fld := ⟨0xe000d0000, 0, 12⟩
def ING_CTRL_ETH_EN : Fld := ⟨0xe000d0000, 12, 6⟩
def ING_CTRL_CAN_EN : Fld := ⟨0xe000d0000, 18, 4⟩
def ING_CTRL_SPI_EN : Fld := ⟨0xe000d0000, 22, 4⟩
def ING_CTRL_ENC_EN : Fld := ⟨0xe000d0000, 26, 8⟩
def ING_CTRL_GOLDEN_EN : Fld := ⟨0xe000d0000, 34, 1⟩
def ING_CTRL_DISC_GRACE : Fld := ⟨0xe000d0000, 40, 8⟩
def ING_EVENT_QUARANTINE : Fld := ⟨0xe000d0008, 0, 1⟩
def ING_EVENT_READMIT : Fld := ⟨0xe000d0008, 1, 1⟩
def ING_EVENT_ABSENT : Fld := ⟨0xe000d0008, 2, 1⟩
def ING_EVENT_FRAME_ERR : Fld := ⟨0xe000d0008, 3, 1⟩
def ING_EVENT_SWEEP_OVERFLOW : Fld := ⟨0xe000d0008, 4, 1⟩
def ING_EVENT_PACKET_DROP : Fld := ⟨0xe000d0008, 5, 1⟩
def ING_EVENT_CAN_ERR : Fld := ⟨0xe000d0008, 6, 1⟩
def ING_EVENT_IMU_OVERRUN : Fld := ⟨0xe000d0008, 7, 1⟩
def ING_EVENT_ENC_ERR : Fld := ⟨0xe000d0008, 8, 1⟩
def ING_EVENT_GOLDEN_ABORT : Fld := ⟨0xe000d0008, 9, 1⟩
def ING_EVENT_FOREIGN_GOLDEN : Fld := ⟨0xe000d0008, 10, 1⟩
def ING_EVENT_LOCK_ERR : Fld := ⟨0xe000d0008, 11, 1⟩
def ING_DROPS_CSI_UNMATCHED : Fld := ⟨0xe000d0010, 0, 16⟩
def ING_DROPS_ETH_UNMATCHED : Fld := ⟨0xe000d0010, 16, 16⟩
def ING_DROPS_CAN_UNMATCHED : Fld := ⟨0xe000d0010, 32, 16⟩
def ING_DROPS_MALFORMED : Fld := ⟨0xe000d0010, 48, 16⟩
def ING_ADMITTED_MASK : Fld := ⟨0xe000d0018, 0, 64⟩
def ING_QUARANTINED_MASK : Fld := ⟨0xe000d0020, 0, 64⟩
def ING_ABSENT_MASK : Fld := ⟨0xe000d0028, 0, 64⟩
def ING_CSI_CFG_LANES (i : Nat) : Fld := ⟨0xe000d0100 + 8 * i, 0, 3⟩
def ING_CSI_CFG_CONT_CLK (i : Nat) : Fld := ⟨0xe000d0100 + 8 * i, 3, 1⟩
def ING_CSI_CFG_DESKEW_EN (i : Nat) : Fld := ⟨0xe000d0100 + 8 * i, 4, 1⟩
def ING_CSI_CFG_GOLDEN_DT (i : Nat) : Fld := ⟨0xe000d0100 + 8 * i, 8, 6⟩
def ING_CSI_CFG_GOLDEN_VC (i : Nat) : Fld := ⟨0xe000d0100 + 8 * i, 14, 2⟩
def ING_ETH_CFG_IPV4_ADDR (i : Nat) : Fld := ⟨0xe000d0180 + 16 * i, 0, 32⟩
def ING_ETH_CFG_VLAN_ID (i : Nat) : Fld := ⟨0xe000d0180 + 16 * i, 32, 12⟩
def ING_ETH_CFG_VLAN_EN (i : Nat) : Fld := ⟨0xe000d0180 + 16 * i, 44, 1⟩
def ING_ETH_CFG_ROLE_MASTER (i : Nat) : Fld := ⟨0xe000d0180 + 16 * i, 45, 1⟩
def ING_ETH_MAC_MAC (i : Nat) : Fld := ⟨0xe000d0188 + 16 * i, 0, 48⟩
def ING_CAN_CFG_NOM_BRP (i : Nat) : Fld := ⟨0xe000d0200 + 8 * i, 0, 8⟩
def ING_CAN_CFG_NOM_TSEG1 (i : Nat) : Fld := ⟨0xe000d0200 + 8 * i, 8, 8⟩
def ING_CAN_CFG_NOM_TSEG2 (i : Nat) : Fld := ⟨0xe000d0200 + 8 * i, 16, 7⟩
def ING_CAN_CFG_NOM_SJW (i : Nat) : Fld := ⟨0xe000d0200 + 8 * i, 23, 7⟩
def ING_CAN_CFG_DATA_BRP (i : Nat) : Fld := ⟨0xe000d0200 + 8 * i, 30, 5⟩
def ING_CAN_CFG_DATA_TSEG1 (i : Nat) : Fld := ⟨0xe000d0200 + 8 * i, 35, 5⟩
def ING_CAN_CFG_DATA_TSEG2 (i : Nat) : Fld := ⟨0xe000d0200 + 8 * i, 40, 4⟩
def ING_CAN_CFG_DATA_SJW (i : Nat) : Fld := ⟨0xe000d0200 + 8 * i, 44, 4⟩
def ING_CAN_CFG_FD_EN (i : Nat) : Fld := ⟨0xe000d0200 + 8 * i, 48, 1⟩
def ING_CAN_CFG_LISTEN_ONLY (i : Nat) : Fld := ⟨0xe000d0200 + 8 * i, 49, 1⟩
def ING_CAN_CFG_TDC_EN (i : Nat) : Fld := ⟨0xe000d0200 + 8 * i, 50, 1⟩
def ING_CAN_CFG_TDC_OFFSET (i : Nat) : Fld := ⟨0xe000d0200 + 8 * i, 51, 7⟩
def ING_SPI_CS_CLK_DIV (i : Nat) : Fld := ⟨0xe000d0240 + 8 * i, 0, 8⟩
def ING_SPI_CS_MODE (i : Nat) : Fld := ⟨0xe000d0240 + 8 * i, 8, 2⟩
def ING_SPI_CS_DRDY_EDGE (i : Nat) : Fld := ⟨0xe000d0240 + 8 * i, 10, 1⟩
def ING_SPI_CS_CMD_LEN (i : Nat) : Fld := ⟨0xe000d0240 + 8 * i, 12, 3⟩
def ING_SPI_CS_READ_LEN (i : Nat) : Fld := ⟨0xe000d0240 + 8 * i, 15, 6⟩
def ING_SPI_CS_CMD (i : Nat) : Fld := ⟨0xe000d0240 + 8 * i, 24, 32⟩
def ING_ENC_CFG_MODE (i : Nat) : Fld := ⟨0xe000d0280 + 8 * i, 0, 2⟩
def ING_ENC_CFG_FILTER (i : Nat) : Fld := ⟨0xe000d0280 + 8 * i, 2, 8⟩
def ING_ENC_CFG_INTERVAL (i : Nat) : Fld := ⟨0xe000d0280 + 8 * i, 16, 16⟩
def ING_ENC_CFG_IDLE_TIMEOUT (i : Nat) : Fld := ⟨0xe000d0280 + 8 * i, 32, 16⟩
def ING_CAN_FLT_ID (i j : Nat) : Fld := ⟨0xe000d0400 + 256 * i + 8 * j, 0, 29⟩
def ING_CAN_FLT_IDE (i j : Nat) : Fld := ⟨0xe000d0400 + 256 * i + 8 * j, 29, 1⟩
def ING_CAN_FLT_ENABLE (i j : Nat) : Fld := ⟨0xe000d0400 + 256 * i + 8 * j, 30, 1⟩
def ING_CAN_FLT_MASK (i j : Nat) : Fld := ⟨0xe000d0400 + 256 * i + 8 * j, 32, 29⟩
def ING_TEMPLATE_DATA (i j : Nat) : Fld := ⟨0xe000d0800 + 64 * i + 8 * j, 0, 64⟩
def ING_STR_CFG_ENABLE (i : Nat) : Fld := ⟨0xe000d1000 + 32 * i, 0, 1⟩
def ING_STR_CFG_KIND (i : Nat) : Fld := ⟨0xe000d1000 + 32 * i, 1, 3⟩
def ING_STR_CFG_SOURCE (i : Nat) : Fld := ⟨0xe000d1000 + 32 * i, 4, 4⟩
def ING_STR_CFG_CHECK (i : Nat) : Fld := ⟨0xe000d1000 + 32 * i, 8, 2⟩
def ING_STR_CFG_STAMP_SRC (i : Nat) : Fld := ⟨0xe000d1000 + 32 * i, 10, 1⟩
def ING_STR_CFG_RECORD (i : Nat) : Fld := ⟨0xe000d1000 + 32 * i, 11, 1⟩
def ING_STR_CFG_TRIG (i : Nat) : Fld := ⟨0xe000d1000 + 32 * i, 12, 4⟩
def ING_STR_CFG_QUEUE (i : Nat) : Fld := ⟨0xe000d1000 + 32 * i, 16, 10⟩
def ING_STR_CFG_LATENCY (i : Nat) : Fld := ⟨0xe000d1000 + 32 * i, 32, 32⟩
def ING_STR_TIME_PERIOD (i : Nat) : Fld := ⟨0xe000d1008 + 32 * i, 0, 32⟩
def ING_STR_TIME_DRIFT_BOUND (i : Nat) : Fld := ⟨0xe000d1008 + 32 * i, 32, 24⟩
def ING_STR_TIME_ABSENT_PERIODS (i : Nat) : Fld := ⟨0xe000d1008 + 32 * i, 56, 8⟩
def ING_STR_MATCH_SEL_A (i : Nat) : Fld := ⟨0xe000d1010 + 32 * i, 0, 16⟩
def ING_STR_MATCH_SEL_B (i : Nat) : Fld := ⟨0xe000d1010 + 32 * i, 16, 32⟩
def ING_STR_MATCH_TEMPLATE (i : Nat) : Fld := ⟨0xe000d1010 + 32 * i, 48, 4⟩
def ING_STR_STAT_STATE (i : Nat) : Fld := ⟨0xe000d1018 + 32 * i, 0, 3⟩
def ING_STR_STAT_BAD_RUN (i : Nat) : Fld := ⟨0xe000d1018 + 32 * i, 8, 4⟩
def ING_STR_STAT_GOOD_RUN (i : Nat) : Fld := ⟨0xe000d1018 + 32 * i, 12, 5⟩
def ING_STR_STAT_SAMPLES (i : Nat) : Fld := ⟨0xe000d1018 + 32 * i, 32, 32⟩
def ING_STR_DRIFT_DRIFT_EST (i : Nat) : Fld := ⟨0xe000d1800 + 8 * i, 0, 32⟩
def ING_STR_DRIFT_WITHHELD (i : Nat) : Fld := ⟨0xe000d1800 + 8 * i, 32, 16⟩
def ING_STR_DRIFT_DROPS (i : Nat) : Fld := ⟨0xe000d1800 + 8 * i, 48, 16⟩
-- SQ: spec/04_stream_queues.md
def SQ_ACTIVE_ENABLED : Fld := ⟨0xe000e0000, 0, 11⟩
def SQ_EVENT_DROP : Fld := ⟨0xe000e0008, 0, 1⟩
def SQ_EVENT_PAR_ERR : Fld := ⟨0xe000e0008, 1, 1⟩
def SQ_EVENT_CRC_ERR : Fld := ⟨0xe000e0008, 2, 1⟩
def SQ_EVENT_PTR_MISMATCH : Fld := ⟨0xe000e0008, 3, 1⟩
def SQ_EVENT_MARK_ERR : Fld := ⟨0xe000e0008, 4, 1⟩
def SQ_EVENT_LOCK_ERR : Fld := ⟨0xe000e0008, 5, 1⟩
def SQ_LAST_ERR_QUEUE : Fld := ⟨0xe000e0010, 0, 10⟩
def SQ_LAST_ERR_CAUSE : Fld := ⟨0xe000e0010, 12, 4⟩
def SQ_QCFG_ENABLE (i : Nat) : Fld := ⟨0xe000e2000 + 8 * i, 0, 1⟩
def SQ_QCFG_PACKING (i : Nat) : Fld := ⟨0xe000e2000 + 8 * i, 1, 1⟩
def SQ_QCFG_SIZE (i : Nat) : Fld := ⟨0xe000e2000 + 8 * i, 8, 19⟩
def SQ_QCFG_READ_TIMEOUT (i : Nat) : Fld := ⟨0xe000e2000 + 8 * i, 32, 16⟩
def SQ_QSPILL_SPILL_BASE (i : Nat) : Fld := ⟨0xe000e4000 + 8 * i, 6, 22⟩
def SQ_QSTAT_USED (i : Nat) : Fld := ⟨0xe000e6000 + 8 * i, 0, 19⟩
def SQ_QSTAT_MARKS (i : Nat) : Fld := ⟨0xe000e6000 + 8 * i, 20, 4⟩
def SQ_QSTAT_PARTIAL (i : Nat) : Fld := ⟨0xe000e6000 + 8 * i, 24, 1⟩
def SQ_QSTAT_MARKER_OPEN (i : Nat) : Fld := ⟨0xe000e6000 + 8 * i, 25, 1⟩
def SQ_QSTAT_PENDING (i : Nat) : Fld := ⟨0xe000e6000 + 8 * i, 26, 1⟩
def SQ_QSTAT_ITEMS_IN (i : Nat) : Fld := ⟨0xe000e6000 + 8 * i, 32, 32⟩
def SQ_QDROP_DROPPED (i : Nat) : Fld := ⟨0xe000e8000 + 8 * i, 0, 32⟩
def SQ_QDROP_POISONED (i : Nat) : Fld := ⟨0xe000e8000 + 8 * i, 32, 16⟩
def SQ_QDROP_RESETS (i : Nat) : Fld := ⟨0xe000e8000 + 8 * i, 48, 8⟩
def SQ_QDROP_TIMEOUTS (i : Nat) : Fld := ⟨0xe000e8000 + 8 * i, 56, 8⟩
-- TGS: spec/10_operations_and_runahead.md
def TGS_CTRL_ENABLE : Fld := ⟨0xe000f0000, 0, 1⟩
def TGS_CTRL_RUNAHEAD_EN : Fld := ⟨0xe000f0000, 1, 1⟩
def TGS_CTRL_GRAPHS : Fld := ⟨0xe000f0000, 2, 3⟩
def TGS_CTRL_HEAD_MIN : Fld := ⟨0xe000f0000, 16, 17⟩
def TGS_STATUS_RUNNING : Fld := ⟨0xe000f0008, 0, 1⟩
def TGS_STATUS_HEAD_SLOT : Fld := ⟨0xe000f0008, 1, 2⟩
def TGS_STATUS_INSTANCES : Fld := ⟨0xe000f0008, 3, 3⟩
def TGS_STATUS_SLOT_STATE : Fld := ⟨0xe000f0008, 6, 8⟩
def TGS_STATUS_EPOCHS : Fld := ⟨0xe000f0008, 14, 16⟩
def TGS_OPS_IN_FLIGHT : Fld := ⟨0xe000f0010, 0, 18⟩
def TGS_OPS_HEAD : Fld := ⟨0xe000f0010, 18, 18⟩
def TGS_OPS_GOLDEN : Fld := ⟨0xe000f0010, 36, 12⟩
def TGS_EVENT_SQUASH : Fld := ⟨0xe000f0018, 0, 1⟩
def TGS_EVENT_BUDGET_OVERRUN : Fld := ⟨0xe000f0018, 1, 1⟩
def TGS_EVENT_GOLDEN_DEFER : Fld := ⟨0xe000f0018, 2, 1⟩
def TGS_EVENT_GOLDEN_TIMING : Fld := ⟨0xe000f0018, 3, 1⟩
def TGS_EVENT_OPS_FULL : Fld := ⟨0xe000f0018, 4, 1⟩
def TGS_EVENT_ERROR_TOKEN : Fld := ⟨0xe000f0018, 5, 1⟩
def TGS_EVENT_CRC_ERR : Fld := ⟨0xe000f0018, 6, 1⟩
def TGS_EVENT_LOCK_ERR : Fld := ⟨0xe000f0018, 7, 1⟩
def TGS_SQUASH_COUNT_COMMIT : Fld := ⟨0xe000f0020, 0, 16⟩
def TGS_SQUASH_COUNT_DISCONTINUITY : Fld := ⟨0xe000f0020, 16, 16⟩
def TGS_SQUASH_COUNT_QUARANTINE : Fld := ⟨0xe000f0020, 32, 16⟩
def TGS_SQUASH_COUNT_DISAGREE : Fld := ⟨0xe000f0020, 48, 16⟩
def TGS_LAST_SQUASH_CAUSES : Fld := ⟨0xe000f0028, 0, 4⟩
def TGS_LAST_SQUASH_SLOTS : Fld := ⟨0xe000f0028, 4, 4⟩
def TGS_LAST_SQUASH_DURATION : Fld := ⟨0xe000f0028, 8, 14⟩
def TGS_LAST_SQUASH_CYCLE : Fld := ⟨0xe000f0028, 32, 32⟩
def TGS_GOLDEN_POOL_USED : Fld := ⟨0xe000f0030, 0, 16⟩
def TGS_GOLDEN_MISS_RUN : Fld := ⟨0xe000f0030, 16, 2⟩
def TGS_GOLDEN_DEFERRED : Fld := ⟨0xe000f0030, 32, 16⟩
def TGS_GOLDEN_ABANDONED : Fld := ⟨0xe000f0030, 48, 16⟩
def TGS_DISCARDS_SQUASHED_OPS : Fld := ⟨0xe000f0038, 0, 32⟩
def TGS_DISCARDS_STALE : Fld := ⟨0xe000f0038, 32, 16⟩
def TGS_DISCARDS_SQUASH_EMPTY : Fld := ⟨0xe000f0038, 48, 16⟩
def TGS_DIR_BASE_BASE : Fld := ⟨0xe000f0040, 16, 24⟩
def TGS_LIST_BASE_BASE : Fld := ⟨0xe000f0048, 16, 24⟩
def TGS_EDGE_BASE_BASE : Fld := ⟨0xe000f0050, 16, 24⟩
def TGS_BUDGET_BUDGET (i : Nat) : Fld := ⟨0xe000f0100 + 8 * i, 0, 24⟩
def TGS_BUDGET_EN (i : Nat) : Fld := ⟨0xe000f0100 + 8 * i, 24, 1⟩
def TGS_BUDGET_OVERRUNS (i : Nat) : Fld := ⟨0xe000f0100 + 8 * i, 32, 16⟩
-- BML: spec/16_multi_device.md
def BML_CTRL_ENABLE : Fld := ⟨0xe00100000, 0, 1⟩
def BML_CTRL_DEVICE_ID : Fld := ⟨0xe00100000, 1, 6⟩
def BML_CTRL_RINGS : Fld := ⟨0xe00100000, 7, 3⟩
def BML_CTRL_RING_SIZE : Fld := ⟨0xe00100000, 10, 3⟩
def BML_CTRL_REMOTE_CTX : Fld := ⟨0xe00100000, 16, 4⟩
def BML_CTRL_RX_Q : Fld := ⟨0xe00100000, 20, 10⟩
def BML_EXPERT_TOPK : Fld := ⟨0xe00100008, 0, 1⟩
def BML_EXPERT_LAYERS : Fld := ⟨0xe00100008, 1, 3⟩
def BML_EXPERT_CAPACITY : Fld := ⟨0xe00100008, 8, 13⟩
def BML_EXPERT_HIDDEN64 : Fld := ⟨0xe00100008, 24, 5⟩
def BML_TIMING_COLLECT_CLOSE : Fld := ⟨0xe00100010, 0, 14⟩
def BML_TIMING_RETURN_WAIT : Fld := ⟨0xe00100010, 14, 12⟩
def BML_TIMING_LINK_TIMEOUT : Fld := ⟨0xe00100010, 26, 10⟩
def BML_TIMING_SKEW_LIMIT : Fld := ⟨0xe00100010, 36, 12⟩
def BML_TIMING_COPY_TIMEOUT : Fld := ⟨0xe00100010, 48, 16⟩
def BML_STATUS_RUNNING : Fld := ⟨0xe00100018, 0, 1⟩
def BML_STATUS_PORTS_UP : Fld := ⟨0xe00100018, 1, 6⟩
def BML_STATUS_FENCED : Fld := ⟨0xe00100018, 7, 6⟩
def BML_EVENT_LINK_DOWN : Fld := ⟨0xe00100020, 0, 1⟩
def BML_EVENT_RETRAIN : Fld := ⟨0xe00100020, 1, 1⟩
def BML_EVENT_LINK_FAILED : Fld := ⟨0xe00100020, 2, 1⟩
def BML_EVENT_UNREACHABLE : Fld := ⟨0xe00100020, 3, 1⟩
def BML_EVENT_E2E_ERR : Fld := ⟨0xe00100020, 4, 1⟩
def BML_EVENT_FALLBACK : Fld := ⟨0xe00100020, 5, 1⟩
def BML_EVENT_COPY_ERR : Fld := ⟨0xe00100020, 6, 1⟩
def BML_EVENT_TIME_SKEW : Fld := ⟨0xe00100020, 7, 1⟩
def BML_EVENT_LOCK_ERR : Fld := ⟨0xe00100020, 8, 1⟩
def BML_COUNTS_DISPATCHED : Fld := ⟨0xe00100028, 0, 32⟩
def BML_COUNTS_FALLBACKS : Fld := ⟨0xe00100028, 32, 16⟩
def BML_COUNTS_LATE_RESULT : Fld := ⟨0xe00100028, 48, 8⟩
def BML_COUNTS_E2E_ERR : Fld := ⟨0xe00100028, 56, 8⟩
def BML_MAP_BASE_BASE : Fld := ⟨0xe00100030, 16, 24⟩
def BML_BUF_BASE_BASE : Fld := ⟨0xe00100038, 16, 24⟩
def BML_PORT_CFG_ENABLE (i : Nat) : Fld := ⟨0xe00100100 + 8 * i, 0, 1⟩
def BML_PORT_CFG_PEER_ID (i : Nat) : Fld := ⟨0xe00100100 + 8 * i, 1, 6⟩
def BML_PORT_STAT_STATE (i : Nat) : Fld := ⟨0xe00100140 + 8 * i, 0, 3⟩
def BML_PORT_STAT_REASON (i : Nat) : Fld := ⟨0xe00100140 + 8 * i, 3, 2⟩
def BML_PORT_STAT_PEER (i : Nat) : Fld := ⟨0xe00100140 + 8 * i, 5, 6⟩
def BML_PORT_STAT_RETRAINS (i : Nat) : Fld := ⟨0xe00100140 + 8 * i, 16, 16⟩
def BML_PORT_STAT_CRC_ERR (i : Nat) : Fld := ⟨0xe00100140 + 8 * i, 32, 16⟩
def BML_PORT_STAT_REPLAYS (i : Nat) : Fld := ⟨0xe00100140 + 8 * i, 48, 16⟩
def BML_NBR_OFFSET_OFFSET (i : Nat) : Fld := ⟨0xe00100180 + 8 * i, 0, 64⟩
def BML_ROUTE_PRIMARY (i : Nat) : Fld := ⟨0xe00100400 + 8 * i, 0, 3⟩
def BML_ROUTE_ALT (i : Nat) : Fld := ⟨0xe00100400 + 8 * i, 3, 3⟩
-- DDR: spec/13_memory.md
def DDR_CTRL_CH_EN : Fld := ⟨0xe00110000, 0, 8⟩
def DDR_CTRL_RANKS : Fld := ⟨0xe00110000, 8, 1⟩
def DDR_CTRL_CAPACITY : Fld := ⟨0xe00110000, 9, 2⟩
def DDR_CTRL_X16 : Fld := ⟨0xe00110000, 11, 1⟩
def DDR_CTRL_REF2X : Fld := ⟨0xe00110000, 12, 1⟩
def DDR_CTRL_SCRUB_EN : Fld := ⟨0xe00110000, 13, 1⟩
def DDR_CTRL_CA_PARITY : Fld := ⟨0xe00110000, 14, 1⟩
def DDR_CTRL_SCRUB_INTERVAL : Fld := ⟨0xe00110000, 16, 16⟩
def DDR_STATUS_TRAINED : Fld := ⟨0xe00110008, 0, 8⟩
def DDR_STATUS_INSTALLED : Fld := ⟨0xe00110008, 8, 1⟩
def DDR_STATUS_SELF_REFRESH : Fld := ⟨0xe00110008, 9, 1⟩
def DDR_EVENT_CORR : Fld := ⟨0xe00110010, 0, 1⟩
def DDR_EVENT_UNCORR : Fld := ⟨0xe00110010, 1, 1⟩
def DDR_EVENT_TRAIN_FAIL : Fld := ⟨0xe00110010, 2, 1⟩
def DDR_EVENT_CA_PARITY : Fld := ⟨0xe00110010, 3, 1⟩
def DDR_EVENT_LOCK_ERR : Fld := ⟨0xe00110010, 4, 1⟩
def DDR_LAST_ERR_CHANNEL : Fld := ⟨0xe00110018, 0, 3⟩
def DDR_LAST_ERR_RANK : Fld := ⟨0xe00110018, 3, 1⟩
def DDR_LAST_ERR_KIND : Fld := ⟨0xe00110018, 4, 2⟩
def DDR_LAST_ERR_ADDR : Fld := ⟨0xe00110018, 24, 40⟩
def DDR_CHAN_CORRECTED (i : Nat) : Fld := ⟨0xe00110100 + 8 * i, 0, 32⟩
def DDR_CHAN_UNCORRECTED (i : Nat) : Fld := ⟨0xe00110100 + 8 * i, 32, 16⟩
def DDR_CHAN_CA_ERRORS (i : Nat) : Fld := ⟨0xe00110100 + 8 * i, 48, 8⟩
def DDR_CHAN_TRAIN_FAILED (i : Nat) : Fld := ⟨0xe00110100 + 8 * i, 56, 1⟩
-- SEC: spec/19_security.md
def SEC_STATUS_LIFECYCLE : Fld := ⟨0xe00120000, 0, 2⟩
def SEC_STATUS_IDENTITY : Fld := ⟨0xe00120000, 2, 1⟩
def SEC_STATUS_TAMPERED : Fld := ⟨0xe00120000, 3, 1⟩
def SEC_STATUS_IMAGE_LOADED : Fld := ⟨0xe00120000, 4, 1⟩
def SEC_STATUS_SLOT : Fld := ⟨0xe00120000, 5, 1⟩
def SEC_STATUS_DEBUG_SCOPES : Fld := ⟨0xe00120000, 6, 5⟩
def SEC_STATUS_DEBUG_DISABLE : Fld := ⟨0xe00120000, 11, 1⟩
def SEC_STATUS_ROLLBACK_BUSY : Fld := ⟨0xe00120000, 12, 1⟩
def SEC_STATUS_FUSE_SVN : Fld := ⟨0xe00120000, 16, 7⟩
def SEC_STATUS_CAK_SLOT : Fld := ⟨0xe00120000, 24, 3⟩
def SEC_STATUS_MKA_A : Fld := ⟨0xe00120000, 27, 1⟩
def SEC_STATUS_MKA_B : Fld := ⟨0xe00120000, 28, 1⟩
def SEC_EVENT_ROLLBACK_DONE : Fld := ⟨0xe00120008, 0, 1⟩
def SEC_EVENT_ROLLBACK_REFUSED : Fld := ⟨0xe00120008, 1, 1⟩
def SEC_EVENT_DEBUG_GRANT : Fld := ⟨0xe00120008, 2, 1⟩
def SEC_EVENT_DEBUG_FAIL : Fld := ⟨0xe00120008, 3, 1⟩
def SEC_EVENT_DEBUG_LOCKOUT : Fld := ⟨0xe00120008, 4, 1⟩
def SEC_EVENT_KEY_PROV_FULL : Fld := ⟨0xe00120008, 5, 1⟩
def SEC_EVENT_MACSEC_DROP : Fld := ⟨0xe00120008, 6, 1⟩
def SEC_EVENT_QUOTE_BUSY : Fld := ⟨0xe00120008, 7, 1⟩
def SEC_EVENT_LOCK_ERR : Fld := ⟨0xe00120008, 8, 1⟩
def SEC_ROLLBACK_CMD_ADVANCE : Fld := ⟨0xe00120010, 0, 1⟩
def SEC_ROLLBACK_CMD_TARGET : Fld := ⟨0xe00120010, 1, 7⟩
def SEC_MACSEC_EN_A : Fld := ⟨0xe00120018, 0, 1⟩
def SEC_MACSEC_EN_B : Fld := ⟨0xe00120018, 1, 1⟩
def SEC_MACSEC_CONF : Fld := ⟨0xe00120018, 2, 1⟩
def SEC_MACSEC_REQUIRE : Fld := ⟨0xe00120018, 3, 1⟩
def SEC_MACSEC_KS_PRIORITY : Fld := ⟨0xe00120018, 8, 8⟩
def SEC_MACSEC_REPLAY_WINDOW : Fld := ⟨0xe00120018, 16, 16⟩
def SEC_TAMPER_LAST_MONITOR : Fld := ⟨0xe00120020, 0, 4⟩
def SEC_TAMPER_LAST_RAIL : Fld := ⟨0xe00120020, 4, 4⟩
def SEC_TAMPER_TAMPERS : Fld := ⟨0xe00120020, 16, 16⟩
def SEC_COUNTS_QUOTES : Fld := ⟨0xe00120028, 0, 32⟩
def SEC_COUNTS_MACSEC_DROPS : Fld := ⟨0xe00120028, 32, 16⟩
def SEC_COUNTS_DEBUG_FAILS : Fld := ⟨0xe00120028, 48, 8⟩
def SEC_DEVID_PK_PK (i : Nat) : Fld := ⟨0xe00120040 + 8 * i, 0, 64⟩
def SEC_MEAS_MEAS (i : Nat) : Fld := ⟨0xe00120080 + 8 * i, 0, 64⟩
-- HST: spec/20_host_interface.md
def HST_CTRL_ENABLE_A : Fld := ⟨0xe00130000, 0, 1⟩
def HST_CTRL_ENABLE_B : Fld := ⟨0xe00130000, 1, 1⟩
def HST_CTRL_TC10_EN_A : Fld := ⟨0xe00130000, 2, 1⟩
def HST_CTRL_TC10_EN_B : Fld := ⟨0xe00130000, 3, 1⟩
def HST_CTRL_LINK_RESET_EN : Fld := ⟨0xe00130000, 4, 1⟩
def HST_CTRL_ETHERTYPE : Fld := ⟨0xe00130000, 16, 16⟩
def HST_STATUS_LINK_A : Fld := ⟨0xe00130008, 0, 1⟩
def HST_STATUS_LINK_B : Fld := ⟨0xe00130008, 1, 1⟩
def HST_STATUS_ASLEEP_A : Fld := ⟨0xe00130008, 2, 1⟩
def HST_STATUS_ASLEEP_B : Fld := ⟨0xe00130008, 3, 1⟩
def HST_STATUS_WAKE_SRC : Fld := ⟨0xe00130008, 4, 2⟩
def HST_STATUS_SHADOW_ITEMS : Fld := ⟨0xe00130008, 8, 7⟩
def HST_STATUS_PENDING : Fld := ⟨0xe00130008, 15, 3⟩
def HST_EVENT_LINK_DOWN : Fld := ⟨0xe00130010, 0, 1⟩
def HST_EVENT_RX_DROP : Fld := ⟨0xe00130010, 1, 1⟩
def HST_EVENT_MALFORMED : Fld := ⟨0xe00130010, 2, 1⟩
def HST_EVENT_TRAIN_LATE : Fld := ⟨0xe00130010, 3, 1⟩
def HST_EVENT_TILES_LOST : Fld := ⟨0xe00130010, 4, 1⟩
def HST_EVENT_FAILOVER : Fld := ⟨0xe00130010, 5, 1⟩
def HST_EVENT_LINK_RESET : Fld := ⟨0xe00130010, 6, 1⟩
def HST_EVENT_WAKE : Fld := ⟨0xe00130010, 7, 1⟩
def HST_EVENT_LOCK_ERR : Fld := ⟨0xe00130010, 8, 1⟩
def HST_TRAIN_TRAINS : Fld := ⟨0xe00130018, 0, 32⟩
def HST_TRAIN_LATE : Fld := ⟨0xe00130018, 32, 16⟩
def HST_TRAIN_DROPPED : Fld := ⟨0xe00130018, 48, 16⟩
def HST_PORT_CFG_ROLE_MASTER (i : Nat) : Fld := ⟨0xe00130020 + 8 * i, 0, 1⟩
def HST_PORT_CFG_VLAN_EN (i : Nat) : Fld := ⟨0xe00130020 + 8 * i, 1, 1⟩
def HST_PORT_CFG_LEARN_HOST (i : Nat) : Fld := ⟨0xe00130020 + 8 * i, 2, 1⟩
def HST_PORT_CFG_VLAN_ID (i : Nat) : Fld := ⟨0xe00130020 + 8 * i, 16, 12⟩
def HST_PORT_CFG_PCP (i : Nat) : Fld := ⟨0xe00130020 + 8 * i, 28, 3⟩
def HST_HOST_MAC_MAC (i : Nat) : Fld := ⟨0xe00130030 + 8 * i, 0, 48⟩
def HST_MAC_MAC (i : Nat) : Fld := ⟨0xe00130040 + 8 * i, 0, 48⟩
def HST_RX_ACCEPTED (i : Nat) : Fld := ⟨0xe00130050 + 8 * i, 0, 32⟩
def HST_RX_DROPPED (i : Nat) : Fld := ⟨0xe00130050 + 8 * i, 32, 16⟩
def HST_RX_MALFORMED (i : Nat) : Fld := ⟨0xe00130050 + 8 * i, 48, 16⟩
def HST_TX_FRAMES (i : Nat) : Fld := ⟨0xe00130060 + 8 * i, 0, 32⟩
def HST_TX_NOTICES (i : Nat) : Fld := ⟨0xe00130060 + 8 * i, 32, 16⟩
def HST_TX_TILES_LOST (i : Nat) : Fld := ⟨0xe00130060 + 8 * i, 48, 16⟩
def HST_SUB_CFG_ENABLE (i : Nat) : Fld := ⟨0xe00130100 + 64 * i, 0, 1⟩
def HST_SUB_CFG_PORT_MODE (i : Nat) : Fld := ⟨0xe00130100 + 64 * i, 1, 2⟩
def HST_SUB_CFG_DELIVERY (i : Nat) : Fld := ⟨0xe00130100 + 64 * i, 3, 1⟩
def HST_SUB_CFG_NOTICE (i : Nat) : Fld := ⟨0xe00130100 + 64 * i, 4, 1⟩
def HST_SUB_CFG_LATE (i : Nat) : Fld := ⟨0xe00130100 + 64 * i, 5, 1⟩
def HST_SUB_CFG_LAUNCH_OFFSET (i : Nat) : Fld := ⟨0xe00130100 + 64 * i, 16, 24⟩
def HST_SUB_MAC_MAC (i : Nat) : Fld := ⟨0xe00130108 + 64 * i, 0, 48⟩
def HST_SUB_MASK_TILES (i j : Nat) : Fld := ⟨0xe00130110 + 64 * i + 8 * j, 0, 64⟩
-- CLK: spec/21_clocks_power_reset.md
def CLK_SRC_PLL_EN : Fld := ⟨0xe00140000, 0, 4⟩
def CLK_SRC_SEL : Fld := ⟨0xe00140000, 8, 4⟩
def CLK_STATUS_READY : Fld := ⟨0xe00140008, 0, 4⟩
def CLK_STATUS_ACTIVE : Fld := ⟨0xe00140008, 4, 4⟩
def CLK_EN_EN : Fld := ⟨0xe00140010, 0, 25⟩
def CLK_SSC_CORE_DEPTH : Fld := ⟨0xe00140018, 0, 4⟩
def CLK_SSC_CORE_RATE : Fld := ⟨0xe00140018, 4, 6⟩
def CLK_SSC_FABRIC_DEPTH : Fld := ⟨0xe00140018, 10, 4⟩
def CLK_SSC_FABRIC_RATE : Fld := ⟨0xe00140018, 14, 6⟩
def CLK_EVENT_SWITCH_ERR : Fld := ⟨0xe00140020, 0, 1⟩
def CLK_EVENT_PLL_OFF_ERR : Fld := ⟨0xe00140020, 1, 1⟩
def CLK_EVENT_LOCK_ERR : Fld := ⟨0xe00140020, 2, 1⟩
-- PWR: spec/21_clocks_power_reset.md
def PWR_CTRL_TARGET : Fld := ⟨0xe00150000, 0, 2⟩
def PWR_CTRL_WAKE_ALARM_EN : Fld := ⟨0xe00150000, 2, 1⟩
def PWR_CTRL_WAKE_PIN_EN : Fld := ⟨0xe00150000, 3, 1⟩
def PWR_CTRL_STANDBY_EN : Fld := ⟨0xe00150000, 4, 1⟩
def PWR_STATUS_STATE : Fld := ⟨0xe00150008, 0, 2⟩
def PWR_STATUS_TRANSITION : Fld := ⟨0xe00150008, 2, 1⟩
def PWR_STATUS_WEIGHTS_SAVED : Fld := ⟨0xe00150008, 3, 1⟩
def PWR_STATUS_RETAIN_ALL : Fld := ⟨0xe00150008, 4, 1⟩
def PWR_STATUS_LAST_WAKE : Fld := ⟨0xe00150008, 5, 3⟩
def PWR_STATUS_DOZES : Fld := ⟨0xe00150008, 16, 16⟩
def PWR_WAKE_TIME_TIME : Fld := ⟨0xe00150010, 0, 64⟩
def PWR_SAVE_BASE_BASE : Fld := ⟨0xe00150018, 16, 24⟩
def PWR_DDR_SAVE_BASE_BASE : Fld := ⟨0xe00150020, 16, 24⟩
def PWR_EVENT_IDLE : Fld := ⟨0xe00150028, 0, 1⟩
def PWR_EVENT_DOZE : Fld := ⟨0xe00150028, 1, 1⟩
def PWR_EVENT_WAKE : Fld := ⟨0xe00150028, 2, 1⟩
def PWR_EVENT_SAVE_ERR : Fld := ⟨0xe00150028, 3, 1⟩
def PWR_EVENT_LOCK_ERR : Fld := ⟨0xe00150028, 4, 1⟩
-- RST: spec/21_clocks_power_reset.md
def RST_CTRL_WARM : Fld := ⟨0xe00160000, 0, 1⟩
def RST_CTRL_KEY : Fld := ⟨0xe00160000, 8, 8⟩
def RST_CAUSE_LAST : Fld := ⟨0xe00160008, 0, 3⟩
def RST_CAUSE_SEEN : Fld := ⟨0xe00160008, 3, 7⟩
def RST_CAUSE_SAFETY_SRC : Fld := ⟨0xe00160008, 10, 1⟩
def RST_CAUSE_LOSS_US : Fld := ⟨0xe00160008, 32, 32⟩
def RST_COUNTS_PIN : Fld := ⟨0xe00160010, 0, 16⟩
def RST_COUNTS_WATCHDOG : Fld := ⟨0xe00160010, 16, 16⟩
def RST_COUNTS_SAFETY : Fld := ⟨0xe00160010, 32, 16⟩
def RST_COUNTS_WARM : Fld := ⟨0xe00160010, 48, 16⟩
def RST_SCRATCH_DATA : Fld := ⟨0xe00160018, 0, 64⟩
-- OBS: spec/22_lifetime_and_long_run.md
def OBS_CTRL_ENABLE : Fld := ⟨0xe00170000, 0, 1⟩
def OBS_CTRL_USER_READ : Fld := ⟨0xe00170000, 1, 1⟩
def OBS_STATUS_RUNNING : Fld := ⟨0xe00170008, 0, 1⟩
def OBS_STATUS_ACTIVE : Fld := ⟨0xe00170008, 1, 9⟩
def OBS_EVENT_CNT_OVF : Fld := ⟨0xe00170010, 0, 1⟩
def OBS_EVENT_LOG_WRAP : Fld := ⟨0xe00170010, 1, 1⟩
def OBS_EVENT_LOG_DROP : Fld := ⟨0xe00170010, 2, 1⟩
def OBS_EVENT_RING_ERR : Fld := ⟨0xe00170010, 3, 1⟩
def OBS_EVENT_RING_WRAP : Fld := ⟨0xe00170010, 4, 1⟩
def OBS_EVENT_FRESH : Fld := ⟨0xe00170010, 5, 1⟩
def OBS_EVENT_LOCK_ERR : Fld := ⟨0xe00170010, 6, 1⟩
def OBS_LOG_NEXT : Fld := ⟨0xe00170018, 0, 32⟩
def OBS_LOG_READ_MARK : Fld := ⟨0xe00170018, 32, 32⟩
def OBS_LOG_COUNTS_OVERWRITTEN : Fld := ⟨0xe00170020, 0, 32⟩
def OBS_LOG_COUNTS_UNREAD_LOST : Fld := ⟨0xe00170020, 32, 16⟩
def OBS_LOG_COUNTS_DROPPED : Fld := ⟨0xe00170020, 48, 16⟩
def OBS_RING_SECTOR : Fld := ⟨0xe00170028, 0, 6⟩
def OBS_RING_SLOT : Fld := ⟨0xe00170028, 6, 13⟩
def OBS_RING_SUSPENDED : Fld := ⟨0xe00170028, 19, 1⟩
def OBS_RING_RESTORED : Fld := ⟨0xe00170028, 20, 1⟩
def OBS_RING_ERASING : Fld := ⟨0xe00170028, 21, 1⟩
def OBS_RING_SECTOR_SEQ : Fld := ⟨0xe00170028, 32, 32⟩
def OBS_ELOG_SEL_INDEX : Fld := ⟨0xe00170030, 0, 32⟩
def OBS_ELOG_SEL_HELD : Fld := ⟨0xe00170030, 32, 1⟩
def OBS_ELOG_DATA_DATA (i : Nat) : Fld := ⟨0xe00170038 + 8 * i, 0, 64⟩
def OBS_OVF_OVF (i : Nat) : Fld := ⟨0xe00170060 + 8 * i, 0, 64⟩
def OBS_FMAST_MASTER_LO (i : Nat) : Fld := ⟨0xe00170100 + 8 * i, 0, 7⟩
def OBS_FMAST_MASTER_HI (i : Nat) : Fld := ⟨0xe00170100 + 8 * i, 8, 7⟩
def OBS_FMAST_PRIV (i : Nat) : Fld := ⟨0xe00170100 + 8 * i, 16, 3⟩
def OBS_FMAST_MASTER_EN (i : Nat) : Fld := ⟨0xe00170100 + 8 * i, 19, 1⟩
def OBS_FMAST_ADDR_EN (i : Nat) : Fld := ⟨0xe00170100 + 8 * i, 20, 1⟩
def OBS_FBASE_ADDR (i : Nat) : Fld := ⟨0xe00170180 + 8 * i, 0, 40⟩
def OBS_FLIMIT_ADDR (i : Nat) : Fld := ⟨0xe00170200 + 8 * i, 0, 40⟩
def OBS_SEL_EN (i : Nat) : Fld := ⟨0xe00170800 + 8 * i, 0, 1⟩
def OBS_SEL_CLASS (i : Nat) : Fld := ⟨0xe00170800 + 8 * i, 1, 4⟩
def OBS_SEL_EVENTS (i : Nat) : Fld := ⟨0xe00170800 + 8 * i, 5, 8⟩
def OBS_SEL_FSET (i : Nat) : Fld := ⟨0xe00170800 + 8 * i, 13, 4⟩
def OBS_SEL_CHAIN (i : Nat) : Fld := ⟨0xe00170800 + 8 * i, 17, 1⟩
def OBS_CNT_COUNT (i : Nat) : Fld := ⟨0xe00171000 + 8 * i, 0, 48⟩
def OBS_LIFE_DATA (i : Nat) : Fld := ⟨0xe00174000 + 8 * i, 0, 64⟩
-- SAF: spec/17_safety.md
def SAF_CTRL_PROFILE_EN : Fld := ⟨0xe00180000, 0, 1⟩
def SAF_CTRL_GOLDEN_PER_CYCLE : Fld := ⟨0xe00180000, 1, 2⟩
def SAF_CTRL_CONTAIN_LIMIT : Fld := ⟨0xe00180000, 8, 8⟩
def SAF_CTRL_DEGRADE_HOLD : Fld := ⟨0xe00180000, 16, 16⟩
def SAF_TIMING_GOLDEN_SPAN_MAX : Fld := ⟨0xe00180008, 0, 15⟩
def SAF_TIMING_HB_TIMEOUT : Fld := ⟨0xe00180008, 16, 12⟩
def SAF_TIMING_HB_GRACE : Fld := ⟨0xe00180008, 28, 8⟩
def SAF_TIMING_NOTICE_REPEAT : Fld := ⟨0xe00180008, 36, 8⟩
def SAF_TIMING_WDT_TIMEOUT : Fld := ⟨0xe00180008, 44, 8⟩
def SAF_TIMING_GOLDEN_RUN_MAX : Fld := ⟨0xe00180008, 52, 12⟩
def SAF_STATE_STATE : Fld := ⟨0xe00180010, 0, 3⟩
def SAF_STATE_PREV : Fld := ⟨0xe00180010, 3, 3⟩
def SAF_STATE_CAUSE : Fld := ⟨0xe00180010, 8, 8⟩
def SAF_STATE_CLEAN : Fld := ⟨0xe00180010, 16, 2⟩
def SAF_STATE_EXTRA_PASSED : Fld := ⟨0xe00180010, 18, 1⟩
def SAF_STATE_SINCE_CYCLE : Fld := ⟨0xe00180010, 32, 32⟩
def SAF_EVENT_SUSPECT : Fld := ⟨0xe00180018, 0, 1⟩
def SAF_EVENT_SAFE : Fld := ⟨0xe00180018, 1, 1⟩
def SAF_EVENT_HALT : Fld := ⟨0xe00180018, 2, 1⟩
def SAF_EVENT_TRANSIENT : Fld := ⟨0xe00180018, 3, 1⟩
def SAF_EVENT_DEGRADE : Fld := ⟨0xe00180018, 4, 1⟩
def SAF_EVENT_CONTAIN : Fld := ⟨0xe00180018, 5, 1⟩
def SAF_EVENT_HB_LOST : Fld := ⟨0xe00180018, 6, 1⟩
def SAF_EVENT_GOLDEN_SPAN : Fld := ⟨0xe00180018, 7, 1⟩
def SAF_EVENT_LATENT_FAIL : Fld := ⟨0xe00180018, 8, 1⟩
def SAF_EVENT_LOCK_ERR : Fld := ⟨0xe00180018, 9, 1⟩
def SAF_LAST_FAULT_CAUSE : Fld := ⟨0xe00180020, 0, 8⟩
def SAF_LAST_FAULT_UNIT : Fld := ⟨0xe00180020, 8, 8⟩
def SAF_LAST_FAULT_IN_CYCLE : Fld := ⟨0xe00180020, 16, 16⟩
def SAF_LAST_FAULT_CYCLE : Fld := ⟨0xe00180020, 32, 32⟩
def SAF_DETECT_TIME_TIME : Fld := ⟨0xe00180028, 0, 64⟩
def SAF_GOLDEN_LAST_SPAN : Fld := ⟨0xe00180030, 0, 16⟩
def SAF_GOLDEN_MAX_SPAN : Fld := ⟨0xe00180030, 16, 16⟩
def SAF_GOLDEN_FAILED : Fld := ⟨0xe00180030, 32, 16⟩
def SAF_GOLDEN_ABANDONED_ARM : Fld := ⟨0xe00180030, 48, 16⟩
def SAF_LATENT_FAIL : Fld := ⟨0xe00180038, 0, 11⟩
def SAF_LATENT_DONE : Fld := ⟨0xe00180038, 16, 1⟩
def SAF_COUNTS_TRANSIENTS : Fld := ⟨0xe00180040, 0, 16⟩
def SAF_COUNTS_SUSPECTS : Fld := ⟨0xe00180040, 16, 16⟩
def SAF_COUNTS_DEGRADES : Fld := ⟨0xe00180040, 32, 16⟩
def SAF_COUNTS_CONTAINED : Fld := ⟨0xe00180040, 48, 16⟩
def SAF_HEARTBEAT_RECEIVED : Fld := ⟨0xe00180048, 0, 32⟩
def SAF_HEARTBEAT_LAST_GAP : Fld := ⟨0xe00180048, 32, 16⟩
def SAF_HEARTBEAT_MISSES : Fld := ⟨0xe00180048, 48, 16⟩

end Sys2Proof.Machine.F
end

