-- ==== Sys2Proof/Machine/RegMap.lean ====
section
/-! DEFINITION. The register map: every register of the windows of R5, with the bits of each access type of R7
and the reset value of R8, one row per register or register array, taken from the register tables of the
chapters of spec/. A row's address list is base + i * stride + j * stride2. Bits in no mask are reserved (R8). -/

namespace Sys2Proof.Machine

/-- One register or array of registers: where it is, which of its bits have which access type (R7), its reset value (R8). -/
structure RegRow where
  base    : Nat
  stride  : Nat
  count   : Nat
  stride2 : Nat
  count2  : Nat
  rw      : BitVec 64
  w1c     : BitVec 64
  wo      : BitVec 64
  rwl     : BitVec 64
  rws     : BitVec 64
  ro      : BitVec 64
  reset   : BitVec 64
  deriving DecidableEq, Repr

/-- Whether address `a` is one of the registers of the row. -/
def RegRow.covers (r : RegRow) (a : Nat) : Bool :=
  if a < r.base then false
  else
    let d := a - r.base
    if r.stride = 0 then d == 0
    else if d / r.stride < r.count then
      let e := d % r.stride
      if r.stride2 = 0 then e == 0
      else e % r.stride2 == 0 && decide (e / r.stride2 < r.count2)
    else false

/-- Registers of ARR (spec/11_matrix_array.md). -/
def arrRegs : List RegRow := [
  ⟨0xe00000000, 0, 1, 0, 1, 0x0, 0x0, 0x0, 0x3, 0x0, 0x0, 0x0⟩,  -- ARR_CTRL
  ⟨0xe00000008, 0, 1, 0, 1, 0x0, 0x0, 0x0, 0x0, 0x0, 0xffff, 0x0⟩,  -- ARR_STATUS
  ⟨0xe00000010, 0, 1, 0, 1, 0x0, 0x0, 0x0, 0x0, 0x0, 0xffffffffffffffff, 0x0⟩,  -- ARR_PRESENT
  ⟨0xe00000018, 0, 1, 0, 1, 0x0, 0x0, 0x0, 0xffffffffffffffff, 0x0, 0x0, 0x0⟩,  -- ARR_FENCE_REQ
  ⟨0xe00000020, 0, 1, 0, 1, 0x0, 0x7f, 0x0, 0x0, 0x0, 0x0, 0x0⟩,  -- ARR_EVENT
  ⟨0xe00000028, 0, 1, 0, 1, 0x0, 0x0, 0x0, 0x0, 0x0, 0xffffffff00000f3f, 0x0⟩,  -- ARR_LAST_ERR
  ⟨0xe00000030, 0, 1, 0, 1, 0x0, 0x0, 0x0, 0x0, 0x0, 0xffffffffffff, 0x0⟩,  -- ARR_ECC
  ⟨0xe00000038, 0, 1, 0, 1, 0x0, 0x0, 0x0, 0x0, 0x0, 0xffffffffffffffff, 0x0⟩,  -- ARR_NUMERIC
  ⟨0xe00000100, 8, 64, 0, 1, 0x0, 0x0, 0x0, 0x0, 0x0, 0xffff0007ffffffff, 0x0⟩ ]  -- ARR_TILE_STAT

/-- Registers of NGT (spec/13_memory.md). -/
def ngtRegs : List RegRow := [
  ⟨0xe00010000, 0, 1, 0, 1, 0x0, 0x0, 0x0, 0xffff00ffffff, 0x0, 0x0, 0x40000880810⟩,  -- NGT_CTRL
  ⟨0xe00010008, 0, 1, 0, 1, 0x0, 0x0, 0x0, 0x0, 0x0, 0xff, 0x0⟩,  -- NGT_STATUS
  ⟨0xe00010010, 0, 1, 0, 1, 0x0, 0x1f, 0x0, 0x0, 0x0, 0x0, 0x0⟩,  -- NGT_EVENT
  ⟨0xe00010018, 0, 1, 0, 1, 0x0, 0x0, 0x0, 0x0, 0x0, 0xffffffffffffffff, 0x0⟩,  -- NGT_FAIL
  ⟨0xe00010020, 0, 1, 0, 1, 0x0, 0x0, 0x0, 0x0, 0x0, 0xffffffffffffffff, 0x0⟩,  -- NGT_LAST_ERR
  ⟨0xe00010100, 8, 64, 0, 1, 0x0, 0x0, 0x0, 0x0, 0x0, 0xffffffffffff, 0x0⟩ ]  -- NGT_BANK_ECC

/-- PRC has no register of its own in the spec (window 0xE00020000). -/
def prcRegs : List RegRow := []

/-- AON has no register of its own in the spec (window 0xE00030000). -/
def aonRegs : List RegRow := []

/-- Registers of CHK (spec/17_safety.md). -/
def chkRegs : List RegRow := [
  ⟨0xe00040000, 0, 1, 0, 1, 0x0, 0x0, 0x0, 0xffff, 0x0, 0x0, 0x2⟩,  -- CHK_CTRL
  ⟨0xe00040008, 0, 1, 0, 1, 0x0, 0x0, 0x0, 0x0, 0x0, 0xffffffff0000000f, 0x0⟩,  -- CHK_STATUS
  ⟨0xe00040010, 0, 1, 0, 1, 0x0, 0xff, 0x0, 0x0, 0x0, 0x0, 0x0⟩,  -- CHK_EVENT
  ⟨0xe00040018, 0, 1, 0, 1, 0x0, 0x0, 0x0, 0x7ff7fff, 0x0, 0x0, 0x18023c⟩,  -- CHK_TOL_NEAR
  ⟨0xe00040020, 0, 1, 0, 1, 0x0, 0x0, 0x0, 0x7ff7fff, 0x0, 0x0, 0x280450⟩,  -- CHK_TOL_FAR
  ⟨0xe00040028, 0, 1, 0, 1, 0x0, 0x0, 0x0, 0x0, 0x0, 0xffffffff003fffff, 0x0⟩,  -- CHK_LAST
  ⟨0xe00040030, 0, 1, 0, 1, 0x0, 0x0, 0x0, 0x0, 0x0, 0xffffffffffffffff, 0x0⟩,  -- CHK_COUNTS
  ⟨0xe00040038, 0, 1, 0, 1, 0x0, 0x0, 0x0, 0xffffff0000, 0x0, 0x0, 0x0⟩,  -- CHK_GOLDEN_BASE
  ⟨0xe00040040, 0, 1, 0, 1, 0x0, 0x0, 0x0, 0x0, 0x0, 0xffffffffffffff3f, 0x0⟩ ]  -- CHK_GOLDEN_LAST

/-- Registers of PTS (spec/05_point_pipeline.md, spec/06_sparse_convolution.md). -/
def ptsRegs : List RegRow := [
  ⟨0xe00050000, 0, 1, 0, 1, 0x0, 0x0, 0x0, 0xffff1f, 0x0, 0x0, 0x3e804⟩,  -- PTS_CTRL
  ⟨0xe00050008, 0, 1, 0, 1, 0x0, 0x0, 0x0, 0xffffffff, 0x0, 0x0, 0xfa01f40⟩,  -- PTS_GEOM
  ⟨0xe00050010, 0, 1, 0, 1, 0x0, 0x7ff, 0x0, 0x0, 0x0, 0x0, 0x0⟩,  -- PTS_EVENT
  ⟨0xe00050018, 0, 1, 0, 1, 0x0, 0x0, 0x0, 0x0, 0x0, 0xfffffff, 0x0⟩,  -- PTS_STATUS
  ⟨0xe00050020, 0, 1, 0, 1, 0x0, 0x0, 0x0, 0xfff0000, 0x0, 0x0, 0x0⟩,  -- PTS_STAGE_BASE
  ⟨0xe00050028, 0, 1, 0, 1, 0x0, 0x0, 0x0, 0xfff0000, 0x0, 0x0, 0x0⟩,  -- PTS_GOLDEN_BASE
  ⟨0xe00050030, 8, 4, 0, 1, 0x0, 0x0, 0x0, 0xfff0000, 0x0, 0x0, 0x0⟩,  -- PTS_TABLE
  ⟨0xe00050050, 0, 1, 0, 1, 0x0, 0x0, 0x0, 0x0, 0x0, 0xffffffffffffffff, 0x0⟩,  -- PTS_LAST_POINTS
  ⟨0xe00050058, 0, 1, 0, 1, 0x0, 0x0, 0x0, 0x0, 0x0, 0xffffffffffffffff, 0x0⟩,  -- PTS_LAST_DROPS
  ⟨0xe00050060, 0, 1, 0, 1, 0x0, 0x0, 0x0, 0x0, 0x0, 0xffffffffffffffff, 0x0⟩,  -- PTS_LAST_PILLARS
  ⟨0xe00050100, 32, 16, 0, 1, 0x0, 0x0, 0x0, 0x7f7f, 0x0, 0x0, 0x4000⟩,  -- PTS_LIDAR_CFG
  ⟨0xe00050108, 32, 16, 0, 1, 0x0, 0x0, 0x0, 0xffffffffffffffff, 0x0, 0x0, 0x4000⟩,  -- PTS_LIDAR_ROT
  ⟨0xe00050110, 32, 16, 0, 1, 0x0, 0x0, 0x0, 0x7fffffffffffffff, 0x0, 0x0, 0x0⟩,  -- PTS_LIDAR_TRANS
  ⟨0xe00050118, 32, 16, 0, 1, 0x0, 0x0, 0x0, 0x0, 0x0, 0xffffffffffffffff, 0x0⟩,  -- PTS_LIDAR_STAT
  ⟨0xe00050400, 0, 1, 0, 1, 0x0, 0x0, 0x0, 0x7ffff7ff3f, 0x0, 0x0, 0x1000020001⟩,  -- PTS_SPC_CTRL
  ⟨0xe00050408, 0, 1, 0, 1, 0x0, 0xf, 0x0, 0x0, 0x0, 0x0, 0x0⟩,  -- PTS_SPC_EVENT
  ⟨0xe00050410, 0, 1, 0, 1, 0x0, 0x0, 0x0, 0x0, 0x0, 0x7ffffffffffffff, 0x0⟩,  -- PTS_SPC_LAST
  ⟨0xe00050418, 0, 1, 0, 1, 0x0, 0x0, 0x0, 0xfff0000, 0x0, 0x0, 0x0⟩,  -- PTS_LAYER_BASE
  ⟨0xe00050420, 0, 1, 0, 1, 0x0, 0x0, 0x0, 0xfff0000, 0x0, 0x0, 0x0⟩,  -- PTS_SITE_BASE
  ⟨0xe00050428, 0, 1, 0, 1, 0x0, 0x0, 0x0, 0xfff0000, 0x0, 0x0, 0x0⟩,  -- PTS_FEAT_BASE0
  ⟨0xe00050430, 0, 1, 0, 1, 0x0, 0x0, 0x0, 0xfff0000, 0x0, 0x0, 0x0⟩,  -- PTS_FEAT_BASE1
  ⟨0xe00050438, 0, 1, 0, 1, 0x0, 0x0, 0x0, 0xfff0000, 0x0, 0x0, 0x0⟩,  -- PTS_CONV_STAGE_BASE
  ⟨0xe00050440, 0, 1, 0, 1, 0x0, 0x0, 0x0, 0xffffff0000, 0x0, 0x0, 0x0⟩,  -- PTS_TILE_BUF_BASE
  ⟨0xe00050448, 0, 1, 0, 1, 0x0, 0x0, 0x0, 0xfff0000, 0x0, 0x0, 0x0⟩ ]  -- PTS_GOLDEN_SITE_BASE

/-- Registers of LFT (spec/07_camera_lift.md). -/
def lftRegs : List RegRow := [
  ⟨0xe00060000, 0, 1, 0, 1, 0x0, 0x0, 0x0, 0x3ff7fff, 0x0, 0x0, 0x402018⟩,  -- LFT_CTRL
  ⟨0xe00060008, 0, 1, 0, 1, 0x0, 0x3f, 0x0, 0x0, 0x0, 0x0, 0x0⟩,  -- LFT_EVENT
  ⟨0xe00060010, 0, 1, 0, 1, 0x0, 0x0, 0x0, 0x0, 0x0, 0x7fffff, 0x0⟩,  -- LFT_STATUS
  ⟨0xe00060018, 0, 1, 0, 1, 0x0, 0x0, 0x0, 0x0, 0x0, 0xffffffffffffffff, 0x0⟩,  -- LFT_COUNTS
  ⟨0xe00060020, 0, 1, 0, 1, 0x0, 0x0, 0x0, 0xffffff0000, 0x0, 0x0, 0x0⟩,  -- LFT_SLOT_BASE
  ⟨0xe00060028, 0, 1, 0, 1, 0x0, 0x0, 0x0, 0xffffff0000, 0x0, 0x0, 0x0⟩,  -- LFT_OUT_BASE
  ⟨0xe00060030, 0, 1, 0, 1, 0x0, 0x0, 0x0, 0xffffff0000, 0x0, 0x0, 0x0⟩,  -- LFT_GOLDEN_BASE
  ⟨0xe00060100, 32, 16, 0, 1, 0x0, 0x0, 0x0, 0x3fffffffffff, 0x0, 0x0, 0x203c21de0000⟩,  -- LFT_CAM_CFG
  ⟨0xe00060108, 32, 16, 0, 1, 0x0, 0x0, 0x0, 0xffffffffffffffff, 0x0, 0x0, 0x0⟩,  -- LFT_CAM_NORM
  ⟨0xe00060110, 32, 16, 0, 1, 0x0, 0x0, 0x0, 0xffffffffffffffff, 0x0, 0x0, 0x100010001000100⟩,  -- LFT_CAM_GAIN
  ⟨0xe00060118, 32, 16, 0, 1, 0x0, 0x0, 0x0, 0x0, 0x0, 0xffffffff000003ff, 0x2⟩,  -- LFT_CAM_STAT
  ⟨0xe00060400, 16, 16, 8, 2, 0x0, 0x0, 0x0, 0xffffff0000, 0x0, 0x0, 0x0⟩ ]  -- LFT_TAB_BASE

/-- Registers of GLZ (spec/09_fusion_alignment.md). -/
def glzRegs : List RegRow := [
  ⟨0xe00070000, 0, 1, 0, 1, 0x0, 0x0, 0x0, 0xffff, 0x0, 0x0, 0x8⟩,  -- GLZ_CTRL
  ⟨0xe00070008, 0, 1, 0, 1, 0x0, 0x0, 0x0, 0xffffffffffffffff, 0x0, 0x0, 0x989680⟩,  -- GLZ_TOV
  ⟨0xe00070010, 0, 1, 0, 1, 0x0, 0x0, 0x0, 0xffffffffff, 0x0, 0x0, 0x12c002710⟩,  -- GLZ_DEADLINE
  ⟨0xe00070018, 0, 1, 0, 1, 0x0, 0x0, 0x0, 0xffffffffffffffff, 0x0, 0x0, 0x1f4002710000fa0⟩,  -- GLZ_LATEST
  ⟨0xe00070020, 0, 1, 0, 1, 0x0, 0x0, 0x0, 0xfffff03ff, 0x0, 0x0, 0xc8⟩,  -- GLZ_GRID
  ⟨0xe00070028, 0, 1, 0, 1, 0x0, 0x0, 0x0, 0x1fff, 0x0, 0x0, 0x0⟩,  -- GLZ_AMEND_WINDOW
  ⟨0xe00070030, 0, 1, 0, 1, 0x0, 0x1ff, 0x0, 0x0, 0x0, 0x0, 0x0⟩,  -- GLZ_EVENT
  ⟨0xe00070038, 0, 1, 0, 1, 0x0, 0x0, 0x0, 0x0, 0x0, 0x1fffffffffff, 0x0⟩,  -- GLZ_STATUS
  ⟨0xe00070040, 0, 1, 0, 1, 0x0, 0x0, 0x0, 0x0, 0x0, 0xffffffffffffffff, 0x0⟩,  -- GLZ_HEAD_TOV
  ⟨0xe00070048, 0, 1, 0, 1, 0x0, 0x0, 0x0, 0x0, 0x0, 0xffffffffffffffff, 0x0⟩,  -- GLZ_SEQ
  ⟨0xe00070050, 0, 1, 0, 1, 0x0, 0x0, 0x0, 0x0, 0x0, 0xffffffffffffffff, 0x0⟩,  -- GLZ_COUNTS
  ⟨0xe00070058, 0, 1, 0, 1, 0x0, 0x0, 0x0, 0xffffff0000, 0x0, 0x0, 0x0⟩,  -- GLZ_STORE_BASE
  ⟨0xe00070060, 0, 1, 0, 1, 0x0, 0x0, 0x0, 0xffffff0000, 0x0, 0x0, 0x0⟩,  -- GLZ_TRAJ_BASE
  ⟨0xe00070068, 0, 1, 0, 1, 0x0, 0x0, 0x0, 0xffffff0000, 0x0, 0x0, 0x0⟩,  -- GLZ_ORDER_BASE
  ⟨0xe00070070, 0, 1, 0, 1, 0x0, 0x0, 0x0, 0x0, 0x0, 0x3fffff, 0x0⟩,  -- GLZ_BUDGET
  ⟨0xe00070100, 8, 64, 0, 1, 0x0, 0x0, 0x0, 0x0, 0x0, 0xffffffffffffffff, 0xffffffffffffffff⟩ ]  -- GLZ_LV_TIME

/-- Registers of SLV (spec/08_solver.md). -/
def slvRegs : List RegRow := [
  ⟨0xe00080000, 0, 1, 0, 1, 0x0, 0x0, 0x0, 0xfff7fff, 0x0, 0x0, 0x644038⟩,  -- SLV_CTRL
  ⟨0xe00080008, 0, 1, 0, 1, 0x0, 0x0, 0x0, 0xffffffffffffffff, 0x0, 0x0, 0xc8096014003d090⟩,  -- SLV_TIMING
  ⟨0xe00080010, 0, 1, 0, 1, 0x0, 0x0, 0x0, 0xffffffffffffffff, 0x0, 0x0, 0x100000000010⟩,  -- SLV_PIVOT
  ⟨0xe00080018, 0, 1, 0, 1, 0x0, 0x0, 0x0, 0xffffffffffff, 0x0, 0x0, 0x7d000040004⟩,  -- SLV_CONV
  ⟨0xe00080020, 0, 1, 0, 1, 0x0, 0x3fff, 0x0, 0x0, 0x0, 0x0, 0x0⟩,  -- SLV_EVENT
  ⟨0xe00080028, 0, 1, 0, 1, 0x0, 0x0, 0x0, 0x0, 0x0, 0x3ff, 0x0⟩,  -- SLV_STATUS
  ⟨0xe00080030, 0, 1, 0, 1, 0x0, 0x0, 0x0, 0x0, 0x0, 0xffffffffffffffff, 0x0⟩,  -- SLV_SIG
  ⟨0xe00080038, 0, 1, 0, 1, 0x0, 0x0, 0x0, 0x0, 0x0, 0xffffffffffffffff, 0x0⟩,  -- SLV_COUNTS
  ⟨0xe00080040, 0, 1, 0, 1, 0x0, 0x0, 0x0, 0x0, 0x0, 0xffffffffffffffff, 0x0⟩,  -- SLV_EGO_LAST
  ⟨0xe00080048, 0, 1, 0, 1, 0x7ffffffffffc, 0x0, 0x3, 0x0, 0x0, 0x0, 0x0⟩,  -- SLV_BA_CMD
  ⟨0xe00080050, 0, 1, 0, 1, 0x0, 0x0, 0x0, 0x0, 0x0, 0xffffffffffffffff, 0x0⟩,  -- SLV_BA_STAT
  ⟨0xe00080058, 0, 1, 0, 1, 0x0, 0x0, 0x0, 0xffffff0000, 0x0, 0x0, 0x0⟩,  -- SLV_PARAM_BASE
  ⟨0xe00080060, 0, 1, 0, 1, 0x0, 0x0, 0x0, 0xffffff0000, 0x0, 0x0, 0x0⟩,  -- SLV_SCALE_BASE
  ⟨0xe00080068, 0, 1, 0, 1, 0x0, 0x0, 0x0, 0xffffff0000, 0x0, 0x0, 0x0⟩,  -- SLV_WORK_BASE
  ⟨0xe00080070, 0, 1, 0, 1, 0x0, 0x0, 0x0, 0xffffff0000, 0x0, 0x0, 0x0⟩,  -- SLV_BA_BASE
  ⟨0xe00080078, 0, 1, 0, 1, 0x0, 0x0, 0x0, 0xffffffffffffffff, 0x0, 0x0, 0x0⟩ ]  -- SLV_QUEUES

/-- Registers of LAY (spec/12_tensor_layout.md). -/
def layRegs : List RegRow := [
  ⟨0xe00090000, 0, 1, 0, 1, 0x0, 0x0, 0x0, 0x3, 0x0, 0x0, 0x0⟩,  -- LAY_CTRL
  ⟨0xe00090008, 0, 1, 0, 1, 0x0, 0x0, 0x0, 0x0, 0x0, 0x7fffff, 0x0⟩,  -- LAY_STATUS
  ⟨0xe00090010, 0, 1, 0, 1, 0x0, 0xfff, 0x0, 0x0, 0x0, 0x0, 0x0⟩,  -- LAY_EVENT
  ⟨0xe00090018, 0, 1, 0, 1, 0x0, 0x0, 0x0, 0x0, 0x0, 0xffffffff000fff7f, 0x0⟩,  -- LAY_LAST_ERR
  ⟨0xe00090020, 0, 1, 0, 1, 0x0, 0x0, 0x0, 0x0, 0x0, 0xffffffffff, 0x0⟩,  -- LAY_LAST_ADDR
  ⟨0xe00090028, 0, 1, 0, 1, 0x0, 0x0, 0x0, 0x0, 0x0, 0xffffffffffffffff, 0x0⟩,  -- LAY_COUNTS
  ⟨0xe00090030, 0, 1, 0, 1, 0x0, 0x0, 0x0, 0xffffff0000, 0x0, 0x0, 0x0⟩,  -- LAY_GROUP_BASE
  ⟨0xe00090100, 8, 16, 0, 1, 0x0, 0x0, 0x0, 0x1ffff, 0x0, 0x0, 0x0⟩,  -- LAY_CTX_CFG
  ⟨0xe00090200, 8, 32, 0, 1, 0x0, 0x0, 0x0, 0xffffffffffffffff, 0x0, 0x0, 0x0⟩ ]  -- LAY_ALLOW

/-- Registers of ATN (spec/14_temporal_attention.md). -/
def atnRegs : List RegRow := [
  ⟨0xe000a0000, 0, 1, 0, 1, 0x0, 0x0, 0x0, 0xf007f, 0x0, 0x0, 0x70020⟩,  -- ATN_CTRL
  ⟨0xe000a0008, 0, 1, 0, 1, 0x0, 0x0, 0x0, 0x0, 0x0, 0x7ffffff, 0x0⟩,  -- ATN_STATUS
  ⟨0xe000a0010, 0, 1, 0, 1, 0x0, 0x3ff, 0x0, 0x0, 0x0, 0x0, 0x0⟩,  -- ATN_EVENT
  ⟨0xe000a0018, 0, 1, 0, 1, 0x0, 0x0, 0x0, 0x0, 0x0, 0xffffffff1fffff3f, 0x0⟩,  -- ATN_LAST_ERR
  ⟨0xe000a0020, 0, 1, 0, 1, 0x0, 0x0, 0x0, 0x0, 0x0, 0xffffffffffffffff, 0x0⟩,  -- ATN_COUNTS
  ⟨0xe000a0028, 0, 1, 0, 1, 0x0, 0x0, 0x0, 0x0, 0x0, 0xffffffffffffffff, 0x0⟩,  -- ATN_ROWS
  ⟨0xe000a0030, 0, 1, 0, 1, 0x0, 0x0, 0x0, 0x0, 0x0, 0xffffffffffff, 0x0⟩,  -- ATN_CANDS
  ⟨0xe000a0038, 0, 1, 0, 1, 0x0, 0x0, 0x0, 0xffffff0000, 0x0, 0x0, 0x0⟩,  -- ATN_SCORE_BASE
  ⟨0xe000a0040, 0, 1, 0, 1, 0x0, 0x0, 0x0, 0xffffff0000, 0x0, 0x0, 0x0⟩,  -- ATN_GOLDEN_BASE
  ⟨0xe000a0100, 8, 8, 0, 1, 0x0, 0x0, 0x0, 0x3f3f3f3f3f3f3f3f, 0x0, 0x4040404040404040, 0x0⟩ ]  -- ATN_HEAD_MAP

/-- Registers of KVC (spec/15_history_cache.md). -/
def kvcRegs : List RegRow := [
  ⟨0xe000b0000, 0, 1, 0, 1, 0x0, 0x0, 0x0, 0xffff01ffff07, 0x0, 0x0, 0x10000100002⟩,  -- KVC_CTRL
  ⟨0xe000b0008, 0, 1, 0, 1, 0x0, 0x0, 0x0, 0x0, 0x0, 0x1fffffffff, 0x0⟩,  -- KVC_STATUS
  ⟨0xe000b0010, 0, 1, 0, 1, 0x0, 0x0, 0x0, 0x0, 0x0, 0xffffffffffffffff, 0x0⟩,  -- KVC_GEN
  ⟨0xe000b0018, 0, 1, 0, 1, 0x0, 0xff, 0x0, 0x0, 0x0, 0x0, 0x0⟩,  -- KVC_EVENT
  ⟨0xe000b0020, 0, 1, 0, 1, 0x0, 0x0, 0x0, 0x0, 0x0, 0xf7fffffff, 0x0⟩,  -- KVC_LAST_ERR
  ⟨0xe000b0028, 0, 1, 0, 1, 0x0, 0x0, 0x0, 0x0, 0x0, 0xffffffffffffffff, 0x0⟩,  -- KVC_TRAFFIC
  ⟨0xe000b0030, 0, 1, 0, 1, 0x0, 0x0, 0x0, 0x0, 0x0, 0xffffffffffffffff, 0x0⟩,  -- KVC_COUNTS
  ⟨0xe000b0038, 0, 1, 0, 1, 0x7fff, 0x0, 0x0, 0x0, 0x0, 0x0, 0x0⟩,  -- KVC_PAGE_SEL
  ⟨0xe000b0040, 0, 1, 0, 1, 0x0, 0x0, 0x0, 0x0, 0x0, 0xffffffffffffffff, 0x0⟩,  -- KVC_PAGE_DATA0
  ⟨0xe000b0048, 0, 1, 0, 1, 0x0, 0x0, 0x0, 0x0, 0x0, 0xffffffffffffffff, 0x0⟩,  -- KVC_PAGE_DATA1
  ⟨0xe000b0050, 0, 1, 0, 1, 0x0, 0x0, 0x0, 0xffffff0000, 0x0, 0x0, 0x0⟩,  -- KVC_DIR_BASE
  ⟨0xe000b0058, 0, 1, 0, 1, 0x0, 0x0, 0x0, 0xffffff0000, 0x0, 0x0, 0x0⟩,  -- KVC_LIST_BASE
  ⟨0xe000b0060, 0, 1, 0, 1, 0x0, 0x0, 0x0, 0xffffff0000, 0x0, 0x0, 0x0⟩,  -- KVC_SPILL_BASE
  ⟨0xe000b0068, 0, 1, 0, 1, 0x0, 0x0, 0x0, 0xffffff0000, 0x0, 0x0, 0x0⟩,  -- KVC_GOLDEN_BASE
  ⟨0xe000b0070, 0, 1, 0, 1, 0x0, 0x0, 0x0, 0x1ffffff, 0x0, 0x0, 0x10⟩,  -- KVC_SIZES
  ⟨0xe000b0078, 0, 1, 0, 1, 0x0, 0x0, 0x0, 0xfffff, 0x0, 0x0, 0x0⟩ ]  -- KVC_QUEUES

/-- Registers of TIM (spec/02_time_base.md). -/
def timRegs : List RegRow := [
  ⟨0xe000c0000, 0, 1, 0, 1, 0x0, 0x0, 0x0, 0xffffffffff0f, 0x0, 0x0, 0x3c003c0500⟩,  -- TIM_CTRL
  ⟨0xe000c0008, 0, 1, 0, 1, 0x0, 0x0, 0x0, 0x0, 0x0, 0xffff0f, 0xff08⟩,  -- TIM_STATUS
  ⟨0xe000c0010, 0, 1, 0, 1, 0x0, 0x0, 0x0, 0x0, 0x0, 0xffffffffffffffff, 0x0⟩,  -- TIM_NOW
  ⟨0xe000c0018, 0, 1, 0, 1, 0x0, 0x0, 0x0, 0x37f, 0x0, 0x0, 0x300⟩,  -- TIM_DOM_CFG0
  ⟨0xe000c0020, 0, 1, 0, 1, 0x0, 0x0, 0x0, 0x37f, 0x0, 0x0, 0x301⟩,  -- TIM_DOM_CFG1
  ⟨0xe000c0028, 0, 1, 0, 1, 0x0, 0x0, 0x0, 0x0, 0x0, 0xffffffff0000ff1f, 0xf800⟩,  -- TIM_DOM_STAT0
  ⟨0xe000c0030, 0, 1, 0, 1, 0x0, 0x0, 0x0, 0x0, 0x0, 0xffffffff0000ff1f, 0xf800⟩,  -- TIM_DOM_STAT1
  ⟨0xe000c0038, 0, 1, 0, 1, 0x0, 0x0, 0x0, 0x0, 0x0, 0xffffffffffffffff, 0x0⟩,  -- TIM_DOM_OFFSET0
  ⟨0xe000c0040, 0, 1, 0, 1, 0x0, 0x0, 0x0, 0x0, 0x0, 0xffffffffffffffff, 0x0⟩,  -- TIM_DOM_OFFSET1
  ⟨0xe000c0048, 0, 1, 0, 1, 0x0, 0x0, 0x0, 0xffffffffffffffff, 0x0, 0x0, 0x10000001000000⟩,  -- TIM_SERVO_GAIN
  ⟨0xe000c0050, 0, 1, 0, 1, 0x0, 0x0, 0x0, 0x0, 0x0, 0xffffffffffffffff, 0x0⟩,  -- TIM_FREQ_ADJ
  ⟨0xe000c0058, 0, 1, 0, 1, 0x0, 0x0, 0x0, 0x0, 0x0, 0xffffffffffffffff, 0x0⟩,  -- TIM_SLEW_REMAIN
  ⟨0xe000c0060, 0, 1, 0, 1, 0x0, 0x0, 0x0, 0xffffffffff, 0x0, 0x0, 0xf4240⟩,  -- TIM_DISC_THRESHOLD
  ⟨0xe000c0068, 0, 1, 0, 1, 0x0, 0x0, 0x0, 0xfffffffffff, 0x0, 0x0, 0x338803e8f7⟩,  -- TIM_QUALIFY
  ⟨0xe000c0070, 0, 1, 0, 1, 0x0, 0x0, 0x0, 0xffff3f7f, 0x0, 0x0, 0xf60d0000⟩,  -- TIM_SENSOR_DOM
  ⟨0xe000c0078, 8, 8, 0, 1, 0x0, 0x0, 0x0, 0xffffffff, 0x0, 0x0, 0x0⟩,  -- TIM_PORT_ASYM
  ⟨0xe000c00b8, 0, 1, 0, 1, 0x0, 0x3ff, 0x0, 0x0, 0x0, 0x0, 0x0⟩,  -- TIM_EVENT
  ⟨0xe000c00c0, 0, 1, 0, 1, 0x0, 0x0, 0x0, 0x0, 0x0, 0xffffffffffffffff, 0x0⟩,  -- TIM_LAST_STEP
  ⟨0xe000c00c8, 0, 1, 0, 1, 0x0, 0x0, 0x0, 0x0, 0x0, 0xffffffffffffffff, 0x0⟩,  -- TIM_COUNTS
  ⟨0xe000c0100, 16, 12, 0, 1, 0x0, 0x0, 0x0, 0xffffffffffff, 0x0, 0x0, 0x10000000000⟩,  -- TIM_TRIG_TIME
  ⟨0xe000c0108, 16, 12, 0, 1, 0x0, 0x0, 0x0, 0x3fffffffffffffff, 0x0, 0x0, 0x0⟩ ]  -- TIM_TRIG_CTL

/-- Registers of ING (spec/03_sensor_ingest.md). -/
def ingRegs : List RegRow := [
  ⟨0xe000d0000, 0, 1, 0, 1, 0x0, 0x0, 0x0, 0xff07ffffffff, 0x0, 0x0, 0x140000000000⟩,  -- ING_CTRL
  ⟨0xe000d0008, 0, 1, 0, 1, 0x0, 0xfff, 0x0, 0x0, 0x0, 0x0, 0x0⟩,  -- ING_EVENT
  ⟨0xe000d0010, 0, 1, 0, 1, 0x0, 0x0, 0x0, 0x0, 0x0, 0xffffffffffffffff, 0x0⟩,  -- ING_DROPS
  ⟨0xe000d0018, 0, 1, 0, 1, 0x0, 0x0, 0x0, 0x0, 0x0, 0xffffffffffffffff, 0x0⟩,  -- ING_ADMITTED
  ⟨0xe000d0020, 0, 1, 0, 1, 0x0, 0x0, 0x0, 0x0, 0x0, 0xffffffffffffffff, 0x0⟩,  -- ING_QUARANTINED
  ⟨0xe000d0028, 0, 1, 0, 1, 0x0, 0x0, 0x0, 0x0, 0x0, 0xffffffffffffffff, 0x0⟩,  -- ING_ABSENT
  ⟨0xe000d0100, 8, 12, 0, 1, 0x0, 0x0, 0x0, 0xff1f, 0x0, 0x0, 0x3714⟩,  -- ING_CSI_CFG
  ⟨0xe000d0180, 16, 6, 0, 1, 0x0, 0x0, 0x0, 0x3fffffffffff, 0x0, 0x0, 0x200000000000⟩,  -- ING_ETH_CFG
  ⟨0xe000d0188, 16, 6, 0, 1, 0x0, 0x0, 0x0, 0xffffffffffff, 0x0, 0x0, 0x0⟩,  -- ING_ETH_MAC
  ⟨0xe000d0200, 8, 4, 0, 1, 0x0, 0x0, 0x0, 0x3ffffffffffffff, 0x0, 0x0, 0x2000000000000⟩,  -- ING_CAN_CFG
  ⟨0xe000d0240, 8, 4, 0, 1, 0x0, 0x0, 0x0, 0xffffffff1ff7ff, 0x0, 0x0, 0x7c⟩,  -- ING_SPI_CS
  ⟨0xe000d0280, 8, 8, 0, 1, 0x0, 0x0, 0x0, 0xffffffff03ff, 0x0, 0x0, 0x6403e80004⟩,  -- ING_ENC_CFG
  ⟨0xe000d0400, 256, 4, 8, 32, 0x0, 0x0, 0x0, 0x1fffffff7fffffff, 0x0, 0x0, 0x0⟩,  -- ING_CAN_FLT
  ⟨0xe000d0800, 64, 16, 8, 8, 0x0, 0x0, 0x0, 0xffffffffffffffff, 0x0, 0x0, 0x0⟩,  -- ING_TEMPLATE
  ⟨0xe000d1000, 32, 64, 0, 1, 0x0, 0x0, 0x0, 0xffffffff03ffffff, 0x0, 0x0, 0x0⟩,  -- ING_STR_CFG
  ⟨0xe000d1008, 32, 64, 0, 1, 0x0, 0x0, 0x0, 0xffffffffffffffff, 0x0, 0x0, 0x400000000000000⟩,  -- ING_STR_TIME
  ⟨0xe000d1010, 32, 64, 0, 1, 0x0, 0x0, 0x0, 0xfffffffffffff, 0x0, 0x0, 0x0⟩,  -- ING_STR_MATCH
  ⟨0xe000d1018, 32, 64, 0, 1, 0x0, 0x0, 0x0, 0x0, 0x0, 0xffffffff0001ff07, 0x0⟩,  -- ING_STR_STAT
  ⟨0xe000d1800, 8, 64, 0, 1, 0x0, 0x0, 0x0, 0x0, 0x0, 0xffffffffffffffff, 0x0⟩ ]  -- ING_STR_DRIFT

/-- Registers of SQ (spec/04_stream_queues.md). -/
def sqRegs : List RegRow := [
  ⟨0xe000e0000, 0, 1, 0, 1, 0x0, 0x0, 0x0, 0x0, 0x0, 0x7ff, 0x0⟩,  -- SQ_ACTIVE
  ⟨0xe000e0008, 0, 1, 0, 1, 0x0, 0x3f, 0x0, 0x0, 0x0, 0x0, 0x0⟩,  -- SQ_EVENT
  ⟨0xe000e0010, 0, 1, 0, 1, 0x0, 0x0, 0x0, 0x0, 0x0, 0xf3ff, 0x0⟩,  -- SQ_LAST_ERR
  ⟨0xe000e2000, 8, 1024, 0, 1, 0x0, 0x0, 0x0, 0xffff07ffff03, 0x0, 0x0, 0x0⟩,  -- SQ_QCFG
  ⟨0xe000e4000, 8, 1024, 0, 1, 0x0, 0x0, 0x0, 0xfffffc0, 0x0, 0x0, 0x0⟩,  -- SQ_QSPILL
  ⟨0xe000e6000, 8, 1024, 0, 1, 0x0, 0x0, 0x0, 0x0, 0x0, 0xffffffff07f7ffff, 0x0⟩,  -- SQ_QSTAT
  ⟨0xe000e8000, 8, 1024, 0, 1, 0x0, 0x0, 0x0, 0x0, 0x0, 0xffffffffffffffff, 0x0⟩ ]  -- SQ_QDROP

/-- Registers of TGS (spec/10_operations_and_runahead.md). -/
def tgsRegs : List RegRow := [
  ⟨0xe000f0000, 0, 1, 0, 1, 0x0, 0x0, 0x0, 0x1ffff001f, 0x0, 0x0, 0x80000006⟩,  -- TGS_CTRL
  ⟨0xe000f0008, 0, 1, 0, 1, 0x0, 0x0, 0x0, 0x0, 0x0, 0x3fffffff, 0x0⟩,  -- TGS_STATUS
  ⟨0xe000f0010, 0, 1, 0, 1, 0x0, 0x0, 0x0, 0x0, 0x0, 0xffffffffffff, 0x0⟩,  -- TGS_OPS
  ⟨0xe000f0018, 0, 1, 0, 1, 0x0, 0xff, 0x0, 0x0, 0x0, 0x0, 0x0⟩,  -- TGS_EVENT
  ⟨0xe000f0020, 0, 1, 0, 1, 0x0, 0x0, 0x0, 0x0, 0x0, 0xffffffffffffffff, 0x0⟩,  -- TGS_SQUASH_COUNT
  ⟨0xe000f0028, 0, 1, 0, 1, 0x0, 0x0, 0x0, 0x0, 0x0, 0xffffffff003fffff, 0x0⟩,  -- TGS_LAST_SQUASH
  ⟨0xe000f0030, 0, 1, 0, 1, 0x0, 0x0, 0x0, 0x0, 0x0, 0xffffffff0003ffff, 0x0⟩,  -- TGS_GOLDEN
  ⟨0xe000f0038, 0, 1, 0, 1, 0x0, 0x0, 0x0, 0x0, 0x0, 0xffffffffffffffff, 0x0⟩,  -- TGS_DISCARDS
  ⟨0xe000f0040, 0, 1, 0, 1, 0x0, 0x0, 0x0, 0xffffff0000, 0x0, 0x0, 0x0⟩,  -- TGS_DIR_BASE
  ⟨0xe000f0048, 0, 1, 0, 1, 0x0, 0x0, 0x0, 0xffffff0000, 0x0, 0x0, 0x0⟩,  -- TGS_LIST_BASE
  ⟨0xe000f0050, 0, 1, 0, 1, 0x0, 0x0, 0x0, 0xffffff0000, 0x0, 0x0, 0x0⟩,  -- TGS_EDGE_BASE
  ⟨0xe000f0100, 8, 16, 0, 1, 0x0, 0x0, 0x0, 0x1ffffff, 0x0, 0xffff00000000, 0x0⟩ ]  -- TGS_BUDGET

/-- Registers of BML (spec/16_multi_device.md). -/
def bmlRegs : List RegRow := [
  ⟨0xe00100000, 0, 1, 0, 1, 0x0, 0x0, 0x0, 0x3fff1fff, 0x0, 0x0, 0x0⟩,  -- BML_CTRL
  ⟨0xe00100008, 0, 1, 0, 1, 0x0, 0x0, 0x0, 0x1f1fff0f, 0x0, 0x0, 0x4014001⟩,  -- BML_EXPERT
  ⟨0xe00100010, 0, 1, 0, 1, 0x0, 0x0, 0x0, 0xffffffffffffffff, 0x0, 0x0, 0x3e83e81907d1770⟩,  -- BML_TIMING
  ⟨0xe00100018, 0, 1, 0, 1, 0x0, 0x0, 0x0, 0x0, 0x0, 0x1fff, 0x0⟩,  -- BML_STATUS
  ⟨0xe00100020, 0, 1, 0, 1, 0x0, 0x1ff, 0x0, 0x0, 0x0, 0x0, 0x0⟩,  -- BML_EVENT
  ⟨0xe00100028, 0, 1, 0, 1, 0x0, 0x0, 0x0, 0x0, 0x0, 0xffffffffffffffff, 0x0⟩,  -- BML_COUNTS
  ⟨0xe00100030, 0, 1, 0, 1, 0x0, 0x0, 0x0, 0xffffff0000, 0x0, 0x0, 0x0⟩,  -- BML_MAP_BASE
  ⟨0xe00100038, 0, 1, 0, 1, 0x0, 0x0, 0x0, 0xffffff0000, 0x0, 0x0, 0x0⟩,  -- BML_BUF_BASE
  ⟨0xe00100100, 8, 6, 0, 1, 0x0, 0x0, 0x0, 0x7f, 0x0, 0x0, 0x0⟩,  -- BML_PORT_CFG
  ⟨0xe00100140, 8, 6, 0, 1, 0x0, 0x0, 0x0, 0x0, 0x0, 0xffffffffffff07ff, 0x0⟩,  -- BML_PORT_STAT
  ⟨0xe00100180, 8, 6, 0, 1, 0x0, 0x0, 0x0, 0x0, 0x0, 0xffffffffffffffff, 0x0⟩,  -- BML_NBR_OFFSET
  ⟨0xe00100400, 8, 64, 0, 1, 0x0, 0x0, 0x0, 0x3f, 0x0, 0x0, 0x3f⟩ ]  -- BML_ROUTE

/-- Registers of DDR (spec/13_memory.md). -/
def ddrRegs : List RegRow := [
  ⟨0xe00110000, 0, 1, 0, 1, 0x0, 0x0, 0x0, 0xffff7fff, 0x0, 0x0, 0x3e86000⟩,  -- DDR_CTRL
  ⟨0xe00110008, 0, 1, 0, 1, 0x0, 0x0, 0x0, 0x0, 0x0, 0x3ff, 0x0⟩,  -- DDR_STATUS
  ⟨0xe00110010, 0, 1, 0, 1, 0x0, 0x1f, 0x0, 0x0, 0x0, 0x0, 0x0⟩,  -- DDR_EVENT
  ⟨0xe00110018, 0, 1, 0, 1, 0x0, 0x0, 0x0, 0x0, 0x0, 0xffffffffff00003f, 0x0⟩,  -- DDR_LAST_ERR
  ⟨0xe00110100, 8, 8, 0, 1, 0x0, 0x0, 0x0, 0x0, 0x0, 0x1ffffffffffffff, 0x0⟩ ]  -- DDR_CHAN

/-- Registers of SEC (spec/19_security.md). -/
def secRegs : List RegRow := [
  ⟨0xe00120000, 0, 1, 0, 1, 0x0, 0x0, 0x0, 0x0, 0x0, 0x1f7f1fff, 0x7000000⟩,  -- SEC_STATUS
  ⟨0xe00120008, 0, 1, 0, 1, 0x0, 0x1ff, 0x0, 0x0, 0x0, 0x0, 0x0⟩,  -- SEC_EVENT
  ⟨0xe00120010, 0, 1, 0, 1, 0xfe, 0x0, 0x1, 0x0, 0x0, 0x0, 0x0⟩,  -- SEC_ROLLBACK_CMD
  ⟨0xe00120018, 0, 1, 0, 1, 0x0, 0x0, 0x0, 0xffffff0f, 0x0, 0x0, 0xff0c⟩,  -- SEC_MACSEC
  ⟨0xe00120020, 0, 1, 0, 1, 0x0, 0x0, 0x0, 0x0, 0x0, 0xffff00ff, 0x0⟩,  -- SEC_TAMPER
  ⟨0xe00120028, 0, 1, 0, 1, 0x0, 0x0, 0x0, 0x0, 0x0, 0xffffffffffffff, 0x0⟩,  -- SEC_COUNTS
  ⟨0xe00120040, 8, 6, 0, 1, 0x0, 0x0, 0x0, 0x0, 0x0, 0xffffffffffffffff, 0x0⟩,  -- SEC_DEVID_PK
  ⟨0xe00120080, 8, 16, 0, 1, 0x0, 0x0, 0x0, 0x0, 0x0, 0xffffffffffffffff, 0x0⟩ ]  -- SEC_MEAS

/-- Registers of HST (spec/20_host_interface.md). -/
def hstRegs : List RegRow := [
  ⟨0xe00130000, 0, 1, 0, 1, 0x0, 0x0, 0x0, 0xffff001f, 0x0, 0x0, 0x88b50003⟩,  -- HST_CTRL
  ⟨0xe00130008, 0, 1, 0, 1, 0x0, 0x0, 0x0, 0x0, 0x0, 0x3ff3f, 0x0⟩,  -- HST_STATUS
  ⟨0xe00130010, 0, 1, 0, 1, 0x0, 0x1ff, 0x0, 0x0, 0x0, 0x0, 0x0⟩,  -- HST_EVENT
  ⟨0xe00130018, 0, 1, 0, 1, 0x0, 0x0, 0x0, 0x0, 0x0, 0xffffffffffffffff, 0x0⟩,  -- HST_TRAIN
  ⟨0xe00130020, 8, 2, 0, 1, 0x0, 0x0, 0x0, 0x7fff0007, 0x0, 0x0, 0x4⟩,  -- HST_PORT_CFG
  ⟨0xe00130030, 8, 2, 0, 1, 0x0, 0x0, 0x0, 0xffffffffffff, 0x0, 0x0, 0x0⟩,  -- HST_HOST_MAC
  ⟨0xe00130040, 8, 2, 0, 1, 0x0, 0x0, 0x0, 0x0, 0x0, 0xffffffffffff, 0x0⟩,  -- HST_MAC
  ⟨0xe00130050, 8, 2, 0, 1, 0x0, 0x0, 0x0, 0x0, 0x0, 0xffffffffffffffff, 0x0⟩,  -- HST_RX
  ⟨0xe00130060, 8, 2, 0, 1, 0x0, 0x0, 0x0, 0x0, 0x0, 0xffffffffffffffff, 0x0⟩,  -- HST_TX
  ⟨0xe00130100, 64, 8, 0, 1, 0x0, 0x0, 0x0, 0xffffff003f, 0x0, 0x0, 0x0⟩,  -- HST_SUB_CFG
  ⟨0xe00130108, 64, 8, 0, 1, 0x0, 0x0, 0x0, 0xffffffffffff, 0x0, 0x0, 0x0⟩,  -- HST_SUB_MAC
  ⟨0xe00130110, 64, 8, 8, 4, 0x0, 0x0, 0x0, 0xffffffffffffffff, 0x0, 0x0, 0x0⟩ ]  -- HST_SUB_MASK

/-- Registers of CLK (spec/21_clocks_power_reset.md). -/
def clkRegs : List RegRow := [
  ⟨0xe00140000, 0, 1, 0, 1, 0x0, 0x0, 0x0, 0xf0f, 0x0, 0x0, 0x0⟩,  -- CLK_SRC
  ⟨0xe00140008, 0, 1, 0, 1, 0x0, 0x0, 0x0, 0x0, 0x0, 0xff, 0x0⟩,  -- CLK_STATUS
  ⟨0xe00140010, 0, 1, 0, 1, 0x0, 0x0, 0x0, 0x1ffffff, 0x0, 0x0, 0x17c000e⟩,  -- CLK_EN
  ⟨0xe00140018, 0, 1, 0, 1, 0x0, 0x0, 0x0, 0xfffff, 0x0, 0x0, 0x781e0⟩,  -- CLK_SSC
  ⟨0xe00140020, 0, 1, 0, 1, 0x0, 0x7, 0x0, 0x0, 0x0, 0x0, 0x0⟩ ]  -- CLK_EVENT

/-- Registers of PWR (spec/21_clocks_power_reset.md). -/
def pwrRegs : List RegRow := [
  ⟨0xe00150000, 0, 1, 0, 1, 0x0, 0x0, 0x0, 0x1f, 0x0, 0x0, 0x8⟩,  -- PWR_CTRL
  ⟨0xe00150008, 0, 1, 0, 1, 0x0, 0x0, 0x0, 0x0, 0x0, 0xffff00ff, 0x0⟩,  -- PWR_STATUS
  ⟨0xe00150010, 0, 1, 0, 1, 0x0, 0x0, 0x0, 0xffffffffffffffff, 0x0, 0x0, 0x0⟩,  -- PWR_WAKE_TIME
  ⟨0xe00150018, 0, 1, 0, 1, 0x0, 0x0, 0x0, 0xffffff0000, 0x0, 0x0, 0x0⟩,  -- PWR_SAVE_BASE
  ⟨0xe00150020, 0, 1, 0, 1, 0x0, 0x0, 0x0, 0xffffff0000, 0x0, 0x0, 0x0⟩,  -- PWR_DDR_SAVE_BASE
  ⟨0xe00150028, 0, 1, 0, 1, 0x0, 0x1f, 0x0, 0x0, 0x0, 0x0, 0x0⟩ ]  -- PWR_EVENT

/-- Registers of RST (spec/21_clocks_power_reset.md). -/
def rstRegs : List RegRow := [
  ⟨0xe00160000, 0, 1, 0, 1, 0x0, 0x0, 0xff01, 0x0, 0x0, 0x0, 0x0⟩,  -- RST_CTRL
  ⟨0xe00160008, 0, 1, 0, 1, 0x0, 0x0, 0x0, 0x0, 0x0, 0xffffffff000007ff, 0x1⟩,  -- RST_CAUSE
  ⟨0xe00160010, 0, 1, 0, 1, 0x0, 0x0, 0x0, 0x0, 0x0, 0xffffffffffffffff, 0x0⟩,  -- RST_COUNTS
  ⟨0xe00160018, 0, 1, 0, 1, 0x0, 0x0, 0x0, 0x0, 0xffffffffffffffff, 0x0, 0x0⟩ ]  -- RST_SCRATCH

/-- Registers of OBS (spec/22_lifetime_and_long_run.md). -/
def obsRegs : List RegRow := [
  ⟨0xe00170000, 0, 1, 0, 1, 0x0, 0x0, 0x0, 0x3, 0x0, 0x0, 0x0⟩,  -- OBS_CTRL
  ⟨0xe00170008, 0, 1, 0, 1, 0x0, 0x0, 0x0, 0x0, 0x0, 0x3ff, 0x0⟩,  -- OBS_STATUS
  ⟨0xe00170010, 0, 1, 0, 1, 0x0, 0x7f, 0x0, 0x0, 0x0, 0x0, 0x0⟩,  -- OBS_EVENT
  ⟨0xe00170018, 0, 1, 0, 1, 0x0, 0x0, 0x0, 0x0, 0x0, 0xffffffffffffffff, 0x0⟩,  -- OBS_LOG
  ⟨0xe00170020, 0, 1, 0, 1, 0x0, 0x0, 0x0, 0x0, 0x0, 0xffffffffffffffff, 0x0⟩,  -- OBS_LOG_COUNTS
  ⟨0xe00170028, 0, 1, 0, 1, 0x0, 0x0, 0x0, 0x0, 0x0, 0xffffffff003fffff, 0x0⟩,  -- OBS_RING
  ⟨0xe00170030, 0, 1, 0, 1, 0xffffffff, 0x0, 0x0, 0x0, 0x0, 0x100000000, 0x0⟩,  -- OBS_ELOG_SEL
  ⟨0xe00170038, 8, 4, 0, 1, 0x0, 0x0, 0x0, 0x0, 0x0, 0xffffffffffffffff, 0x0⟩,  -- OBS_ELOG_DATA
  ⟨0xe00170060, 8, 4, 0, 1, 0x0, 0xffffffffffffffff, 0x0, 0x0, 0x0, 0x0, 0x0⟩,  -- OBS_OVF
  ⟨0xe00170100, 8, 16, 0, 1, 0x1f7f7f, 0x0, 0x0, 0x0, 0x0, 0x0, 0x77f00⟩,  -- OBS_FMAST
  ⟨0xe00170180, 8, 16, 0, 1, 0xffffffffff, 0x0, 0x0, 0x0, 0x0, 0x0, 0x0⟩,  -- OBS_FBASE
  ⟨0xe00170200, 8, 16, 0, 1, 0xffffffffff, 0x0, 0x0, 0x0, 0x0, 0x0, 0x0⟩,  -- OBS_FLIMIT
  ⟨0xe00170800, 8, 256, 0, 1, 0x3ffff, 0x0, 0x0, 0x0, 0x0, 0x0, 0x0⟩,  -- OBS_SEL
  ⟨0xe00171000, 8, 256, 0, 1, 0xffffffffffff, 0x0, 0x0, 0x0, 0x0, 0x0, 0x0⟩,  -- OBS_CNT
  ⟨0xe00174000, 8, 256, 0, 1, 0x0, 0x0, 0x0, 0x0, 0x0, 0xffffffffffffffff, 0x0⟩ ]  -- OBS_LIFE

/-- Registers of SAF (spec/17_safety.md). -/
def safRegs : List RegRow := [
  ⟨0xe00180000, 0, 1, 0, 1, 0x0, 0x0, 0x0, 0xffffff07, 0x0, 0x0, 0x641002⟩,  -- SAF_CTRL
  ⟨0xe00180008, 0, 1, 0, 1, 0x0, 0x0, 0x0, 0xffffffffffff7fff, 0x0, 0x0, 0x1f43264050144e20⟩,  -- SAF_TIMING
  ⟨0xe00180010, 0, 1, 0, 1, 0x0, 0x0, 0x0, 0x0, 0x0, 0xffffffff0007ff3f, 0x11b⟩,  -- SAF_STATE
  ⟨0xe00180018, 0, 1, 0, 1, 0x0, 0x3ff, 0x0, 0x0, 0x0, 0x0, 0x0⟩,  -- SAF_EVENT
  ⟨0xe00180020, 0, 1, 0, 1, 0x0, 0x0, 0x0, 0x0, 0x0, 0xffffffffffffffff, 0xff00⟩,  -- SAF_LAST_FAULT
  ⟨0xe00180028, 0, 1, 0, 1, 0x0, 0x0, 0x0, 0x0, 0x0, 0xffffffffffffffff, 0x0⟩,  -- SAF_DETECT_TIME
  ⟨0xe00180030, 0, 1, 0, 1, 0x0, 0x0, 0x0, 0x0, 0x0, 0xffffffffffffffff, 0x0⟩,  -- SAF_GOLDEN
  ⟨0xe00180038, 0, 1, 0, 1, 0x0, 0x0, 0x0, 0x0, 0x0, 0x107ff, 0x0⟩,  -- SAF_LATENT
  ⟨0xe00180040, 0, 1, 0, 1, 0x0, 0x0, 0x0, 0x0, 0x0, 0xffffffffffffffff, 0x0⟩,  -- SAF_COUNTS
  ⟨0xe00180048, 0, 1, 0, 1, 0x0, 0x0, 0x0, 0x0, 0x0, 0xffffffffffffffff, 0x0⟩ ]  -- SAF_HEARTBEAT

/-- The rows of the window with index `w` in the block table of spec/00_scope.md (R5). -/
def windowRegs (w : Nat) : List RegRow :=
  match w with
  | 0 => arrRegs
  | 1 => ngtRegs
  | 2 => prcRegs
  | 3 => aonRegs
  | 4 => chkRegs
  | 5 => ptsRegs
  | 6 => lftRegs
  | 7 => glzRegs
  | 8 => slvRegs
  | 9 => layRegs
  | 10 => atnRegs
  | 11 => kvcRegs
  | 12 => timRegs
  | 13 => ingRegs
  | 14 => sqRegs
  | 15 => tgsRegs
  | 16 => bmlRegs
  | 17 => ddrRegs
  | 18 => secRegs
  | 19 => hstRegs
  | 20 => clkRegs
  | 21 => pwrRegs
  | 22 => rstRegs
  | 23 => obsRegs
  | 24 => safRegs
  | _ => []

/-- Base of the register windows: 25 windows of 64 KiB from 0x0E_0000_0000 (R5). -/
def windowBase : Nat := 0x0E00000000

/-- The window an address lies in, if any (R5). -/
def windowOf (a : Nat) : Option Nat :=
  if windowBase ≤ a ∧ a < windowBase + 25 * 0x10000 then some ((a - windowBase) / 0x10000) else none

/-- The row of the register at address `a`; none at an undefined offset (R9). -/
def regRow (a : Nat) : Option RegRow :=
  match windowOf a with
  | none => none
  | some w => (windowRegs w).find? (·.covers a)

/-- The value of the register at `a` after power-on reset (R8); 0 where there is no register. -/
def regReset (a : Nat) : BitVec 64 :=
  match regRow a with
  | none => 0
  | some r => r.reset

end Sys2Proof.Machine
end

