-- ==== Sys2Proof/Machine/State.lean ====
section
/-! DEFINITION. The machine's state: every register (one register file whose unlisted registers hold their reset
values, R8), everything the spec gives the device beside its registers, the queue of waiting commands; the reasons a
step can stop; and the state after power-on reset. Each field's default is its value at reset. The docstring of a
field names the rule of spec/ it comes from and its chapter. -/

namespace Sys2Proof.Machine

/-! ## Clock and time (spec/02_time_base.md, spec/21_clocks_power_reset.md) -/

/-- One domain slot of TIM: what its registers do not hold. -/
structure DomSlot where
  /-- Consecutive healthy Sync messages (R22, 02). -/
  good       : Nat := 0
  /-- Consecutive Sync messages with a residual above the bound (R22, 02). -/
  bad        : Nat := 0
  /-- An Announce of the slot has been received (R22, 02). -/
  announced  : Bool := false
  /-- grandmasterIdentity of the latest Announce (R22, 02). -/
  gmId       : Nat := 0
  /-- currentUtcOffset of the latest Announce (R27, 02). -/
  utcOffset  : Int := 0
  /-- The last offsets measured, newest first, at most 8 (R23, R387, 02). -/
  offsets    : List Int := []
  /-- Receipt timers of Sync, by port A and B: the last receipt and the message interval's log2 (R22, 02). -/
  syncRx     : List (Nat × Time × Int) := []
  /-- Receipt timers of Announce, by port A and B (R22, 02). -/
  announceRx : List (Nat × Time × Int) := []
  /-- Two-step Syncs that await their Follow_Up, one a port: port, sequenceId, receive timestamp, correction, and the phase
  that slews had removed by then (R21, R387, 02). -/
  twoStep    : List (Nat × Nat × Time × Int × Int) := []
  /-- The latest Announce of each port as the BMCA compares it: port and priority vector (R21, 02). -/
  vectors    : List (Nat × List Nat) := []
  /-- The instant from which the slot has qualified without a break (R23, 02). -/
  qualSince  : Option Time := none
  deriving DecidableEq, Repr

/-- The peer-delay measurement of one Ethernet port (R21, R27, 02). -/
structure PortDelay where
  /-- Transmit timestamp of the device's outstanding Pdelay request (R21, 02). -/
  t1    : Option Time := none
  /-- Receipt at the peer and receipt here of the response that awaits its follow-up (R21, 02). -/
  resp  : Option (Time × Time) := none
  /-- The measured mean link delay, ns (R21, R25, 02). -/
  delay : Int := 0
  deriving DecidableEq, Repr

/-- An entry of a launch queue (R29, R30, 02). -/
structure Launch where
  time     : Time
  dropLate : Bool
  /-- The frames of the entry, in order: destination and payload. -/
  frames   : List (Nat × List Byte)
  /-- The train's subscriber and cycle, for an entry built by HST (R331, 20). -/
  train    : Option (Nat × Nat) := none
  /-- Its launch time had passed when it reached the head of its queue (R30). -/
  late     : Bool := false
  deriving DecidableEq, Repr

/-- A SAFETY_NOTICE (R289, 17). -/
structure Notice where
  detectTime : Time
  state      : Nat
  prev       : Nat
  level      : Nat
  domain     : Nat
  cause      : Nat
  unit       : Nat
  cycle      : Nat
  lastValid  : Nat
  seq        : Nat
  logIndex   : Nat
  deriving DecidableEq, Repr

/-- What an Ethernet port has to send. -/
inductive TxKind where
  /-- A Deruento frame: destination and bytes (R323, 20). -/
  | frame (dst : Nat) (bytes : List Byte)
  /-- A SAFETY_NOTICE (R289, 17; R339, 20). -/
  | notice (dst : Nat) (n : Notice)
  /-- A tile of a TILE_READ, copied when its turn comes (R329, 20): destination, REQ_ID, cycle, tile, and whether its last frame ends the reply. -/
  | tile (dst reqId cycle tile : Nat) (last : Bool)
  /-- A gPTP message, whose own timestamps are those of its departure (R26, R28, 02). -/
  | ptp (kind : Nat) (fields : List Int)
  /-- A launched frame on a sensor port (R29, 02). -/
  | raw (dst : Nat) (bytes : List Byte)
  /-- An EAPOL-MKA frame (R318, 19). -/
  | mka (kind : Nat)
  /-- An ARP reply (R40, 03). -/
  | arp (ip : Nat)
  deriving DecidableEq, Repr

/-- A frame that waits on a port: its class of R333, and the train it belongs to. -/
structure TxItem where
  cls   : Nat
  kind  : TxKind
  train : Option (Nat × Nat) := none
  deriving DecidableEq, Repr

/-- An Ethernet port's transmitter (R29, 02; R333, 20). -/
structure TxPort where
  /-- Frames that are ready and wait, in the order in which they became ready. -/
  queue : List TxItem := []
  /-- The frame in progress, and the time it still takes, in 0.1 ns. -/
  cur   : Option TxItem := none
  busy  : Int := 0
  /-- The launch time of the entry launched last, and whether it was late (R30, 02). -/
  last  : Option (Time × Bool) := none
  deriving DecidableEq, Repr

/-- TIM beyond its registers. -/
structure Tim where
  /-- Device time, ns, the value of TIM_NOW (R15, 02). -/
  time      : Time := 0
  /-- The part of a nanosecond below device time, in units of 2^-16 ppm of 1 ns (R16, 02). -/
  frac      : Nat := 0
  /-- The part of the slew's phase below 1 ns not yet taken from TIM_SLEW_REMAIN (R24, 02). -/
  slewFrac  : Nat := 0
  /-- The high half that a low-half read of TIM_NOW latched (R15 and the TIM_NOW table, 02). -/
  latch     : Option Nat := none
  /-- A stream has been brought up since reset, so that the first setting of device time is past (R18, 02). -/
  streamsUp : Bool := false
  /-- The start of time acquisition, while it runs (R19, 02). -/
  acqStart  : Option Time := none
  /-- The entry into HOLDOVER (R19, 02). -/
  holdSince : Option Time := none
  /-- The two domain slots (R21, 02). -/
  doms      : List DomSlot := [{}, {}]
  /-- The phase that slews have removed since reset, signed as TIM_SLEW_REMAIN (R24, R387, 02). -/
  slewed    : Int := 0
  /-- The servo integral (R25, 02). -/
  integral  : Int := 0
  /-- Peer-delay measurements of ports A, B and sensor ports 0 to 5 (R21, R27, 02). -/
  ports     : List PortDelay := List.replicate 8 {}
  /-- Announce and Sync messages received on sensor ports, discarded and counted (R27, 02). -/
  foreign   : Nat := 0
  /-- The latest transmissions on each sensor port: Announce, Sync, Pdelay request (R27, R28, 02). -/
  lastTx    : List (Nat × Time) := []
  /-- Launch queues of ports A, B and sensor ports 0 to 5, in launch order (R29, 02). -/
  launch    : List (List Launch) := List.replicate 8 []
  /-- The transmitters of ports A, B and sensor ports 0 to 5 (R29, 02; R333, 20). -/
  tx        : List TxPort := List.replicate 8 {}
  /-- Camera trigger outputs 0 to 11: while a pulse lasts, the instant it ends and its active level (R31, R32, 02). -/
  pulse     : List (Option (Time × Bool)) := List.replicate 12 none
  /-- The last trigger edge of each output (R31, 02). -/
  lastEdge  : List (Option Time) := List.replicate 12 none
  /-- The sum of all steps of device time taken since reset, which consumers add to fields of queued items (R20, 02). -/
  steps     : Int := 0
  deriving DecidableEq, Repr

/-! ## Observability: error log and lifetime record (spec/22_lifetime_and_long_run.md) -/

/-- An error-log entry (R364, 22). -/
structure LogEntry where
  time     : Time
  index    : Nat
  block    : Nat
  code     : Nat
  severity : Nat
  unit     : Nat
  cycle    : Nat
  detail   : Nat
  deriving DecidableEq, Repr

/-- OBS and Toffee retention beyond the registers. -/
structure Obs where
  /-- The error-log ring in Toffee retention, oldest first, at most 4,096 entries (R364, 22). -/
  ring        : List LogEntry := []
  /-- The input buffer of the error log, oldest first, at most 64 entries (R364, 22). -/
  buf         : List LogEntry := []
  /-- LOG_OVERWRITTEN: an entry at or after READ_MARK has been overwritten since the last LOG_READ (R365, 22). -/
  overwritten : Bool := false
  /-- The lifetime record as 32-bit words by word index, unlisted words 0 (R366, 22). -/
  life        : List (Nat × Nat) := []
  /-- Record words changed since the last append: word and the amount added (R368, 22). -/
  changed     : List (Nat × Nat) := []
  /-- Flash offset LOG_RING of the last image loaded since power-on (R367, 22). -/
  logRing     : Option Nat := none
  /-- Ten-minute intervals spent in Standby, written at wake (R368, 22). -/
  standbyIv   : Nat := 0
  /-- The ring sector whose erase is running (R368, 22). -/
  erasing     : Option Nat := none
  deriving DecidableEq, Repr

/-! ## Safety supervisor and checker (spec/17_safety.md) -/

/-- A golden frame that has been armed and has not finished (R280, 17). -/
structure Golden where
  num      : Nat
  entry    : Nat
  extra    : Bool
  /-- 0 camera, 1 lidar (R279, 17). -/
  kind     : Nat
  /-- The complete burst has arrived: the device time and the REFCLK count at which the frame became due (R169, R280). -/
  due      : Option (Time × Nat) := none
  /-- The REFCLK count at which the frame before it became due (R282). -/
  prevDue  : Option Nat := none
  /-- The frame was deferred at a ToV (R169, 10). -/
  deferred : Bool := false
  deriving DecidableEq, Repr

/-- SAF beyond its registers. -/
structure Saf where
  /-- The state recorded as the return state of Suspect (R286, 17). -/
  returnState : Nat := 0
  /-- Consecutive final instances with no DEGRADE response (R286, 17). -/
  hold        : Nat := 0
  /-- A UNIT_LOST degrade, held until reset (R285, R286, 17). -/
  unitLost    : Bool := false
  /-- The cycle of the SUSPECT response that entered Suspect (R287, 17). -/
  suspectCyc  : Nat := 0
  /-- Contained faults of the current cycle, with that cycle's number (R285, 17). -/
  contained   : Nat × Nat := (0, 0)
  /-- The golden entry armed at the latest ToV (R280, R287, 17). -/
  lastArmed   : Option Nat := none
  /-- The next golden frame number, modulo 2^32 (R280, 17). -/
  goldenNext  : Nat := 0
  /-- Golden frames armed and not finished, in order of arming (R280, 17). -/
  golden      : List Golden := []
  /-- The REFCLK count of the latest due instant, and whether a frame has finished or GOLDEN_SPAN was reported since (R282, 17). -/
  dueAt       : Option (Nat × Bool) := none
  /-- Mask of golden entries of which one frame has passed since reset (R286, 17). -/
  passed      : Nat := 0
  /-- The REFCLK count at which the heartbeat timer starts, once the start state is left (R283, 17). -/
  hbStart     : Option Nat := none
  /-- The REFCLK count at which the heartbeat timer last restarted, while it runs (R283, 17). -/
  hbLast      : Option Nat := none
  /-- The heartbeat timer has expired and not restarted since (R283, R327). -/
  hbExpired   : Bool := false
  /-- Device time of the latest HEARTBEAT frame (SAF_HEARTBEAT.LAST_GAP, 17). -/
  hbRx        : Option Time := none
  /-- The REFCLK count of the latest watchdog service (R283, 17). -/
  wdtLast     : Nat := 0
  /-- Notices sent since reset, modulo 2^32 (R289, 17). -/
  noticeSeq   : Nat := 0
  /-- The latest notice (R289, 17). -/
  notice      : Option Notice := none
  /-- Ports A and B that owe the notice of the latest state once their link is up (R289, 17). -/
  owed        : Bool × Bool := (false, false)
  /-- The REFCLK count at which the latest notice was last sent (R289, 17). -/
  noticeAt    : Nat := 0
  /-- SEQ of the last tile issued with VALID = 1 (R289, 17). -/
  lastValid   : Nat := 0
  /-- SAF requests SAFE_N asserted (R286, R288, 17). -/
  safeReq     : Bool := true
  /-- The latent-fault tests of this start all passed (R286, R290, 17). -/
  latentOk    : Bool := false
  deriving DecidableEq, Repr

/-- The sentinel output of an instance (R275, 17): 128 × 128 cells, row-major. -/
structure Sentinel where
  cycle : Nat
  cells : List SentCell
  deriving DecidableEq, Repr

/-- CHK beyond its registers. -/
structure Chk where
  /-- Cycles whose sentinel network runs (R275, 17). -/
  running   : List Nat := []
  /-- Complete sentinel outputs of instances in flight (R275, 17). -/
  sentinels : List Sentinel := []
  /-- The lockstep pairs A and B whose comparators have reported a mismatch (R285; CHK_STATUS, 17). -/
  mismatch  : Bool × Bool := (false, false)
  /-- At Guard: the schedule point of the latest guard output (R278, 17). -/
  guardLast : Option Time := none
  /-- The checker SRAM as loaded: the sentinel weights (R274, R295). -/
  sram      : List Byte := []
  deriving DecidableEq, Repr

/-! ## Operation scheduler fabric (spec/10_operations_and_runahead.md) -/

/-- A token (R156, 10). -/
structure Token where
  edge   : Nat
  /-- 0 DATA, 1 DONE, 2 NOTICE, 3 ERROR (R156). -/
  kind   : Nat
  slot   : Nat
  epoch  : Nat
  golden : Bool
  cycle  : Nat
  arg    : Nat
  /-- The entry it is addressed to: graph, unit, index in the unit's list (R155). -/
  dst    : Nat × Nat × Nat := (0, 0, 0)
  deriving DecidableEq, Repr

/-- Which run of a graph an entry belongs to: instance slot, or golden frame. -/
structure RunId where
  graph : Nat
  slot  : Nat
  epoch : Nat
  cycle : Nat
  deriving DecidableEq, Repr

/-- An entry that has fired and has not completed (R157, 10). -/
structure Firing where
  unit  : Nat
  run   : RunId
  index : Nat
  /-- An input was ERROR, or the entry failed its CRC: the entry completes as a no-op (R159). -/
  error : Bool
  deriving DecidableEq, Repr

/-- A running task-class budget: class, the instance or frame it supervises, and its start on the REFCLK count (R170, 10). -/
structure Budget where
  cls      : Nat
  key      : Nat
  /-- The fusion cycle of the supervised work. -/
  cycle    : Nat
  start    : Nat
  reported : Bool := false
  deriving DecidableEq, Repr

/-- TGS beyond its registers. -/
structure Tgs where
  /-- Tokens delivered and not yet consumed (R156, 10). -/
  tokens    : List Token := []
  /-- Entries fired and not yet complete (R157, 10). -/
  firing    : List Firing := []
  /-- Entries fired so far of each unit for each run of a graph (R157, 10). -/
  fired     : List (Nat × RunId × Nat) := []
  /-- Credits taken and not returned, by edge; unlisted edges have all theirs (R157, 10). -/
  creditOut : List (Nat × Nat) := []
  /-- A squash not yet complete: slot mask, causes and the device time of the event (R165, R167, 10). -/
  squash    : Option (Nat × Nat × Time) := none
  /-- Running task-class budgets (R170, 10). -/
  budgets   : List Budget := []
  /-- Tokens that wait in their edge buffer for a table entry (R161, 10). -/
  waiting   : List Token := []
  /-- Tokens sent and not yet received (R156, 10). -/
  sent      : List Token := []
  /-- Edges whose consumer has finished with a token's data and not yet returned the credit (R157, 10). -/
  used      : List Nat := []
  deriving DecidableEq, Repr

/-! ## Instances, contributions and tiles (spec/01_one_fusion_cycle.md, spec/09_fusion_alignment.md) -/

/-- How far a tile of an instance has come (R148, R150, R151, 09). -/
inductive TilePhase where
  /-- Heads not complete. -/
  | waiting
  /-- Heads complete; the comparison of R12 runs. -/
  | comparing
  /-- Compared; held because the instance is run-ahead (R148). -/
  | held
  /-- Issued (R148). -/
  | issued
  /-- Issued, and its recompute's comparison runs (R150). -/
  | recomparing
  /-- Issued, and re-issued after its one amendment (R150). -/
  | amended
  deriving DecidableEq, Repr

/-- A fused tile (R145, R146, 09): header fields and its 1,024 cells of 8 bytes. -/
structure Tile where
  index    : Nat
  seq      : Nat
  tov      : Time
  age      : Nat
  domain   : Nat
  included : Nat
  excluded : Nat
  flags    : Nat
  amend    : Nat
  cycle    : Nat
  cells    : List (BitVec 64)
  deriving DecidableEq, Repr

/-- One tile of an instance in flight. -/
structure TileSt where
  phase  : TilePhase := .waiting
  /-- The tile as composed, from heads complete until it is issued (R148). -/
  tile   : Option Tile := none
  /-- The result of its comparison: the checker disagreed, or UNCHECKED (R276, R277). -/
  bad    : Bool := false
  /-- Device time at which the heads fired (R150). -/
  fired  : Option Time := none
  /-- A frame that amends this tile awaits the recompute (R150). -/
  pendingAmend : Bool := false
  deriving DecidableEq, Repr

/-- One lifted or output block of a contribution: its tile, its flags, its store buffer (R99, R112, R139). -/
structure Block where
  tile     : Nat
  buffer   : Nat
  empty    : Bool := false
  degraded : Bool := false
  overflow : Bool := false
  /-- Sites of its tile, and its 64-byte header as emitted; a block without rows has no other place (R99). -/
  sites    : Nat := 0
  header   : List Byte := []
  deriving DecidableEq, Repr

/-- A contribution: a camera frame's lifted blocks, or an instance's pillar output (09, Latest values). -/
structure Contribution where
  /-- The camera stream; none for the pillar value shared by the lidars. -/
  stream  : Option Nat
  /-- STAMP, or P of the instance: the warp time. -/
  time    : Time
  /-- CAL_GEN of the lifted blocks (R113, R152). -/
  calGen  : Nat := 0
  blocks  : List Block := []
  /-- The ego cell of the instance whose table it is; 256, 256 for a camera (R141). -/
  ego     : Int × Int := (256, 256)
  /-- FRAME_END arrival (R150), for a camera. -/
  arrival : Time := 0
  /-- Lidars that kept records in the table, with OLDEST of each (R83, R139). -/
  oldest  : List (Nat × Time) := []
  /-- Flags of the instance summary that tiles inherit (R147): OVERFLOW_POINTS, DEGRADED, OVF_PILLARS tile mask. -/
  ovfPoints : Bool := false
  degraded  : Bool := false
  ovfTiles  : List Nat := []
  deriving DecidableEq, Repr

/-- A fusion instance in flight (R10, R11, R137, 01 and 09). -/
structure Inst where
  /-- Fusion cycle number (R138). -/
  cycle     : Nat
  tov       : Time
  deadline  : Time
  /-- Budget b in ns, in LATEST mode (R137). -/
  budget    : Nat := 0
  /-- It opened under the n = 0 rule; else the ToV and budget of the instance before it (R137, R138). -/
  first     : Bool := false
  prevTov   : Time := 0
  prevB     : Nat := 0
  /-- Start of the ingest window (R10). -/
  winStart  : Time
  openedAt  : Time
  /-- Streams included and excluded, and the enabled streams (R52, R140). -/
  included  : Nat := 0
  excluded  : Nat := 0
  /-- Streams quarantined from this instance on: older values of theirs are not used (R140). -/
  emptied   : List Nat := []
  /-- GLZ settings in force for the instance (R152): ego cell, amend window in ns. -/
  ego       : Int × Int := (256, 256)
  amendWin  : Int := 0
  /-- Pending values (R139). -/
  pending   : List Contribution := []
  tiles     : List TileSt := List.replicate 256 {}
  /-- The checker reported a disagreement in the cycle: later tiles carry SAFE_INVALID (R148). -/
  disagreed : Bool := false
  warped    : Bool := false
  /-- The amend window has closed (R150). -/
  amendClosed : Bool := false
  /-- Pending amendments have been abandoned or all re-issued; missed tiles reused (R150, R151). -/
  reuseDone : Bool := false
  /-- The instance used reuse, and the completion of its last computed tile (head_time of R137). -/
  reused    : Bool := false
  lastDone  : Option Time := none
  /-- Late camera frames of the cycle: stream and whether they amended a tile (R150). -/
  late      : List (Nat × Bool) := []
  /-- SEQ of the first tile issued, and the issue order (R328, R329). -/
  issueOrder : List Nat := []
  baseSeq   : Nat := 0
  /-- Tiles served by a home expert (R147, R267). -/
  fallback  : List Nat := []
  /-- Held tiles in the order their comparisons ended (R148). -/
  heldOrder : List Nat := []
  /-- A SUSPECT response fell in the cycle (R286). -/
  suspect   : Bool := false
  /-- Estimates the instance has used: SOLVER_DEGRADED, WARM_DISCARDED (R123); an identity or a stale pose (R141, R390). -/
  solverDeg : Bool := false
  warmDisc  : Bool := false
  poseDeg   : Bool := false
  /-- Its sparse convolution has emitted its last block (R91). -/
  pillarDone : Bool := false
  /-- Amending frames that tiles fired later use directly (R150). -/
  amendVals : List Contribution := []
  /-- Depth-bin table banks in force, per camera slot (R113). -/
  banks     : List Nat := []
  /-- Subscriber settings in force for the cycle: enabled, LAUNCH_OFFSET in µs, tile mask (R342). -/
  subs      : List (Bool × Nat × Nat) := []
  deriving DecidableEq, Repr

/-- What stays known of a cycle after it is final, while the tile store may hold it (R151, R329, R331). -/
structure CycleRec where
  cycle      : Nat
  tov        : Time
  ego        : Int × Int
  issueOrder : List Nat
  subs       : List (Bool × Nat × Nat)
  deriving DecidableEq, Repr

/-- The head input of a tile (R142): the camera plane, 1,024 rows of 64 * C_LIFT channels, and the pillar plane, 1,024 rows of the last
layer's channels. -/
structure HeadInput where
  cycle  : Nat
  tile   : Nat
  camera : List Byte
  pillar : List Byte
  deriving DecidableEq, Repr

/-- GLZ beyond its registers. -/
structure Glz where
  /-- The head input composed last (R142). -/
  headIn    : Option HeadInput := none
  /-- Instances in flight, oldest (the head) first (R11, R162). -/
  insts     : List Inst := []
  /-- The next cycle number (R138). -/
  nextCycle : Nat := 0
  /-- The next instance opens under the n = 0 rule (R137, R350). -/
  fresh     : Bool := true
  /-- Opening of the first window since start or since the return to Active (R10). -/
  openFrom  : Time := 0
  /-- ToV and budget of the latest instance opened, which the next opening needs (R137). -/
  prevTov   : Time := 0
  prevBudget : Nat := 0
  /-- Settled camera values and the settled pillar value (R139). -/
  settled   : List Contribution := []
  /-- Latest-value time of each lidar stream (R139). -/
  lidarTime : List (Nat × Time) := []
  /-- head_time of the last 8 final instances, newest first; none where the instance reused a tile (R137). -/
  headTimes : List (Option Int) := []
  /-- SEQ of the next tile (R149). -/
  seq       : Nat := 0
  /-- The ToV of the latest instance has had its effects (R169, R170, 10). -/
  tovDone   : Bool := false
  /-- ToV, ego cell, reuse and issue order of the latest final cycle (R151, R327, R329). -/
  finalCycle : Option Nat := none
  finalReused : Bool := false
  /-- The latest final cycles, newest first, at most 8: the tile store's greatest depth (R141, R151, R329). -/
  past      : List CycleRec := []
  /-- Published ego-state estimates held in the ring at GLZ_TRAJ_BASE, newest first: estimate time and address (R141). -/
  traj      : List (Time × Nat) := []
  trajNext  : Nat := 0
  /-- Streams quarantined from the next instance to open on (R52, R140). -/
  emptyNext : List Nat := []
  deriving DecidableEq, Repr

/-! ## Start-up, image and commits (spec/18_startup_and_image.md) -/

/-- A declared tunable (R300, 18). -/
structure Tunable where
  id     : Nat
  /-- 0 FIELD, 1 CAL_BANK. -/
  kind   : Nat
  signed : Bool
  host   : Bool
  fw     : Bool
  lsb    : Nat
  width  : Nat
  slot   : Nat
  addr   : Nat
  min    : Int
  max    : Int
  deriving DecidableEq, Repr

/-- A commit accepted and pending, or under check (R304 to R306, 18). -/
structure Commit where
  id      : Nat
  /-- The host channel, with the port and source address of its frame; none for the firmware channel (R304, R335). -/
  host    : Option (Nat × Nat × Nat)
  atTime  : Bool
  /-- APPLY_TIME of AT_TIME; else, once checked, the earliest apply instant: 500 µs after checking ended (R306). -/
  time    : Time := 0
  items   : List (Nat × Nat)
  /-- CRC of the request passed (R305). -/
  crcOk   : Bool
  /-- The apply instant, once checked (R306), and the first cycle that uses the settings. -/
  applyAt : Time := 0
  cycle   : Nat := 0
  /-- The apply instant is the opening of that cycle's instance (NEXT_BOUNDARY while instances open). -/
  boundary : Bool := false
  deriving DecidableEq, Repr

/-- The start record's fields that no register holds (R303, 18). -/
structure StartRec where
  slot     : Nat := 0xFF
  reasonA  : Nat := 0
  reasonB  : Nat := 0
  level    : Nat := 0
  svn      : Nat := 0
  imageSeq : Nat := 0
  levelAt  : Nat := 0
  imageId  : List Byte := zeroBytes 32
  deriving DecidableEq, Repr

/-- The steps of the start-up sequence (R301, 18). -/
inductive StartStep where
  /-- Reset released and not yet started, or held in reset. -/
  | inReset
  /-- Slots verified and one chosen; BIST and training to come (R301 steps 1 to 4). -/
  | chosen
  /-- Sections loaded, settings checked and locked (R298). -/
  | loaded
  /-- Latent-fault tests done, acquisition started (R301 steps 9, 10). -/
  | acquiring
  /-- The service level has been reported (R301 step 12). -/
  | up
  /-- No slot loads: Alive until the next reset (R302). -/
  | noImage
  deriving DecidableEq, Repr

/-- Start-up state, the image in force, and the commit channels. -/
structure Boot where
  /-- The attached flash's contents; an unlisted byte reads 0xFF, the erased value (R293, 18). -/
  flash     : List (Nat × BitVec 8) := []
  step      : StartStep := .inReset
  /-- Reset code whose sequence is running (R355, 21). -/
  running   : Option Nat := some 1
  /-- The slots accepted by the ROM that have not been tried, best first (R296, R302). -/
  accepted  : List Nat := []
  /-- RWL fields are locked (R298 step 5, R7). -/
  locked    : Bool := false
  /-- The service level reported; none before the report (R2, 00). -/
  level     : Option Nat := none
  /-- Required units failed, fenced or lost (R2, R3, 00). -/
  lost      : List ReqUnit := []
  /-- An Alive unit failed: held in reset (R2, 00). -/
  held      : Bool := false
  /-- The highest level that may be reported after a reset that reruns no self-test (R3, 00). -/
  cap       : Option Nat := none
  /-- BIST and DDR4 training have ended in this sequence (R301, 18). -/
  bistDone  : Bool := false
  ddrDone   : Bool := false
  /-- Mask of the Praline cores present (R303, 18). -/
  cores     : Nat := 0
  /-- The REFCLK count at reset release (LEVEL_AT of R303, 18). -/
  releasedAt : Nat := 0
  start     : StartRec := {}
  /-- The tunables the loaded image declares (R300, 18). -/
  tunables  : List Tunable := []
  /-- COMMIT_Q and RESULT_Q of the loaded manifest (R295, 18). -/
  commitQ   : Nat := 0
  resultQ   : Nat := 0
  /-- Flash offset of the loaded slot's manifest, for the warm reset's check (R356, 21). -/
  manifestAt : Nat := 0
  /-- The host channel's shadow: items in staging order (R304, R334). -/
  hostShadow : List (Nat × Nat) := []
  stageSeq  : Nat := 0
  /-- A commit under check (R305). -/
  checking  : List Commit := []
  /-- Pending commits in acceptance order (R306). -/
  pending   : List Commit := []
  /-- Start of Praline cores: their first instruction address (R298). -/
  entry     : Option Nat := none
  deriving DecidableEq, Repr

/-! ## Host ports (spec/20_host_interface.md) -/

/-- An open TILE_READ with WAIT: port, source address, request identifier, cycle, tiles still to send, and order option (R330, 20). -/
structure WaitRead where
  port  : Nat
  src   : Nat
  reqId : Nat
  cycle : Nat
  tiles : List Nat
  deriving DecidableEq, Repr

/-- The Ethernet header of a frame on a host port: destination, EtherType (R323), and its IEEE 802.1Q tag when it has one: the VLAN
identifier and the priority code point (R322, 20). -/
structure EthHead where
  dst       : Nat
  etherType : Nat
  tag       : Option (Nat × Nat)
  deriving DecidableEq, Repr

/-- A frame that leaves the device on a host port: port, destination, Deruento payload. -/
structure HostFrame where
  port  : Nat
  eth   : EthHead
  bytes : List Byte
  deriving DecidableEq, Repr

/-- What subscribers have been sent: subscriber, cycle, tile. -/
structure Hst where
  /-- Learned host addresses of ports A and B (R336, 20). -/
  learned    : List (Option Nat) := [none, none]
  /-- Open WAIT reads (R330, 20). -/
  waits      : List WaitRead := []
  /-- The link-reset nonce last given: port, nonce, time (R337, 20). -/
  nonce      : Option (Nat × Nat × Time) := none
  /-- The last 8 host COMMIT_IDs with their results, newest first (R335, 20). -/
  remembered : List (Nat × List Byte) := []
  /-- Trains built per subscriber and cycle (R331, 20). -/
  trains     : List (Nat × Nat) := []
  /-- Tiles sent to subscribers: subscriber, cycle, tile (R331, 20). -/
  sent       : List (Nat × Nat × Nat) := []
  /-- TC10 sleep requests sent and not acknowledged, by port, with their time (R340, 20). -/
  sleepReq   : List (Option Time) := [none, none]
  deriving DecidableEq, Repr

/-! ## Root of trust (spec/19_security.md) -/

/-- One CAK fuse slot (R309, 19): the CAK as wrapped under K_KEK, its CKN, and its two bits. -/
structure CakSlot where
  wrapped : List Byte := []
  ckn     : List Byte := []
  valid   : Bool := false
  revoked : Bool := false
  deriving DecidableEq, Repr

/-- The fuse array (R309, 19). -/
structure Fuses where
  ownerHash : List Byte := zeroBytes 32
  rollback  : Nat := 0
  seedWrapped : List Byte := zeroBytes 40
  pufHelper : List Byte := zeroBytes 512
  /-- 0b0000 BLANK, 0b0001 OWNED, 0b0011 DECOMMISSIONED. -/
  lifecycle : Nat := 0
  macA      : Nat := 0
  macB      : Nat := 0
  caks      : List CakSlot := List.replicate 4 {}
  debugDisable : Bool := false
  deriving DecidableEq, Repr

/-- A quote request: port, source address, request identifier, nonce, INCLUDE_TUNED (R314, R338). -/
structure QuoteReq where
  port  : Nat
  src   : Nat
  reqId : Nat
  nonce : List Byte
  tuned : Bool
  deriving DecidableEq, Repr

/-- MACsec and MKA of one host port (R318, 19). -/
structure Mka where
  live   : Bool := false
  /-- The secure association key in force: which of the SAKs distributed since reset, if any. -/
  sak    : Option Nat := none
  /-- Transmit packet number (R318). -/
  txPn   : Nat := 1
  /-- Highest packet number received. -/
  rxPn   : Nat := 0
  /-- The REFCLK count of the latest hello sent. -/
  hello  : Option Nat := none
  deriving DecidableEq, Repr

/-- SEC beyond its registers. -/
structure Sec where
  fuses      : Fuses := {}
  /-- K_PUF, the seed and K_KEK, as derived at the latest power-on or RESET_N; none when zeroised or not derived (R310, R321, 19). -/
  kek        : Option (List Byte) := none
  seed       : Option (List Byte) := none
  /-- The unwrapped CAK in force (R319, 19). -/
  cak        : Option (List Byte) := none
  /-- The TARGET of a fuse advance under way (R312, 19). -/
  rollTarget : Option Nat := none
  /-- The quote in signing: its request and its captured body (R315, 19). -/
  signing    : Option (QuoteReq × List Byte) := none
  waiting    : Option QuoteReq := none
  quoteSeq   : Nat := 0
  /-- The latest challenge: nonce and the device time of its read (R317, 19). -/
  challenge  : Option (List Byte × Time) := none
  /-- A response in verification (R317, 19). -/
  response   : Option (List Byte × List Byte × Time) := none
  refusals   : Nat := 0
  lockout    : Bool := false
  mka        : List Mka := [{}, {}]
  /-- The device restarted after a tamper reset (R321, 19). -/
  tampered   : Bool := false
  /-- Inputs PROV_EN and TEST_EN as sampled (R311, 19; R374, 23). -/
  provEn     : Bool := false
  testEn     : Bool := false
  deriving DecidableEq, Repr

/-! ## Clocks, power and reset (spec/21_clocks_power_reset.md) -/

/-- CLK, PWR, RST beyond their registers. -/
structure Pwr where
  /-- REFCLK cycles since the last reset that was no warm one, on which SAF and TGS timers count (R284, 17). -/
  refclk   : Nat := 0
  /-- PLLs enabled and not READY: the REFCLK count at each enable (R344, 21). -/
  pllStart : List (Option Nat) := [none, none, none, none]
  /-- REFCLK is lost: the levels of R348 are forced (R348, 21). -/
  refLost  : Bool := false
  /-- A low-power TARGET has applied and the head still runs to final (R349, 21). -/
  goingTo  : Option Nat := none
  /-- A wake event during Doze entry, or the wake in progress: its source (R352, R358, 21). -/
  wakeSrc  : Option Nat := none
  /-- PLL_EN and SEL of CLK_SRC as Doze entry saved them (R351, 21). -/
  dozeEn   : Nat := 0
  dozeSel  : Nat := 0
  /-- The pages of generation 0 held in the DDR4 save region: the address in the history partition, the place in the
  region, the length (R351, 21). -/
  savedPages : List (Nat × Nat × Nat) := []
  /-- Address ranges of the partitions that have lost power in Doze (R222, 13). -/
  unpowered : List (Nat × Nat) := []
  /-- MAIN_EN is driven high: from the release of the power-on reset, low in Standby (R353, 21; R375, 23). -/
  mainEn   : Bool := true
  /-- VDD_AON is below its threshold: the device is Off (R378, 23). -/
  off      : Bool := false
  /-- The ball SAFE_N is asserted (low) (R288, R348; 23). -/
  safeN    : Bool := true
  /-- The VID code driven for VDD_CORE and the REFCLK count of its last step (R377, 23). -/
  vid      : Nat := 16
  vidAt    : Nat := 0
  deriving DecidableEq, Repr

/-! ## Memory (spec/13_memory.md) -/

/-- Memory beyond the registers: contents, poison, scrub positions. -/
structure Mem where
  /-- Nougat, DDR4: the bytes of the address space (R210, 13) in canonical form; an unlisted byte reads 0 (R216, R218). -/
  bytes    : List Host.Cell := []
  /-- Word addresses (64-byte aligned) that hold the poison syndrome, rising (R214, R215, 13). -/
  poison   : List Nat := []
  /-- Corrected words whose write-back awaits a free slot of the bank (R214, 13). -/
  writeBack : List Nat := []
  /-- Next row of the patrol scrub, per Nougat bank; unlisted 0 (R215, 13). -/
  scrubRow : List (Nat × Nat) := []
  /-- Next burst of the DDR4 patrol scrub, per channel; unlisted 0 (R220, 13). -/
  ddrScrub : List (Nat × Nat) := []
  /-- Retries of the CA command in progress, per channel (R220, 13). -/
  caRetry  : List (Nat × Nat) := []
  deriving DecidableEq, Repr

/-! ## Sensor ingest (spec/03_sensor_ingest.md) -/

/-- A camera frame between Frame Start and its close (R36 to R39, R388). -/
structure OpenFrame where
  stream     : Nat
  arrival    : Time
  /-- Lines received so far, which number the line items (R39, R47). -/
  lines      : Nat := 0
  incomplete : Bool := false
  /-- The embedded time of a CHECK = 2 stream, once its packet arrived; `bad` when that packet was too short (R388). -/
  embedded   : Option Time := none
  embSeen    : Bool := false
  /-- Items of the frame that wait for its stamp, in order: FLAGS and payload (R37 with STAMP_SRC = 1). -/
  held       : List (Nat × List Byte) := []
  deriving DecidableEq, Repr

/-- The sweep of a lidar stream (R42, R43). -/
structure SweepSt where
  /-- First-point azimuth of the previous packet (an IEEE binary32 value), in azimuth mode. -/
  azimuth  : Option Nat := none
  /-- Counter of the previous packet, in counter mode. -/
  counter  : Option Nat := none
  points   : Nat := 0
  /-- A packet of this sweep was discarded: every later one is too (R43). -/
  exceeded : Bool := false
  /-- SWEEP_OVERFLOW is owed on the next item (R43). -/
  owed     : Bool := false
  deriving DecidableEq, Repr

/-- An encoder capture input (R46). -/
structure EncSt where
  /-- The level of the input after its last edge, once there was one, and the time of that edge (R46). -/
  level    : Option Bool := none
  edgeAt   : Option Time := none
  count    : Int := 0
  lastRec  : Option Time := none
  lastIdle : Option Time := none
  err      : Bool := false
  deriving DecidableEq, Repr

/-- A golden burst that a receiver injects line by line (R48, R280). -/
structure Burst where
  rx    : Nat
  num   : Nat
  entry : Nat
  /-- Lines injected of this burst; 0 also after an abandoned burst. -/
  next  : Nat := 0
  deriving DecidableEq, Repr

/-- ING beyond its registers. -/
structure Ing where
  frames    : List OpenFrame := []
  /-- Last Frame Start per stream (R48, R50). -/
  frameAt   : List (Nat × Time) := []
  /-- Last Frame End, or closing event, per receiver: the start of its vertical blanking (R48, R280). -/
  endAt     : List (Nat × Time) := []
  /-- Last non-zero frame number per stream, and frames missed (R38). -/
  frameNo   : List (Nat × Nat) := []
  missed    : Nat := 0
  /-- Sweep state per lidar stream (R42, R43). -/
  sweeps    : List (Nat × SweepSt) := []
  /-- Items written per stream, modulo 2^32 (SEQ of R47). -/
  seqs      : List (Nat × Nat) := []
  /-- Arrival of the last sample per stream (R51). -/
  lastRx    : List (Nat × Time) := []
  /-- Pending data-ready edge of each SPI slot, and the edge of the read in progress (R45). -/
  spiEdge   : List (Option Time) := List.replicate 4 none
  spiRead   : List (Option Time) := List.replicate 4 none
  imuOverruns : Nat := 0
  enc       : List EncSt := List.replicate 8 {}
  /-- CAN FD controllers in bus-off (R44). -/
  busOff    : List Bool := List.replicate 4 false
  /-- The end of the grace after a discontinuity (R53). -/
  graceEnd  : Option Time := none
  bursts    : List Burst := []
  /-- Receive buffers that are not empty: receiver, time, content in 10^-6 pixels (R56). -/
  buffers   : List (Nat × Time × Nat) := []
  deriving DecidableEq, Repr

/-! ## Stream queues (spec/04_stream_queues.md) -/

/-- A stored word of a queue (R59): its data bytes, its sideband, and what the model keeps of its write. -/
structure QWord where
  data   : List Byte
  /-- VALID, 1 to 64. -/
  valid  : Nat := 64
  gap    : Bool := false
  /-- The word was stored poisoned (R59). -/
  poison : Bool := false
  /-- The last word of an item in a non-packing queue (R60). -/
  last   : Bool := false
  /-- PAR, as computed on entry to its stage, and CRC16, as computed at the producer port (R59, R61). -/
  par    : Bool := false
  crc    : Nat := 0
  /-- Checks that failed on the word's way out of Nougat: parity, the Nougat check, and which came first (1 parity, 2 the other) (R61). -/
  parErr : Bool := false
  eccErr : Bool := false
  first  : Nat := 0
  deriving DecidableEq, Repr

/-- A stream queue beyond its registers (R57 to R67). Positions are absolute word indexes and a byte within the word. -/
structure Queue where
  /-- Stored words from the hold point on, oldest first. -/
  words   : List QWord := []
  /-- Absolute index of the first of them. -/
  base    : Nat := 0
  /-- Read position (R63). -/
  rdWord  : Nat := 0
  rdByte  : Nat := 0
  /-- Mark slots (R63). -/
  marks   : List (Option (Nat × Nat)) := [none, none, none, none]
  /-- Where each item held begins, word and byte, and the sum of the steps of device time at its write, from which a consumer finds
  the steps since (R20). -/
  writes  : List (Nat × Nat × Int) := []
  /-- Bytes of the word in packing (R60). -/
  packing : List Byte := []
  /-- Pending drop counts that await space: items and bytes (R65). -/
  pendItems : Nat := 0
  pendBytes : Nat := 0
  /-- The REFCLK count at the timer's last start, while it runs (R67). -/
  timer   : Option Nat := none
  /-- The read position has been moved back to within a word, which is delivered again (R61, R63). -/
  again   : Bool := false
  /-- The second copies of the read and the write pointer (R62). -/
  rdCopy  : Nat × Nat := (0, 0)
  wrCopy  : Nat := 0
  /-- The REFCLK count at the latest reset of the queue (R62, R68). -/
  resetAt : Option Nat := none
  deriving DecidableEq, Repr

/-! ## Point engine (spec/05_point_pipeline.md) -/

/-- A decoded point (R70): coordinates in mm, its time, and the bytes 12 to 14 of its record. -/
structure PointRec where
  x         : Int
  y         : Int
  z         : Int
  t         : Time
  intensity : Nat
  lidar     : Nat
  ret       : Nat
  slice     : Nat
  deriving DecidableEq, Repr

/-- A part: consecutive points of one slot in one slice (R73). -/
structure Part where
  /-- The instance whose window it belongs to (R74). -/
  cycle  : Nat
  slot   : Nat
  slice  : Nat
  mid    : Time
  recs   : List PointRec := []
  /-- Device time of its completion, from which POSE_WAIT counts (R76). -/
  doneAt : Time := 0
  deriving DecidableEq, Repr

/-- The slicing state of a lidar slot (R72): the sweep's start and the open part. -/
structure LidarSlot where
  start  : Option Time := none
  part   : Option Part := none
  /-- Records staged so far in its staging area (R70). -/
  staged : Nat := 0
  deriving DecidableEq, Repr

/-- A pillar (R79 to R82). -/
structure Pillar where
  key     : Nat
  /-- Pillar index in the table. -/
  idx     : Nat
  cls     : Nat
  reserve : Bool
  /-- Its hash slot: bucket * 4 + way. -/
  hslot   : Nat
  offered : Nat := 0
  /-- Kept records by voxel. -/
  recs    : List (Nat × PointRec) := []
  deriving DecidableEq, Repr

/-- What a table counts of one lidar (R83). -/
structure LidarCount where
  lidar     : Nat
  decoded   : Nat := 0
  parts     : Nat := 0
  predicted : Bool := false
  clamped   : Bool := false
  late      : Bool := false
  deriving DecidableEq, Repr

/-- A pillar table in use (R82). -/
structure PTable where
  /-- PTS_TABLE index; 4 for the golden table (R88). -/
  index     : Nat
  cycle     : Nat
  p         : Time
  /-- Hash slots that are not empty: slot, 1 used or 2 tombstone, key (R79). -/
  hash      : List (Nat × Nat × Nat) := []
  /-- Pillars in order of admission. -/
  pillars   : List Pillar := []
  lidars    : List LidarCount := []
  noReturn  : Nat := 0
  outGrid   : Nat := 0
  outZ      : Nat := 0
  superseded : Nat := 0
  refused   : Nat := 0
  /-- Evicted pillars, and the kept points lost with them (R81). -/
  evicted   : Nat := 0
  evictedPts : Nat := 0
  overflow  : Nat := 0
  /-- Summary FLAGS and the OVF_PILLARS tiles (R83, R84). -/
  ovfPoints : Bool := false
  degraded  : Bool := false
  ovfTiles  : List Nat := []
  closed    : Bool := false
  /-- Consumed by sparse convolution; read by the checker (R82). -/
  consumed  : Bool := false
  read      : Bool := false
  deriving DecidableEq, Repr

/-- PTS's view of an instance's window: the slicing state saved with its mark, the tunables in force, its intake (R74, R85, R86). -/
structure PtsWin where
  cycle   : Nat
  saved   : List LidarSlot
  /-- GUARD_RADIUS and CLASS_WIDTH, mm. -/
  geom    : Nat × Nat
  /-- Rotation and translation registers per lidar slot. -/
  ext     : List (Nat × Nat)
  ended   : Bool := false
  /-- The window took its table only after its close (R82). -/
  waited  : Bool := false
  deriving DecidableEq, Repr

/-- PTS beyond its registers. -/
structure Pts where
  slots  : List LidarSlot := List.replicate 16 {}
  wins   : List PtsWin := []
  tables : List PTable := []
  /-- Completed parts not yet compensated, oldest first (R75). -/
  parts  : List Part := []
  golden : Option PTable := none
  /-- Slicing of the golden frame's points per lidar slot: the sweep's start and the open part's slice (R88). -/
  goldSlices : List (Nat × Time × Option Nat) := []
  /-- Output blocks of the latest golden pass (R102). -/
  goldBlocks : List Block := []
  /-- The latest instance summary emitted (R83). -/
  summary : List Byte := []
  deriving DecidableEq, Repr


/-! ## Sparse convolution (spec/06_sparse_convolution.md) -/

/-- The instance, or the golden pass, that sparse convolution runs (R91). -/
structure Spc where
  /-- Its closed table, with the ego cell and cell size in force (R91). -/
  table    : PTable
  ego      : Int × Int
  cell     : Nat
  geom     : Nat × Nat
  /-- Sites in order: key and range class (R92). -/
  sites    : List (Nat × Nat) := []
  /-- Sites of layer 0 (PTS_SPC_LAST.SITES_IN, R104). -/
  sitesIn  : Nat := 0
  /-- Site-table slots in use: slot, 1, key (R92). -/
  hash     : List (Nat × Nat × Nat) := []
  /-- Sites before the current layer (R95, R97). -/
  nIn      : Nat := 0
  layer    : Nat := 0
  /-- The current layer has been dilated (R95). -/
  dilated  : Bool := true
  /-- Next staging block of the layer (R98). -/
  block    : Nat := 0
  /-- Staging blocks staged so far, for the ring of 8 slots. -/
  staged   : Nat := 0
  /-- Next tile to emit (R99), and the blocks emitted. -/
  tile     : Nat := 0
  blocks   : List Block := []
  /-- R96, R101. -/
  refused  : Nat := 0
  fullAt   : Option Nat := none
  ovfTiles : List Nat := []
  degraded : Bool := false
  deriving DecidableEq, Repr


/-! ## Lift engine (spec/07_camera_lift.md) -/

/-- How far a camera frame has come in LFT (R108, R109, R111). -/
inductive LftPhase where
  /-- Its lines are being normalised into its frame slot. -/
  | reading
  /-- Admitted: its frame token waits for, or runs in, the backbone. -/
  | waiting
  /-- Its feature columns are written; it waits for the lift unit. -/
  | columns
  /-- Lifted; kept until its instance is final, for a rerun (R114). -/
  | lifted
  deriving DecidableEq, Repr

/-- A camera frame in LFT. -/
structure LftFrame where
  cam      : Nat
  slot     : Nat
  stream   : Nat
  /-- SEQ of its FRAME_START item, by which a rewound queue's copy of it is known. -/
  startSeq : Nat
  stamp    : Time
  /-- BLACK and GAIN at its FRAME_START (R108). -/
  norm     : Nat
  gain     : Nat
  phase    : LftPhase := .reading
  /-- Lines seen, the latest line's number plus 1, the latest even line's data, and whether every line had WIDTH pixels. -/
  seen     : Nat := 0
  nextLine : Nat := 0
  prev     : List Byte := []
  shapeOk  : Bool := true
  /-- It is the golden frame (R114); it was lifted before, and is lifted again after a squash (R114, R150). -/
  golden   : Bool := false
  again    : Bool := false
  /-- Its place in the order of backbone completion (R111), and where its records stand in the stream queue that carries them (R109). -/
  order    : Nat := 0
  pos      : Option (Nat × Nat) := none
  /-- Instance, FRAME_END arrival and SEQ of the FRAME_END item (R10, R112). -/
  cycle    : Nat := 0
  arrival  : Time := 0
  endSeq   : Nat := 0
  /-- Feature-column records (R109). -/
  records  : List (List Byte) := []
  degraded : Bool := false
  deriving DecidableEq, Repr

/-- The lift in progress (R111): its frame, table bank, next run and the blocks emitted. -/
structure Lifting where
  frame  : LftFrame
  bank   : Nat
  run    : Nat := 0
  blocks : List Block := []
  deriving DecidableEq, Repr

/-- LFT beyond its registers. -/
structure Lft where
  /-- Frames in the order of their lifts once their columns are written. -/
  frames  : List LftFrame := []
  lifting : Option Lifting := none
  /-- Of the golden lines: the latest even line's data, the camera slot, and the stamp of the first (R114). -/
  goldPrev : List Byte := []
  goldCam  : Nat := 0
  goldStamp : Time := 0
  /-- Blocks of the latest golden lift (R112, R114). -/
  goldBlocks : List Block := []
  /-- Backbones completed so far, which numbers frames in order (R111). -/
  doneNext : Nat := 0
  /-- SEQ of the latest item taken of each camera slot: a rewound queue delivers older items again (R114). -/
  seqs     : List (Nat × Nat) := []
  deriving DecidableEq, Repr



/-! ## The least-squares solver (spec/08_solver.md) -/

/-- An ego-state estimate (R120): fields as in the record, before they are put in its widths. -/
structure Est where
  time   : Time
  p      : Int × Int × Int := (0, 0, 0)
  /-- Rotation, 2^-30 units, w first. -/
  q      : Int × Int × Int × Int := (1073741824, 0, 0, 0)
  v      : Int × Int × Int := (0, 0, 0)
  w      : Int × Int × Int := (0, 0, 0)
  flags  : Nat := 0
  iters  : Nat := 0
  pivots : Nat := 0
  seq    : Nat := 0
  deriving DecidableEq, Repr

/-- A sample gathered by SLV (R118). -/
inductive EgoItem where
  /-- An IMU sample: slot, stamp, raw gyro and accelerometer fields (R119). -/
  | imu (slot : Nat) (stamp : Time) (gyro acc : List Int)
  /-- An encoder record: slot, stamp, count, time since the previous record; an idle record has count 0 (R118). -/
  | wheel (slot : Nat) (stamp : Time) (count : Int) (dt : Int)
  /-- A CAN FD sample, which forms no factor (R118). -/
  | can (stamp : Time)
  deriving DecidableEq, Repr

/-- The state of a node, the linearisation point (R117): position in mm, velocity in mm/s, biases in rad/s and m/s², three dyadic numbers
each, and the vehicle-to-odometry rotation in 2^-30 units. -/
structure EgoState where
  p  : List Dy := []
  q  : Int × Int × Int × Int := (2 ^ 30, 0, 0, 0)
  v  : List Dy := []
  bg : List Dy := []
  ba : List Dy := []
  deriving DecidableEq, Repr

/-- A node of the window (R117). -/
structure SlvNode where
  time  : Time
  /-- Its slot in the resident structure (R124). -/
  slot  : Nat := 0
  /-- Start of its interval: the node before it. -/
  prev  : Time
  items : List EgoItem := []
  /-- The IMU samples held from before its interval (R118). -/
  before : List EgoItem := []
  /-- Registration records attached (R118). -/
  regs  : List (List Byte) := []
  /-- The IMU slots that give it a factor; it has a wheel factor (R118). -/
  imus  : List Nat := []
  wheel : Bool := false
  state : EgoState := {}
  deriving DecidableEq, Repr

/-- The settings of a solve that a commit may change (R135, R136). -/
structure SlvSet where
  iters    : Nat
  window   : Nat
  pivotMin : Nat
  lambda   : Nat
  asmBudget : Nat
  egoConv  : Nat
  baConv   : Nat
  baTimeout : Nat
  predictMax : Nat
  deriving DecidableEq, Repr

/-- An ego solve: from its intake close until its estimate is published (R118, R121). -/
structure EgoSolve where
  time   : Time
  set    : SlvSet
  /-- The window it works on; the window stands unchanged until the solve ends (R127, R130). -/
  nodes  : List SlvNode
  prior  : List Int
  sig    : Nat
  /-- FLAGS so far. -/
  flags  : Nat := 0
  iters  : Nat := 0
  pivots : Nat := 0
  /-- The front stage stopped at ASM_BUDGET with this many nodes assembled (R124). -/
  cut    : Option Nat := none
  /-- The last iteration has ended; the solve failed: overflow or a failed pivot (R127, R128). -/
  finished : Bool := false
  failed : Bool := false
  /-- An uncorrectable Nougat error was met in the resident structure (R135). -/
  nougat : Bool := false
  /-- It has ended; its duration, 0.1 µs (SLV_EGO_LAST). -/
  ended  : Bool := false
  dur    : Nat := 0
  start  : Time
  deriving DecidableEq, Repr

/-- A bundle-adjustment step (R131). -/
structure BaStep where
  cams  : Nat
  kfs   : Nat
  lms   : Nat
  obs   : Nat
  /-- It starts from the X of the previous run (R131); a warm start was discarded (R129). -/
  warm  : Bool
  discarded : Bool
  sig   : Nat
  set   : SlvSet
  start : Time
  /-- Pre-empted by an ego solve (R134). -/
  paused : Bool := false
  deriving DecidableEq, Repr

/-- SLV beyond its registers. -/
structure Slv where
  /-- The window, oldest first (R117). -/
  nodes   : List SlvNode := []
  /-- The prior on the oldest node (R118). -/
  prior   : List Int := []
  /-- Samples gathered and not yet in a node; registration records for later nodes (R118). -/
  items   : List EgoItem := []
  regs    : List (List Byte) := []
  /-- The latest IMU sample of each slot (R118). -/
  lastImu : List EgoItem := []
  /-- The node whose intake closed last; the time after which the next multiple of NODE_PERIOD is the next node; a
  node whose time has passed, across a step, with its intake open (R135). -/
  closed  : Option Time := none
  after   : Option Time := none
  passed  : Option Time := none
  /-- The parameter block, as it stood at start (R119). -/
  param   : List Byte := []
  /-- The state of the newest node when the window was given up, whose biases a cold start holds (R129, R350). -/
  held    : Option EgoState := none
  /-- Update records read and not yet applied: header and mantissas (R125). -/
  updates : List (List Byte × List Int) := []
  solve   : Option EgoSolve := none
  /-- Signature of the previous ego solve; none before the first and after a return to Active (R129, R350). -/
  sig     : Option Nat := none
  /-- The next solve starts from the published state (R135). -/
  fromPublished : Bool := false
  /-- A late sample has been dropped since the last estimate; samples dropped late; ENC_ERR records excluded; records
  dropped (R118, R125). -/
  late    : Bool := false
  lateCount : Nat := 0
  encErrs : Nat := 0
  dropped : Nat := 0
  /-- The previous published estimate; the last one actually solved; the last solve was missed (R122, R130). -/
  last    : Option Est := none
  solved  : Option Est := none
  missed  : Bool := false
  /-- Estimates published (SEQ of R120). -/
  seq     : Nat := 0
  /-- The settings before each commit that a node to come may precede, with its apply instant, oldest first (R135). -/
  heldSets : List (Time × SlvSet) := []
  /-- The step in progress; the signature of the previous run (R129). -/
  ba      : Option BaStep := none
  baSig   : Option Nat := none
  deriving DecidableEq, Repr



/-! ## The matrix array (spec/11_matrix_array.md) -/

/-- How far an array entry has come (R173, R174). -/
inductive ArrPhase where
  /-- Tile operations remain. -/
  | running
  /-- Its chain's set is being stored. -/
  | storing
  /-- Ended; `code` is none for DONE, or the ARG of its ERROR (R159). -/
  | ended (code : Option Nat)
  deriving DecidableEq, Repr

/-- An operation-list entry in execution on a tile (R181). -/
structure ArrOp where
  tile  : Nat
  unit  : Nat
  run   : RunId
  /-- Index of the entry in its unit's list. -/
  index : Nat
  /-- The 64-byte descriptor and the entry's COUNT (R155, R181). -/
  desc  : List Byte
  count : Nat
  rep   : Nat := 0
  /-- The weight blocks of the repetition's tile operations in order, and the number of the operation it has come to (R98, R181);
  its operand rows are zero where a staging header has failed its CRC (R101). -/
  blocks : List Nat := []
  block  : Nat := 0
  zeroed : Bool := false
  /-- The accumulator set it accumulates into (R172). -/
  set   : Nat := 0
  phase : ArrPhase := .running
  deriving DecidableEq, Repr

/-- An accumulator set held by a chain (R172, R174). -/
structure ArrSet where
  tile    : Nat
  set     : Nat
  unit    : Nat
  run     : RunId
  /-- Rows of 32-bit accumulators (R179). -/
  rows    : List (List Nat) := []
  /-- Its STORE entry has fired; it is being stored (R174). -/
  closing : Bool := false
  storing : Bool := false
  deriving DecidableEq, Repr

/-- Half a weight buffer and half an operand buffer of a tile, loaded for one tile operation (R172, R173). -/
structure ArrBuf where
  tile    : Nat
  half    : Nat
  unit    : Nat
  run     : RunId
  index   : Nat
  rep     : Nat
  block   : Nat
  /-- The weight block, at most 4,352 bytes, and the operand rows, at most 34,816 bytes. -/
  weights : List Byte
  rows    : List Byte
  /-- A word of them came poisoned (R187); the operand read failed with an error code (R194, R206). -/
  bad     : Bool
  code    : Option Nat
  /-- The operation runs (R173). -/
  started : Bool := false
  deriving DecidableEq, Repr

/-- ARR beyond its registers. -/
structure Arr where
  ops  : List ArrOp := []
  sets : List ArrSet := []
  bufs : List ArrBuf := []
  /-- Tile time used by golden work in the current cycle, ns (R168). -/
  pool : Nat := 0
  deriving DecidableEq, Repr



/-! ## The tensor layout engine (spec/12_tensor_layout.md) -/

/-- LAY beyond its registers and the valid maps, which lie in memory (R199). -/
structure Lay where
  /-- The table store of 65,536 entries; an unlisted entry is 0, invalid (R205). -/
  store : List (Nat × BitVec 64) := []
  deriving DecidableEq, Repr



/-! ## Temporal attention (spec/14_temporal_attention.md) -/

/-- A written query row of a step (R228, R229). -/
structure AtnRow where
  /-- Row number in the batch, index of its sequence in the length table, row k within it, its position. -/
  row   : Nat
  seq   : Nat
  k     : Nat
  pos   : Nat
  /-- KEY_LEN of its sequence. -/
  len   : Nat
  /-- Candidate positions, ascending (R229). -/
  cands : List Nat
  deriving DecidableEq, Repr, Inhabited

/-- Phases of a row block (R231). -/
inductive AtnPhase where
  | norm
  | value
  deriving DecidableEq, Repr

/-- A row block in a score slot (R231). -/
structure AtnBlock where
  /-- The step it belongs to. -/
  step  : Nat
  slot  : Nat
  golden : Bool
  core  : Nat
  head  : Nat
  rows  : List AtnRow
  phase : AtnPhase := .norm
  deriving DecidableEq, Repr

/-- An open step (R226, R231). -/
structure AtnStep where
  id    : Nat
  run   : RunId
  /-- Index of the entry in unit 101's list, and its outcome once it has ended: an error code, and ARG (R228, R238). -/
  index : Nat
  /-- The 128-byte step descriptor (R226). -/
  desc  : List Byte
  /-- Generation held and its directory bank (R231, R244). -/
  gen   : Nat
  bank  : Nat
  core  : Nat
  /-- SEQ_ID of each entry of the length table (R227). -/
  seqIds : List Nat
  /-- MASK_OFF and GRAD_OFF of each entry (R227). -/
  masks  : List Nat
  grads  : List Nat
  /-- Rows not yet scored, and rows written (R228). -/
  rows  : List AtnRow
  done  : Nat := 0
  /-- Walks received: sequence index, its page descriptors, and whether its end descriptor came (R247). -/
  walks : List (Nat × List (List Byte) × Bool) := []
  deriving DecidableEq, Repr

/-- ATN beyond its registers. -/
structure Atn where
  /-- Open steps, oldest first (R231). -/
  steps  : List AtnStep := []
  nextId : Nat := 0
  /-- Row blocks in slots, in the order in which they became ready (R224, R231). -/
  blocks : List AtnBlock := []
  /-- Slots of squashed steps, freed at SQUASH_DONE (R240). -/
  deadSlots : List Nat := []
  /-- Ended entries not yet completed: run, index, error code if any, ARG. -/
  ended  : List (RunId × Nat × Option Nat × Nat) := []
  /-- A step has ended at this instant: a head-step boundary (R244). -/
  boundary : Bool := false
  deriving DecidableEq, Repr



/-! ## The history cache (spec/15_history_cache.md) -/

/-- Page states (R242). -/
inductive PageState where
  | free
  | resident
  | spilled
  /-- Being copied: to the spill region, or back from it. -/
  | moving (toSpill : Bool)
  | bad
  deriving DecidableEq, Repr

/-- A page record (R242). -/
structure PageRec where
  /-- S − 12. -/
  size  : Nat := 0
  fmt   : Nat := 0
  dim   : Nat := 0
  state : PageState := .free
  clean : Bool := false
  refs  : Nat := 0
  /-- Granule in the history partition, and in the spill region while a copy is held or made there; LOC shows one (R242). -/
  loc   : Nat := 0
  spill : Nat := 0
  newest : Time := 0
  /-- The generation from which no list names the page (R248). -/
  zeroAt : Option Nat := none
  deriving DecidableEq, Repr

/-- A sequence's list in a generation: entries (page, FIRST_POS, COUNT), NEXT_POS, VALID (R243). -/
structure HistSeq where
  entries : List (Nat × Nat × Nat) := []
  next    : Nat := 0
  valid   : Bool := false
  deriving DecidableEq, Repr

/-- KVC beyond its registers and its tables in memory. -/
structure Kvc where
  /-- The page store; an unlisted record is free (R242). -/
  pages   : List (Nat × PageRec) := []
  /-- Directory banks of the current generation and of the shadow (R244). -/
  current : Nat := 0
  shadowBank : Nat := 1
  gen     : Nat := 0
  shadowReady : Bool := false
  lastChange : Option Time := none
  /-- Sequences that the shadow holds otherwise than the current generation (R246). -/
  shadow  : List (Nat × HistSeq) := []
  /-- Batches staged for the next change: the entries that instances' appends add or replace, by sequence, then firmware
  batches in staging order (R250, R255). -/
  appends : List (List (Nat × HistSeq)) := []
  batches : List (List (List Byte)) := []
  /-- The edit buffer, and whether it has refused a record of the batch (R245, R246). -/
  edits   : List (List Byte) := []
  overflow : Bool := false
  /-- Pending lists of the head instance's appends: entries added or replaced, and NEXT_POS, by sequence (R249). -/
  pending : List (Nat × HistSeq) := []
  /-- Pins: page, whether for an instance (R253) or a step (R248), and its cycle or step number. -/
  pins    : List (Nat × Bool × Nat) := []
  /-- KVC entries executed and not yet completed: run, index, error code if any (R249). -/
  ended   : List (RunId × Nat × Option Nat) := []
  /-- Generation 0 as loaded: its page records and lists, which are loaded again after a Doze without RETAIN_HIST (R351, 21). -/
  gen0Pages : List (Nat × PageRec) := []
  gen0    : List (Nat × HistSeq) := []
  deriving DecidableEq, Repr



/-! ## The Barmusa links (spec/16_multi_device.md) -/

/-- A port of BML beyond its registers (R259 to R261). -/
structure LinkPort where
  /-- LSEQ of the next data flit, and of the last received in order. -/
  txSeq   : Nat := 0
  rxSeq   : Nat := 4095
  /-- Flit credits held, by virtual channel (R260). -/
  credits : List Nat := [64, 64]
  /-- Sent data flits not acknowledged, oldest first: LSEQ, VC, payload (R260). -/
  replay  : List (Nat × Nat × List Byte) := []
  /-- Data flits that wait for a credit or for room in the replay buffer: VC, payload. -/
  txq     : List (Nat × List Byte) := []
  /-- Consecutive replays without ACK advancing (R260). -/
  replays : Nat := 0
  /-- REFCLK counts: of the last flit received and sent, and of the entry into the present state (R260, R261). -/
  lastRx  : Nat := 0
  lastTx  : Nat := 0
  since   : Nat := 0
  /-- The port has trained, or tried to, since reset. -/
  tried   : Bool := false
  /-- Payloads of the packet being received, by virtual channel. -/
  rx      : List (List Byte) := [[], []]
  deriving DecidableEq, Repr

/-- A slot of a combine buffer (R267). -/
inductive CombSlot where
  | empty
  | marked
  | filled (row : List Byte)
  deriving DecidableEq, Repr

/-- The combine buffer of an expert layer and cycle (R267): `stamp` is the TOV its packets carry; slots by token and choice. -/
structure Combine where
  layer  : Nat
  cycle  : Nat
  stamp  : Nat
  slots  : List (List CombSlot)
  closed : Bool := false
  deriving DecidableEq, Repr

/-- The input buffer of an expert (R266): admitted tokens in order, as their packets. -/
structure ExpertBuf where
  layer : Nat
  slot  : Nat
  cycle : Nat
  rows  : List (List Byte) := []
  deriving DecidableEq, Repr

/-- A remote copy whose source entry waits (R268). -/
structure RemoteCopy where
  core  : Nat
  dest  : Nat
  start : Nat
  deriving DecidableEq, Repr

/-- BML beyond its registers. (DESIGN CHOICE: log entry 107) -/
structure Bml where
  ports   : List LinkPort := List.replicate 6 {}
  /-- Packets delivered to this device and not yet taken, oldest first (R262, R266). -/
  inbox   : List (List Byte) := []
  combine : List Combine := []
  experts : List ExpertBuf := []
  copies  : List RemoteCopy := []
  /-- Sources whose copy has been aborted here, until its last packet (R268). -/
  aborted : List Nat := []
  deriving DecidableEq, Repr

/-! ## What leaves the device -/

/-- One thing the device has sent or driven, in order: the model's record of its outputs. (DESIGN CHOICE: log entry 8) -/
inductive Out where
  /-- A Deruento frame on a host port (R323, 20). -/
  | host (f : HostFrame)
  /-- A SAFETY_NOTICE on a host port (R289, 17; R339, 20). -/
  | notice (port : Nat) (eth : EthHead) (n : Notice)
  /-- A gPTP message on a port: kind (0 Sync, 1 Announce, 2 Pdelay_Req, 3 Pdelay_Resp, 4 Pdelay_Resp_Follow_Up) and its fields (R27, R28, 02). -/
  | ptp (port kind : Nat) (fields : List Int)
  /-- A chip select asserted, command bytes sent and a number of bytes read: master, chip select (R45, 03). -/
  | spi (master cs : Nat) (cmd : List Byte) (read : Nat)
  /-- A launched frame on a sensor port: port, destination, bytes (R29, 02). -/
  | raw (port dst : Nat) (bytes : List Byte)
  /-- An ARP reply on a sensor port (R40, 03). -/
  | arp (port ip : Nat)
  /-- An EAPOL-MKA frame on a host port (R318, 19). -/
  | mka (port kind : Nat)
  /-- A TC10 request on a host port: 0 sleep, 1 wake (R340, 20). -/
  | tc10 (port kind : Nat)
  /-- A word presented at a queue's consumer port by READ: queue, data, sideband (R59, R63, 04). -/
  | word (queue : Nat) (data : List Byte) (sideband : Nat)
  /-- The notice of a queue's read timeout to the consumer's firing unit: unit, queue (R67, 04). -/
  | queueNotice (unit queue : Nat)
  /-- An engine emits a completion token: its firing unit, the cycle or golden frame, and what completed (R87, R100, R111). -/
  | completion (unit cycle arg : Nat)
  /-- A token delivered to a Praline core or to firmware (R231, 14; R247, 15). -/
  | core (core : Nat) (fields : List Nat)
  /-- The handshake of a training on a Barmusa port: DEVICE_ID, port number, system profile (R260, 16). -/
  | handshake (port deviceId : Nat) (profile : Nat)
  /-- A flit on a Barmusa port, 72 bytes (R259, 16). -/
  | link (port : Nat) (flit : List Byte)
  /-- An exception taken by a Praline core: core, faulting address (R211, 13; R362, 22). -/
  | accessFault (core addr : Nat)
  /-- A value returned to a Praline core by a load. -/
  | load (core value : Nat) (poisoned : Bool)
  /-- The 72-byte CHALLENGE register as read on the debug port (R317, 19). -/
  | challenge (bytes : List Byte)
  deriving DecidableEq, Repr

/-! ## The state -/

/-- The state of the device. (DESIGN CHOICE: log entry 4) -/
structure State where
  /-- Commands that wait, first in, first out (the model's own queue). -/
  pending : List Instr := []
  /-- Every register of the windows of R5 (00): value by address; an unlisted register holds its reset value (R8). -/
  regs    : List (Nat × BitVec 64) := []
  tim     : Tim := {}
  ing     : Ing := {}
  /-- The 1,024 stream queues by identifier; an unlisted queue is empty (R57, 04). -/
  queues  : List (Nat × Queue) := []
  glz     : Glz := {}
  pts     : Pts := {}
  lft     : Lft := {}
  /-- Sparse convolution in progress, of an instance and of the golden pass (R91, R102, 06). -/
  spc     : Option Spc := none
  spcGold : Option Spc := none
  slv     : Slv := {}
  tgs     : Tgs := {}
  arr     : Arr := {}
  lay     : Lay := {}
  atn     : Atn := {}
  kvc     : Kvc := {}
  bml     : Bml := {}
  mem     : Mem := {}
  saf     : Saf := {}
  chk     : Chk := {}
  boot    : Boot := {}
  sec     : Sec := {}
  hst     : Hst := {}
  pwr     : Pwr := {}
  obs     : Obs := {}
  /-- What has left the device, newest first (the model's own record). -/
  out     : List Out := []
  /-- The counter to which Config's free values are applied (the model's own). -/
  free    : Nat := 0
  deriving DecidableEq, Repr

/-- The reasons a command faults. (DESIGN CHOICE: log entry 2) -/
inductive Fault where
  /-- Raised by no meaning: every access outside what exists has the effect R9 or R211 gives it. Kept so that the type
  is not empty; safe. -/
  | none
  deriving DecidableEq, Repr

/-- The reasons a command has no meaning. -/
inductive Refusal where
  /-- The command has no meaning yet; raised by its arm alone. Safe: no claim about the command can be proved. -/
  | notModelled (mnemonic : String)
  deriving DecidableEq, Repr

/-- The device right after power-on reset (R8, R15, R286): every field at its default. (DESIGN CHOICE: log entries 3, 4) -/
def State.reset : State := {}

end Sys2Proof.Machine
end

