-- ==== Sys2Proof/Machine/Ops.lean ====
section
/-! DEFINITION. The named operations over registers, memory and outputs, through which every meaning reads and
writes the state. -/

namespace Sys2Proof.Machine

/-! ## Registers -/

/-- The stored value of the register at an address: its reset value until something wrote it (R8). -/
def State.reg (s : State) (a : Nat) : BitVec 64 := sparseGet regReset s.regs a

/-- Store a register value. -/
def State.setReg (s : State) (a : Nat) (v : BitVec 64) : State :=
  { s with regs := sparseSet regReset s.regs a v }

/-- A field's value in a register value. -/
def Fld.of (f : Fld) (v : BitVec 64) : Nat := bitsAt v.toNat f.lo f.w

/-- A register value with a field replaced, modulo the field's width. -/
def Fld.into (f : Fld) (v : BitVec 64) (x : Nat) : BitVec 64 :=
  let m : BitVec 64 := BitVec.ofNat 64 ((2 ^ f.w - 1) * 2 ^ f.lo)
  (v &&& ~~~m) ||| BitVec.ofNat 64 (x % 2 ^ f.w * 2 ^ f.lo)

/-- The value of a field. -/
def State.get (s : State) (f : Fld) : Nat := f.of (s.reg f.addr)

/-- Set a field. -/
def State.put (s : State) (f : Fld) (x : Nat) : State := s.setReg f.addr (f.into (s.reg f.addr) x)

/-- Whether a field is not zero. -/
def State.on (s : State) (f : Fld) : Bool := s.get f != 0

/-- Set a one-bit field, an event bit above all. -/
def State.raise (s : State) (f : Fld) : State := s.put f 1

/-- Set a one-bit field to a truth value. -/
def State.flag (s : State) (f : Fld) (b : Bool) : State := s.put f (if b then 1 else 0)

/-- A field read as a two's complement number. -/
def State.getI (s : State) (f : Fld) : Int := toSigned f.w (s.get f)

/-- Set a field to a signed number, modulo its width. -/
def State.putI (s : State) (f : Fld) (x : Int) : State := s.put f (ofInt f.w x)

/-- Add to a count that saturates at its field's maximum (R371). -/
def State.satAdd (s : State) (f : Fld) (n : Nat) : State := s.put f (satNat f.w (s.get f + n))

/-- Count one in a saturating count. -/
def State.satInc (s : State) (f : Fld) : State := s.satAdd f 1

/-- Count in a field that counts modulo 2^width (R371). -/
def State.modAdd (s : State) (f : Fld) (n : Nat) : State := s.put f (s.get f + n)

/-- Count one in a modulo count. -/
def State.modInc (s : State) (f : Fld) : State := s.modAdd f 1

/-! ## Time and outputs -/

/-- Device time (R15). -/
def State.now (s : State) : Time := s.tim.time

/-- Record something that leaves the device. (DESIGN CHOICE: log entry 8) -/
def State.emit (s : State) (o : Out) : State := { s with out := o :: s.out }

/-- Take the next index of the free values of Config. (DESIGN CHOICE: log entry 7) -/
def State.fresh (s : State) : State := { s with free := s.free + 1 }

/-! ## Memory (spec/13_memory.md) -/

/-- What an unlisted byte of memory reads as: the zero fill of R216 and R218. (DESIGN CHOICE: log entry 5) -/
def memUnlisted (_ : Nat) : BitVec 8 := 0

/-- The canonical form of memory: addresses strictly rising, no listed byte equal to what an unlisted one reads as. -/
def Memory.wf (m : List Host.Cell) : Bool := sparseWf memUnlisted 0 m

/-- One byte of memory. (DESIGN CHOICE: log entry 5) -/
def State.byte (s : State) (a : Nat) : Byte := sparseGet memUnlisted s.mem.bytes a

/-- Store bytes one after another in a cell list. -/
def writeCells (m : List Host.Cell) (a : Nat) : List Byte → List Host.Cell
  | [] => m
  | b :: r => writeCells (sparseSet memUnlisted m a b) (a + 1) r

/-- Whether an address lies in Nougat (R210). -/
def inNougat (a : Nat) : Bool := a < 0x10000000

/-- Base of DDR4 (R210). -/
def ddrBase : Nat := 0x1000000000

/-- Installed DDR4 bytes: channels enabled times capacity, 0 while DDR4 is absent (R217, R218, R219).
(DEDUCED: log entry 119) -/
def State.ddrInstalled (s : State) : Nat :=
  if s.on F.DDR_STATUS_INSTALLED then
    popCount 8 (s.get F.DDR_CTRL_CH_EN) * (2 ^ 30 * 2 ^ s.get F.DDR_CTRL_CAPACITY)
  else 0

/-- Whether an address is populated memory: Nougat or installed DDR4 (R210). -/
def State.populated (s : State) (a : Nat) : Bool :=
  inNougat a || (decide (ddrBase ≤ a) && decide (a < ddrBase + s.ddrInstalled))

/-- Whether `k` bytes from an address lie wholly in Nougat or wholly in installed DDR4. -/
def State.populatedRange (s : State) (a k : Nat) : Bool :=
  if k = 0 then s.populated a else s.populated a && s.populated (a + k - 1) && (inNougat a == inNougat (a + k - 1))

/-- `k` bytes of memory from an address; an unpopulated byte reads 0 (R211). -/
def State.readBytes (s : State) (a k : Nat) : List Byte := (List.range k).map (fun i => s.byte (a + i))

/-- The little-endian number in `k` bytes of memory (R4). -/
def State.readLe (s : State) (a k : Nat) : Nat := leNat (s.readBytes a k)

/-- The 64-byte words that `k` bytes from an address touch. -/
def wordsOf (a k : Nat) : List Nat :=
  if k = 0 then [] else (List.range ((a + k - 1) / 64 - a / 64 + 1)).map (fun i => (a / 64 + i) * 64)

/-- The words that `k` bytes from an address cover wholly. -/
def fullWordsOf (a k : Nat) : List Nat := (wordsOf a k).filter (fun w => decide (a ≤ w) && decide (w + 64 ≤ a + k))

/-- Whether any word touched holds poison (R214). -/
def State.poisoned (s : State) (a k : Nat) : Bool := (wordsOf a k).any (s.mem.poison.contains ·)

/-- Store bytes in memory. Bytes at unpopulated addresses are discarded (R211); a full write of a 64-byte word clears
its poison (R215); a pending write-back to a written word is dropped (R223). -/
def State.writeBytes (s : State) (a : Nat) (l : List Byte) : State :=
  if s.populatedRange a l.length then
    { s with mem := { s.mem with
        bytes := writeCells s.mem.bytes a l
        poison := s.mem.poison.filter (fun w => !(fullWordsOf a l.length).contains w)
        writeBack := s.mem.writeBack.filter (fun w => !(wordsOf a l.length).contains w) } }
  else s

/-- Store a little-endian number in `k` bytes (R4). -/
def State.writeLe (s : State) (a k n : Nat) : State := s.writeBytes a (natLe k n)

/-- Forget the contents of an address range: it reads 0 under valid ECC (R216, R218, R222). -/
def State.zeroFill (s : State) (lo hi : Nat) : State :=
  { s with mem := { s.mem with
      bytes := s.mem.bytes.filter (fun c => decide (c.1 < lo) || decide (hi ≤ c.1))
      poison := s.mem.poison.filter (fun w => decide (w < lo) || decide (hi ≤ w)) } }

/-- Mark a 64-byte word as holding the poison syndrome (R214, R215). -/
def State.poisonWord (s : State) (w : Nat) : State :=
  if s.mem.poison.contains w then s
  else { s with mem := { s.mem with poison := insertBy (fun n => (n : Int)) w s.mem.poison } }

/-- A base register's device address: BASE holds the bits from [16]. -/
def State.base (s : State) (f : Fld) : Nat := s.get f * 0x10000

/-! ## Blocks and power -/

/-- CLK_EN's bit of a window, with the Alive bits always 1 (R347). -/
def State.clockOn (s : State) (w : Nat) : Bool :=
  bitSet 0x017C000E w || bitSet (s.get F.CLK_EN_EN) w

/-- The windows whose spines are stopped in Idle (R349 and the power-state table): ARR, PTS, LFT, GLZ, SLV, LAY, ATN,
KVC, CHK, TGS, BML. -/
def idleStopped : List Nat := [0, 5, 6, 7, 8, 9, 10, 11, 4, 15, 16]

/-- The power state (R349). -/
def State.power (s : State) : Nat := s.get F.PWR_STATUS_STATE

/-- Whether a window is gated: the device held in reset (R2), the window disabled (R347), or its spine stopped in Idle or in Doze and deeper (R349). CLK, PWR and
RST windows never are; the Alive windows never are while the device runs. (DEDUCED: log entry 9) -/
def State.gated (s : State) (w : Nat) : Bool :=
  s.boot.held || !s.clockOn w || (decide (s.power ≥ 1) && idleStopped.contains w)
    || (decide (s.power ≥ 2) && !(bitSet 0x017C000E w))

/-- Whether an enabled, running block may act: its window is not gated. -/
def State.runs (s : State) (w : Nat) : Bool := !s.gated w

/-- Window indexes (R5). -/
abbrev wARR := 0
abbrev wNGT := 1
abbrev wPRC := 2
abbrev wAON := 3
abbrev wCHK := 4
abbrev wPTS := 5
abbrev wLFT := 6
abbrev wGLZ := 7
abbrev wSLV := 8
abbrev wLAY := 9
abbrev wATN := 10
abbrev wKVC := 11
abbrev wTIM := 12
abbrev wING := 13
abbrev wSQ := 14
abbrev wTGS := 15
abbrev wBML := 16
abbrev wDDR := 17
abbrev wSEC := 18
abbrev wHST := 19
abbrev wCLK := 20
abbrev wPWR := 21
abbrev wRST := 22
abbrev wOBS := 23
abbrev wSAF := 24

/-- The head cycle number (GLZ_STATUS.HEAD_CYCLE). -/
def State.headCycle (s : State) : Nat := s.get F.GLZ_STATUS_HEAD_CYCLE

end Sys2Proof.Machine
end

