-- ==== Sys2Proof/Machine/Lists.lean ====
section
/-! DEFINITION. The graphs in memory (spec/10_operations_and_runahead.md, R154, R155): unit directories, operation lists
and the edge table. -/

namespace Sys2Proof.Machine

/-- Whether a run is a golden graph's. -/
def RunId.golden (r : RunId) : Bool := r.graph != 0

/-- The run of its destination that a token belongs to: an instance, or a golden frame. -/
def Token.run (t : Token) : RunId :=
  if t.golden then { graph := t.dst.1, slot := 0, epoch := 0, cycle := t.cycle }
  else { graph := 0, slot := t.slot, epoch := t.epoch, cycle := t.cycle }

/-- TGS runs: it is enabled and not gated. -/
def State.tgsRuns (s : State) : Bool := s.on F.TGS_CTRL_ENABLE && s.runs wTGS

/-- ATN runs: enabled and not gated. -/
def State.atnRuns (s : State) : Bool := s.on F.ATN_CTRL_ENABLE && s.runs wATN

/-- KVC runs: enabled and not gated. -/
def State.kvcRuns (s : State) : Bool := s.on F.KVC_CTRL_ENABLE && s.runs wKVC

/-- Graphs loaded: GRAPHS of 1 to 8 in three bits, 8 as 0 (R154). (DEDUCED: log entry 193) -/
def State.graphs (s : State) : Nat := if s.get F.TGS_CTRL_GRAPHS = 0 then 8 else s.get F.TGS_CTRL_GRAPHS

/-- The directory entry of a unit in a graph: FIRST, LENGTH (R154). -/
def State.unitDir (s : State) (graph unit : Nat) : Nat × Nat :=
  let a := s.base F.TGS_DIR_BASE_BASE + graph * 2048 + 16 * unit
  (s.readLe a 4, s.readLe (a + 4) 4)

/-- An operation-list entry as read (R155); `ok` is that its CRC holds. -/
structure ListEntry where
  desc  : Nat
  count : Nat
  cls   : Nat
  ins   : List Nat
  outs  : List Nat
  last  : Bool
  ok    : Bool
  deriving DecidableEq, Repr

/-- The fields of a 32-byte operation-list entry (R155). -/
def listEntry (b : List Byte) : ListEntry :=
  { desc := bitsAt (leAt b 0 4) 0 22 * 64, count := leAt b 4 4, cls := leAt b 8 1
    ins := (List.range (min 4 (leAt b 9 1))).map (fun k => leAt b (12 + 2 * k) 2)
    outs := (List.range (min 4 (leAt b 10 1))).map (fun k => leAt b (20 + 2 * k) 2)
    last := bitSet (leAt b 11 1) 0, ok := crcOk b }

/-- Entry `index` of a unit's list in a graph (R154, R155). -/
def State.entryOf (s : State) (graph unit index : Nat) : ListEntry :=
  listEntry (s.readBytes (s.base F.TGS_LIST_BASE_BASE + 32 * ((s.unitDir graph unit).1 + index)) 32)

/-- Fields of an edge (R155). -/
def State.edgeWord (s : State) (edge : Nat) : Nat := s.readLe (s.base F.TGS_EDGE_BASE_BASE + 8 * edge) 8
def State.edgeConsumer (s : State) (edge : Nat) : Nat := bitsAt (s.edgeWord edge) 7 7
def State.edgeCredits (s : State) (edge : Nat) : Nat := bitsAt (s.edgeWord edge) 14 8

/-- The stream queue that carries an edge's data; none for 0x3FF (R155). -/
def State.edgeQueue (s : State) (edge : Nat) : Option Nat :=
  let q := bitsAt (s.edgeWord edge) 22 10
  if q = 0x3FF then none else some q

/-- The entries of a unit in a graph (R154). -/
def State.unitList (s : State) (graph unit : Nat) : List ListEntry :=
  (List.range (s.unitDir graph unit).2).map (s.entryOf graph unit)

/-- The stream queues that the edges of a unit's inputs take data from (R155). -/
def State.inputQueues (s : State) (graph unit : Nat) : List Nat :=
  (((s.unitList graph unit).flatMap (·.ins)).filterMap s.edgeQueue).eraseDups

/-- The entries of a graph by unit, for the units that take part: unit, entries in list order. -/
def State.graphLists (s : State) (g : Nat) : List (Nat × List ListEntry) :=
  (List.range 128).filterMap (fun u =>
    let l := s.unitList g u
    if l.isEmpty then none else some (u, l))

/-- The length of the edge table, in edges: to the highest identifier that an entry lists. (DEDUCED: log entry 195) -/
def State.edgesHeld (s : State) : Nat :=
  (((List.range s.graphs).flatMap (fun g => (s.graphLists g).flatMap (fun l => l.2.flatMap (fun e => e.ins ++ e.outs)))).map (· + 1)).foldl max 0

/-- The consumer entry of an edge: graph, unit, index in the unit's list (R155, R171). -/
def State.consumerOf (s : State) (edge : Nat) : Option (Nat × Nat × Nat) :=
  let u := s.edgeConsumer edge
  (List.range s.graphs).findSome? (fun g =>
    ((List.range (s.unitDir g u).2).find? (fun i => (s.entryOf g u i).ins.contains edge)).map (fun i => (g, u, i)))

/-- Entries that a unit has fired for a run (R157). -/
def Tgs.firedCount (t : Tgs) (unit : Nat) (run : RunId) : Nat :=
  match t.fired.find? (fun f => f.1 == unit && f.2.1 == run) with
  | some f => f.2.2
  | none => 0

def Tgs.setFired (t : Tgs) (unit : Nat) (run : RunId) (n : Nat) : Tgs :=
  { t with fired := (unit, run, n) :: t.fired.filter (fun f => !(f.1 == unit && f.2.1 == run)) }

/-- KVC entries of an instance with KIND APPEND that have not fired: those that finality through reuse loses (R249, R250). -/
def State.unfiredAppends (s : State) (run : RunId) : Nat :=
  ((List.range (s.unitDir 0 102).2).drop (s.tgs.firedCount 102 run)).countP (fun i =>
    let e := s.entryOf 0 102 i
    e.count != 0 && s.readLe e.desc 1 == 0)

end Sys2Proof.Machine
end

