-- ==== Sys2Proof/Machine/Log.lean ====
section
/-! DEFINITION. The three records of spec/22_lifetime_and_long_run.md as operations: performance counters, the
error log, the lifetime record and its flash ring. -/

namespace Sys2Proof.Machine

/-! ## Performance counters (R360, R361) -/

/-- Whether an event with these attributes passes filter set `f` (R361). -/
def State.passesFilter (s : State) (f : Nat) (master addr : Option Nat) (priv : Nat) : Bool :=
  (!s.on (F.OBS_FMAST_MASTER_EN f) ||
    match master with
    | none => false
    | some m => decide (s.get (F.OBS_FMAST_MASTER_LO f) ≤ m) && decide (m ≤ s.get (F.OBS_FMAST_MASTER_HI f))) &&
  (!s.on (F.OBS_FMAST_ADDR_EN f) ||
    match addr with
    | none => false
    | some a => decide (s.get (F.OBS_FBASE_ADDR f) ≤ a) && decide (a ≤ s.get (F.OBS_FLIMIT_ADDR f))) &&
  bitSet (s.get (F.OBS_FMAST_PRIV f)) priv

/-- CHAIN is in force only on odd counters (R360). -/
def State.chained (s : State) (k : Nat) : Bool := k % 2 == 1 && s.on (F.OBS_SEL_CHAIN k)

/-- Record a wrap of counter `k` in OBS_OVF (R360). -/
def State.counterWrapped (s : State) (k : Nat) : State :=
  let f : Fld := ⟨(F.OBS_OVF_OVF (k / 64)).addr, k % 64, 1⟩
  (s.raise f).raise F.OBS_EVENT_CNT_OVF

/-- Add to counter `k`, with its wrap at 2^48 and the carry into a chained partner (R360). -/
def State.counterAdd (s : State) (k n : Nat) : State :=
  let v := s.get (F.OBS_CNT_COUNT k) + n
  let s := s.put (F.OBS_CNT_COUNT k) v
  if v < 2 ^ 48 then s
  else if k % 2 = 0 && s.chained (k + 1) then
    let h := s.get (F.OBS_CNT_COUNT (k + 1)) + v / 2 ^ 48
    let s := s.put (F.OBS_CNT_COUNT (k + 1)) h
    if h < 2 ^ 48 then s else s.counterWrapped (k + 1)
  else s.counterWrapped k

/-- Whether counter `k` counts event `bit` of class `cls` (R360). -/
def State.countsEvent (s : State) (k cls bit : Nat) (master addr : Option Nat) (priv : Nat) : Bool :=
  s.on (F.OBS_SEL_EN k) && !s.chained k && s.get (F.OBS_SEL_CLASS k) == cls && bitSet (s.get (F.OBS_SEL_EVENTS k)) bit
    && s.passesFilter (s.get (F.OBS_SEL_FSET k)) master addr priv

/-- Count `n` events of a class in every counter that selects them; privilege 0 machine, 1 supervisor, 2 user
(R360, R361). Nothing counts while OBS is off or gated, or in Doze (R363). -/
def State.count (s : State) (cls bit n : Nat) (master : Option Nat := none) (addr : Option Nat := none)
    (priv : Nat := 0) : State :=
  if s.get F.OBS_STATUS_ACTIVE = 0 || !s.on F.OBS_CTRL_ENABLE || s.gated wOBS then s
  else (List.range 256).foldl
    (fun t k => if t.countsEvent k cls bit master addr priv then t.counterAdd k n else t) s

/-! ## The lifetime record (R366) -/

/-- A word of the lifetime record, by byte offset. -/
def State.lifeWord (s : State) (off : Nat) : Nat := sparseGet (fun _ => 0) s.obs.life (off / 4)

/-- Set a word of the lifetime record, and note the change for the next append (R368). -/
def State.lifeSet (s : State) (off v delta : Nat) : State :=
  { s with obs := { s.obs with
      life := sparseSet (fun _ => 0) s.obs.life (off / 4) v
      changed := s.obs.changed.filter (fun c => c.1 != off / 4) ++
        [(off / 4, match s.obs.changed.find? (fun c => c.1 == off / 4) with
          | none => delta
          | some c => satNat 32 (c.2 + delta))] } }

/-- Add to a count of the lifetime record; every count saturates at 32 bits (R366). -/
def State.life (s : State) (off : Nat) (n : Nat := 1) : State :=
  let v := satNat 32 (s.lifeWord off + n)
  if v = s.lifeWord off then s else s.lifeSet off v (v - s.lifeWord off)

/-- Add to a word that ticks themselves carry (INTERVALS, TEMP, DROOP), which takes no event slot (R367, R369).
(DEDUCED: log entry 157) -/
def State.lifeTick (s : State) (off n : Nat) : State :=
  { s with obs := { s.obs with life := sparseSet (fun _ => 0) s.obs.life (off / 4) (satNat 32 (s.lifeWord off + n)) } }

/-- OR into FENCED_EVER (R366, R367). -/
def State.lifeOr (s : State) (off bits : Nat) : State :=
  let v := s.lifeWord off ||| bits
  if v = s.lifeWord off then s
  else { s with obs := { s.obs with
      life := sparseSet (fun _ => 0) s.obs.life (off / 4) v
      changed := s.obs.changed.filter (fun c => c.1 != off / 4) ++ [(off / 4, v)] } }

/-- The 2,048 bytes of the lifetime record, with its CRC (R366). -/
def State.lifeBytes (s : State) : List Byte :=
  let body := (List.range 511).flatMap (fun w =>
    natLe 4 (if w = 0 then 0xD5AF0001 else sparseGet (fun _ => 0) s.obs.life w))
  withCrc body

/-! ## The flash ring (R367, R368, R370) -/

/-- What an unlisted byte of the flash reads as: erased. (DESIGN CHOICE: log entry 5) -/
def flashUnlisted (_ : Nat) : BitVec 8 := 0xFF

/-- Bytes of the flash (R293). -/
def State.flashBytes (s : State) (a k : Nat) : List Byte :=
  (List.range k).map (fun i => sparseGet flashUnlisted s.boot.flash (a + i))

def flashCells (m : List (Nat × BitVec 8)) (a : Nat) : List Byte → List (Nat × BitVec 8)
  | [] => m
  | b :: r => flashCells (sparseSet flashUnlisted m a b) (a + 1) r

/-- Program bytes of the flash. -/
def State.flashWrite (s : State) (a : Nat) (l : List Byte) : State :=
  { s with boot := { s.boot with flash := flashCells s.boot.flash a l } }

/-- Erase a 64 KiB sector of the flash. -/
def State.flashErase (s : State) (a : Nat) : State :=
  { s with boot := { s.boot with flash := s.boot.flash.filter (fun c => decide (c.1 < a) || decide (a + 65536 ≤ c.1)) } }

/-- A tick slot (R367). -/
def tickSlot (intervals tempBin droopBin events : Nat) (measured : Bool) (span : Nat) : List Byte :=
  let b := natLe 4 intervals ++ [BitVec.ofNat 8 (tempBin % 16 + 16 * (droopBin % 16)), BitVec.ofNat 8 events,
    if measured then 1 else 0, BitVec.ofNat 8 span]
  b ++ natLe 2 (crc16 b)

/-- An event slot (R367). -/
def eventSlot (word value : Nat) : List Byte :=
  let b := natLe 2 (word % 512) ++ natLe 4 value ++ [0, 0]
  b ++ natLe 2 (crc16 b)

/-- Begin the ring's next sector with a checkpoint of two copies of the record, and start the erase of the sector
after it (R367, R368). -/
def State.beginSector (s : State) (lr sector : Nat) : State :=
  let seq := s.get F.OBS_RING_SECTOR_SEQ + 1
  let s := (s.put F.OBS_RING_SECTOR sector).put F.OBS_RING_SLOT 0
  let s := (s.put F.OBS_RING_SECTOR_SEQ seq)
  let s := { s with obs := { s.obs with life := sparseSet (fun _ => 0) s.obs.life 3 (seq % 2 ^ 32) } }
  let s := if sector = 0 ∧ 1 < seq then s.raise F.OBS_EVENT_RING_WRAP else s
  let r := s.lifeBytes
  let s := s.flashWrite (lr + sector * 65536) (r ++ r)
  let s := s.raise F.OBS_RING_ERASING
  { s with obs := { s.obs with erasing := some ((sector + 1) % 64) } }

/-- One error-log entry (R364): into the input buffer with its INDEX, or dropped when 64 entries are pending.
(DEDUCED: log entry 159) -/
def State.log (s : State) (block code severity unit detail : Nat) : State :=
  let s := s.count 6 2 1 (if unit = 0xFF then none else some unit) (some detail)
  if 64 ≤ s.obs.buf.length then (s.satInc F.OBS_LOG_COUNTS_DROPPED).raise F.OBS_EVENT_LOG_DROP
  else
    let e : LogEntry := { time := s.now, index := s.get F.OBS_LOG_NEXT, block, code, severity, unit,
                          cycle := s.headCycle, detail }
    { (s.modInc F.OBS_LOG_NEXT) with obs := { s.obs with buf := s.obs.buf ++ [e] } }

/-- The INDEX the next entry takes: 0xFFFF_FFFF when it would be dropped (R364, R289). (DEDUCED: log entry 159) -/
def State.nextLogIndex (s : State) : Nat :=
  if 64 ≤ s.obs.buf.length then 0xFFFFFFFF else s.get F.OBS_LOG_NEXT

/-- The 32 bytes of an error-log entry (R364). -/
def LogEntry.bytes (e : LogEntry) : List Byte :=
  withCrc (natLe 8 (ofInt 64 e.time) ++ natLe 4 e.index ++ natLe 1 e.block ++ natLe 1 e.code ++ natLe 1 e.severity
    ++ natLe 1 e.unit ++ natLe 4 e.cycle ++ natLe 8 e.detail)

/-- Append a tick and one event slot for each changed word (R368). `fails` programs fail before one succeeds: each
skips its slot and sets RING_ERR; the third in a row suspends appends until the next interval (R370). No append is
made before an image has named the ring (R367). (DEDUCED: log entry 158) -/
def State.ringAppend (s : State) (tempBin droopBin : Nat) (measured : Bool) (span fails : Nat) : State :=
  match s.obs.logRing with
  | none => s
  | some lr =>
    if s.on F.OBS_RING_SUSPENDED then s
    else
      let ev := s.obs.changed.take 255
      let slots := tickSlot (s.lifeWord 4) tempBin droopBin ev.length measured span
        :: ev.map (fun c => eventSlot c.1 c.2)
      let bad := min fails 3
      let s := if bad = 0 then s
        else (let u := s.raise F.OBS_EVENT_RING_ERR
          if bitSet (u.lifeWord 8) 2 then u else u.lifeSet 8 (u.lifeWord 8 + 4) 4).log wOBS 3 1 0xFF 0
      let need := bad + (if fails < 3 then slots.length else 0)
      -- the first append of a ring without a checkpoint begins sector 0 (R369)
      let s := if s.get F.OBS_RING_SECTOR_SEQ = 0 then s.beginSector lr 0
        else if s.get F.OBS_RING_SLOT + need > 6144 then s.beginSector lr ((s.get F.OBS_RING_SECTOR + 1) % 64)
        else s
      let at_ := lr + s.get F.OBS_RING_SECTOR * 65536 + 4096 + (s.get F.OBS_RING_SLOT + bad) * 10
      if fails < 3 then
        let s := s.flashWrite at_ slots.flatten
        let s := s.modAdd F.OBS_RING_SLOT need
        { s with obs := { s.obs with changed := s.obs.changed.drop 255 } }
      else
        (s.modAdd F.OBS_RING_SLOT need).raise F.OBS_RING_SUSPENDED

/-- The unscheduled tick of R368: SPAN 0, which adds no interval. -/
def State.eventTick (s : State) : State := s.ringAppend 0 0 false 0 0

/-- One PLL_FABRIC cycle of the error log: the oldest pending entry goes into the ring; the entry 4,096 before it is
overwritten (R364, R365). -/
def State.logDrain (s : State) : State :=
  match s.obs.buf with
  | [] => s
  | e :: rest =>
    let full : Bool := 4096 ≤ s.obs.ring.length
    let lost := match s.obs.ring.head? with
      | some o => full && decide ((o.index + 2 ^ 32 - s.get F.OBS_LOG_READ_MARK) % 2 ^ 32 < 2 ^ 31)
      | none => false
    let ring := (if full then s.obs.ring.drop 1 else s.obs.ring) ++ [e]
    let s := if full then (s.satInc F.OBS_LOG_COUNTS_OVERWRITTEN).raise F.OBS_EVENT_LOG_WRAP else s
    let s := if lost then s.satInc F.OBS_LOG_COUNTS_UNREAD_LOST else s
    { s with obs := { s.obs with ring := ring, buf := rest, overwritten := s.obs.overwritten || lost } }

end Sys2Proof.Machine
end

