-- ==== Sys2Proof/Machine/Frames.lean ====
section
/-! DEFINITION. Sending on the host ports: the frame header of R323, fragments, the conditions under which a port
sends, and the SAFETY_NOTICE of R289 and R339. -/

namespace Sys2Proof.Machine

/-- Frame types (R324). -/
abbrev ftStatusReply := 0x02
abbrev ftTileData := 0x04
abbrev ftTuneStage := 0x05
abbrev ftTuneCommit := 0x06
abbrev ftQuote := 0x08
abbrev ftHeartbeat := 0x09
abbrev ftNotice := 0x0A
abbrev ftLogRead := 0x0B

/-- Reply status codes (R325). -/
abbrev stOk := 0
abbrev stNotReady := 1
abbrev stNotHeld := 2
abbrev stBusy := 3
abbrev stMalformed := 4
abbrev stRefused := 5
abbrev stDataErr := 6
abbrev stNoIdentity := 7
abbrev stAborted := 8
abbrev stSeqErr := 9
abbrev stFull := 10

/-- FLAGS of a frame header: REPLY, LAST, UNSOLICITED (R323). -/
abbrev flReply := 1
abbrev flLast := 2
abbrev flUnsolicited := 4

/-- The 24-byte big-endian frame header followed by the data (R323). -/
def frameBytes (type flags status reqId frag frags arg arg2 : Nat) (data : List Byte) : List Byte :=
  natBe 1 1 ++ natBe 1 type ++ natBe 1 flags ++ natBe 1 status ++ natBe 4 reqId ++ natBe 2 frag ++ natBe 2 frags
    ++ natBe 2 data.length ++ natBe 2 0 ++ natBe 4 arg ++ natBe 4 arg2 ++ data

/-- A per-port bit of a register pair of fields. -/
def portFld (p : Nat) (a b : Fld) : Fld := if p = 0 then a else b

/-- A host port is enabled, its link up, not asleep, the device in Active or Idle, and REFCLK present (R322, R332, R340, R348;
R375, 23). -/
def State.portUp (s : State) (p : Nat) : Bool :=
  s.on (portFld p F.HST_CTRL_ENABLE_A F.HST_CTRL_ENABLE_B) && s.on (portFld p F.HST_STATUS_LINK_A F.HST_STATUS_LINK_B)
    && !s.on (portFld p F.HST_STATUS_ASLEEP_A F.HST_STATUS_ASLEEP_B) && !s.pwr.refLost
    && decide (s.power ≤ 1) && decide (p < 2)

/-- MKA is live on a port (R318). -/
def State.mkaLive (s : State) (p : Nat) : Bool := s.on (portFld p F.SEC_STATUS_MKA_A F.SEC_STATUS_MKA_B)

/-- MACsec is in force on a port: enabled, an image loaded, and no tamper reset (R318). -/
def State.macsecOn (s : State) (p : Nat) : Bool :=
  s.on (portFld p F.SEC_MACSEC_EN_A F.SEC_MACSEC_EN_B) && s.on F.SEC_STATUS_IMAGE_LOADED && !s.sec.tampered

/-- A port may send a Deruento frame: until MKA is live it sends none but SAFETY_NOTICE (R318). -/
def State.maySend (s : State) (p : Nat) : Bool := s.portUp p && (!s.macsecOn p || s.mkaLive p)

/-- Count a protected transmission: at packet number 0xC000_0000 MKA takes a new SAK without loss (R318). -/
def State.countPn (s : State) (p : Nat) : State :=
  if s.macsecOn p && s.mkaLive p then
    let f := fun (m : Mka) =>
      if m.txPn + 1 ≥ 0xC0000000 then { m with txPn := 1, sak := m.sak.map (· + 1) } else { m with txPn := m.txPn + 1 }
    { s with sec := { s.sec with mka := modifyAt f p s.sec.mka } }
  else s

/-! ## The transmitters (R29, 02; R333) -/

/-- Transmit classes of a host port (R333), the highest first. gPTP and MKA frames, which the rule does not name, go with
STATUS_REPLY and HEARTBEAT; TUNE replies and commit results with TILE_DATA. (DESIGN CHOICE: log entry 136) -/
abbrev txNotice := 1
abbrev txTrain := 2
abbrev txStatus := 3
abbrev txIssue := 4
abbrev txReply := 5

def State.txPort (s : State) (p : Nat) : TxPort := s.tim.tx.getD p {}

def State.updTx (s : State) (p : Nat) (f : TxPort → TxPort) : State :=
  { s with tim := { s.tim with tx := modifyAt f p s.tim.tx } }

/-- The frame a port sends next: the oldest ready frame of the highest class (R333). -/
def nextItem (l : List TxItem) : Option TxItem :=
  [txNotice, txTrain, txStatus, txIssue, txReply].findSome? (fun c => l.find? (fun x => x.cls == c))

/-- The header a Deruento frame leaves a port with: the EtherType of HST_CTRL (R323), and the port's tag when VLAN_EN is set (R322). -/
def State.ethHead (s : State) (p dst : Nat) : EthHead :=
  { dst, etherType := s.get F.HST_CTRL_ETHERTYPE
    tag := if s.on (F.HST_PORT_CFG_VLAN_EN p) then some (s.get (F.HST_PORT_CFG_VLAN_ID p), s.get (F.HST_PORT_CFG_PCP p)) else none }

/-- The time a frame takes on its port with preamble, interframe gap, tag and MACsec overhead, in 0.1 ns: 0.8 ns a byte on a host
port, 8 ns on a sensor port (R29; the example of R332). (DESIGN CHOICE: log entry 136) -/
def State.wireTime (s : State) (p : Nat) (k : TxKind) : Nat :=
  let rate := if p < 2 then 8 else 80
  let mac := (if s.macsecOn p && s.mkaLive p then 32 else 0) + (if s.on (F.HST_PORT_CFG_VLAN_EN p) then 4 else 0)
  rate * match k with
    | .frame _ b => max 84 (b.length + 38 + mac)
    | .notice _ _ => 126 + mac
    | .raw _ b => max 84 (b.length + 38)
    | _ => 84

/-- Nothing but the launch, and a notice, starts on a port from the launch time less one maximum frame duration: 1.26 µs on a
host port, 12.34 µs on a sensor port (R29, R333). (DESIGN CHOICE: log entry 16) -/
def State.guarded (s : State) (p : Nat) : Bool :=
  match (s.tim.launch.getD p []).head? with
  | none => false
  | some e => decide (e.time - (if p < 2 then 1260 else 12340) ≤ s.now) && decide (s.now < e.time + 40)

/-- A launch time has passed: it lies before the REFCLK period of this instant. -/
def State.timePassed (s : State) (t : Time) : Bool := decide (t + 40 ≤ s.now)

/-- The entry at the head of a launch queue has just reached it: it is late when its launch time has passed, but for one with the
launch time of the entry before it, which is late when that one was (R30). (DESIGN CHOICE: log entry 16) -/
def State.judgeHead (s : State) (p : Nat) : State :=
  let late (e : Launch) : Bool := match (s.txPort p).last with
    | some (t, l) => if t = e.time then l else s.timePassed e.time
    | none => s.timePassed e.time
  let f (l : List Launch) : List Launch := match l with
    | [] => []
    | e :: r => { e with late := late e } :: r
  { s with tim := { s.tim with launch := modifyAt f p s.tim.launch } }

/-- Frames of the entry launched last still wait on a port: that entry is still the head (R29). -/
def State.launching (s : State) (p : Nat) : Bool := (s.txPort p).queue.any (fun x => x.cls == txTrain)

/-- A timestamp of a port: device time with the port's ingress or egress adjustment (R26). -/
def State.rxStamp (s : State) (port : Nat) : Time := s.now + s.getI (F.TIM_PORT_ASYM_INGRESS_ADJ port)
def State.txStamp (s : State) (port : Nat) : Time := s.now + s.getI (F.TIM_PORT_ASYM_EGRESS_ADJ port)

/-- A gPTP message departs: a Sync carries its departure, a Pdelay request's departure is held, a response's follow-up carries
the departure of the response (R21, R27, R28). -/
def State.ptpDeparts (s : State) (p kind : Nat) (fields : List Int) : State :=
  match kind with
  | 0 => s.emit (.ptp p 0 ([s.txStamp p, (s.tim.frac : Int)] ++ fields))
  | 2 =>
    let s := s.emit (.ptp p 2 [s.txStamp p])
    { s with tim := { s.tim with ports := modifyAt (fun x => { x with t1 := some (s.txStamp p), resp := none }) p s.tim.ports } }
  | 3 => (s.emit (.ptp p 3 fields)).updTx p (fun q =>
      { q with queue := { cls := txStatus, kind := .ptp 4 [s.txStamp p] } :: q.queue })
  | k => s.emit (.ptp p k fields)

/-- A frame starts on its port. (DESIGN CHOICE: log entry 8) -/
def State.departs (s : State) (p : Nat) (k : TxKind) : State :=
  match k with
  | .frame dst b => (((s.emit (.host ⟨p, s.ethHead p dst, b⟩)).modInc (F.HST_TX_FRAMES p)).countPn p).count 7 3 1
  | .notice dst n => (((s.emit (.notice p (s.ethHead p dst) n)).modInc (F.HST_TX_FRAMES p)).satInc (F.HST_TX_NOTICES p)).count 7 3 1
  | .ptp kind f => s.ptpDeparts p kind f
  | .raw dst b => s.emit (.raw p dst b)
  | .mka kind => s.emit (.mka p kind)
  | .arp ip => s.emit (.arp (p - 2) ip)
  | .tile _ _ _ _ _ => s

/-- An item still has to be made into frames. -/
def TxKind.isTile : TxKind → Bool
  | .tile _ _ _ _ _ => true
  | _ => false

/-- An Ethernet port can transmit: a host port while it is up. -/
def State.txUp (s : State) (p : Nat) : Bool := if p < 2 then s.portUp p else !s.pwr.refLost

/-- An idle port starts the next frame that may start now (R29, R333); a frame in progress always completes. A port that is down
sends nothing. -/
def State.txTake (s : State) (p : Nat) : State :=
  let q := s.txPort p
  if q.cur.isSome || !s.txUp p then s
  else match nextItem q.queue with
    | none => s
    | some x =>
      if x.kind.isTile || (s.guarded p && decide (txTrain < x.cls)) then s
      else
        let s := s.updTx p (fun q => { q with queue := q.queue.erase x, cur := some x
                                              busy := min 0 q.busy + s.wireTime p x.kind })
        let s := s.departs p x.kind
        if x.cls == txTrain && !s.launching p then s.judgeHead p else s

/-- A frame becomes ready on a port. -/
def State.txSend (s : State) (p : Nat) (x : TxItem) : State :=
  (s.updTx p (fun q => { q with queue := q.queue ++ [x] })).txTake p

/-- Send one Deruento frame on a port in a class, if the port may send (R323, R333). (DESIGN CHOICE: log entry 8) -/
def State.sendFrame (s : State) (p cls dst : Nat) (bytes : List Byte) : State :=
  if s.maySend p then s.txSend p { cls, kind := .frame dst bytes } else s

/-- Send frames in order. (DESIGN CHOICE: log entry 136) -/
def State.sendFrames (s : State) (p cls dst : Nat) : List (List Byte) → State
  | [] => s
  | f :: r => (s.sendFrame p cls dst f).sendFrames p cls dst r

/-- The last frame of a request's reply (R323, R326). -/
def TxItem.endsReply (x : TxItem) : Bool :=
  match x.kind with
  | .frame _ b => decide (beAt b 2 1 % 4 = flReply + flLast)
  | .tile _ _ _ _ last => last
  | _ => false

/-- Requests of a port whose replies have not all left (R326). (DEDUCED: log entry 140) -/
def State.openRequests (s : State) (p : Nat) : Nat := (s.txPort p).queue.countP TxItem.endsReply

/-- A unit cut into fragments of 1,376 data bytes (R323); `last` sets LAST on the final one. -/
def unitFrames (type flags status reqId arg arg2 : Nat) (last : Bool) (data : List Byte) : List (List Byte) :=
  let cs := if data.isEmpty then [[]] else chunks 1376 data
  cs.zipIdx.map (fun c =>
    frameBytes type (flags + (if last && c.2 + 1 = cs.length then flLast else 0)) status reqId c.2 cs.length arg arg2 c.1)

/-- The class of a reply: STATUS_REPLY and HEARTBEAT replies go before the rest (R333). -/
def replyClass (type : Nat) : Nat := if type = ftStatusReply || type = ftHeartbeat then txStatus else txReply

/-- One reply frame. -/
def State.reply (s : State) (p dst type status reqId arg arg2 : Nat) (data : List Byte) : State :=
  s.sendFrame p (replyClass type) dst (frameBytes type (flReply + flLast) status reqId 0 1 arg arg2 data)

/-- The host address of a port: HOST_MAC, or else the learned address, or else broadcast (R339). -/
def State.hostAddr (s : State) (p : Nat) : Nat :=
  if s.get (F.HST_HOST_MAC_MAC p) ≠ 0 then s.get (F.HST_HOST_MAC_MAC p)
  else match s.hst.learned.getD p none with
    | some a => a
    | none => 0xFFFFFFFFFFFF

/-- The ports a subscriber's frames go to now (R332): both, or the named port while its link is up and else the other. -/
def State.subPorts (s : State) (k : Nat) : List Nat :=
  match s.get (F.HST_SUB_CFG_PORT_MODE k) with
  | 0 => [0, 1]
  | 1 => if s.portUp 0 then [0] else [1]
  | 2 => if s.portUp 1 then [1] else [0]
  | _ => []

/-- The 64 bytes of a notice (R289). -/
def Notice.bytes (n : Notice) : List Byte :=
  withCrc (natLe 8 (ofInt 64 n.detectTime) ++ natLe 1 n.state ++ natLe 1 n.prev ++ natLe 1 n.level ++ natLe 1 n.domain
    ++ natLe 1 n.cause ++ natLe 1 n.unit ++ natLe 2 0 ++ natLe 4 n.cycle ++ natLe 4 n.lastValid ++ natLe 4 n.seq
    ++ natLe 4 n.logIndex ++ zeroBytes 28)

/-- Send a notice on one port to its host and to the subscribers with NOTICE = 1 that the port carries; a port whose
link is down owes the notice of its latest state (R289, R339). (DEDUCED: log entry 135) -/
def State.noticeOn (s : State) (p : Nat) (n : Notice) : State :=
  if s.portUp p then
    let subs := (List.range 8).filter (fun k => s.on (F.HST_SUB_CFG_ENABLE k) && s.on (F.HST_SUB_CFG_NOTICE k)
      && (s.subPorts k).contains p)
    let dsts := s.hostAddr p :: subs.map (fun k => s.get (F.HST_SUB_MAC_MAC k))
    let s := dsts.foldl (fun t d => t.txSend p { cls := txNotice, kind := .notice d n }) s
    { s with saf := { s.saf with owed := if p = 0 then (false, s.saf.owed.2) else (s.saf.owed.1, false) } }
  else if s.on (portFld p F.HST_CTRL_ENABLE_A F.HST_CTRL_ENABLE_B) then
    { s with saf := { s.saf with owed := if p = 0 then (true, s.saf.owed.2) else (s.saf.owed.1, true) } }
  else s

/-- Send a notice on both host ports and hold it as the latest (R289). -/
def State.sendNotice (s : State) (n : Notice) : State :=
  let s := { s with saf := { s.saf with notice := some n, noticeSeq := (n.seq + 1) % 2 ^ 32, noticeAt := s.pwr.refclk } }
  (s.noticeOn 0 n).noticeOn 1 n

end Sys2Proof.Machine
end

