-- ==== Sys2Proof/Machine/HistTable.lean ====
section
/-! DEFINITION. The page table of the history cache (spec/15_history_cache.md, R242 to R250): page records, directory
banks and list blocks in memory, the shadow, and the batches staged for the next generation. -/

namespace Sys2Proof.Machine

/-! ## Page records (R242) -/

def pageUnlisted (_ : Nat) : PageRec := {}

def State.page (s : State) (p : Nat) : PageRec := sparseGet pageUnlisted s.kvc.pages p

def State.setPage (s : State) (p : Nat) (r : PageRec) : State :=
  { s with kvc := { s.kvc with pages := sparseSet pageUnlisted s.kvc.pages p r } }

def State.updPage (s : State) (p : Nat) (f : PageRec → PageRec) : State := s.setPage p (f (s.page p))

/-- The code of STATE in a page record. -/
def PageState.code : PageState → Nat
  | .free => 0
  | .resident => 1
  | .spilled => 2
  | .moving _ => 3
  | .bad => 4

/-- Whether the page's data are read from the spill region (R253). -/
def PageState.inSpill : PageState → Bool
  | .spilled => true
  | .moving b => !b
  | _ => false

/-- Granules of a page. -/
def PageRec.granules (p : PageRec) : Nat := 2 ^ p.size

/-- Bytes of a row, and positions of a page (R242). -/
def PageRec.rowBytes (p : PageRec) : Nat := (p.dim * 32 * (if p.fmt = 4 then 2 else 1) + 63) / 64 * 64
def PageRec.cap (p : PageRec) : Nat := 2 ^ (p.size + 12) / (2 * max 1 p.rowBytes)

/-- The 16 bytes of a page record (R242). -/
def PageRec.bytes (p : PageRec) : List Byte :=
  natLe 1 (p.size % 16 + 16 * (p.fmt % 16)) ++ natLe 1 (p.dim % 16 + 16 * p.state.code + if p.clean then 128 else 0)
    ++ natLe 2 p.refs ++ natLe 4 (if p.state.inSpill then p.spill else p.loc) ++ natLe 8 (ofInt 64 p.newest)

/-- The history partition: its base address and its granules (R212, R242). -/
def State.histBase (s : State) : Nat := s.get F.NGT_CTRL_ACT_BANKS * 0x400000
def State.histGranules (s : State) : Nat := s.get F.NGT_CTRL_HIST_BANKS * 1024

/-- Granules of the spill region (KVC_SIZES). -/
def State.spillGranules (s : State) : Nat := s.get F.KVC_SIZES_SPILL_UNITS * 16384

/-- The device address of a page's data (R242, R247). -/
def State.pageAddr (s : State) (p : PageRec) : Nat :=
  if p.state.inSpill then s.base F.KVC_SPILL_BASE_BASE + p.spill * 4096 else s.histBase + p.loc * 4096

/-- Whether a page holds granules of the history partition; of the spill region. -/
def PageRec.inHist (p : PageRec) : Bool :=
  match p.state with
  | .resident | .moving _ | .bad => true
  | _ => false
def PageRec.holdsSpill (p : PageRec) : Bool :=
  match p.state with
  | .spilled | .moving _ => true
  | .free => false
  | _ => p.clean

/-- Free granules of the history partition. -/
def State.residentFree (s : State) : Nat :=
  s.histGranules - ((s.kvc.pages.filter (fun p => p.2.inHist)).map (fun p => p.2.granules)).foldl (· + ·) 0

/-- The lowest size-aligned free block of `n` granules among `total`, given the blocks in use (R242). -/
def freeBlock (total n : Nat) (used : List (Nat × Nat)) : Option Nat :=
  ((List.range (total / max 1 n)).map (· * n)).find? (fun a => used.all (fun u => decide (u.1 + u.2 ≤ a) || decide (a + n ≤ u.1)))

def State.histBlock (s : State) (n : Nat) : Option Nat :=
  freeBlock s.histGranules n ((s.kvc.pages.filter (fun p => p.2.inHist)).map (fun p => (p.2.loc, p.2.granules)))
def State.spillBlock (s : State) (n : Nat) : Option Nat :=
  freeBlock s.spillGranules n ((s.kvc.pages.filter (fun p => p.2.holdsSpill)).map (fun p => (p.2.spill, p.2.granules)))

/-- The lowest free page index (R242). -/
def State.freePage (s : State) : Option Nat := (List.range 32768).find? (fun p => (s.page p).state == .free)

def State.pinned (s : State) (p : Nat) : Bool := s.kvc.pins.any (fun x => x.1 == p)

/-! ## Directory and lists (R243) -/

def State.seqs (s : State) : Nat := s.get F.KVC_CTRL_SEQS

/-- Address of a directory entry; bank 6 stands for the golden table (R255). -/
def State.dirAddr (s : State) (bank seq : Nat) : Nat :=
  if bank = 6 then s.base F.KVC_GOLDEN_BASE_BASE + 8 * seq else s.base F.KVC_DIR_BASE_BASE + (bank * s.seqs + seq) * 8

def State.dirEntry (s : State) (bank seq : Nat) : Nat := s.readLe (s.dirAddr bank seq) 8

/-- Fields of a directory entry. -/
def deList (d : Nat) : Nat := bitsAt d 0 24
def deNent (d : Nat) : Nat := bitsAt d 24 9
def deNext (d : Nat) : Nat := bitsAt d 33 14
def deValid (d : Nat) : Bool := bitSet d 47

/-- Units of 64 bytes that a list of `n` entries takes. -/
def listUnits (n : Nat) : Nat := (n * 8 + 63) / 64

def State.listAddr (s : State) (d : Nat) : Nat := s.base F.KVC_LIST_BASE_BASE + 64 * deList d

/-- A sequence as a bank holds it. -/
def State.seqOf (s : State) (bank seq : Nat) : HistSeq :=
  let d := s.dirEntry bank seq
  { entries := (List.range (deNent d)).map (fun i =>
      let e := s.readLe (s.listAddr d + 8 * i) 8
      (bitsAt e 0 15, bitsAt e 16 13, bitsAt e 29 14))
    next := deNext d, valid := deValid d }

/-- A sequence as the shadow holds it (R246). -/
def State.shadowSeq (s : State) (seq : Nat) : HistSeq :=
  match s.kvc.shadow.find? (fun x => x.1 == seq) with
  | some x => x.2
  | none => s.seqOf s.kvc.current seq

/-- Banks in use: current, shadow, and those that open steps hold (R244). -/
def State.banksUsed (s : State) : List Nat := s.kvc.current :: s.kvc.shadowBank :: s.atn.steps.map (·.bank)

/-- List blocks that some bank in use names: first unit and units. -/
def State.unitsUsed (s : State) : List (Nat × Nat) :=
  s.banksUsed.flatMap (fun b => (List.range s.seqs).filterMap (fun q =>
    let d := s.dirEntry b q
    if deNent d = 0 then none else some (deList d, listUnits (deNent d))))

/-- The lowest free run of `n` units of the list pool (R243, R246). -/
def State.freeUnits (s : State) (n : Nat) : Option Nat :=
  let used := s.unitsUsed
  let total := s.get F.KVC_SIZES_LIST_UNITS * 1024
  (List.range (total + 1 - n)).find? (fun a => used.all (fun u => decide (u.1 + u.2 ≤ a) || decide (a + n ≤ u.1)))

/-- Write a sequence into the shadow bank, its list in a new block (R243). None when the pool has no room. -/
def State.writeSeq (s : State) (seq : Nat) (v : HistSeq) : Option State :=
  let n := listUnits v.entries.length
  match if n = 0 then some 0 else s.freeUnits n with
  | none => none
  | some u =>
    let s := s.writeBytes (s.base F.KVC_LIST_BASE_BASE + 64 * u)
      (v.entries.flatMap (fun e => natLe 8 (e.1 + e.2.1 * 2 ^ 16 + e.2.2 * 2 ^ 29)))
    some (s.writeLe (s.dirAddr s.kvc.shadowBank seq) 8
      (u + v.entries.length * 2 ^ 24 + v.next * 2 ^ 33 + if v.valid then 2 ^ 47 else 0))

def State.writeSeqs (s : State) : List (Nat × HistSeq) → Option State
  | [] => some s
  | (q, v) :: r => match s.writeSeq q v with
    | none => none
    | some s => s.writeSeqs r

/-! ## Edits (R245) -/

/-- Fields of an edit record. -/
def edOp (r : List Byte) : Nat := leAt r 0 1
def edSeq (r : List Byte) : Nat := leAt r 2 2
def edA (r : List Byte) : Nat := leAt r 4 2
def edB (r : List Byte) : Nat := leAt r 6 2
def edC (r : List Byte) : Nat := leAt r 8 2

/-- A sequence under an edit; none when a position would fall below 0 (R245). `other` is sequence A of a SHARE. -/
def editSeq (r : List Byte) (other v : HistSeq) : Option HistSeq :=
  match edOp r with
  | 1 => some { v with entries := v.entries.filter (fun e => !(decide (edA r ≤ e.2.1) && decide (e.2.1 + e.2.2 ≤ edB r))) }
  | 2 => some { v with entries := v.entries ++ other.entries.take (edC r) }
  | 3 =>
    if v.next < edB r || v.entries.any (fun e => decide (edA r ≤ e.2.1) && decide (e.2.1 < edB r)) then none
    else some { v with next := v.next - edB r
                       entries := v.entries.map (fun e => if edA r ≤ e.2.1 then (e.1, e.2.1 - edB r, e.2.2) else e) }
  | 4 => some { entries := [], next := 0, valid := true }
  | 5 => some { entries := [], next := 0, valid := false }
  | _ => some v

/-- Look a sequence up in a set of changes over the current generation. -/
def State.overlay (s : State) (o : List (Nat × HistSeq)) (seq : Nat) : HistSeq :=
  match o.find? (fun x => x.1 == seq) with
  | some x => x.2
  | none => s.seqOf s.kvc.current seq

def setSeq (o : List (Nat × HistSeq)) (seq : Nat) (v : HistSeq) : List (Nat × HistSeq) :=
  (seq, v) :: o.filter (fun x => x.1 != seq)

/-- Apply edit records in order; none when one has no result. -/
def State.applyEdits (s : State) (o : List (Nat × HistSeq)) : List (List Byte) → Option (List (Nat × HistSeq))
  | [] => some o
  | r :: rest => match editSeq r (s.overlay o (edA r)) (s.overlay o (edSeq r)) with
    | none => none
    | some v => s.applyEdits (setSeq o (edSeq r) v) rest

/-- A sequence after an instance's appends (R249, R250): each entry of the pending list takes the place of the one that
starts at its position, or goes last. -/
def appendSeq (old d : HistSeq) : HistSeq :=
  { old with
    next := d.next
    entries := d.entries.foldl (fun l e =>
      if l.any (fun x => x.2.1 == e.2.1) then l.map (fun x => if x.2.1 = e.2.1 then e else x) else l ++ [e]) old.entries }

/-- An append batch of KVC itself (R250). (DEDUCED: log entry 91) -/
def State.applyAppends (s : State) (o batch : List (Nat × HistSeq)) : List (Nat × HistSeq) :=
  batch.foldl (fun o x => setSeq o x.1 (appendSeq (s.overlay o x.1) x.2)) o

/-- The shadow that the staged batches give: appends first, then firmware batches in staging order (R255). A firmware
batch whose edits have no result on the appended lists leaves them as they are. (DEDUCED: log entry 91) -/
def State.stagedShadow (s : State) (appends : List (List (Nat × HistSeq))) (batches : List (List (List Byte))) :
    List (Nat × HistSeq) :=
  batches.foldl (fun o b => (s.applyEdits o b).getD o) (appends.foldl s.applyAppends [])

/-! ## References (R242, R245) -/

/-- How often a list names a page. -/
def HistSeq.names (v : HistSeq) (p : Nat) : Nat := v.entries.countP (fun e => e.1 == p)

/-- The pages that a set of changes, or what it replaces, names. -/
def State.touched (s : State) (o : List (Nat × HistSeq)) : List Nat :=
  (o.flatMap (fun x => x.2.entries.map (·.1) ++ (s.seqOf s.kvc.current x.1).entries.map (·.1))).eraseDups

/-- The change of a page's REFS that a set of changes makes. -/
def State.refDelta (s : State) (o : List (Nat × HistSeq)) (p : Nat) : Int :=
  (o.map (fun x => (x.2.names p : Int) - ((s.seqOf s.kvc.current x.1).names p : Int))).foldl (· + ·) 0

/-- REFS of a page under another shadow. -/
def State.refsUnder (s : State) (o : List (Nat × HistSeq)) (p : Nat) : Nat :=
  ((s.page p).refs + s.refDelta o p - s.refDelta s.kvc.shadow p).toNat

/-- Replace the shadow (R246, R250): the changed sequences are written into the shadow bank, the others stand as in the
current generation, and REFS follow. None when the list pool has no room. -/
def State.replaceShadow (s : State) (o : List (Nat × HistSeq)) : Option State :=
  let refs := (s.touched (o ++ s.kvc.shadow)).map (fun p => (p, s.refsUnder o p))
  -- sequences changed before fall back to the current generation
  let back := s.kvc.shadow.foldl (fun t x => t.writeLe (t.dirAddr t.kvc.shadowBank x.1) 8 (t.dirEntry t.kvc.current x.1)) s
  match back.writeSeqs o with
  | none => none
  | some t =>
    let t := { t with kvc := { t.kvc with shadow := o } }
    some (refs.foldl (fun t r => t.updPage r.1 (fun p => { p with refs := r.2 })) t)

/-- Whether a list meets R243 and R246: pages in use, entries ascending and apart, each within its page and 8,192. -/
def State.listOk (s : State) (v : HistSeq) : Bool :=
  let rec go : Nat → List (Nat × Nat × Nat) → Bool
    | _, [] => true
    | lo, (p, f, c) :: r =>
      let st := (s.page p).state
      decide (lo ≤ f) && decide (1 ≤ c) && decide (c ≤ (s.page p).cap) && decide (f + c ≤ 8192) && st != .free && st != .bad
        && go (f + c) r
  decide (v.entries.length ≤ 256) && go 0 v.entries && decide (v.next ≤ 8192)
    && (match v.entries.getLast? with
      | some e => decide (e.2.1 + e.2.2 ≤ v.next)
      | none => true)

/-- Stage the batches, if the shadow they give can be built. -/
def State.stage (s : State) (appends : List (List (Nat × HistSeq))) (batches : List (List (List Byte))) : Option State :=
  (s.replaceShadow (s.stagedShadow appends batches)).map (fun t =>
    { t with kvc := { t.kvc with appends := appends, batches := batches } })

/-- Whether a batch awaits a boundary (KVC_STATUS.STAGED). -/
def State.kvcStaged (s : State) : Bool := !s.kvc.appends.isEmpty || !s.kvc.batches.isEmpty

/-! ## Finality, squash and time (R250, R253, R255) -/

/-- Free the pages of pending lists that no list of any generation names. -/
def State.dropPages (s : State) (p : List (Nat × HistSeq)) : State :=
  (p.flatMap (fun x => x.2.entries.map (·.1))).foldl (fun t q => if (t.page q).refs = 0 then t.setPage q {} else t) s

/-- Generations held by open steps (R244). -/
def State.gensHeld (s : State) : List Nat := (s.atn.steps.filter (fun x => x.run.graph == 0)).map (·.gen)

/-- a before b among generation numbers, compared modulo 2^32 (R244). -/
def genBefore (a b : Nat) : Bool := a != b && decide ((b + 2 ^ 32 - a) % 2 ^ 32 < 2 ^ 31)

/-- Free every page whose REFS has fallen to 0, with no pin, that no held generation from before that change names (R244,
R248). A page being copied waits for its copy. -/
def State.freePages (s : State) : State :=
  let dead := s.kvc.pages.filter (fun p => p.2.refs == 0 && !s.pinned p.1
    && (match p.2.state with
      | .moving _ => false
      | _ => true)
    && (match p.2.zeroAt with
      | some g => !s.gensHeld.any (fun h => genBefore h g)
      | none => false))
  dead.foldl (fun t p => t.setPage p.1 {}) s

/-- Prefetch pins of an instance are released, at its finality or squash (R251, R253). -/
def State.unpinInstance (s : State) (cycle : Nat) : State :=
  { s with kvc := { s.kvc with pins := s.kvc.pins.filter (fun p => !(p.2.1 && p.2.2 == cycle)) } }.freePages

/-- The head's pending lists are discarded (R148). -/
def State.dropPending (s : State) : State :=
  let p := s.kvc.pending
  { s with kvc := { s.kvc with pending := [] } }.dropPages p

/-- An instance is final: its appends are staged as one batch, and its prefetch pins are released (R250, R253). A batch
for which the list pool has no room is not staged. (DEDUCED: log entry 92) -/
def State.commitAppends (s : State) (cycle : Nat) : State :=
  let s := s.unpinInstance cycle
  if s.kvc.pending.isEmpty then s
  else
    let p := s.kvc.pending
    match s.stage (s.kvc.appends ++ [p]) s.kvc.batches with
    | some t => { t with kvc := { t.kvc with pending := [] } }
    | none => s.dropPending

/-- A step of device time: T_NEWEST and the last change are rebased (R242, R255). -/
def State.rebaseHistory (s : State) (step : Time) : State :=
  { s with kvc := { s.kvc with
      pages := s.kvc.pages.map (fun p => (p.1, { p.2 with newest := p.2.newest + step }))
      lastChange := s.kvc.lastChange.map (· + step) } }

/-! ## Generation 0 (R243) -/

/-- Copy generation 0 from bank 0 into the shadow bank. -/
def State.copyGeneration0 (s : State) : State :=
  { (s.writeBytes (s.dirAddr 1 0) (s.readBytes (s.dirAddr 0 0) (s.seqs * 8))) with kvc := { s.kvc with shadowReady := true } }

/-- KVC starts: generation 0 stands in bank 0 as loaded, and is copied into the shadow bank. -/
def State.startHistory (s : State) (pages : List (Nat × PageRec)) : State :=
  let s := { s with kvc := { pages := pages, gen0Pages := pages } }
  if !s.on F.KVC_CTRL_ENABLE then s
  else
    let lists := (List.range s.seqs).filterMap (fun q =>
      let v := s.seqOf 0 q
      if v = {} then none else some (q, v))
    { s with kvc := { s.kvc with gen0 := lists } }.copyGeneration0

/-- KVC reloads generation 0 (15, after a Doze without RETAIN_HIST): its page records, and its lists in bank 0. -/
def State.reloadHistory (s : State) : State :=
  let g := s.kvc.gen0
  let s := { s with kvc := { pages := s.kvc.gen0Pages, gen0Pages := s.kvc.gen0Pages, gen0 := g, shadowBank := 0 } }
  if !s.on F.KVC_CTRL_ENABLE then s
  else
    let s := s.writeBytes (s.dirAddr 0 0) (zeroBytes (s.seqs * 8))
    let s := (s.writeSeqs g).getD s
    { s with kvc := { s.kvc with shadowBank := 1 } }.copyGeneration0

end Sys2Proof.Machine
end

