-- ==== Sys2Proof/Machine/SolverWindow.lean ====
section
/-! DEFINITION. What other units do to the solver (spec/08_solver.md): the settings in force for a node (R135), the
next node, the effect of a step of device time (R135), and the cold start after a return to Active (R350). -/

namespace Sys2Proof.Machine

/-! ## Settings and nodes -/

/-- The settings a commit may change, as they stand (R136). -/
def State.slvSet (s : State) : SlvSet :=
  { iters := s.get F.SLV_CTRL_ITERS, window := s.get F.SLV_CTRL_WINDOW, pivotMin := s.get F.SLV_PIVOT_PIVOT_MIN
    lambda := s.get F.SLV_PIVOT_LAMBDA, asmBudget := s.get F.SLV_CTRL_ASM_BUDGET, egoConv := s.get F.SLV_CONV_EGO_CONV
    baConv := s.get F.SLV_CONV_BA_CONV, baTimeout := s.get F.SLV_CONV_BA_TIMEOUT
    predictMax := s.get F.SLV_TIMING_PREDICT_MAX }

/-- The settings of a node: those before the first commit whose apply instant its time precedes (R135). -/
def State.slvSetAt (s : State) (t : Time) : SlvSet :=
  match s.slv.heldSets.find? (fun h => decide (t < h.1)) with
  | some h => h.2
  | none => s.slvSet

/-- Keep SLV's settings for the nodes before an apply instant (R135). -/
def State.holdSolver (s : State) : State := { s with slv := { s.slv with heldSets := s.slv.heldSets ++ [(s.now, s.slvSet)] } }

def State.nodePeriod (s : State) : Int := max 1 (s.get F.SLV_TIMING_NODE_PERIOD)
def State.egoIntake (s : State) : Int := s.get F.SLV_TIMING_EGO_INTAKE * 1000
def State.egoDeadline (s : State) : Int := s.get F.SLV_TIMING_EGO_DEADLINE * 1000

/-- The first multiple of NODE_PERIOD after a time. -/
def State.nodeAfter (s : State) (t : Time) : Time := (t / s.nodePeriod + 1) * s.nodePeriod

/-- The next node whose intake closes (R117, R135): one that a step of time found open, else the first multiple of
NODE_PERIOD after the last. Before any node it is the latest multiple whose intake can have closed. -/
def State.nextNode (s : State) : Time :=
  match s.slv.passed, s.slv.after with
  | some t, _ => t
  | none, some a => s.nodeAfter a
  | none, none => (s.now - s.egoIntake) / s.nodePeriod * s.nodePeriod

/-- The solve's place is free again for bundle adjustment (R134). -/
def State.egoIdle (s : State) : State :=
  { (s.put F.SLV_STATUS_EGO_BUSY 0) with slv := { s.slv with ba := s.slv.ba.map (fun b => { b with paused := false }) } }

/-! ## Coinciding events (R135, R350) -/

/-- A record with the time at byte `off` moved by a step; its CRC-32C, in its last four bytes, follows (R20). -/
def shiftTime (l : List Byte) (off : Nat) (step : Time) : List Byte :=
  withCrc ((l.take off ++ natLe 8 (ofInt 64 (toSigned 64 (leAt l off 8) + step)) ++ l.drop (off + 8)).take (l.length - 4))

/-- A step of device time (R135): node times, samples, solves and unpublished estimates are rebased; a node whose time has
passed keeps its intake; the next node is the first multiple of NODE_PERIOD after the step. -/
def State.rebaseSolver (s : State) (step : Time) : State :=
  let now := s.now
  let t := s.nextNode
  let it : EgoItem → EgoItem
    | .imu i u g a => .imu i (u + step) g a
    | .wheel e u c d => .wheel e (u + step) c d
    | .can u => .can (u + step)
  let rg (r : List Byte) : List Byte := shiftTime r 0 step
  let nd (n : SlvNode) : SlvNode :=
    { n with time := n.time + step, prev := n.prev + step, items := n.items.map it, before := n.before.map it, regs := n.regs.map rg }
  let es (e : Est) : Est := { e with time := e.time + step }
  let x := s.slv
  { s with slv := { x with
    nodes := x.nodes.map nd, items := x.items.map it, lastImu := x.lastImu.map it, regs := x.regs.map rg
    closed := x.closed.map (· + step), after := x.closed.map (fun _ => now + step)
    passed := if x.closed.isSome ∧ t ≤ now then some (t + step) else none
    solve := x.solve.map (fun e => { e with time := e.time + step, start := e.start + step, nodes := e.nodes.map nd })
    last := x.last.map es, solved := x.solved.map es
    heldSets := x.heldSets.map (fun h => (h.1 + step, h.2))
    ba := x.ba.map (fun b => { b with start := b.start + step }) } }

/-- SLV after a return to Active: its next solve starts cold without WARM_DISCARDED (R350), in the odometry frame that stands (R117). -/
def State.coldSolver (s : State) : State :=
  { s with slv := { s.slv with held := (s.slv.nodes.getLast?.map (fun (n : SlvNode) => n.state)).orElse (fun _ => s.slv.held), nodes := [], items := [], regs := [], updates := [], closed := none, after := none
                               passed := none, solve := none, sig := none, missed := false } }.egoIdle

end Sys2Proof.Machine
end

