-- ==== Sys2Proof/Machine/Tables.lean ====
section
/-! DEFINITION. Pillar tables as operations (spec/05_point_pipeline.md): taking and freeing a table (R82), the probe
(R79), admission (R81), the voxel rule (R80), and the range class (R78). -/

namespace Sys2Proof.Machine

/-! ## Taking and freeing tables (R82) -/

def State.ptable (s : State) (cycle : Nat) : Option PTable := s.pts.tables.find? (fun t => t.cycle == cycle)

def State.updTable (s : State) (cycle : Nat) (f : PTable → PTable) : State :=
  { s with pts := { s.pts with tables := updateFirst (fun t => t.cycle == cycle) f s.pts.tables } }

def State.ptsWin (s : State) (cycle : Nat) : Option PtsWin := s.pts.wins.find? (fun w => w.cycle == cycle)

def State.updWin (s : State) (cycle : Nat) (f : PtsWin → PtsWin) : State :=
  { s with pts := { s.pts with wins := updateFirst (fun w => w.cycle == cycle) f s.pts.wins } }

/-- The start and the end of the ingest window of an instance in flight (R10). -/
def State.window (s : State) (cycle : Nat) : Option (Time × Time) :=
  (s.glz.insts.find? (fun i => i.cycle == cycle)).map (fun i => (i.winStart, i.tov))

/-- The lowest table not in use. (DEDUCED: log entry 41) -/
def State.freeTableIndex (s : State) : Option Nat :=
  (List.range (s.get F.PTS_CTRL_TABLES)).find? (fun j => !s.pts.tables.any (fun t => t.index == j))

/-- The oldest open window without a table. -/
def State.waitingWin (s : State) : Option PtsWin :=
  s.pts.wins.find? (fun w => !w.ended && (s.ptable w.cycle).isNone)

/-- Waiting windows take free tables, the oldest first (R82); `fuel` bounds the tables, at most 4. (DEDUCED: log entry 41) -/
def State.giveTables : Nat → State → State
  | 0, s => s
  | f + 1, s =>
    match s.waitingWin, s.freeTableIndex with
    | some w, some j =>
      let win := (s.window w.cycle).getD (0, 0)
      let late := decide (win.2 ≤ s.now)
      let s := { s with pts := { s.pts with tables := s.pts.tables ++ [({ index := j, cycle := w.cycle, p := win.1 } : PTable)] } }
      (s.updWin w.cycle (fun w => { w with waited := w.waited || late })).giveTables f
    | _, _ => s

/-- A window opens for PTS (R82, R85, R86): it saves the slicing state with the mark and the tunables in force, and takes
a table, or waits. -/
def State.openPtsWindow (s : State) (cycle : Nat) : State :=
  if !s.on F.PTS_CTRL_ENABLE || s.gated wPTS then s
  else
    let w : PtsWin := {
      cycle, saved := s.pts.slots
      geom := (s.get F.PTS_GEOM_GUARD_RADIUS, s.get F.PTS_GEOM_CLASS_WIDTH)
      ext := (List.range 16).map (fun k => ((s.reg (F.PTS_LIDAR_ROT_QW k).addr).toNat, (s.reg (F.PTS_LIDAR_TRANS_TX k).addr).toNat)) }
    let s := { s with pts := { s.pts with wins := s.pts.wins ++ [w] } }.giveTables 4
    if (s.ptable cycle).isNone then s.raise F.PTS_EVENT_TABLE_WAIT else s

/-- Free the table of a cycle; a waiting window takes it (R82). -/
def State.freeTable (s : State) (cycle : Nat) : State :=
  { s with pts := { s.pts with tables := s.pts.tables.filter (fun t => t.cycle != cycle) } }.giveTables 4

/-- Discard PTS's work of a cycle: its table, its parts, its sparse convolution (R102, R165). -/
def State.discardPoints (s : State) (cycle : Nat) : State :=
  let s := { s with
    pts := { s.pts with
      wins := s.pts.wins.filter (fun w => w.cycle != cycle)
      parts := s.pts.parts.filter (fun p => p.cycle != cycle)
      slots := s.pts.slots.map (fun (l : LidarSlot) => match l.part with
        | some p => if p.cycle = cycle then { l with part := none } else l
        | none => l) }
    spc := match s.spc with
      | some x => if x.table.cycle = cycle then none else some x
      | none => none }
  s.freeTable cycle

/-- A squashed instance starts again (R85, R86): the slicing state saved with its mark, the settings it started with, and
a new table. -/
def State.restartPoints (s : State) (w : PtsWin) : State :=
  let s := { s with pts := { s.pts with
    slots := w.saved
    wins := insertBy (fun (x : PtsWin) => (x.cycle : Int)) { w with ended := false } (s.pts.wins.filter (fun x => x.cycle != w.cycle)) } }
  s.giveTables 4

/-- Rebase the times of a table: P and every record, so that no DT changes (R86). -/
def PTable.rebase (d : Time) (t : PTable) : PTable :=
  { t with p := t.p + d, pillars := t.pillars.map (fun q => { q with recs := q.recs.map (fun r => (r.1, { r.2 with t := r.2.t + d })) }) }

/-- Rebase the times PTS holds (R86). -/
def Pts.rebase (p : Pts) (d : Time) : Pts :=
  let rec_ (r : PointRec) : PointRec := { r with t := r.t + d }
  let part (q : Part) : Part := { q with mid := q.mid + d, doneAt := q.doneAt + d, recs := q.recs.map rec_ }
  let slot (l : LidarSlot) : LidarSlot := { l with start := l.start.map (· + d), part := l.part.map part }
  let table := PTable.rebase d
  { p with slots := p.slots.map slot, parts := p.parts.map part, tables := p.tables.map table
           wins := p.wins.map (fun w => { w with saved := w.saved.map slot }), golden := p.golden.map table
           goldSlices := p.goldSlices.map (fun g => (g.1, g.2.1 + d, g.2.2)) }

/-! ## Cells and classes (R77, R78) -/

/-- The tile of a cell. -/
def tileOfCell (cx cy : Nat) : Nat := cy / 32 * 16 + cx / 32

/-- The range class of a cell (R78), in exact arithmetic on the squared distance of twice the centre. -/
def rangeClass (cell : Nat) (ego : Int × Int) (geom : Nat × Nat) (cx cy : Int) : Nat :=
  let a := 2 * (cx - ego.1) + 1
  let b := 2 * (cy - ego.2) + 1
  let d2 := (cell * cell : Int) * (a * a + b * b)
  let within (k : Nat) : Bool := decide (d2 ≤ 4 * ((geom.1 + k * geom.2 : Nat) : Int) * ((geom.1 + k * geom.2 : Nat) : Int))
  ((List.range 15).find? within).getD 15

/-! ## Hash and probe (R79, R92) -/

/-- The multiplicative hash of a key, shifted right. -/
def hashKey (key shift buckets : Nat) : Nat := key * 0x9E3779B1 % 2 ^ 32 / 2 ^ shift % buckets

/-- What a probe finds. -/
inductive ProbeResult where
  | found (slot : Nat)
  | absent (free : Option Nat)
  deriving DecidableEq, Repr

/-- Probe slot `i` of the sequence of 256 slots from the key's bucket (R79). -/
def probeFrom (hash : List (Nat × Nat × Nat)) (key b0 buckets : Nat) : Nat → Nat → Option Nat → ProbeResult
  | 0, _, ff => .absent ff
  | f + 1, i, ff =>
    let slot := (b0 + i / 4) % buckets * 4 + i % 4
    match hash.find? (fun h => h.1 == slot) with
    | none => .absent (ff.or (some slot))
    | some (_, st, k) =>
      if st = 1 ∧ k = key then .found slot
      else if st = 2 then probeFrom hash key b0 buckets f (i + 1) (ff.or (some slot))
      else probeFrom hash key b0 buckets f (i + 1) ff

/-- The probe of the pillar table, or of the golden table with its 4,096 buckets (R79, R88). (DEDUCED: log entry 45) -/
def PTable.probe (t : PTable) (key : Nat) : ProbeResult :=
  if t.index = 4 then probeFrom t.hash key (hashKey key 20 4096) 4096 256 0 none
  else probeFrom t.hash key (hashKey key 17 32768) 32768 256 0 none

/-! ## Voxels and admission (R80, R81) -/

/-- Bytes 0 to 7 of a record, little-endian (R70). -/
def PointRec.coords (r : PointRec) : Nat := ofInt 24 r.x + ofInt 24 r.y * 2 ^ 24 + ofInt 16 r.z * 2 ^ 48

/-- ranks_higher(a, b) (R80). -/
def ranksHigher (a b : PointRec) : Bool :=
  if a.t ≠ b.t then decide (b.t < a.t)
  else if a.lidar ≠ b.lidar then decide (a.lidar < b.lidar)
  else if a.ret ≠ b.ret then decide (a.ret < b.ret)
  else decide (a.coords < b.coords)

/-- Offer a record to a pillar's voxel; also whether a record was superseded (R80). -/
def Pillar.offer (p : Pillar) (v : Nat) (r : PointRec) : Pillar × Bool :=
  let p := { p with offered := satNat 16 (p.offered + 1) }
  match p.recs.find? (fun x => x.1 == v) with
  | none => ({ p with recs := p.recs ++ [(v, r)] }, false)
  | some (_, b) =>
    if ranksHigher r b then ({ p with recs := p.recs.map (fun x => if x.1 = v then (v, r) else x) }, true) else (p, true)

/-- Set a hash slot. -/
def PTable.setHash (t : PTable) (slot st key : Nat) : PTable :=
  { t with hash := (slot, st, key) :: t.hash.filter (fun h => h.1 != slot) }

/-- The lowest pillar index that is free. -/
def PTable.freeIdx (t : PTable) : Nat :=
  ((List.range (t.pillars.length + 1)).find? (fun i => !t.pillars.any (fun p => p.idx == i))).getD 0

/-- The farthest class with a pillar in the general pool. -/
def PTable.farthest (t : PTable) : Option Nat :=
  (List.range 16).reverse.find? (fun k => t.pillars.any (fun p => !p.reserve && p.cls == k))

/-- A cell is flagged: its tile carries OVERFLOW_PILLARS (R81). -/
def PTable.flagTile (t : PTable) (tile : Nat) : PTable :=
  { t with ovfTiles := if t.ovfTiles.contains tile then t.ovfTiles else tile :: t.ovfTiles }

/-- The tile of a key. -/
def tileOfKey (key : Nat) : Nat := tileOfCell (key % 512) (key / 512)

/-- A refused cell (R79, R81). -/
def PTable.refuse (t : PTable) (key : Nat) : PTable := { t.flagTile (tileOfKey key) with refused := t.refused + 1 }

/-- Add a pillar for a cell at a hash slot. -/
def PTable.addPillar (t : PTable) (key cls slot : Nat) (reserve : Bool) : PTable :=
  let t := t.setHash slot 1 key
  { t with pillars := t.pillars ++ [{ key, idx := t.freeIdx, cls, reserve, hslot := slot }] }

/-- The admission of a cell (R81); the golden table has no reserve and no eviction (R88). (DEDUCED: log entry 45) -/
def PTable.admitPillar (t : PTable) (key cls slot : Nat) : PTable × Bool :=
  if t.index = 4 then
    (if t.pillars.length < 8192 then (t.addPillar key cls slot false, true) else (t.refuse key, false))
  else if cls = 0 && decide (t.pillars.countP (·.reserve) < 8192) then (t.addPillar key cls slot true, true)
  else if t.pillars.countP (fun p => !p.reserve) < 57344 then (t.addPillar key cls slot false, true)
  else match t.farthest with
    | none => (t.refuse key, false)
    | some f =>
      if cls < f then
        match t.pillars.reverse.find? (fun p => !p.reserve && p.cls == f) with
        | none => (t.refuse key, false)
        | some v =>
          let t := (t.setHash v.hslot 2 0).flagTile (tileOfKey v.key)
          let t := { t with pillars := t.pillars.filter (fun p => p.idx != v.idx), evicted := t.evicted + 1
                            evictedPts := t.evictedPts + v.recs.length }
          (t.addPillar key cls slot false, true)
      else (t.refuse key, false)

/-- Insert a compensated record of a cell and voxel (R79 to R81); also whether the probe limit was met. -/
def PTable.insert (t : PTable) (key cls v : Nat) (r : PointRec) : PTable × Bool :=
  let put (t : PTable) : PTable :=
    match t.pillars.find? (fun p => p.key == key) with
    | none => t
    | some p =>
      let o := p.offer v r
      { t with pillars := t.pillars.map (fun q => if q.key = key then o.1 else q)
               superseded := if o.2 then t.superseded + 1 else t.superseded }
  match t.probe key with
  | .found _ => (put t, false)
  | .absent none => (t.refuse key, true)
  | .absent (some slot) =>
    let a := t.admitPillar key cls slot
    if a.2 then (put a.1, false) else (a.1, false)

/-- Pillars in emission order: tile by tile, and within a tile by admission (R82). -/
def PTable.emission (t : PTable) : List Pillar :=
  (List.range 256).flatMap (fun k => t.pillars.filter (fun p => tileOfKey p.key == k))

/-- Kept records of a table. -/
def PTable.kept (t : PTable) : List PointRec := t.pillars.flatMap (fun p => p.recs.map (·.2))

/-- Change the counts of one lidar. -/
def PTable.lidar (t : PTable) (l : Nat) (f : LidarCount → LidarCount) : PTable :=
  if t.lidars.any (fun c => c.lidar == l) then { t with lidars := updateFirst (fun c => c.lidar == l) f t.lidars }
  else { t with lidars := t.lidars ++ [f { lidar := l }] }

end Sys2Proof.Machine
end

