-- ==== Sys2Proof/Machine/Discard.lean ====
section
/-! DEFINITION. Discarding the work of an instance slot in every engine: step 5 of R165 (R102, R114, R152), entry to
Halted (R148), and the open host requests that Halted ends (R341). -/

namespace Sys2Proof.Machine

/-- A block's header as held, rebased: the time stands at byte 8 (R99, R112). -/
def Block.rebase (step : Time) (b : Block) : Block := { b with header := if b.header.isEmpty then [] else shiftTime b.header 8 step }

/-- A 64-byte record in memory, rebased; one in a poisoned word is left. -/
def State.rebaseRecord (s : State) (a off : Nat) (step : Time) : State :=
  if s.poisoned a 64 then s else s.writeBytes a (shiftTime (s.readBytes a 64) off step)

/-- ARR abandons the entries and chains of some runs (R165). -/
def State.discardArray (s : State) (gone : RunId → Bool) : State :=
  { s with arr := { s.arr with
      ops := s.arr.ops.filter (fun o => !gone o.run)
      sets := s.arr.sets.filter (fun x => !gone x.run)
      bufs := s.arr.bufs.filter (fun b => !gone b.run) } }

/-- ATN abandons the steps of some runs (R240): their generations and pins are released, and the slots of real work stay taken until
SQUASH_DONE. -/
def State.discardSteps (s : State) (mine : RunId → Bool) : State :=
  let gone (st : AtnStep) : Bool := mine st.run
  let ids := (s.atn.steps.filter gone).map (·.id)
  let blocks := s.atn.blocks.filter (fun b => ids.contains b.step)
  { s with
    atn := { s.atn with
      steps := s.atn.steps.filter (fun st => !gone st)
      blocks := s.atn.blocks.filter (fun b => !ids.contains b.step)
      deadSlots := s.atn.deadSlots ++ (blocks.filter (fun b => !b.golden)).map (·.slot)
      ended := s.atn.ended.filter (fun e => !mine e.1)
      boundary := s.atn.boundary || !ids.isEmpty }
    kvc := { s.kvc with
      pins := s.kvc.pins.filter (fun p => p.2.1 || !ids.contains p.2.2)
      ended := s.kvc.ended.filter (fun e => !mine e.1) } }

/-- Discard the engines' state of one cycle (R165 step 5). -/
def State.discardEngines (s : State) (cycle : Nat) : State :=
  let mine (r : RunId) : Bool := !r.golden && r.cycle == cycle
  let s := (((s.discardPoints cycle).discardArray mine).discardSteps mine).unpinInstance cycle
  { s with chk := { s.chk with
      running := s.chk.running.filter (fun c => c != cycle)
      sentinels := s.chk.sentinels.filter (fun x => x.cycle != cycle) } }

/-- LFT abandons a cycle's frames: slots and buffers are freed (R151). -/
def State.dropLift (s : State) (cycle : Nat) : State :=
  let gone (f : LftFrame) : Bool := f.phase != .reading && !f.golden && f.cycle == cycle
  { s with lft := { s.lft with
      frames := s.lft.frames.filter (fun f => !gone f)
      lifting := match s.lft.lifting with
        | some l => if l.frame.cycle = cycle ∧ !l.frame.golden then none else some l
        | none => none } }

/-- A squashed cycle's frames are lifted again with the bank of their instance; backbones restart from their slots (R114).
(DEDUCED: log entry 51) -/
def State.relift (s : State) (cycle : Nat) : State :=
  let back := match s.lft.lifting with
    | some l => if l.frame.cycle = cycle ∧ !l.frame.golden then [{ l.frame with phase := .columns }] else []
    | none => []
  { s with lft := { s.lft with
      frames := s.lft.frames.map (fun f =>
        if f.cycle = cycle ∧ !f.golden ∧ f.phase = .lifted then { f with phase := .columns, again := true } else f) ++ back
      lifting := if back.isEmpty then s.lft.lifting else none } }

/-- A store-group entry, 32 bytes (R199). -/
def State.groupEntry (s : State) (g : Nat) : List Byte := s.readBytes (s.base F.LAY_GROUP_BASE_BASE + 32 * g) 32

/-- The store groups in use: those whose entry passes its CRC and has units. -/
def State.groupsUsed (s : State) : List Nat :=
  (List.range 255).filterMap (fun g => let e := s.groupEntry (g + 1); if crcOk e ∧ leAt e 8 4 ≠ 0 then some (g + 1) else none)

/-- Clear valid map `m` of every store group (R199). -/
def State.clearMaps (s : State) (m : Nat) : State :=
  if !s.on F.LAY_CTRL_ENABLE then s
  else s.groupsUsed.foldl (fun t g =>
    let e := t.groupEntry g
    let n := (leAt e 8 4 + 511) / 512 * 64
    t.writeBytes (leAt e 16 8 + m * n) (zeroBytes n)) s

/-- LAY clears the store-group valid maps of a slot when an instance opens in it (R199). -/
def State.openLayout (s : State) (slot : Nat) : State := s.clearMaps slot

/-- A squashed cycle's work is discarded and starts again (R164, R165). -/
def State.rerunEngines (s : State) (cycle : Nat) : State :=
  let w := s.ptsWin cycle
  let s := s.discardEngines cycle
  let s := s.relift cycle
  match w with
  | some w => s.restartPoints w
  | none => s

/-- What finality does in the engines (R151, R250): work of the cycle that has not completed is discarded, append entries
that have not fired are counted, and the cycle's history appends become part of the history. -/
def State.finalEngines (s : State) (cycle : Nat) : State :=
  let run : RunId := { graph := 0, slot := cycle % 4, epoch := bitsAt (s.get F.TGS_STATUS_EPOCHS) (4 * (cycle % 4)) 4, cycle }
  let lost := if s.tgsRuns then s.unfiredAppends run else 0
  let s := if lost = 0 then s
    else (((s.raise F.KVC_EVENT_APPEND_LOST).satAdd F.KVC_COUNTS_APPEND_LOST lost).put F.KVC_LAST_ERR_CAUSE 4)
  let s := (s.discardEngines cycle).dropLift cycle
  -- no rerun follows: the slots of abandoned steps are free at once
  ({ s with
    atn := { s.atn with deadSlots := [] }
    bml := { s.bml with combine := s.bml.combine.filter (fun c => c.cycle != cycle)
                        experts := s.bml.experts.filter (fun e => e.cycle != cycle) } }).commitAppends cycle

/-- Rebase the device times that the engines hold for past events (R20). -/
def State.rebaseEngines (s : State) (step : Time) : State :=
  let fr (f : LftFrame) : LftFrame := { f with stamp := f.stamp + step, arrival := f.arrival + step }
  let s := (s.rebaseSolver step).rebaseHistory step
  { s with pts := s.pts.rebase step
           lft := { s.lft with frames := s.lft.frames.map fr, goldStamp := s.lft.goldStamp + step
                               lifting := s.lft.lifting.map (fun l => { l with frame := fr l.frame, blocks := l.blocks.map (Block.rebase step) }) }
           spc := s.spc.map (fun x => { x with table := x.table.rebase step, blocks := x.blocks.map (Block.rebase step) })
           spcGold := s.spcGold.map (fun x => { x with table := x.table.rebase step, blocks := x.blocks.map (Block.rebase step) }) }

/-- Entry to Halted: every instance in flight, the head included, is discarded and none is rerun (R148). -/
def State.discardAllInstances (s : State) : State :=
  let s := s.glz.insts.foldl (fun t i => (t.discardEngines i.cycle).dropLift i.cycle) s
  let s := { s with glz := { s.glz with insts := [] }
                    tgs := { s.tgs with
                      firing := s.tgs.firing.filter (fun f => f.run.graph != 0)
                      fired := s.tgs.fired.filter (fun f => f.2.1.graph != 0)
                      tokens := s.tgs.tokens.filter (·.golden)
                      waiting := s.tgs.waiting.filter (·.golden)
                      squash := none
                      budgets := [] }
                    atn := { s.atn with deadSlots := [] }}.dropPending
  ((s.put F.TGS_STATUS_SLOT_STATE 0).put F.TGS_STATUS_INSTANCES 0).put F.GLZ_STATUS_INSTANCES 0

/-- A frame of a reply, a train or a subscriber, as a host port holds it. -/
def TxKind.isHostData : TxKind → Bool
  | .frame _ _ | .tile _ _ _ _ _ => true
  | _ => false

/-- Entry to Halted: open requests end without replies, quotes among them; queued trains and subscriber frames are discarded
(R341). -/
def State.haltHost (s : State) : State :=
  { s with
    hst := { s.hst with waits := [] }
    sec := { s.sec with signing := none, waiting := none }
    tim := { s.tim with
      launch := s.tim.launch.map (fun q => q.filter (fun e => e.train.isNone))
      tx := s.tim.tx.map (fun q => { q with queue := q.queue.filter (fun x => !x.kind.isHostData) }) } }

end Sys2Proof.Machine
end

