-- ==== Sys2Proof/Machine/Detect.lean ====
section
/-! DEFINITION. Taking a detected fault: the record of R272, the response of R285, the state changes of R286 and
R287, and the arming of golden frames (R280). spec/17_safety.md. -/

namespace Sys2Proof.Machine

/-- Cause codes (R285). -/
abbrev cNONE := 0x00
abbrev cSTART := 0x01
abbrev cLATENT := 0x02
abbrev cDISAGREE := 0x10
abbrev cGOLDEN_FAIL := 0x11
abbrev cGOLDEN_TIMING := 0x12
abbrev cGOLDEN_SPAN := 0x13
abbrev cUNCHECKED := 0x14
abbrev cBUDGET := 0x20
abbrev cFUSION := 0x21
abbrev cEGO_SPAN := 0x22
abbrev cCONTAINED := 0x30
abbrev cCONTAIN_RATE := 0x31
abbrev cUNIT_LOST := 0x32
abbrev cLOCKSTEP := 0x40
abbrev cHEARTBEAT := 0x41
abbrev cENV := 0x42
abbrev cSAF_SELF := 0x43
abbrev cSAFE_PATH := 0x44

/-- Safety states (the table of 17). -/
abbrev stNormal := 0
abbrev stDegraded := 1
abbrev stSuspect := 2
abbrev stSafe := 3
abbrev stHalted := 4

/-- The safety state. -/
def State.safety (s : State) : Nat := s.get F.SAF_STATE_STATE

/-- The response of a cause (R285). -/
inductive Response where
  | none | contain | degrade | suspect | safe | halt
  deriving DecidableEq, Repr

def responseOf (cause : Nat) : Response :=
  match cause with
  | 0x10 | 0x11 | 0x14 => .suspect
  | 0x02 | 0x12 | 0x13 | 0x21 | 0x40 | 0x41 | 0x42 => .safe
  | 0x20 | 0x22 | 0x31 | 0x32 => .degrade
  | 0x30 => .contain
  | 0x43 | 0x44 => .halt
  | _ => .none

/-! ## Golden entries (R279, R280) -/

/-- Byte offset of golden entry `e` in memory (R279). -/
def State.goldenEntryAt (s : State) (e : Nat) : Nat := s.base F.CHK_GOLDEN_BASE_BASE + 64 * e

/-- Whether golden entry `e` is enabled, and its KIND (R279). -/
def State.goldenEnabled (s : State) (e : Nat) : Bool :=
  decide (e ≤ s.get F.CHK_CTRL_ENTRIES) && bitSet (s.readLe (s.goldenEntryAt e) 1) 7

def State.goldenKind (s : State) (e : Nat) : Nat := bitsAt (s.readLe (s.goldenEntryAt e) 1) 0 2

/-- The enabled entries in index order, starting after entry `e` and wrapping round to it (R280). -/
def State.goldenAfter (s : State) (e : Option Nat) : List Nat :=
  let all := (List.range 16).filter s.goldenEnabled
  match e with
  | none => all
  | some e => all.filter (fun x => decide (e < x)) ++ all.filter (fun x => decide (x ≤ e))

/-- Arm one golden frame of an entry (R280): it takes the next golden frame number. The arming of a regular frame
abandons a regular frame of the same entry that is not yet due. -/
def State.armGolden (s : State) (e : Nat) (extra : Bool) : State :=
  let stale := s.saf.golden.filter (fun g => !extra && !g.extra && g.entry == e && g.due.isNone)
  let s := s.satAdd F.SAF_GOLDEN_ABANDONED_ARM stale.length
  let keep := s.saf.golden.filter (fun g => !stale.contains g)
  let g : Golden := { num := s.saf.goldenNext, entry := e, extra, kind := s.goldenKind e }
  { s with
    saf := { s.saf with golden := keep ++ [g], goldenNext := (s.saf.goldenNext + 1) % 2 ^ 32 }
    ing := { s.ing with bursts := s.ing.bursts.filter (fun b => !stale.any (fun g => g.num == b.num)) } }

/-- The entry of the extra golden frame (R287): the next enabled entry after the one armed at the latest ToV whose
KIND differs, else the next enabled entry whatever its KIND. -/
def State.extraEntry (s : State) : Option Nat :=
  let after := s.goldenAfter s.saf.lastArmed
  match s.saf.lastArmed with
  | none => after.head?
  | some e => (after.find? (fun x => s.goldenKind x != s.goldenKind e)).or after.head?

/-- Arm the extra golden frame of the suspect sequence (R287). Outside Active nothing is armed (R354). -/
def State.armExtra (s : State) : State :=
  if s.power ≠ 0 then s
  else match s.extraEntry with
    | none => s
    | some e => s.armGolden e true

/-- Arm GOLDEN_PER_CYCLE entries at a ToV, round-robin over the enabled entries (R280). -/
def State.armAtTov (s : State) : Nat → State
  | 0 => s
  | k + 1 =>
    match (s.goldenAfter s.saf.lastArmed).head? with
    | none => s
    | some e =>
      let s := s.armGolden e false
      { s with saf := { s.saf with lastArmed := some e } }.armAtTov k

/-! ## State changes (R286) -/

/-- The notice of the state in force (R289). -/
def State.noticeNow (s : State) (unit logIndex : Nat) (at_ : Time) : Notice :=
  { detectTime := at_, state := s.safety, prev := s.get F.SAF_STATE_PREV, level := s.boot.level.getD 0
    domain := s.get F.TIM_STATUS_ACTIVE_DOMAIN, cause := s.get F.SAF_STATE_CAUSE, unit
    cycle := s.headCycle, lastValid := s.saf.lastValid, seq := s.saf.noticeSeq, logIndex }

/-- Change the safety state (R286): SAF_STATE, SAF_EVENT, the requested level of SAFE_N, the lifetime record's counts
and unscheduled tick (R366, R368), and the notice (R289). `logIndex` is the INDEX the detection's entry took.
(DEDUCED: log entry 109) -/
def State.changeState (s : State) (new cause unit logIndex : Nat) : State :=
  let old := s.safety
  let s := (((s.put F.SAF_STATE_PREV old).put F.SAF_STATE_STATE new).put F.SAF_STATE_CAUSE cause).put
    F.SAF_STATE_SINCE_CYCLE s.headCycle
  let s := { s with saf := { s.saf with safeReq := decide (3 ≤ new) }, pwr := { s.pwr with safeN := decide (3 ≤ new) } }
  let s := if new = stSuspect then
      ((s.raise F.SAF_EVENT_SUSPECT).put F.SAF_STATE_CLEAN 0).put F.SAF_STATE_EXTRA_PASSED 0
    else if new = stSafe then s.raise F.SAF_EVENT_SAFE
    else if new = stHalted then s.raise F.SAF_EVENT_HALT
    else s
  -- entries to Safe with a cause other than START, and to Halted (R366, R368)
  let s := if (new = stSafe ∧ cause ≠ cSTART) ∨ new = stHalted then (s.life 716).eventTick else s
  -- a return from Suspect is one transient (R287)
  let s := if old = stSuspect ∧ cause = cNONE then
      (((s.raise F.SAF_EVENT_TRANSIENT).satInc F.SAF_COUNTS_TRANSIENTS).life 708).eventTick
    else s
  -- entry to Halted discards every instance in flight and every open host request (R148, R341)
  let s := if new = stHalted then s.discardAllInstances.haltHost else s
  s.sendNotice (s.noticeNow unit logIndex s.now)

/-- A return (R286): to Normal, or to the return state of Suspect, with cause NONE. -/
def State.returnTo (s : State) (new : Nat) : State :=
  let idx := s.nextLogIndex
  (s.log wSAF cNONE 3 0xFF 0).changeState new cNONE 0xFF idx

/-! ## Responses (R285 to R287) -/

/-- The state a response leads to from the state in force, if it changes it (R286). -/
def State.responseTarget (s : State) (cause : Nat) : Option Nat :=
  let st := s.safety
  match responseOf cause with
  | .halt => if st = stHalted then none else some stHalted
  | .safe =>
    if st = stNormal || st = stDegraded || st = stSuspect then some stSafe
    else if st = stSafe && s.get F.SAF_STATE_CAUSE == cSTART then some stSafe
    else none
  | .suspect =>
    if st = stNormal || st = stDegraded then some stSuspect
    else if st = stSuspect && s.headCycle != s.saf.suspectCyc then some stSafe
    else none
  | .degrade => if st = stNormal then some stDegraded else none
  | .contain | .none => none

/-- Apply the response's effect on the state: counts, holds, and the change (R285 to R287). (DEDUCED: log entry 110) -/
def State.respond (s : State) (cause unit logIndex : Nat) : State :=
  let target := s.responseTarget cause
  match responseOf cause with
  | .none => s
  | .contain => (s.raise F.SAF_EVENT_CONTAIN).satInc F.SAF_COUNTS_CONTAINED
  | .degrade =>
    let s := (s.raise F.SAF_EVENT_DEGRADE).satInc F.SAF_COUNTS_DEGRADES
    let s := { s with saf := { s.saf with hold := 0, unitLost := s.saf.unitLost || cause == cUNIT_LOST
                                          returnState := if s.safety = stSuspect then stDegraded else s.saf.returnState } }
    match target with
    | none => s
    | some n => s.changeState n cause unit logIndex
  | .suspect =>
    let s := s.satInc F.SAF_COUNTS_SUSPECTS
    -- the head instance is no clean one
    let s := { s with glz := { s.glz with insts := modifyAt (fun i => { i with suspect := true }) 0 s.glz.insts } }
    match target with
    | none => s
    | some n =>
      if n = stSuspect then
        let s := { s with saf := { s.saf with returnState := s.safety, suspectCyc := s.headCycle } }
        (s.changeState n cause unit logIndex).armExtra
      else s.changeState n cause unit logIndex
  | .safe | .halt =>
    match target with
    | none => s
    | some n => s.changeState n cause unit logIndex

/-- Record a detection (R272): SAF_LAST_FAULT, SAF_DETECT_TIME, and one error-log entry, whose severity is 3 when the
detection changes the safety state, 1 when it is contained, and 2 otherwise (R364). (DEDUCED: log entries 108, 111) -/
def State.recordFault (s : State) (cause unit detail : Nat) : State :=
  let same := s.get F.SAF_LAST_FAULT_CYCLE == s.headCycle
  let n := if same then s.get F.SAF_LAST_FAULT_IN_CYCLE else 0
  let s := (((s.put F.SAF_LAST_FAULT_CAUSE cause).put F.SAF_LAST_FAULT_UNIT unit).put F.SAF_LAST_FAULT_IN_CYCLE
    (satNat 16 (n + 1))).put F.SAF_LAST_FAULT_CYCLE s.headCycle
  let s := s.putI F.SAF_DETECT_TIME_TIME s.now
  let sev := if (s.responseTarget cause).isSome then 3 else if responseOf cause = .contain then 1 else 2
  s.log wSAF cause sev unit detail

/-- A detection without the contained-fault rate (R285). -/
def State.detectOne (s : State) (cause unit detail : Nat) : State :=
  let idx := s.nextLogIndex
  (s.recordFault cause unit detail).respond cause unit idx

/-- Count a contained fault of the current cycle; the first beyond CONTAIN_LIMIT is CONTAIN_RATE (R285).
(DEDUCED: log entry 110) -/
def State.containRate (s : State) : State :=
  let n := (if s.saf.contained.1 = s.headCycle then s.saf.contained.2 else 0) + 1
  let s := { s with saf := { s.saf with contained := (s.headCycle, n) } }
  if n = s.get F.SAF_CTRL_CONTAIN_LIMIT + 1 then s.detectOne cCONTAIN_RATE 0xFF n else s

/-- A detected fault reported to SAF (R272, R285): recorded, and given the response of its cause. -/
def State.detect (s : State) (cause : Nat) (unit : Nat := 0xFF) (detail : Nat := 0) : State :=
  let s := s.detectOne cause unit detail
  if responseOf cause = .contain then s.containRate else s

end Sys2Proof.Machine
end

