-- ==== Sys2Proof/Machine/Memory.lean ====
section
/-! DEFINITION. Memory beyond plain bytes (spec/13_memory.md): banks and channels, corrected and uncorrectable errors,
poison, holes, and the memory's own commands. -/

namespace Sys2Proof.Machine

/-! ## Banks and channels (R212, R218) -/

/-- The partition of a Nougat address: first bank and bank count (R212). -/
def State.partitionOf (s : State) (a : Nat) : Nat × Nat :=
  let na := s.get F.NGT_CTRL_ACT_BANKS
  let nh := s.get F.NGT_CTRL_HIST_BANKS
  let nw := s.get F.NGT_CTRL_WEIGHT_BANKS
  if a < na * 0x400000 then (0, na)
  else if a < (na + nh) * 0x400000 then (na, nh) else (na + nh, nw)

/-- The partition that a bank belongs to. -/
def State.partitionOfBank (s : State) (b : Nat) : Nat × Nat := s.partitionOf (b * 0x400000)

/-- Bank and row of a Nougat address (R212). (DEDUCED: log entry 85) -/
def State.bankRow (s : State) (a : Nat) : Nat × Nat :=
  let p := s.partitionOf a
  let w := (a - p.1 * 0x400000) / 64
  (p.1 + w % max 1 p.2, w / max 1 p.2)

/-- The address of a bank's row (R212, inverted). -/
def State.rowAddr (s : State) (bank row : Nat) : Nat :=
  let p := s.partitionOfBank bank
  p.1 * 0x400000 + (row * max 1 p.2 + (bank - p.1)) * 64

/-- Enabled DDR4 channels (R218). -/
def State.ddrChannels (s : State) : Nat := max 1 (popCount 8 (s.get F.DDR_CTRL_CH_EN))

/-- The channel of a DDR4 address (R218). (DEDUCED: log entry 85) -/
def State.ddrChannel (s : State) (a : Nat) : Nat := (a - ddrBase) / 256 % s.ddrChannels

/-- The rank of a DDR4 address: with two ranks, the upper half of a channel's capacity. (DEDUCED: log entry 85) -/
def State.ddrRank (s : State) (a : Nat) : Nat :=
  if s.on F.DDR_CTRL_RANKS then (a - ddrBase) / s.ddrChannels / (2 ^ 29 * 2 ^ s.get F.DDR_CTRL_CAPACITY) % 2 else 0

/-- The registers of the latest error of a memory (NGT_LAST_ERR, DDR_LAST_ERR). -/
def State.memErr (s : State) (a kind : Nat) : State :=
  if inNougat a then
    let br := s.bankRow a
    (((s.put F.NGT_LAST_ERR_BANK br.1).put F.NGT_LAST_ERR_ROW br.2).put F.NGT_LAST_ERR_KIND kind).put F.NGT_LAST_ERR_ADDR a
  else (((s.put F.DDR_LAST_ERR_CHANNEL (s.ddrChannel a)).put F.DDR_LAST_ERR_RANK (s.ddrRank a)).put
    F.DDR_LAST_ERR_KIND kind).put F.DDR_LAST_ERR_ADDR a

/-- A single-bit error of the word at an address: corrected, counted, and written back (R214, R220). -/
def State.eccCorrected (s : State) (a kind : Nat) : State :=
  let s := (s.memErr a kind).count 6 0 1 none (some a)
  if inNougat a then
    let b := (s.bankRow a).1
    let s := ((s.raise F.NGT_EVENT_CORR).satInc (F.NGT_BANK_ECC_CORRECTED b)).life (144 + 4 * b)
    { s with mem := { s.mem with writeBack := s.mem.writeBack.filter (· != a / 64 * 64) ++ [a / 64 * 64] } }
  else
    let c := s.ddrChannel a
    ((s.raise F.DDR_EVENT_CORR).satInc (F.DDR_CHAN_CORRECTED c)).life (400 + 4 * c)

/-- Count an uncorrectable error (R214, R220; the lifetime record's UNCORR, R366). (DEDUCED: log entry 161) -/
def State.countUncorr (s : State) (a : Nat) : State :=
  let s := (s.count 6 1 1 none (some a)).life 700
  if inNougat a then s.satInc (F.NGT_BANK_ECC_UNCORRECTED (s.bankRow a).1)
  else s.satInc (F.DDR_CHAN_UNCORRECTED (s.ddrChannel a))

/-- An uncorrectable or poisoned word met by a read (R214): counted; at the first time, logged; reported to SAF; and the
word then holds poison. (DEDUCED: log entry 86) -/
def State.eccUncorr (s : State) (a : Nat) : State :=
  let known := s.mem.poison.contains (a / 64 * 64)
  let s := (s.memErr a 1).countUncorr a
  let s := if inNougat a then s.raise F.NGT_EVENT_UNCORR else s.raise F.DDR_EVENT_UNCORR
  let s := if known then s else s.log (if inNougat a then wNGT else wDDR) 1 1 0xFF a
  (s.poisonWord (a / 64 * 64)).detect cCONTAINED 0xFF a

/-- The poisoned words among those that `k` bytes from an address touch. -/
def State.badWords (s : State) (a k : Nat) : List Nat := (wordsOf a k).filter (s.mem.poison.contains ·)

/-- Report every poisoned word that a read meets (R214). (DEDUCED: log entry 86) -/
def State.reportBad (s : State) (a k : Nat) : State := (s.badWords a k).foldl State.eccUncorr s

/-- `k` bytes of memory with the bytes of poisoned words read as zero (R101). -/
def State.readZeroed (s : State) (a k : Nat) : List Byte :=
  (List.range k).map (fun i => if s.mem.poison.contains ((a + i) / 64 * 64) then 0 else s.byte (a + i))

/-- An access to an unpopulated range (R211). -/
def State.hole (s : State) (a : Nat) : State :=
  let s := s.raise F.NGT_EVENT_HOLE
  let s := (((s.put F.NGT_LAST_ERR_BANK 0).put F.NGT_LAST_ERR_ROW 0).put F.NGT_LAST_ERR_KIND 3).put F.NGT_LAST_ERR_ADDR a
  s.log wNGT 3 1 0xFF a

/-! ## Commands -/

/-- ECC_WRITE_BACK (R214): the oldest corrected word of the bank is written back, with the data it holds. -/
def execEccWriteBack (bank : Nat) (s : State) : Host.Outcome State Fault Refusal :=
  .next { s with mem := { s.mem with writeBack := removeFirst (fun a => (s.bankRow a).1 == bank) s.mem.writeBack } }

/-- The next row of a bank's patrol, advanced (R215). -/
def State.advanceScrub (s : State) (bank : Nat) : State :=
  let row := sparseGet (fun _ => 0) s.mem.scrubRow bank
  { s with mem := { s.mem with scrubRow := sparseSet (fun _ => 0) s.mem.scrubRow bank ((row + 1) % 65536) } }

/-- SCRUB (R215): the patrol reads one word of a bank. `err` is what the word's check finds: 0 nothing, 1 a single-bit
error, 2 an uncorrectable one. A word that holds poison is not counted again. (DEDUCED: log entry 86) -/
def execScrub (bank err : Nat) (s : State) : Host.Outcome State Fault Refusal :=
  .next (
    if 64 ≤ bank || !s.on F.NGT_CTRL_SCRUB_EN || !s.on F.NGT_STATUS_READY || decide (2 ≤ s.power) || bitSet (s.get F.NGT_FAIL_MASK) bank then s
    else
      let a := s.rowAddr bank (sparseGet (fun _ => 0) s.mem.scrubRow bank)
      let s := s.advanceScrub bank
      if err = 1 then s.eccCorrected a 0
      else if err = 2 && !s.mem.poison.contains a then
        ((((s.memErr a 2).countUncorr a).raise F.NGT_EVENT_SCRUB_UNCORR).poisonWord a)
      else s)

/-- DDR_SCRUB (R220): the patrol reads one burst of a channel; an uncorrectable error it finds is handled like any read's. A word that
holds poison is not counted again. (DEDUCED: log entry 86) -/
def execDdrScrub (channel err : Nat) (s : State) : Host.Outcome State Fault Refusal :=
  .next (
    if s.ddrChannels ≤ channel || !s.on F.DDR_CTRL_SCRUB_EN || s.ddrInstalled = 0 || s.on F.DDR_STATUS_SELF_REFRESH
        || s.gated wDDR then s
    else
      let i := sparseGet (fun _ => 0) s.mem.ddrScrub channel
      let per := 2 ^ 30 * 2 ^ s.get F.DDR_CTRL_CAPACITY / 64
      let a := ddrBase + (i / 4 * s.ddrChannels + channel) * 256 + i % 4 * 64
      let s := { s with mem := { s.mem with ddrScrub := sparseSet (fun _ => 0) s.mem.ddrScrub channel ((i + 1) % per) } }
      if err = 1 then s.eccCorrected a 0
      else if err = 2 && !s.mem.poison.contains a then s.eccUncorr a
      else s)

/-- ALERT_N (R220): a CA parity error is counted and the command retried; the third failure of one command delivers the
request poisoned: its word then holds poison. `again` is that the retried command failed again. (DEDUCED: log entry 86) -/
def execAlertN (channel addr : Nat) (again : Bool) (s : State) : Host.Outcome State Fault Refusal :=
  .next (
    if 8 ≤ channel || !s.on F.DDR_CTRL_CA_PARITY || s.ddrInstalled = 0 then s
    else
      let n := (if again then sparseGet (fun _ => 0) s.mem.caRetry channel else 0) + 1
      let s := { s with mem := { s.mem with caRetry := sparseSet (fun _ => 0) s.mem.caRetry channel (if 3 ≤ n then 0 else n) } }
      let s := ((s.raise F.DDR_EVENT_CA_PARITY).satInc (F.DDR_CHAN_CA_ERRORS channel)).memErr addr 3
      let s := s.put F.DDR_LAST_ERR_CHANNEL channel
      if n < 3 then s
      else
        let s := (s.raise F.DDR_EVENT_UNCORR).put F.DDR_LAST_ERR_KIND 1
        ((s.log wDDR 1 1 0xFF addr).poisonWord (addr / 64 * 64)).detect cCONTAINED 0xFF addr)

end Sys2Proof.Machine
end

