-- ==== Sys2Proof/Machine/Queue.lean ====
section
/-! DEFINITION. The stream queues as operations (spec/04_stream_queues.md): writing an item, packing and flushing,
drops and gap markers, marks, rewind and release, reading, and the consumer's view of ingest items. -/

namespace Sys2Proof.Machine

/-- An unlisted queue is empty. -/
def queueUnlisted (_ : Nat) : Queue := {}

def State.queue (s : State) (q : Nat) : Queue := sparseGet queueUnlisted s.queues q

/-- The write position: absolute index of the next stored word. -/
def Queue.wr (x : Queue) : Nat := x.base + x.words.length

/-- Hold a queue; both copies of its pointers move together (R62). -/
def State.setQueue (s : State) (q : Nat) (x : Queue) : State :=
  { s with queues := sparseSet queueUnlisted s.queues q { x with rdCopy := (x.rdWord, x.rdByte), wrCopy := x.wr } }

/-- The word at an absolute position. -/
def Queue.at (x : Queue) (i : Nat) : Option QWord := if i < x.base then none else x.words[i - x.base]?

/-- Words used: between the hold point and the write position (R63). -/
def Queue.used (x : Queue) : Nat := x.words.length

/-- The hold point: the oldest outstanding mark, or the read position when there is none (R63). -/
def Queue.hold (x : Queue) : Nat :=
  let ms := x.marks.filterMap (fun m => m.map (·.1))
  match ms with
  | [] => x.rdWord
  | m :: r => r.foldl min m

/-- Free the space behind the hold point (R63). -/
def Queue.free (x : Queue) : Queue :=
  let h := x.hold
  if h ≤ x.base then x
  else { x with words := x.words.drop (h - x.base), base := min h x.wr, writes := x.writes.filter (fun w => decide (min h x.wr ≤ w.1)) }

/-- Whether the last stored word is a gap marker the consumer has not yet read (R65). -/
def Queue.markerOpen (x : Queue) : Bool :=
  match x.words.getLast? with
  | some w => w.gap && decide (x.rdWord < x.wr)
  | none => false

/-- The 64 bytes of a gap marker (R66). -/
def gapMarker (q items bytes flags : Nat) : List Byte :=
  natLe 4 items ++ natLe 4 bytes ++ natLe 2 q ++ natLe 1 flags ++ zeroBytes 53

/-! ## Sideband and stages (R57, R59, R61) -/

/-- Even parity over the data bytes and sideband bits [8:0]: VALID, GAP, POISON (R59). -/
def evenParity (data : List Byte) (valid : Nat) (gap poison : Bool) : Bool :=
  let x := data.foldl (fun a b => a ^^^ b.toNat) 0
  let side := (popCount 7 valid + (if gap then 1 else 0) + (if poison then 1 else 0)) % 2
  (popCount 8 x + side) % 2 == 1

/-- A word as the producer port forms it, with its sideband (R59). -/
def mkWord (data : List Byte) (valid : Nat) (gap last : Bool) : QWord :=
  { data, valid, gap, last, par := evenParity data valid gap false, crc := crc16 data }

/-- The 27-bit sideband as presented to the consumer (R59); `poison` is that a check has failed. -/
def QWord.sideband (w : QWord) (poison : Bool) : Nat :=
  w.valid + (if w.gap then 2 ^ 7 else 0) + (if poison then 2 ^ 8 else 0) + (if w.par then 2 ^ 9 else 0) + w.crc * 2 ^ 11

/-- The words in the middle stage: all but the 8 newest, in the register head, and the 8 oldest held, in the register tail (R57).
(DESIGN CHOICE: log entry 38) -/
def Queue.inMiddle (x : Queue) (i : Nat) : Bool := decide (x.base + 8 ≤ i) && decide (i + 8 < x.wr)

/-- The Nougat address of a word in the middle: a ring of SIZE − 16 words from SPILL_BASE (R57).
(DESIGN CHOICE: log entry 38) -/
def State.spillAddr (s : State) (q i : Nat) : Nat :=
  s.get (F.SQ_QSPILL_SPILL_BASE q) * 64 + i % max 1 (s.get (F.SQ_QCFG_SIZE q) - 16) * 64

/-- A word as it comes out of Nougat (R61): its bytes there, the Nougat check, and the parity of what leaves the middle.
(DEDUCED: log entry 37) -/
def State.loadWord (s : State) (q i : Nat) (w : QWord) : QWord :=
  let a := s.spillAddr q i
  let d := s.readBytes a 64
  let ecc := s.poisoned a 64
  let par := evenParity d w.valid w.gap w.poison != w.par
  { w with data := d, par := evenParity d w.valid w.gap w.poison, parErr := par, eccErr := ecc
           first := if ecc then 2 else if par then 1 else 0 }

/-- Hold a queue whose words have moved: those that enter the middle are written to Nougat, those that leave it are read from there
(R57). (DESIGN CHOICE: log entry 38) -/
def State.storeQueue (s : State) (q : Nat) (x : Queue) : State :=
  let old := s.queue q
  let out := x.words.zipIdx.filter (fun w => x.inMiddle (x.base + w.2) && !old.inMiddle (x.base + w.2))
  let t := out.foldl (fun t w => t.writeBytes (s.spillAddr q (x.base + w.2)) (padTo 64 w.1.data)) s
  let load (i : Nat) (w : QWord) : QWord := if old.inMiddle i && !x.inMiddle i then s.loadWord q i w else w
  t.setQueue q { x with words := x.words.zipIdx.map (fun w => load (x.base + w.2) w.1) }

/-- A stored word as a consumer would read it now: one in the middle comes out of Nougat. (DESIGN CHOICE: log entry 38) -/
def State.storedWords (s : State) (q : Nat) : List QWord :=
  let x := s.queue q
  (x.words.zipIdx.map (fun w => if x.inMiddle (x.base + w.2) then s.loadWord q (x.base + w.2) w.1 else w.1)).drop (x.rdWord - x.base)

/-- Store a word. -/
def Queue.push (x : Queue) (w : QWord) : Queue := { x with words := x.words ++ [w] }

/-- The partial word in packing, padded with zeros and stored with VALID its byte count (R60). -/
def Queue.flush (x : Queue) : Queue :=
  if x.packing.isEmpty then x
  else { (x.push (mkWord (padTo 64 x.packing) x.packing.length false false)) with packing := [] }

/-- Whether the queue is empty: no unread stored word and none in packing. -/
def Queue.isEmpty (x : Queue) : Bool := x.packing.isEmpty && decide (x.wr ≤ x.rdWord)

/-- The words an item of a packing queue adds to those stored when it is written (R60): full words, and the one in packing. -/
def packWords (partialLen len : Nat) : Nat := (partialLen + len + 63) / 64

/-- Free words of a queue of capacity `size`, the word in packing counted as used (R57, R65). -/
def Queue.freeWords (x : Queue) (size : Nat) : Nat := size - (x.used + (if x.packing.isEmpty then 0 else 1))

/-- Bytes appended to the word in packing, storing every word that fills (R60). -/
def packBytes (x : Queue) (l : List Byte) : Queue :=
  let all := x.packing ++ l
  let full := all.length / 64
  let ws := (chunks 64 (all.take (64 * full))).map (fun c => mkWord c 64 false false)
  { x with words := x.words ++ ws, packing := all.drop (64 * full) }

/-- Start the timer, if the queue has a read timeout (R67). (DESIGN CHOICE: log entry 39) -/
def State.startTimer (s : State) (q : Nat) : State :=
  if s.get (F.SQ_QCFG_READ_TIMEOUT q) = 0 then s
  else s.setQueue q { s.queue q with timer := some s.pwr.refclk }

/-- The latest cause of SQ_EVENT (SQ_LAST_ERR). -/
def State.sqErr (s : State) (q : Nat) (f : Fld) : State :=
  ((s.raise f).put F.SQ_LAST_ERR_QUEUE q).put F.SQ_LAST_ERR_CAUSE f.lo

/-- Drop an item of `n` bytes (R65): into the open marker, a new marker in the reserve word, or the pending count. -/
def State.dropItem (s : State) (q n : Nat) : State :=
  let x := s.queue q
  let s := ((s.sqErr q F.SQ_EVENT_DROP).satInc (F.SQ_QDROP_DROPPED q)).count 4 2 1
  if x.markerOpen then
    let ws := x.words.dropLast
    match x.words.getLast? with
    | none => s
    | some w =>
      let items := leAt w.data 0 4
      let items := if items = 0xFFFFFFFF then items else min (items + 1) 0xFFFFFFFE
      let w := mkWord (gapMarker q items (satNat 32 (leAt w.data 4 4 + n)) (leAt w.data 10 1)) 64 true false
      s.setQueue q { x with words := ws ++ [w] }
  else
    let size := s.get (F.SQ_QCFG_SIZE q)
    let need := (if x.packing.isEmpty then 0 else 1) + 1
    if x.pendItems = 0 ∧ x.used + need ≤ size then
      let x := x.flush
      s.storeQueue q (x.push (mkWord (gapMarker q 1 (satNat 32 n) 0) 64 true false))
    else s.setQueue q { x with pendItems := min (x.pendItems + 1) 0xFFFFFFFE, pendBytes := satNat 32 (x.pendBytes + n) }

/-- Store the marker that carries the pending count, once a word is free for it and for the flush before it (R65). -/
def State.storePending (s : State) (q : Nat) : State :=
  let x := s.queue q
  let need := (if x.packing.isEmpty then 0 else 1) + 1
  if x.pendItems = 0 ∨ s.get (F.SQ_QCFG_SIZE q) < x.used + need then s
  else
    let x := x.flush
    let x := x.push (mkWord (gapMarker q x.pendItems x.pendBytes 2) 64 true false)
    s.storeQueue q { x with pendItems := 0, pendBytes := 0 }

/-- A queue with the RELEASE commands of this instant that still wait: the fit test counts the space they free (R68).
(DESIGN CHOICE: log entry 178) -/
def State.releasedQueue (s : State) (q : Nat) : Queue :=
  (s.pending.foldl (fun (x : Queue) c => match c with
    | .release p slot => if p = q then { x with marks := modifyAt (fun _ => none) slot x.marks } else x
    | _ => x) (s.queue q)).free

/-- Whether an item of `n` bytes fits in the free words with one left over (R65). -/
def State.itemFits (s : State) (q n : Nat) : Bool :=
  let x := s.releasedQueue q
  let words := if s.on (F.SQ_QCFG_PACKING q) then packWords x.packing.length n else (n + 63) / 64
  decide (x.used + words + 1 ≤ s.get (F.SQ_QCFG_SIZE q))

/-- Whether a queue accepts an item of `n` bytes: no drop count is pending, and the item fits (R65). -/
def State.accepts (s : State) (q n : Nat) : Bool := (s.queue q).pendItems == 0 && s.itemFits q n

/-- The words an item takes in a non-packing queue: whole words with VALID 64, the last tagged with its bytes (R60). -/
def itemWords (l : List Byte) : List QWord :=
  let cs := chunks 64 l
  cs.zipIdx.map (fun c => mkWord (padTo 64 c.1) c.1.length false (c.2 + 1 == cs.length))

/-- A queue is in its reset: it resets within 4 PLL_CORE cycles, less than the REFCLK period the model tells apart (R62, R68).
(DESIGN CHOICE: log entry 178) -/
def State.resetting (s : State) (q : Nat) : Bool := (s.queue q).resetAt == some s.pwr.refclk

/-- A producer writes an item (R65): accepted, or dropped whole, as is every item during a reset (R62, R68). Writes to a queue that is not enabled, and in Idle or
deeper, where every queue is emptied and nothing is written (R349), have no effect. (DESIGN CHOICE: log entry 178) -/
def State.queueWrite (s : State) (q : Nat) (l : List Byte) : State :=
  if !s.on (F.SQ_QCFG_ENABLE q) || l.isEmpty || s.gated wSQ then s
  else if s.resetting q then s.dropItem q l.length
  else
    let s := s.storePending q
    let x := s.queue q
    if !s.accepts q l.length then s.dropItem q l.length
    else
      let before := x.used
      let wasEmpty := x.isEmpty
      let x := { x with writes := x.writes ++ [(x.wr, x.packing.length, s.tim.steps)] }
      let x := if s.on (F.SQ_QCFG_PACKING q) then packBytes x l
        else { x with words := x.words ++ itemWords l }
      let s := (s.storeQueue q x).modInc (F.SQ_QSTAT_ITEMS_IN q)
      let s := s.count 4 0 (x.used - before)
      if wasEmpty then s.startTimer q else s

/-- A producer's flush strobe (R60). -/
def State.queueFlush (s : State) (q : Nat) : State := s.storeQueue q (s.queue q).flush

/-- A consumer command on a queue that it cannot act on (R63): MARK_ERR and an error-log entry. -/
def State.markErr (s : State) (q slot : Nat) : State :=
  (s.sqErr q F.SQ_EVENT_MARK_ERR).log wSQ 4 1 0xFF (q + 1024 * slot)

/-- MARK s (R63). -/
def State.queueMark (s : State) (q slot : Nat) : State :=
  let x := s.queue q
  match x.marks.getD slot none with
  | some _ => s.markErr q slot
  | none => s.setQueue q { x with marks := modifyAt (fun _ => some (x.rdWord, x.rdByte)) slot x.marks }

/-- REWIND s (R63, R64): the read position moves back, and nothing else. -/
def State.queueRewind (s : State) (q slot : Nat) : State :=
  let x := s.queue q
  match x.marks.getD slot none with
  | none => s.markErr q slot
  | some m => (s.setQueue q { x with rdWord := m.1, rdByte := m.2, again := true }).count 4 3 1

/-- RELEASE s (R63): the slot is cleared and the space behind the hold point freed. -/
def State.queueRelease (s : State) (q slot : Nat) : State :=
  let x := s.queue q
  match x.marks.getD slot none with
  | none => s.markErr q slot
  | some _ => s.storeQueue q { x with marks := modifyAt (fun _ => none) slot x.marks }.free

/-- Checks that fail on a word's way, as the wires show them: parity on leaving the head, the middle or the tail, CRC16 at the
consumer port, and the uncorrectable Nougat check (R61). -/
structure WordChecks where
  headPar : Bool := false
  midPar  : Bool := false
  tailPar : Bool := false
  crc     : Bool := false
  ecc     : Bool := false
  deriving DecidableEq, Repr

/-- The checks that fail as the last word of an engine's item is delivered. -/
def itemChecks (r : ItemRead) : WordChecks := { tailPar := r.parBad, crc := r.crcBad }

/-- What is found of a word on its delivery: parity failed, CRC16 or Nougat failed, and the first of them along its path (1 or 2).
CRC16 is computed anew from the bytes that arrive (R61). (DEDUCED: log entry 37) -/
def QWord.checked (w : QWord) (c : WordChecks) : Bool × Bool × Nat :=
  let crc := c.crc || crc16 w.data != w.crc
  let par := c.headPar || c.midPar || c.tailPar || w.parErr
  let bad := crc || c.ecc || w.eccErr
  (par, bad, if c.headPar then 1 else if c.ecc then 2 else if w.first ≠ 0 then w.first
    else if c.midPar || c.tailPar then 1 else 2)

/-- A word is delivered (R61): one that fails a check is reported by the bits of all that failed, with the first failure along its
path in SQ_LAST_ERR, the POISONED count, the error log and SAF. (DEDUCED: log entry 37) -/
def State.deliverWord (s : State) (q : Nat) (w : QWord) (c : WordChecks) : State :=
  let r := w.checked c
  if !r.1 && !r.2.1 then s
  else
    let s := if r.1 then s.raise F.SQ_EVENT_PAR_ERR else s
    let s := if r.2.1 then s.raise F.SQ_EVENT_CRC_ERR else s
    let s := (s.put F.SQ_LAST_ERR_QUEUE q).put F.SQ_LAST_ERR_CAUSE r.2.2
    let s := s.satInc (F.SQ_QDROP_POISONED q)
    (s.log wSQ r.2.2 1 0xFF q).detect cCONTAINED 0xFF q

/-- A word as delivered holds poison. -/
def QWord.bad (w : QWord) (c : WordChecks) : Bool := w.poison || (w.checked c).1 || (w.checked c).2.1

/-- READ (R63, R61, R67): the next word is delivered with its sideband and the read position advances past it; the read restarts
the timer. `c` is what the checks on its way found. -/
def State.queueRead (s : State) (q : Nat) (c : WordChecks) : State :=
  let x := s.queue q
  match s.storedWords q with
  | [] => s
  | w :: _ =>
    let s := s.emit (.word q w.data (w.sideband (w.bad c)))
    let s := s.storeQueue q { x with rdWord := x.rdWord + 1, rdByte := 0, again := false }.free
    ((s.startTimer q).count 4 1 1).deliverWord q w c

/-- The edges of the instance graph's entries that carry their data in a queue: edge, consumer unit (R155).
(DEDUCED: log entry 179) -/
def State.queueEdges (s : State) (q : Nat) : List (Nat × Nat) :=
  (List.range 104).flatMap (fun u => (List.range (s.unitDir 0 u).2).flatMap (fun i =>
    ((s.entryOf 0 u i).ins.filter (fun e => bitsAt (s.edgeWord e) 22 10 == q)).map (fun e => (e, u))))

/-- The firing unit that consumes an ingest queue (R67): PTS of a lidar's, the front-end of LFT of a camera's; other kinds go to
SLV, which is no firing unit, and to firmware on core 0. (DEDUCED: log entry 179) -/
def State.ingestUnit (s : State) (q : Nat) : Nat :=
  match (List.range 64).find? (fun i => s.on (F.ING_STR_CFG_ENABLE i) && s.get (F.ING_STR_CFG_QUEUE i) == q) with
  | some i => if s.get (F.ING_STR_CFG_KIND i) = 1 then 96 else if s.get (F.ING_STR_CFG_KIND i) = 0 then 97 else 64
  | none => 64

/-- The notice token of a read timeout (R67): on the edge whose data the queue carries, for the head, or to the unit that consumes
an ingest queue. (DEDUCED: log entry 179) -/
def State.sendQueueNotice (s : State) (q : Nat) : State :=
  match s.queueEdges q with
  | e :: _ =>
    let slot := s.headCycle % 4
    let tok : Token := { edge := e.1, kind := 2, slot, epoch := bitsAt (s.get F.TGS_STATUS_EPOCHS) (4 * slot) 4
                         golden := false, cycle := s.headCycle, arg := q }
    { s with tgs := { s.tgs with sent := s.tgs.sent ++ [tok] } }
  | [] => s.emit (.queueNotice (s.ingestUnit q) q)

/-- The read timeout (R67): with data held, the word in packing is flushed, the consumer's unit is sent a notice, and
TIMEOUTS counts; the timer stays stopped until the next READ. A READ of the same instant wins (R68).
(DESIGN CHOICE: log entries 39, 178) -/
def State.queueTimeout (s : State) (q : Nat) : State :=
  let x := s.queue q
  let reads := s.pending.any (fun c => match c with
    | .read p _ _ _ => p == q
    | _ => false)
  match x.timer with
  | none => s
  | some t =>
    if s.pwr.refclk < t + 25 * s.get (F.SQ_QCFG_READ_TIMEOUT q) || (reads && decide (x.rdWord < x.wr)) then s
    else if x.isEmpty then s.setQueue q { x with timer := none }
    else
      let s := s.storeQueue q { x.flush with timer := none }
      (s.satInc (F.SQ_QDROP_TIMEOUTS q)).sendQueueNotice q

/-- The reset of a queue whose pointer copies differ (R62). -/
def State.queueReset (s : State) (q : Nat) : State :=
  let x := s.queue q
  let pos := x.wr + (if x.packing.isEmpty then 0 else 1)
  let y : Queue :=
    { words := [mkWord (gapMarker q 0xFFFFFFFF 0 1) 64 true false], base := pos
      rdWord := pos, rdByte := 0, marks := x.marks.map (fun m => m.map (fun _ => (pos, 0)))
      pendItems := x.pendItems, pendBytes := x.pendBytes, timer := x.timer, resetAt := some s.pwr.refclk }
  let s := s.setQueue q y
  let s := (s.sqErr q F.SQ_EVENT_PTR_MISMATCH).satInc (F.SQ_QDROP_RESETS q)
  (s.log wSQ 3 2 0xFF q).detect cCONTAINED 0xFF q

/-- Every queue emptied and its marks cleared, the counts kept (R349). -/
def State.emptyQueues (s : State) : State := { s with queues := [] }

/-! ## The consumer's view of ingest items -/

/-- What a consumer of an ingest queue meets next. -/
inductive NextItem where
  /-- Nothing complete to read. -/
  | none
  /-- A gap marker: RESET, items dropped. -/
  | gap (reset : Bool) (items : Nat)
  /-- An item: header and payload bytes, whether a word of it is poisoned, and the steps of device time at its write. -/
  | item (header payload : List Byte) (poisoned : Bool) (steps : Int)
  deriving DecidableEq, Repr

/-- The bytes readable from a word list at a byte offset of its first word, up to a gap marker. -/
def readableBytes : List QWord → Nat → List Byte
  | [], _ => []
  | w :: r, off => if w.gap then [] else (w.data.take w.valid).drop off ++ readableBytes r 0

/-- Advance a position by `n` bytes over stored words. -/
def advance : List QWord → Nat → Nat → Nat → Nat × Nat
  | [], i, off, _ => (i, off)
  | w :: r, i, off, n =>
    if off + n < w.valid then (i, off + n) else advance r (i + 1) 0 (n - (w.valid - off))

/-- The words that the next `n` bytes touch. -/
def wordsWithin : List QWord → Nat → Nat → List QWord
  | [], _, _ => []
  | w :: r, off, n => w :: (if w.valid - off < n then wordsWithin r 0 (n - (w.valid - off)) else [])

/-- The next thing at the read position of a queue's words, and the position after it (R60, R47). `c` is what the checks of its last word
found on the wires. -/
def nextOf (x : Queue) (ws : List QWord) (rdWord rdByte : Nat) (c : WordChecks) : NextItem × Nat × Nat :=
  match ws with
  | [] => (.none, rdWord, rdByte)
  | w :: _ =>
    if w.gap then
      (.gap (bitSet (leAt w.data 10 1) 0) (leAt w.data 0 4), rdWord + 1, 0)
    else
      let bs := readableBytes ws rdByte
      let n := 16 + leAt bs 8 2
      if bs.length < 16 ∨ bs.length < n then (.none, rdWord, rdByte)
      else
        let p := advance ws rdWord rdByte n
        let bad := (wordsWithin ws rdByte n).any (fun w => w.bad {}) || c != {}
        let steps := ((x.writes.find? (fun w => w.1 == rdWord && w.2.1 == rdByte)).map (·.2.2)).getD 0
        (.item (bs.take 16) (slice bs 16 (n - 16)) bad steps, p.1, p.2)

/-- The next item or marker at a queue's read position, not taken. -/
def State.peekItem (s : State) (q : Nat) (c : WordChecks := {}) : NextItem :=
  (nextOf (s.queue q) (s.storedWords q) (s.queue q).rdWord (s.queue q).rdByte c).1

/-- Words are delivered one after another; the last of them with what its checks found. A word of which the consumer already has
the first part is not delivered again, unless the position was moved back to it. -/
def State.deliverWords (s : State) (q : Nat) (c : WordChecks) : List QWord → State
  | [] => s
  | [w] => s.deliverWord q w c
  | w :: r => (s.deliverWord q w {}).deliverWords q c r

/-- The consumer has taken `n` bytes: their words are delivered, and the read position moves past them (R61, R63, R67). -/
def State.passBytes (s : State) (q n : Nat) (c : WordChecks) (p : Nat × Nat) : State :=
  let x := s.queue q
  let ws := wordsWithin (s.storedWords q) x.rdByte n
  let new := if x.rdByte = 0 || x.again then ws else ws.drop 1
  let s := s.storeQueue q { x with rdWord := p.1, rdByte := p.2, again := false }.free
  (s.deliverWords q c new).startTimer q

/-- A consumer takes the next item or marker: the read position moves past it (R63). -/
def State.takeItem (s : State) (q : Nat) (c : WordChecks := {}) : State × NextItem :=
  let x := s.queue q
  match nextOf x (s.storedWords q) x.rdWord x.rdByte c with
  | (.none, _) => (s, .none)
  | (.gap r n, p) => (s.passBytes q 64 {} p, .gap r n)
  | (.item h d bad st, p) => (s.passBytes q (16 + d.length) c p, .item h d bad st)

/-- A consumer takes the next `n` bytes, if they stand stored before any gap marker; also whether a word of them is
poisoned. A gap marker at the read position is passed (R63, R66). -/
def State.takeBytes (s : State) (q n : Nat) (c : WordChecks := {}) : State × Option (List Byte × Bool) :=
  let x := s.queue q
  let ws := s.storedWords q
  match ws with
  | [] => (s, none)
  | w :: _ =>
    if w.gap then (s.passBytes q 64 {} (x.rdWord + 1, 0), none)
    else
      let bs := readableBytes ws x.rdByte
      if bs.length < n then (s, none)
      else
        let bad := (wordsWithin ws x.rdByte n).any (fun w => w.bad {}) || c != {}
        (s.passBytes q n c (advance ws x.rdWord x.rdByte n), some (bs.take n, bad))

/-- The next bytes at the read position, not taken. -/
def State.peekBytes (s : State) (q n : Nat) : List Byte := (readableBytes (s.storedWords q) (s.queue q).rdByte).take n

/-- STAMP of an ingest item, rebased by the steps taken since its write (R47, R20). -/
def State.itemStamp (s : State) (header : List Byte) (steps : Int) : Time :=
  toSigned 64 (leAt header 0 8) + (s.tim.steps - steps)

end Sys2Proof.Machine
end

