-- ==== Sys2Proof/Machine/Results.lean ====
section
/-! DEFINITION. What ends without its own command: the results of commits (spec/18_startup_and_image.md, R304, R307, R335), open
host requests that end with ABORTED (R325), and the way from Idle to Doze and Standby (spec/21, R349, R351, R353). -/

namespace Sys2Proof.Machine

/-! ## Results (R304) -/

/-- The 32-byte result of a commit. -/
def commitResult (id reason item status : Nat) (applyAt : Time) (cycle : Nat) : List Byte :=
  withCrc (natLe 4 id ++ natLe 1 reason ++ natLe 1 item ++ natLe 1 status ++ natLe 1 0 ++ natLe 8 (ofInt 64 applyAt)
    ++ natLe 4 cycle ++ zeroBytes 8)

/-- Show the shadow's items and the pending commits in HST_STATUS. -/
def State.syncCommits (s : State) : State :=
  (s.put F.HST_STATUS_SHADOW_ITEMS s.boot.hostShadow.length).put F.HST_STATUS_PENDING s.boot.pending.length

/-- Remember a host commit's result: of the last 8 COMMIT_IDs (R335). -/
def State.remember (s : State) (id : Nat) (r : List Byte) : State :=
  let old := s.hst.remembered
  let new := if old.any (fun x => x.1 == id) then old.map (fun x => if x.1 = id then (id, r) else x) else ((id, r) :: old).take 8
  { s with hst := { s.hst with remembered := new } }

/-- Deliver a result: on RESULT_Q, or as the reply to the request or an unsolicited TUNE_COMMIT frame (R304, R335). -/
def State.sendResult (s : State) (c : Commit) (answer : Bool) (r : List Byte) : State :=
  match c.host with
  | none => s.queueWrite s.boot.resultQ r
  | some (p, src, req) =>
    let s := s.remember c.id r
    if answer then s.reply p src ftTuneCommit stOk req 0 0 r
    else s.sendFrame p txReply src (frameBytes ftTuneCommit flUnsolicited 0 0 0 1 0 0 r)

/-- Cancel pending commits from one on, each with its result STATUS 3, CANCELLED (R307). -/
def State.cancelFrom (s : State) (k : Nat) : State :=
  let gone := s.boot.pending.drop k
  let s := { s with boot := { s.boot with pending := s.boot.pending.take k } }.syncCommits
  gone.foldl (fun t c => t.sendResult c false (commitResult c.id 9 0xFF 3 c.applyAt c.cycle)) s

/-! ## Open requests (R325, R351) -/

/-- Every open host request ends with ABORTED: WAIT reads, tile reads whose tiles still wait, and quotes in signing or waiting. -/
def State.abortOpen (s : State) : State :=
  -- a TILE_READ of which tiles still wait to be copied is open too
  let open_ := (List.range 2).flatMap (fun p => (s.txPort p).queue.filterMap (fun x => match x.kind with
    | .tile dst reqId cycle _ true => some ({ port := p, src := dst, reqId, cycle, tiles := [] } : WaitRead)
    | _ => none))
  let s := { s with tim := { s.tim with tx := s.tim.tx.map (fun (q : TxPort) => { q with queue := q.queue.filter (fun x => !x.kind.isTile) }) } }
  let ws := s.hst.waits ++ open_
  let qs := (s.sec.signing.map (·.1)).toList ++ s.sec.waiting.toList
  let s := { s with hst := { s.hst with waits := [] }, sec := { s.sec with signing := none, waiting := none } }
  let s := ws.foldl (fun t w => t.reply w.port w.src ftTileData stAborted w.reqId w.cycle 0 []) s
  qs.foldl (fun t q => t.reply q.port q.src ftQuote stAborted q.reqId 0 0 []) s

/-! ## Deeper than Idle (R349, R351, R353) -/

/-- The TC10 enable of a port (HST_CTRL). -/
def tc10En (p : Nat) : Fld := portFld p F.HST_CTRL_TC10_EN_A F.HST_CTRL_TC10_EN_B

/-- Doze entry begins (R351): pending commits are cancelled, open requests end, and the host ports ask for TC10 sleep (R340).
(DEDUCED: log entry 151) -/
def State.dozeStart (s : State) : State :=
  let s := ((s.raise F.PWR_STATUS_TRANSITION).cancelFrom 0).abortOpen
  [0, 1].foldl (fun t p =>
    if t.on (tc10En p) && t.portUp p then
      { (t.emit (.tc10 p 0)) with hst := { t.hst with sleepReq := modifyAt (fun _ => some t.now) p t.hst.sleepReq } }
    else t) s

/-- Standby entry (R353, R357, R377): pending commits are cancelled, SAFE_N is asserted, MAIN_EN driven low; a tick is appended
(R368). Without STANDBY_EN the device stays in Idle. (DEDUCED: log entry 151) -/
def State.standbyEntry (s : State) : State :=
  if !s.on F.PWR_CTRL_STANDBY_EN then s
  else
    let s := ((s.cancelFrom 0).abortOpen).eventTick
    { (s.put F.PWR_STATUS_STATE 3) with
      saf := { s.saf with safeReq := true }
      pwr := { s.pwr with safeN := true, mainEn := false, vid := 16 }
      tim := { s.tim with pulse := s.tim.pulse.map (fun _ => none) } }

/-- From Idle at once to the state of a TARGET (R349). -/
def State.deeper (s : State) (target : Nat) : State :=
  if target = 2 then s.dozeStart else if target = 3 then s.standbyEntry else s

end Sys2Proof.Machine
end

