-- ==== Sys2Proof/Machine/Flight.lean ====
section
/-! DEFINITION. The instances in flight, and the limits on their work (spec/10_operations_and_runahead.md): runs, what is
fireable, the operation table and the task-class budgets that start with it. -/

namespace Sys2Proof.Machine

/-! ## Looking up and updating instances -/

def State.inst (s : State) (cycle : Nat) : Option Inst := s.glz.insts.find? (fun i => i.cycle == cycle)

/-- The head instance: the oldest not yet final (R11). -/
def State.head (s : State) : Option Inst := s.glz.insts.head?

def State.isHead (s : State) (cycle : Nat) : Bool :=
  match s.head with
  | some i => i.cycle == cycle
  | none => false

def State.updInst (s : State) (cycle : Nat) (f : Inst → Inst) : State :=
  { s with glz := { s.glz with insts := updateFirst (fun i => i.cycle == cycle) f s.glz.insts } }

def Inst.tile (i : Inst) (t : Nat) : TileSt := i.tiles.getD t {}

def Inst.updTile (i : Inst) (t : Nat) (f : TileSt → TileSt) : Inst := { i with tiles := modifyAt f t i.tiles }

/-- The instance slot of a cycle (R162). -/
def slotOf (cycle : Nat) : Nat := cycle % 4

/-- Whether a tile phase counts as issued (R151). -/
def TilePhase.isIssued : TilePhase → Bool
  | .issued | .recomparing | .amended => true
  | _ => false

def Inst.issuedCount (i : Inst) : Nat := i.tiles.countP (fun t => t.phase.isIssued)

/-- Show the head and the instances in GLZ_STATUS, GLZ_HEAD_TOV, GLZ_BUDGET and TGS_STATUS. With none in flight the
head's registers stay as they stood. -/
def State.syncHead (s : State) : State :=
  let n := s.glz.insts.length
  let s := (s.put F.GLZ_STATUS_INSTANCES n).put F.TGS_STATUS_INSTANCES n
  let sq := match s.tgs.squash with
    | some x => x.1
    | none => 0
  let st := (List.range 4).foldl (fun acc sl =>
    let v := match s.glz.insts.findIdx? (fun i => slotOf i.cycle == sl) with
      | none => 0
      | some 0 => 2
      | some _ => if bitSet sq sl then 3 else 1
    acc + v * 4 ^ sl) 0
  let s := s.put F.TGS_STATUS_SLOT_STATE st
  match s.head with
  | none => s
  | some i =>
    let s := (s.put F.GLZ_STATUS_HEAD_CYCLE i.cycle).put F.GLZ_STATUS_HEAD_ISSUED i.issuedCount
    let s := (s.putI F.GLZ_HEAD_TOV_TOV i.tov).put F.TGS_STATUS_HEAD_SLOT (slotOf i.cycle)
    s.put F.GLZ_BUDGET_BUDGET (if s.on F.GLZ_CTRL_MODE then i.budget / 1000 else 0)

/-! ## Runs (R154, R157, R162, R165) -/

/-- The epoch of a slot: four bits of TGS_STATUS.EPOCHS. -/
def State.epoch (s : State) (slot : Nat) : Nat := bitsAt (s.get F.TGS_STATUS_EPOCHS) (4 * slot) 4

/-- The run that a graph and a slot name: the instance in a slot, or an armed golden frame of the graph by its number. -/
def State.runOf (s : State) (graph slot : Nat) : Option RunId :=
  if graph = 0 then
    (s.glz.insts.find? (fun i => slotOf i.cycle == slot)).map (fun i =>
      { graph := 0, slot := slot, epoch := s.epoch slot, cycle := i.cycle })
  else
    (s.saf.golden.find? (fun g => g.num == slot && s.readLe (s.goldenEntryAt g.entry + 1) 1 == graph)).map (fun g =>
      { graph := graph, slot := 0, epoch := 0, cycle := g.num })

/-- The runs that may have work on a unit. -/
def State.runs_ (s : State) : List RunId :=
  (s.glz.insts.filterMap (fun i => s.runOf 0 (slotOf i.cycle))) ++
    s.saf.golden.filterMap (fun g => s.runOf (s.readLe (s.goldenEntryAt g.entry + 1) 1) g.num)

/-- Whether a run is run-ahead. -/
def State.runsAhead (s : State) (run : RunId) : Bool := !run.golden && !s.isHead run.cycle

/-- Whether work of an instance may fire: the head's, and run-ahead with RUNAHEAD_EN (R162); none of a squashed slot before
SQUASH_DONE (R165). (DEDUCED: log entry 194) -/
def State.mayRun (s : State) (cycle : Nat) : Bool :=
  (s.isHead cycle || s.on F.TGS_CTRL_RUNAHEAD_EN) && !s.tgs.squash.any (fun x => bitSet x.1 (slotOf cycle))

/-! ## What is fireable (R157, R158, R162, R251) -/

/-- Return one credit of an edge (R157). -/
def Tgs.returnCredit (t : Tgs) (edge : Nat) : Tgs :=
  { t with creditOut := (updateFirst (fun c => c.1 == edge) (fun c => (c.1, c.2 - 1)) t.creditOut).filter (fun c => c.2 != 0) }

/-- Credits of an edge that its producer holds (R157). -/
def State.creditsLeft (s : State) (edge : Nat) : Nat :=
  s.edgeCredits edge - (match s.tgs.creditOut.find? (fun c => c.1 == edge) with
    | some c => c.2
    | none => 0)

/-- The token that an edge has delivered to an entry of a run. -/
def Tgs.input (t : Tgs) (run : RunId) (edge : Nat) : Option Token := t.tokens.find? (fun k => k.edge == edge && k.run == run)

/-- Whether the unit's own conditions allow an entry: an ATN step of an instance reads the history only as the head's and on
the generation with the appends of the instance before (R251), at most four steps are open (R231), and golden steps need
GOLDEN_EN; appends fire only for the head (R251). -/
def State.unitAllows (s : State) (unit : Nat) (run : RunId) (e : ListEntry) : Bool :=
  if e.count = 0 then true
  else if unit = 101 then
    s.atnRuns && decide (s.atn.steps.length < 4)
      && (if run.golden then s.on F.ATN_CTRL_GOLDEN_EN else s.isHead run.cycle && s.kvc.appends.isEmpty)
  else if unit = 102 then s.kvcRuns && (run.golden || s.isHead run.cycle || s.readLe e.desc 1 != 0)
  else if unit = 100 then s.on F.LAY_CTRL_ENABLE && s.runs wLAY
  else true

/-- Whether the next entry of a unit for a run can fire (R157, R158, R162). An entry that fails its CRC counts as having an
ERROR on every input (R155). (DEDUCED: log entry 70) -/
def State.ready (s : State) (unit : Nat) (run : RunId) : Bool :=
  let i := s.tgs.firedCount unit run
  let e := s.entryOf run.graph unit i
  let ahead := s.runsAhead run
  decide (i < (s.unitDir run.graph unit).2) && (run.golden || s.mayRun run.cycle)
    && (!e.ok || e.ins.all (fun x => (s.tgs.input run x).isSome))
    && e.outs.all (fun x => decide ((if ahead then 2 else 1) ≤ s.creditsLeft x))
    && s.unitAllows unit run e

/-! ## Budgets (R170) -/

/-- Start a task-class budget for work of a cycle, counted on REFCLK cycles (R170). -/
def State.startBudget (s : State) (cls key cycle : Nat) : State :=
  if s.power ≠ 0 then s
  else { s with tgs := { s.tgs with budgets :=
    { cls, key, cycle, start := s.pwr.refclk } :: s.tgs.budgets.filter (fun b => !(b.cls == cls && b.key == key)) } }

/-- The end event of a task class: its budget stops. -/
def State.endBudget (s : State) (cls key : Nat) : State :=
  { s with tgs := { s.tgs with budgets := s.tgs.budgets.filter (fun b => !(b.cls == cls && b.key == key)) } }

/-! ## Limits on work in flight (R161) -/

/-- The entries in flight that have fired or hold a token (R161). -/
def Tgs.held (t : Tgs) : List (RunId × Nat × Nat) :=
  (t.firing.map (fun f => (f.run, f.unit, f.index)) ++ t.tokens.map (fun k => (k.run, k.dst.2.1, k.dst.2.2))).eraseDups

/-- Entries of a list that are golden, of the head, and of run-ahead instances. -/
def State.countsOf (s : State) (l : List (RunId × Nat × Nat)) : Nat × Nat × Nat :=
  let hc := s.head.map (·.cycle)
  let isHead (e : RunId × Nat × Nat) : Bool := !e.1.golden && hc == some e.1.cycle
  (l.countP (fun e => e.1.golden), l.countP isHead, l.countP (fun e => !e.1.golden && !isHead e))

/-- Whether a place in the operation table is left for a run's kind of work beside the entries of a list (R161).
(DESIGN CHOICE: log entry 72) -/
def State.roomBeside (s : State) (l : List (RunId × Nat × Nat)) (run : RunId) : Bool :=
  let c := s.countsOf l
  if run.golden then decide (c.1 < 2048)
  else if s.head.map (·.cycle) == some run.cycle then decide (c.2.1 + c.2.2 < 129024)
  else decide (c.2.2 < 129024 - s.get F.TGS_CTRL_HEAD_MIN) && decide (c.2.1 + c.2.2 < 129024)

/-- The entries with no inputs that are fireable (R161). -/
def State.fireableAlone (s : State) : List (RunId × Nat × Nat) :=
  if !s.tgsRuns then []
  else s.runs_.flatMap (fun run => (List.range 104).filterMap (fun u =>
    let i := s.tgs.firedCount u run
    if (s.entryOf run.graph u i).ins.isEmpty && s.ready u run then some (run, u, i) else none))

/-- The entries in flight (R161): those that have fired or hold a token, and those with no inputs from when they are fireable, as far as
the table has room for them. (DESIGN CHOICE: log entry 72) -/
def State.inFlight (s : State) : List (RunId × Nat × Nat) :=
  s.fireableAlone.foldl (fun l e => if !l.contains e && s.roomBeside l e.1 then l ++ [e] else l) s.tgs.held

/-- Whether an entry of a run gets a place in the operation table: it has one, or one is left for its kind of work (R161).
(DESIGN CHOICE: log entry 72) -/
def State.tableRoom (s : State) (run : RunId) (unit index : Nat) : Bool :=
  let l := s.inFlight
  l.contains (run, unit, index) || s.roomBeside l run

/-- The budget key of an attention step, and the cycle it is listed under: golden frames have numbers of their own. -/
def RunId.owner (run : RunId) : Nat := if run.golden then 2 ^ 32 + run.cycle else run.cycle
def RunId.stepKey (run : RunId) (index : Nat) : Nat := run.owner * 65536 + index

/-- The ATTENTION budget of a step starts when the step is fireable (R170, R251). -/
def State.startSteps (s : State) : State :=
  if !s.tgsRuns then s
  else s.runs_.foldl (fun u run =>
    let key := run.stepKey (u.tgs.firedCount 101 run)
    if u.ready 101 run && !u.tgs.budgets.any (fun b => b.cls == 7 && b.key == key) then u.startBudget 7 key run.owner else u) s

/-- Operations shown in TGS_OPS: entries in flight, of the head, of golden graphs (R161); what has become fireable starts its budget. -/
def State.syncOps (s : State) : State :=
  let l := s.inFlight
  let c := s.countsOf l
  (((s.put F.TGS_OPS_IN_FLIGHT l.length).put F.TGS_OPS_HEAD c.2.1).put F.TGS_OPS_GOLDEN c.1).startSteps

/-- Waiting tokens take the places that have come free, in order (R161). -/
def State.admitWaiting (s : State) : State :=
  let r := s.tgs.waiting.foldl (fun (a : State × List Token) k =>
    if a.1.tableRoom k.run k.dst.2.1 k.dst.2.2 then
      ({ a.1 with tgs := { a.1.tgs with tokens := a.1.tgs.tokens ++ [k] } }, a.2)
    else (a.1, a.2 ++ [k])) (s, [])
  { r.1 with tgs := { r.1.tgs with waiting := r.2 } }

end Sys2Proof.Machine
end

