-- ==== Sys2Proof/Machine/Layout.lean ====
section
/-! DEFINITION. The tensor layout engine (spec/12_tensor_layout.md): layout descriptors, their validation, translation
and protection, store groups, and the reads, writes and copies that descriptors describe. -/

namespace Sys2Proof.Machine

/-! ## Access widths (R190) -/

/-- The element size of a byte-aligned format code (R175). -/
def elemSize (fmt : Nat) : Nat := if fmt = 4 then 2 else if fmt = 5 ∨ fmt = 6 then 4 else 1

/-- The access width W (R190). -/
def accessWidth (fmt : Nat) (element : Bool) : Nat := if element then elemSize fmt else if fmt = 3 then 34 else 64

/-! ## The layout descriptor (R192): 128 bytes -/

/-- A dimension of a descriptor. -/
structure LayDim where
  stride : Int
  count  : Nat
  lo     : Nat
  hi     : Nat
  deriving DecidableEq, Repr

def layDim (d : List Byte) (k : Nat) : LayDim :=
  { stride := toSigned 40 (leAt d (32 + 12 * k) 5), count := leAt d (37 + 12 * k) 3
    lo := leAt d (41 + 12 * k) 1, hi := leAt d (42 + 12 * k) 1 }

def layNdim (d : List Byte) : Nat := bitsAt (leAt d 2 1) 0 3
def layDims (d : List Byte) : List LayDim := (List.range (layNdim d)).map (layDim d)
def layIsWrite (d : List Byte) : Bool := bitSet (leAt d 0 1) 0
def layElement (d : List Byte) : Bool := bitSet (leAt d 0 1) 1
def layPadMode (d : List Byte) : Nat := bitsAt (leAt d 0 1) 2 2
def layFmt (d : List Byte) : Nat := bitsAt (leAt d 1 1) 0 4
def layOwner (d : List Byte) : Bool := bitSet (leAt d 2 1) 3
def layCtx (d : List Byte) : Nat := bitsAt (leAt d 3 1) 0 4
def layGroup (d : List Byte) : Nat := leAt d 4 2
def layBase (d : List Byte) : Nat := leAt d 8 5
def layW (d : List Byte) : Nat := accessWidth (layFmt d) (layElement d)

/-- The padding group: PAD in every element, an all-zero unit for BS4 (R193). -/
def layPadBytes (d : List Byte) : List Byte :=
  let w := layW d
  if layFmt d = 3 then zeroBytes w
  else
    let e := elemSize (layFmt d)
    (List.replicate (w / e) (natLe e (leAt d 6 2))).flatten

/-- The index of position number `n`, dimension 0 fastest (R193). -/
def layIndex : List Nat → Nat → List Nat
  | [], _ => []
  | c :: r, n => n % max 1 c :: layIndex r (n / max 1 c)

/-- Whether an index is a padding position (R193). -/
def layIsPad (dims : List LayDim) (idx : List Nat) : Bool :=
  (dims.zip idx).any (fun x => decide (x.2 < x.1.lo) || decide (x.1.count - x.1.hi ≤ x.2))

/-- BASE + the sum of index times stride (R193). -/
def layAddr (base : Int) (dims : List LayDim) (idx : List Nat) : Int :=
  (dims.zip idx).foldl (fun a x => a + x.2 * x.1.stride) base

/-- The indexes of a descriptor in order; repetition r fixes the last dimension (R181, R193). (DEDUCED: log entry 75) -/
def layIndexes (dims : List LayDim) (rep : Option Nat) : List (List Nat) :=
  let counts := dims.map (·.count)
  match rep with
  | none => (List.range (counts.foldl (· * ·) 1)).map (layIndex counts)
  | some r =>
    let c := counts.dropLast
    (List.range (c.foldl (· * ·) 1)).map (fun n => layIndex c n ++ [r])

/-! ## Validation (R194, R195, R207) -/

/-- Whether a reserved field of a descriptor is not 0, or a field is undefined (BAD_FIELD of R194). -/
def layBadField (d : List Byte) (addStore ownerEn : Bool) : Bool :=
  let n := layNdim d
  let z (off k : Nat) : Bool := leAt d off k != 0
  let dims := layDims d
  let b := bitsAt (leAt d 112 1) 0 3
  let len := leAt d 113 3
  bitsAt (leAt d 0 1) 4 4 != 0 || bitsAt (leAt d 1 1) 4 4 != 0 || bitsAt (leAt d 2 1) 4 4 != 0
    || bitsAt (leAt d 3 1) 4 4 != 0 || z 13 3 || z 16 16 || z 109 3 || bitsAt (leAt d 112 1) 3 5 != 0 || z 120 4
    || (List.range 6).any (fun k => z (40 + 12 * k) 1 || z (43 + 12 * k) 1 || (decide (n ≤ k) && z (32 + 12 * k) 12))
    || decide (6 < layFmt d) || n == 0 || decide (6 < n) || layPadMode d == 3
    || (layPadMode d == 0 && dims.any (fun x => x.lo != 0 || x.hi != 0))
    || dims.any (fun x => decide (x.count < x.lo + x.hi))
    || (layElement d && layFmt d == 3)
    || (layGroup d != 0 && (!layIsWrite d || layElement d))
    || (addStore && layPadMode d == 2)
    || (!layOwner d && z 104 16)
    || (layOwner d && (!ownerEn || layBase d != 0 || decide (n ≤ b) || (layDim d b).lo != 0 || (layDim d b).hi != 0 || len == 0
      || decide (leAt d 116 4 < ((layDim d b).count + len - 1) / max 1 len)))

/-- ALIGN of R194. -/
def layMisaligned (d : List Byte) : Bool :=
  let w : Int := layW d
  (layBase d : Int) % w != 0 || (layDims d).any (fun x => decide (1 < x.count) && x.stride % w != 0)

/-- The counts of written positions (R195, R207). -/
def layWritten (d : List Byte) : List (Int × Nat) :=
  (layDims d).zipIdx.map (fun x =>
    let n := if layPadMode d = 2 then x.1.count else x.1.count - x.1.lo - x.1.hi
    let n := if layOwner d ∧ x.2 = bitsAt (leAt d 112 1) 0 3 then min (leAt d 113 3) x.1.count else n
    (x.1.stride, n))

/-- The injectivity test (R195): dimensions in rising order of |stride|, each at least the span below it. -/
def spanTest : Nat → List (Int × Nat) → Bool
  | _, [] => true
  | span, (st, n) :: r => st != 0 && decide (span ≤ st.natAbs) && spanTest (span + (n - 1) * st.natAbs) r

def layInjective (d : List Byte) : Bool :=
  let dims := (layWritten d).filter (fun x => decide (1 < x.2))
  spanTest (layW d) (dims.foldl (fun l x => insertBy (fun y => (y.1.natAbs : Int)) x l) [])

/-- The range of indexes of dimension `k` that generate addresses (R194): the interior, and padding positions of a write under WRITE. -/
def layRange (d : List Byte) (rep : Option Nat) (k : Nat) (x : LayDim) : Nat × Nat :=
  let all := layIsWrite d && layPadMode d == 2
  let lo := if all then 0 else x.lo
  let hi := if all then x.count else x.count - x.hi
  match rep with
  | some r => if k + 1 = layNdim d then (if lo ≤ r ∧ r < hi then (r, r + 1) else (0, 0)) else (lo, hi)
  | none => (lo, hi)

/-- The least and greatest address over strides and index ranges; none when nothing is generated. -/
def extentOf (base : Int) (dims : List (Int × Nat × Nat)) : Option (Int × Int) :=
  if dims.any (fun x => decide (x.2.2 ≤ x.2.1)) then none
  else
    let ends (x : Int × Nat × Nat) : Int × Int := (x.1 * x.2.1, x.1 * ((x.2.2 - 1 : Nat) : Int))
    some (dims.foldl (fun a x => a + min (ends x).1 (ends x).2) base, dims.foldl (fun a x => a + max (ends x).1 (ends x).2) base)

/-- The hull of two extents. -/
def joinExtent : Option (Int × Int) → Option (Int × Int) → Option (Int × Int)
  | some a, some b => some (min a.1 b.1, max a.2 b.2)
  | none, b => b
  | a, none => a

/-- Whether a context is enabled and allowed to a unit (R204). -/
def State.ctxAllowed (s : State) (ctx unit : Nat) : Bool :=
  s.on (F.LAY_CTX_CFG_ENABLE ctx) &&
    bitSet (bitsAt (s.reg (F.LAY_ALLOW_MASK0 (unit / 4)).addr).toNat (16 * (unit % 4)) 16) ctx

/-! ## Translation and protection (R205) -/

/-- An entry of the table store. -/
def State.tableEntry (s : State) (i : Nat) : Nat := (sparseGet (fun _ => (0 : BitVec 64)) s.lay.store i).toNat

def teType (e : Nat) : Nat := bitsAt e 0 2
def teRead (e : Nat) : Bool := bitSet e 2
def teWrite (e : Nat) : Bool := bitSet e 3
def teNext (e : Nat) : Nat := bitsAt e 8 16
def tePage (e : Nat) : Nat := bitsAt e 8 32 * 256

/-- translate(ctx, a, dir) (R205): the physical address, or XLATE_FAULT or PERM_FAULT. -/
def State.translate (s : State) (ctx a : Nat) (write : Bool) : Except Nat Nat :=
  let perm (r w : Bool) (p : Nat) : Except Nat Nat := if (if write then w else r) then .ok p else .error 0x11
  let e1 := s.tableEntry (s.get (F.LAY_CTX_CFG_ROOT ctx) + bitsAt a 32 8)
  if teType e1 ≠ 1 then .error 0x10
  else
    let e2 := s.tableEntry (teNext e1 + bitsAt a 21 11)
    let r := teRead e1 && teRead e2
    let w := teWrite e1 && teWrite e2
    if teType e2 = 2 then perm r w (tePage e2 + bitsAt a 0 21)
    else if teType e2 = 1 then
      let e3 := s.tableEntry (teNext e2 + bitsAt a 16 5)
      if teType e3 ≠ 2 then .error 0x10
      else perm (r && teRead e3) (w && teWrite e3) (tePage e3 + bitsAt a 0 16)
    else .error 0x10

/-- The physical pieces of an access of `w` bytes, cut at a page boundary; both parts must pass (R205). -/
def State.pieces (s : State) (ctx a w : Nat) (write : Bool) : Except Nat (List (Nat × Nat)) :=
  let first := min w (0x10000 - a % 0x10000)
  match s.translate ctx a write with
  | .error c => .error c
  | .ok p =>
    if first = w then .ok [(p, w)]
    else match s.translate ctx (a + first) write with
      | .error c => .error c
      | .ok q => .ok [(p, first), (q, w - first)]

/-- A read through translation: its bytes, and whether a word of them is poisoned. -/
def State.ctxRead (s : State) (ctx a w : Nat) : Except Nat (List Byte × Bool) :=
  match s.pieces ctx a w false with
  | .error c => .error c
  | .ok ps => .ok (ps.flatMap (fun p => s.readBytes p.1 p.2), ps.any (fun p => s.poisoned p.1 p.2))

/-- Write pieces of a byte list in order. -/
def State.writePieces (s : State) (l : List Byte) : List (Nat × Nat) → State
  | [] => s
  | (p, n) :: r => (s.writeBytes p (l.take n)).writePieces (l.drop n) r

/-- Write bytes at a context address (R205): none of them when a part is not permitted. -/
def State.ctxWrite (s : State) (ctx a : Nat) (l : List Byte) : Except Nat State :=
  match s.pieces ctx a l.length true with
  | .error c => .error c
  | .ok ps => .ok (s.writePieces l ps)

/-- Poison the words of pieces. -/
def State.poisonPieces (s : State) (ps : List (Nat × Nat)) : State :=
  ps.foldl (fun t p => (wordsOf p.1 p.2).foldl State.poisonWord t) s

/-- Read a table of a step descriptor or an entry through translation, piece by piece of 64 bytes at most. -/
def State.ctxBytes (s : State) (ctx : Nat) : Nat → Nat → Nat → Except Nat (List Byte × Bool)
  | 0, _, _ => .ok ([], false)
  | f + 1, a, n =>
    if n = 0 then .ok ([], false)
    else
      let k := min n (64 - a % 64)
      match s.ctxRead ctx a k with
      | .error c => .error c
      | .ok x => match s.ctxBytes ctx f (a + k) (n - k) with
        | .error c => .error c
        | .ok y => .ok (x.1 ++ y.1, x.2 || y.2)

/-- `n` bytes from a context address (R205). -/
def State.ctxTable (s : State) (ctx a n : Nat) : Except Nat (List Byte × Bool) := s.ctxBytes ctx (n / 64 + 2) a n

/-! ## Extents and rejection (R194, R207) -/

/-- The owner entry of block `b` (R207): none where it cannot be read. -/
def State.ownerEntry (s : State) (d : List Byte) (b : Nat) : Except Nat Nat :=
  match s.ctxRead (layCtx d) (leAt d 104 5 + 8 * b) 8 with
  | .error c => .error c
  | .ok (e, _) => .ok (leNat e)

/-- Whether an owner entry gives its block a place: it is valid and its base aligned (R207). -/
def ownerOk (d : List Byte) (e : Nat) : Bool := bitSet e 6 && bitsAt e 8 40 % layW d == 0

/-- The least and greatest generated address (R194); none when nothing is generated. In owner mode the blocks of this device generate,
each from its own base (R207). (DEDUCED: log entry 82) -/
def State.layExtent (s : State) (d : List Byte) (rep : Option Nat) : Option (Int × Int) :=
  let dims := (layDims d).zipIdx.map (fun x => (x.1.stride, layRange d rep x.2 x.1))
  if !layOwner d then extentOf (layBase d) dims
  else
    let bd := bitsAt (leAt d 112 1) 0 3
    let len := max 1 (leAt d 113 3)
    ((List.range (((layDim d bd).count + len - 1) / len)).map (fun b =>
      match s.ownerEntry d b with
      | .error _ => none
      | .ok e =>
        if ownerOk d e && bitsAt e 0 6 == s.get F.BML_CTRL_DEVICE_ID then
          extentOf (bitsAt e 8 40) (modifyAt (fun x =>
            (x.1, max x.2.1 (b * len) - b * len, min x.2.2 ((b + 1) * len) - b * len)) bd dims)
        else none)).foldl joinExtent none

/-- The error code of a descriptor, if it is rejected (R194). The CRC is tested first, then the rules in the order of
their codes. A store group whose entry fails its CRC is no rejection but the abort TABLE_ERR (R206).
(DEDUCED: log entry 80) -/
def State.layCheck (s : State) (d : List Byte) (unit : Nat) (write addStore : Bool) (rep : Option Nat) : Option Nat :=
  if !crcOk d then some 0x07
  else if layBadField d addStore (s.on F.LAY_CTRL_OWNER_EN) || layIsWrite d != write then some 0x01
  else if layMisaligned d then some 0x02
  else if write && !layInjective d then some 0x03
  else if !s.ctxAllowed (layCtx d) unit then some 0x04
  else
    let ext := s.layExtent d rep
    let g := s.groupEntry (layGroup d)
    let groupBad := layGroup d != 0 && (decide (255 < layGroup d) || (crcOk g && (leAt g 8 4 == 0
      || (if leAt g 12 1 = 0 then 64 else 34) != layW d || leAt g 13 1 != layCtx d
      || (match ext with
        | some e => decide (e.1 < (leAt g 0 5 : Int)) || decide (((leAt g 0 5 + leAt g 8 4 * layW d : Nat) : Int) < e.2 + (layW d : Int))
        | none => false))))
    if groupBad then some 0x05
    else if (match rep with
      | some r => decide ((layDim d (layNdim d - 1)).count ≤ r)
      | none => false) then some 0x06
    else if (match ext with
      | some e => decide (e.1 < 0) || decide ((2 ^ 40 : Nat) < e.2 + (layW d : Int))
      | none => false) then some 0x06
    else none

/-! ## Errors (R194, R206) -/

/-- The LAY_EVENT bit of a code. -/
def layEventBit (code : Nat) : Fld :=
  match code with
  | 0x01 => F.LAY_EVENT_BAD_FIELD
  | 0x02 => F.LAY_EVENT_ALIGN
  | 0x03 => F.LAY_EVENT_ALIASING_WRITE
  | 0x04 => F.LAY_EVENT_CTX_DENIED
  | 0x05 => F.LAY_EVENT_GROUP_RANGE
  | 0x06 => F.LAY_EVENT_BAD_RANGE
  | 0x07 => F.LAY_EVENT_CRC_ERR
  | 0x10 => F.LAY_EVENT_XLATE_FAULT
  | 0x11 => F.LAY_EVENT_PERM_FAULT
  | 0x12 => F.LAY_EVENT_OWNER_FAULT
  | _ => F.LAY_EVENT_TABLE_ERR

/-- Who runs a descriptor: its unit, the cycle number and the valid map of its instance slot, 4 for golden (R199). -/
structure LayUser where
  unit  : Nat
  cycle : Nat
  map   : Nat
  deriving DecidableEq, Repr

/-- A rejection or an abort (R194, R206): events, LAST_ERR, LAST_ADDR and counts; an abort and CTX_DENIED are violations,
logged and reported to SAF (R159, R206). (DEDUCED: log entry 81) -/
def State.layFail (s : State) (u : LayUser) (code ctx addr : Nat) : State :=
  let s := ((s.raise (layEventBit code)).put F.LAY_LAST_ERR_UNIT u.unit).put F.LAY_LAST_ERR_CODE code
  let s := ((s.put F.LAY_LAST_ERR_CTX ctx).put F.LAY_LAST_ERR_CYCLE u.cycle).put F.LAY_LAST_ADDR_ADDR addr
  let s := if code < 0x10 then s.satInc F.LAY_COUNTS_REJECTED else s.satInc F.LAY_COUNTS_FAULTS
  if code < 0x10 && code != 0x04 then s
  else (s.log wLAY (layEventBit code).lo 1 u.unit addr).detect cCONTAINED u.unit addr

/-! ## Running a descriptor (R193, R198, R206) -/

/-- The address of an index, through the owner table in owner mode (R207): none where another device owns the block.
(DEDUCED: log entry 82) -/
def State.layPosition (s : State) (d : List Byte) (dims : List LayDim) (idx : List Nat) : Except Nat (Option Int) :=
  if !layOwner d then .ok (some (layAddr (layBase d) dims idx))
  else
    let bd := bitsAt (leAt d 112 1) 0 3
    let len := max 1 (leAt d 113 3)
    let i := idx.getD bd 0
    match s.ownerEntry d (i / len) with
    | .error c => .error c
    | .ok e =>
      let base := bitsAt e 8 40
      if !ownerOk d e then .error 0x12
      else if bitsAt e 0 6 ≠ s.get F.BML_CTRL_DEVICE_ID then .ok none
      else
        let rest := (dims.zip idx).zipIdx.filter (fun x => x.2 != bd)
        .ok (some (rest.foldl (fun a x => a + x.1.2 * x.1.1.stride)
          ((base : Int) + ((i % len : Nat) : Int) * (layDim d bd).stride)))

/-- What has come of a descriptor's accesses: state, bytes delivered, poison met, bytes still to write, and the code and
address of an abort. -/
structure LayRun where
  s      : State
  bytes  : List Byte := []
  poison : Bool := false
  data   : List Byte := []
  code   : Option Nat := none
  addr   : Nat := 0
  /-- Saturations and NaNs of an ADD store (R180, R183); a target word of it was poisoned (R187). -/
  sats   : Nat := 0
  nans   : Nat := 0
  lost   : Bool := false
  /-- The address that a read's last-word buffer holds (R196). -/
  last   : Option Nat := none
  deriving DecidableEq, Repr

/-- One position of a read (R193): a repeat of the address before is served without a memory read (R196).
(DESIGN CHOICE: log entry 83) -/
def layReadAt (u : LayUser) (d : List Byte) (dims : List LayDim) (x : LayRun) (idx : List Nat) : LayRun :=
  if x.code.isSome then x
  else
    let pad (x : LayRun) : LayRun := if layPadMode d = 2 then { x with bytes := x.bytes ++ layPadBytes d } else x
    if layIsPad dims idx then pad x
    else match x.s.layPosition d dims idx with
      | .error c => { x with code := some c, addr := ofInt 40 (layAddr (layBase d) dims idx) }
      | .ok none => pad x
      | .ok (some a) =>
        let a := ofInt 40 a
        match x.s.pieces (layCtx d) a (layW d) false with
        | .error c => { x with code := some c, addr := a }
        | .ok ps =>
          let s := if x.last = some a then x.s
            else ps.foldl (fun t p => (t.count 1 (if inNougat p.1 then 0 else 2) 1 (some u.unit) (some p.1)).reportBad p.1 p.2) x.s
          { x with s := s, last := some a, bytes := x.bytes ++ ps.flatMap (fun p => s.readBytes p.1 p.2)
                   poison := x.poison || ps.any (fun p => s.poisoned p.1 p.2) }

/-- The byte and bit of a unit's mark in the valid map of a store group (R199). -/
def mapBit (g : List Byte) (map w a : Nat) : Nat × Nat :=
  let u := (a - leAt g 0 5) / w
  (leAt g 16 8 + map * ((leAt g 8 4 + 511) / 512 * 64) + u / 8, u % 8)

/-- Whether a unit is marked; and marking it. -/
def State.marked (s : State) (b : Nat × Nat) : Bool := bitSet (s.byte b.1).toNat b.2
def State.mark (s : State) (b : Nat × Nat) : State :=
  s.writeBytes b.1 [BitVec.ofNat 8 (setBit (s.byte b.1).toNat b.2)]

/-- What an ADD store makes of the bytes held and those written: the bytes stored, saturations and NaNs (R180, R183). -/
abbrev AddComb := List Byte → List Byte → List Byte × Nat × Nat

/-- The bytes `data` of one position go into its pieces, added to those held by an ADD store, whose poisoned word stays as it is (R180,
R187); `mark` is the unit's mark in the valid map, when the store marks one (R199).
(DEDUCED: log entry 82; DESIGN CHOICE: log entry 83) -/
def LayRun.store (x : LayRun) (unit : Nat) (ps : List (Nat × Nat)) (isPad : Bool) (data rest : List Byte)
    (comb : Option AddComb) (mark : Option (Nat × Nat)) : LayRun :=
  let s := ps.foldl (fun (t : State) p => t.count 1 (if inNougat p.1 then 1 else 3) 1 (some unit) (some p.1)) x.s
  let adds := comb.isSome && !isPad
  if adds && ps.any (fun (p : Nat × Nat) => s.poisoned p.1 p.2) then
    { x with s := ps.foldl (fun (t : State) p => t.reportBad p.1 p.2) s, data := rest, lost := true }
  else
    let c := match comb with
      | some f => if isPad then (data, 0, 0) else f (ps.flatMap (fun (p : Nat × Nat) => s.readBytes p.1 p.2)) data
      | none => (data, 0, 0)
    let s := s.writePieces c.1 ps
    let s := if x.poison && !isPad then s.poisonPieces ps else s
    let s := match mark with
      | some b => s.mark b
      | none => s
    { x with s := s, data := rest, sats := x.sats + c.2.1, nans := x.nans + c.2.2 }

/-- One position of a write (R193, R198, R200). -/
def layWriteAt (u : LayUser) (d : List Byte) (dims : List LayDim) (comb : Option AddComb)
    (x : LayRun) (idx : List Nat) : LayRun :=
  if x.code.isSome then x
  else
    let w := layW d
    let isPad := layIsPad dims idx
    if isPad && layPadMode d != 2 then x
    else
      let data := if isPad then layPadBytes d else padTo w (x.data.take w)
      match x.s.layPosition d dims idx with
      | .error c => { x with code := some c, addr := ofInt 40 (layAddr (layBase d) dims idx) }
      | .ok none => x
      | .ok (some a) =>
        let a := ofInt 40 a
        let rest := if isPad then x.data else x.data.drop w
        match x.s.pieces (layCtx d) a w true with
        | .error c => { x with code := some c, addr := a }
        | .ok ps =>
          let g := x.s.groupEntry (layGroup d)
          let bit := mapBit g u.map w a
          if layGroup d ≠ 0 && isPad && x.s.marked bit then x
          else
            x.store u.unit ps isPad data rest comb (if layGroup d ≠ 0 && !isPad then some bit else none)

/-- The outcome of running a descriptor: the state, an error code if it failed, and what a read delivered. -/
structure LayOut where
  s      : State
  code   : Option Nat := none
  bytes  : List Byte := []
  poison : Bool := false
  sats   : Nat := 0
  nans   : Nat := 0
  lost   : Bool := false
  deriving DecidableEq, Repr

/-- Close a run: a completed descriptor counts, unless it goes on later (`fin` false); an aborted one fails (R206). -/
def LayRun.close (x : LayRun) (u : LayUser) (d : List Byte) (fin : Bool := true) : LayOut :=
  match x.code with
  | some c => { s := x.s.layFail u c (layCtx d) x.addr, code := some c, sats := x.sats, nans := x.nans, lost := x.lost }
  | none => { s := if fin then x.s.modInc F.LAY_COUNTS_DESCRIPTORS else x.s, bytes := x.bytes, poison := x.poison, sats := x.sats
              nans := x.nans, lost := x.lost }

/-- A validated descriptor begins: an uncorrectable table-store error (`tableErr`) or a store-group entry whose CRC fails
aborts it at its first access (R206). (DEDUCED: log entry 81) -/
def State.layBegin (s : State) (d : List Byte) (tableErr : Bool) : Option Nat :=
  if tableErr || (layGroup d != 0 && !crcOk (s.groupEntry (layGroup d))) then some 0x13 else none

/-- Which positions of a descriptor an engine works on now: those whose number among the positions that move data meets
`sel`, and whether the descriptor is then complete. -/
structure LaySel where
  sel : Nat → Bool
  fin : Bool

def layAll : LaySel := { sel := fun _ => true, fin := true }

/-- The indexes selected: positions that move no data stay in. -/
def laySelect (w : LaySel) (moves : List Nat → Bool) (l : List (List Nat)) : List (List Nat) :=
  (l.foldl (fun (a : Nat × List (List Nat)) i =>
    if moves i then (a.1 + 1, if w.sel a.1 then i :: a.2 else a.2) else (a.1, i :: a.2)) (0, [])).2.reverse

/-- A position takes part in the data of its descriptor (R193): every one that is not padding, and padding too where a read fills it. A
position of another device is padding (R207). (DEDUCED: log entry 82) -/
def State.layMoves (s : State) (d : List Byte) (dims : List LayDim) (idx : List Nat) : Bool :=
  (!layIsWrite d && layPadMode d == 2) || (!layIsPad dims idx && (match s.layPosition d dims idx with
    | .ok none => false
    | _ => true))

/-- Run a read descriptor (R193). -/
def State.layReadDesc (s : State) (u : LayUser) (d : List Byte) (rep : Option Nat) (tableErr : Bool) (w : LaySel) : LayOut :=
  match s.layCheck d u.unit false false rep with
  | some c => { s := s.layFail u c (layCtx d) 0, code := some c }
  | none =>
    let dims := layDims d
    let x : LayRun := { s, code := s.layBegin d tableErr }
    let idx := laySelect w (s.layMoves d dims) (layIndexes dims rep)
    (idx.foldl (layReadAt u d dims) x).close u d w.fin

/-- Run the read descriptor at a device address (R193). -/
def State.layRead (s : State) (u : LayUser) (at_ : Nat) (rep : Option Nat) (tableErr : Bool := false) (w : LaySel := layAll) : LayOut :=
  s.layReadDesc u (s.readBytes at_ 128) rep tableErr w

/-- Run a write descriptor over a producer's bytes (R193, R198); an ADD store's has a combination. -/
def State.layWriteDesc (s : State) (u : LayUser) (d : List Byte) (rep : Option Nat) (data : List Byte) (poison : Bool)
    (comb : Option AddComb) (tableErr : Bool) (w : LaySel) : LayOut :=
  match s.layCheck d u.unit true comb.isSome rep with
  | some c => { s := s.layFail u c (layCtx d) 0, code := some c }
  | none =>
    let dims := layDims d
    let x : LayRun := { s, data, poison, code := s.layBegin d tableErr }
    let idx := laySelect w (s.layMoves d dims) (layIndexes dims rep)
    (idx.foldl (layWriteAt u d dims comb) x).close u d w.fin

/-- Run the write descriptor at a device address over a producer's bytes (R193, R198); `comb` is given by an ADD store. -/
def State.layWrite (s : State) (u : LayUser) (at_ : Nat) (rep : Option Nat) (data : List Byte) (poison : Bool := false)
    (comb : Option AddComb := none) (tableErr : Bool := false) (w : LaySel := layAll) : LayOut :=
  s.layWriteDesc u (s.readBytes at_ 128) rep data poison comb tableErr w

/-- The bytes a read delivers and a write consumes (R203). -/
def State.layBytes (s : State) (d : List Byte) : Nat :=
  (layIndexes (layDims d) none).countP (s.layMoves d (layDims d)) * layW d

/-- Whether the formats of a copy's pair agree (R203). -/
def layPairOk (r w : List Byte) : Bool :=
  layFmt r == layFmt w || ((layElement r || layElement w) && layFmt r != 3 && layFmt w != 3
    && elemSize (layFmt r) == elemSize (layFmt w))

/-- The write that follows a copy's read, when the read succeeded (R203). -/
def LayOut.thenWrite (x : LayOut) (u : LayUser) (at_ : Nat) : LayOut :=
  match x.code with
  | some _ => x
  | none => x.s.layWrite u at_ none x.bytes x.poison

/-- A copy on unit 100 (R203): the read, then the write, of the copy descriptor at a device address. -/
def State.layCopy (s : State) (u : LayUser) (at_ : Nat) (tableErr : Bool) : LayOut :=
  let r := s.readBytes at_ 128
  let w := s.readBytes (at_ + 128) 128
  match s.layCheck r u.unit false false none, s.layCheck w u.unit true false none with
  | some c, _ => { s := s.layFail u c (layCtx r) 0, code := some c }
  | none, some c => { s := s.layFail u c (layCtx w) 0, code := some c }
  | none, none =>
    if !layPairOk r w || s.layBytes r ≠ s.layBytes w then { s := s.layFail u 0x01 (layCtx r) 0, code := some 0x01 }
    else (s.layRead u at_ none tableErr).thenWrite u (at_ + 128)

end Sys2Proof.Machine
end

