-- ==== Sys2Proof/Machine/Array.lean ====
section
/-! DEFINITION. The matrix array (spec/11_matrix_array.md): number formats, tile operations, chains and accumulator
sets, and the requantising store. -/

namespace Sys2Proof.Machine

/-! ## Number formats (R175, R176) -/

/-- A value of a floating-point format. -/
inductive FV where
  | nan
  | inf (neg : Bool)
  | fin (d : Dy)
  deriving DecidableEq, Repr

/-- A packed floating-point number of `p` significant bits and bias, with no special exponent. -/
def fvPacked (p ebits : Nat) (bias : Int) (x : Nat) : FV :=
  let m := bitsAt x 0 (p - 1)
  let e := bitsAt x (p - 1) ebits
  let sig : Nat := if e = 0 then m else m + 2 ^ (p - 1)
  let ex : Int := (if e = 0 then 1 else (e : Int)) - bias - (p - 1 : Nat)
  .fin ⟨if bitSet x (p - 1 + ebits) then -(sig : Int) else sig, ex⟩

/-- The value of an element of a byte-aligned format code (R175). -/
def fvOf (fmt x : Nat) : FV :=
  match fmt with
  | 0 => .fin (Dy.ofInt (toSigned 8 x))
  | 1 => if x % 128 = 127 then .nan else fvPacked 4 4 7 x
  | 2 => if bitsAt x 2 5 = 31 then (if x % 4 = 0 then .inf (bitSet x 7) else .nan) else fvPacked 3 5 15 x
  | 4 => if bitsAt x 7 8 = 255 then (if x % 128 = 0 then .inf (bitSet x 15) else .nan) else fvPacked 8 8 127 x
  | 5 => .fin (Dy.ofInt (toSigned 32 x))
  | _ => if f32IsNan x then .nan else if f32IsInf x then .inf (f32Sign x) else .fin (f32Val x)

/-- Twice the magnitude of an E2M1 element (R176). -/
def e2m1Twice (c : Nat) : Int :=
  let m := match c % 8 with
    | 0 => 0
    | 1 => 1
    | 2 => 2
    | 3 => 3
    | 4 => 4
    | 5 => 6
    | 6 => 8
    | _ => 12
  if bitSet c 3 then -m else m

/-- Element `i` of a BS4 unit, twice its value; the unit's scale, none when it is not a number (R176). -/
def bs4Elem (u : List Byte) (i : Nat) : Int := e2m1Twice (bitsAt (leAt u (i / 2) 1) (4 * (i % 2)) 4)
def bs4Scale (u : List Byte) : Option Dy :=
  let s := leAt u 32 2
  let e := bitsAt s 7 8
  let m := bitsAt s 0 7
  if e = 255 then none
  else if e = 0 then some ⟨m, -133⟩
  else some ⟨m + 128, (e : Int) - 134⟩

def FV.isZero : FV → Bool
  | .fin d => d.m == 0
  | _ => false

def FV.neg : FV → Bool
  | .nan => false
  | .inf n => n
  | .fin d => decide (d.m < 0)

/-- A product: exact; NaN for a NaN input or infinity times zero (R179). -/
def FV.mul : FV → FV → FV
  | .nan, _ => .nan
  | _, .nan => .nan
  | .fin a, .fin b => .fin (dyMul a b)
  | a, b => if a.isZero || b.isZero then .nan else .inf (a.neg != b.neg)

/-- An exact sum; NaN for opposite infinities (R179). -/
def FV.add : FV → FV → FV
  | .nan, _ => .nan
  | _, .nan => .nan
  | .fin a, .fin b => .fin (dyAdd a b)
  | .inf a, .inf b => if a = b then .inf a else .nan
  | .inf a, _ => .inf a
  | _, .inf b => .inf b

def fvSum (l : List FV) : FV := l.foldl FV.add (.fin (Dy.ofInt 0))

/-- A value rounded once to binary32, and whether a finite value became infinite (R179). -/
def FV.toF32 : FV → Nat × Bool
  | .nan => (f32Nan, false)
  | .inf n => (f32Inf n, false)
  | .fin d => let x := f32Round d; (x, f32IsInf x)

/-! ## Tile operations (R177, R179) -/

/-- Output columns of a block, operand bytes of a row, bytes of a weight block (R177, R178). -/
def outColumns (fmt : Nat) : Nat := if fmt = 4 then 32 else 64
def rowBytes (fmt : Nat) : Nat := if fmt = 3 then 68 else 64
def blockBytes (fmt : Nat) : Nat := if fmt = 3 then 4352 else if fmt = 4 then 2048 else 4096

/-- The supported pairs (R177). -/
def pairOk (a w : Nat) : Bool :=
  (a == 0 && w == 0) || ((a == 1 || a == 2) && (w == 1 || w == 2)) || (a == 3 && w == 3) || (a == 4 && w == 4)

/-- The bound of INT32 accumulators and stores: ±(2^31 − 1) (R179, R180). -/
def satInt32 (v : Int) : Int × Nat := (clampInt (-2147483647) 2147483647 v, if v < -2147483647 ∨ 2147483647 < v then 1 else 0)

/-- The order of a lane's leaves: each in turn is one of those left (R179). -/
def laneOrder : Nat → List Nat → List Nat
  | 0, _ => []
  | n + 1, l =>
    let k := Config.laneLeaf n % max 1 l.length
    l.getD k 0 :: laneOrder n (l.eraseIdx k)

/-- The sum of leaves in a binary tree of FP32 additions (R179); `place` numbers the nodes as 1, then 2 and 3 below it, and so on. -/
def laneSum : Nat → Nat → List Nat → Nat
  | 0, _, _ => 0
  | _, _, [] => 0
  | _, _, [x] => x
  | f + 1, place, l =>
    let k := 1 + Config.laneSplit place % (l.length - 1)
    f32Add (laneSum f (2 * place) (l.take k)) (laneSum f (2 * place + 1) (l.drop k))

/-- The products of a lane column summed in its fixed tree (R179). (DESIGN CHOICE: log entry 73) -/
def laneTree (products : List Nat) : Nat := laneSum products.length 1 (laneOrder products.length products)

/-- An accumulator after one tile operation's contribution of one row to column `n`, and whether it overflowed (R179).
(DESIGN CHOICE: log entry 73) -/
def accumulate (af wf : Nat) (row w : List Byte) (n acc : Nat) : Nat × Nat :=
  let prod (k : Nat) : FV := (fvOf af (leAt row k 1)).mul (fvOf wf (leAt w (n * 64 + k) 1))
  match af with
  | 0 =>
    let sum := ((List.range 64).map (fun k => toSigned 8 (leAt row k 1) * toSigned 8 (leAt w (n * 64 + k) 1))).foldl (· + ·) 0
    let r := satInt32 (toSigned 32 acc + sum)
    (ofInt 32 r.1, r.2)
  | 3 =>
    let term (h : Nat) : FV :=
      let a := slice row (34 * h) 34
      let b := slice w ((n * 2 + h) * 34) 34
      match bs4Scale a, bs4Scale b with
      | some sa, some sb =>
        let dot := ((List.range 64).map (fun i => bs4Elem a i * bs4Elem b i)).foldl (· + ·) 0
        .fin (dyMul ⟨dot, -2⟩ (dyMul sa sb))
      | _, _ => .nan
    let r := (fvSum [term 0, term 1, fvOf 6 acc]).toF32
    (r.1, if r.2 then 1 else 0)
  | 4 =>
    let pairs := (List.range 32).map (fun k => (leAt row (2 * k) 2, leAt w ((n * 32 + k) * 2) 2))
    let wide (v : Nat) : Nat := v * 65536
    let x := f32Add acc (laneTree (pairs.map (fun p => f32Mul (wide p.1) (wide p.2))))
    let given := f32IsInf acc || pairs.any (fun p => f32IsInf (wide p.1) || f32IsInf (wide p.2))
    (x, if f32IsInf x && !given then 1 else 0)
  | _ =>
    let r := (FV.add (fvSum ((List.range 64).map prod)) (fvOf 6 acc)).toF32
    (r.1, if r.2 then 1 else 0)

/-- One row through a weight block: its accumulators, and how many overflowed. -/
def rowOp (af wf : Nat) (row w : List Byte) (acc : List Nat) : List Nat × Nat :=
  let r := (List.range (outColumns af)).map (fun n => accumulate af wf row w n (acc.getD n 0))
  (r.map (·.1), (r.map (·.2)).foldl (· + ·) 0)

/-! ## Descriptors (R181, R182) -/

def adKind (d : List Byte) : Nat := bitsAt (leAt d 0 1) 0 2
def adAccInit (d : List Byte) : Bool := bitSet (leAt d 0 1) 2
def adStore (d : List Byte) : Bool := bitSet (leAt d 0 1) 3
def adAdd (d : List Byte) : Bool := bitSet (leAt d 0 1) 4
def adAct (d : List Byte) : Nat := bitsAt (leAt d 0 1) 5 2
def adSym (d : List Byte) : Bool := bitSet (leAt d 0 1) 7
def adAFmt (d : List Byte) : Nat := bitsAt (leAt d 1 1) 0 4
def adWFmt (d : List Byte) : Nat := bitsAt (leAt d 1 1) 4 4
def adOutFmt (d : List Byte) : Nat := bitsAt (leAt d 2 1) 0 4
def adRows (d : List Byte) : Nat := leAt d 4 2
def adBlocks (d : List Byte) : Nat := leAt d 6 1
def adW (d : List Byte) : Nat := leAt d 8 8
def adA (d : List Byte) : Nat := leAt d 16 8
def adO (d : List Byte) : Nat := leAt d 24 8
def adQ (d : List Byte) : Nat := leAt d 32 8

/-- Whether a descriptor is rejected (R182); `chain` is that the tile holds an open chain of the list. The rules on
weights do not bear on a REQUANT, whose operand rows are INT32 or FP32 (R182). -/
def arrReject (d : List Byte) (count : Nat) (chain : Bool) : Bool :=
  let requant := adKind d == 1
  !crcOk d || decide (1 < adKind d) || adAct d == 3 || bitsAt (leAt d 2 1) 4 4 != 0 || leAt d 3 1 != 0 || leAt d 7 1 != 0
    || leAt d 44 16 != 0 || [8, 16, 24, 32].any (fun o => leAt d (o + 5) 3 != 0)
    || decide (6 < adOutFmt d) || decide (6 < adAFmt d) || decide (6 < adWFmt d)
    || (if requant then adAFmt d != 5 && adAFmt d != 6 else !pairOk (adAFmt d) (adWFmt d))
    || decide (512 < adRows d) || (!requant && decide (64 < adBlocks d))
    || (adAdd d && adOutFmt d != 5 && adOutFmt d != 6)
    || (!requant && adW d % 64 != 0) || adQ d % 64 != 0
    || (!adAccInit d && !chain) || (adAccInit d && chain)
    || (decide (1 < count) && !(adAccInit d && adStore d))

/-- A descriptor that completes at once as a no-op (R182). -/
def arrNoop (d : List Byte) : Bool := adRows d == 0 || (adKind d == 0 && adBlocks d == 0)

/-! ## Conversion on store (R183, R184) -/

/-- A magnitude rounded to nearest even with `p` significant bits and least exponent `emin`, packed without a limit. -/
def packRound (p : Nat) (emin : Int) (mag : Nat) (e : Int) : Nat :=
  if mag = 0 then 0
  else
    let lsb : Int := max emin (e + (Nat.log2 mag + 1 : Nat) - p)
    let q : Nat := if lsb ≤ e then mag * 2 ^ (e - lsb).toNat else shiftRne mag (lsb - e).toNat
    if q < 2 ^ (p - 1) then q else (lsb - emin).toNat * 2 ^ (p - 1) + q

/-- A binary32 result converted to a store format: its encoding, whether it saturated, whether it was a NaN (R183). -/
def convertTo (fmt : Nat) (sym : Bool) (y : Nat) : Nat × Bool × Bool :=
  let v := fvOf 6 y
  let neg := f32Sign y
  let int (w : Nat) (lo hi : Int) : Nat × Bool × Bool :=
    match v with
    | .nan => (0, false, true)
    | .inf n => (ofInt w (if n then lo else hi), true, false)
    | .fin d => let r := dyRound d; (ofInt w (clampInt lo hi r), decide (r < lo) || decide (hi < r), false)
  let small (p : Nat) (emin : Int) (sbit top : Nat) : Nat × Bool :=
    match v with
    | .fin d =>
      let k := packRound p emin d.m.natAbs d.e
      ((if neg then sbit else 0) + min k top, decide (top < k))
    | _ => (0, false)
  match fmt with
  | 0 => int 8 (if sym then -127 else -128) 127
  | 1 => match v with
    | .nan => (0x7F, false, true)
    | .inf n => (if n then 0xFE else 0x7E, true, false)
    | .fin _ => let r := small 4 (-9) 0x80 0x7E; (r.1, r.2, false)
  | 2 => match v with
    | .nan => (0x7E, false, true)
    | .inf n => (if n then 0xFC else 0x7C, false, false)
    | .fin _ => let r := small 3 (-16) 0x80 0x7B; (r.1, r.2, false)
  | 4 => match v with
    | .nan => (0x7FC0, false, true)
    | .inf n => (if n then 0xFF80 else 0x7F80, false, false)
    | .fin _ => ((small 8 (-133) 0x8000 0x7F80).1, false, false)
  | 5 => int 32 (-2147483647) 2147483647
  | _ => if f32IsNan y then (f32Nan, false, true) else (y, false, false)

/-- The smallest BF16 value at or above a sixth of a positive number, as BF16 bits (R184). -/
def bs4ScaleOf (a : Dy) : Nat :=
  let n := a.m.natAbs * 2 ^ 40
  let mag := 2 * (n / 6) + (if n % 6 = 0 then 0 else 1)
  let e := a.e - 41
  let lsb : Int := max (-133) (e + (Nat.log2 mag + 1 : Nat) - 8)
  let q : Nat := if lsb ≤ e then mag * 2 ^ (e - lsb).toNat else (mag + 2 ^ (lsb - e).toNat - 1) / 2 ^ (lsb - e).toNat
  if q < 128 then q else (lsb + 133).toNat * 128 + q

/-- The E2M1 code nearest to a binary32 quotient, ties to the even mantissa (R184). -/
def e2m1Of (x : Nat) : Nat :=
  let four := dyMul ⟨(f32Val x).m.natAbs, (f32Val x).e⟩ ⟨4, 0⟩
  let mids : List (Nat × Int) := [(1, 1), (2, 3), (3, 5), (4, 7), (5, 10), (6, 14), (7, 20)]
  let c := mids.foldl (fun c m =>
    if dyLt (Dy.ofInt m.2) four || (dyEq (Dy.ofInt m.2) four && m.1 % 2 == 0) then m.1 else c) 0
  c + if f32Sign x then 8 else 0

/-- The 34 bytes of a BS4 unit of 64 results, and whether a NaN or an infinity was met (R184). -/
def storeBs4 (y : List Nat) : List Byte × Bool :=
  if y.any (fun v => f32IsNan v || f32IsInf v) then (zeroBytes 32 ++ natLe 2 0x7FC0, true)
  else
    let amax := y.foldl (fun (m : Dy) v => let a : Dy := ⟨(f32Val v).m.natAbs, (f32Val v).e⟩; if dyLt m a then a else m) (Dy.ofInt 0)
    if amax.m = 0 then (zeroBytes 34, false)
    else
      let s := bs4ScaleOf amax
      let code (i : Nat) : Nat := e2m1Of (f32Div (y.getD i 0) (s * 65536))
      ((List.range 32).map (fun i => BitVec.ofNat 8 (code (2 * i) + 16 * code (2 * i + 1))) ++ natLe 2 s, false)

/-- y of R183: requantised and activated. (DEDUCED: log entry 77) -/
def requant (act clampHi scale bias y : Nat) : Nat :=
  let y := f32Add (f32Mul y scale) bias
  if f32IsNan y then f32Nan
  else if act = 0 then y
  else
    let y := if f32Le 0 y then y else 0
    if act = 1 then y else if f32Le y clampHi then y else clampHi

/-- What a store makes of one row of accumulators: bytes, saturations, NaNs (R183, R184). A raw store keeps each value and counts the
NaNs of an FP32 one. -/
def storeRow (d table : List Byte) (isInt : Bool) (acc : List Nat) : List Byte × Nat × Nat :=
  let fmt := adOutFmt d
  if adQ d = 0 ∧ (fmt = 5 ∨ fmt = 6) then (acc.flatMap (natLe 4), 0, if isInt then 0 else acc.countP f32IsNan)
  else
    let y := acc.zipIdx.map (fun a =>
      let v := if isInt then f32OfInt (toSigned 32 a.1) else a.1
      requant (adAct d) (leAt d 40 4) (leAt table (8 * a.2) 4) (leAt table (8 * a.2 + 4) 4) v)
    if fmt = 3 then
      let y := y ++ (List.range (64 - y.length)).map (fun k => Config.missingColumn k)
      let u := storeBs4 y
      (u.1, 0, if u.2 then 1 else 0)
    else
      let c := y.map (convertTo fmt (adSym d))
      (c.flatMap (fun x => natLe (elemSize fmt) x.1), c.countP (·.2.1), c.countP (·.2.2))

/-- The stored bytes of an ADD store: held words plus written ones; saturations of INT32, NaNs of FP32 (R180, R183). -/
def addStore (isInt : Bool) (old new : List Byte) : List Byte × Nat × Nat :=
  let ws := (chunks 4 old).zip (chunks 4 new)
  if isInt then
    let r := ws.map (fun w => satInt32 (toSigned 32 (leNat w.1) + toSigned 32 (leNat w.2)))
    (r.flatMap (fun x => natLe 4 (ofInt 32 x.1)), (r.map (·.2)).foldl (· + ·) 0, 0)
  else
    let r := ws.map (fun w => f32Add (leNat w.1) (leNat w.2))
    (r.flatMap (natLe 4), 0, r.countP f32IsNan)

/-! ## The array's state -/

/-- Tiles present, shared dealing, and whether ARR takes work (R186). -/
def State.presentTiles (s : State) : Nat := popCount 64 (s.get F.ARR_PRESENT_MASK)
def State.arrShared (s : State) : Bool := s.on F.ARR_CTRL_FORCE_SHARED || s.presentTiles != 64
def State.arrRuns (s : State) : Bool := s.on F.ARR_CTRL_ENABLE && decide (32 ≤ s.presentTiles) && s.runs wARR

def ArrPhase.live : ArrPhase → Bool
  | .ended _ => false
  | _ => true

/-- The chain open on a tile for a unit and a run: its STORE entry has not fired (R174). -/
def Arr.chain (a : Arr) (tile unit : Nat) (run : RunId) : Option ArrSet :=
  a.sets.find? (fun x => x.tile == tile && x.unit == unit && x.run == run && !x.storing && !x.closing)

/-- The free sets of a tile: 0 to 2 for real work, 3 for golden graphs (R172). -/
def Arr.freeSet (a : Arr) (tile : Nat) (golden : Bool) : Option Nat :=
  (if golden then [3] else [0, 1, 2]).find? (fun k => !a.sets.any (fun x => x.tile == tile && x.set == k))

/-- Whether a tile has an entry of a kind of work in hand: one that runs, or one with repetitions to come (R174). -/
def Arr.busy (a : Arr) (tile : Nat) (golden : Bool) : Bool :=
  a.ops.any (fun o => o.tile == tile && o.run.golden == golden
    && (o.phase == .running || (o.phase == .storing && decide (o.rep + 1 < o.count))))

/-- Whether an open chain leaves a tile to an entry of a list: on the tile itself only the chain's own list goes on, and a
list whose chain is open elsewhere goes on there (R174, R186). -/
def ArrSet.leaves (x : ArrSet) (tile unit : Nat) (run : RunId) : Bool :=
  x.storing || x.run.golden != run.golden
    || (if x.tile = tile then x.unit == unit && x.run == run else !(x.unit == unit && x.run == run) || x.closing)

/-- Whether a tile may take an entry of a list (R174, R186, R188): it is present, has nothing else of its kind in hand, its open
chain, if any, is of this list and run, and it has a set free for a new chain. In all-present mode the list of unit t runs
on tile t. -/
def State.tileTakes (s : State) (tile unit : Nat) (run : RunId) (needSet : Bool) : Bool :=
  s.arrRuns && decide (tile < 64) && bitSet (s.get F.ARR_PRESENT_MASK) tile && (s.arrShared || tile == unit)
    && !s.arr.busy tile run.golden && s.arr.sets.all (fun x => x.leaves tile unit run)
    && (!needSet || (s.arr.freeSet tile run.golden).isSome)

/-- An ARR event of a tile: the event bit and ARR_LAST_ERR. -/
def State.arrEvent (s : State) (f : Fld) (tile cycle : Nat) : State :=
  (((s.raise f).put F.ARR_LAST_ERR_TILE tile).put F.ARR_LAST_ERR_CAUSE f.lo).put F.ARR_LAST_ERR_CYCLE cycle

def State.setOps (s : State) (f : List ArrOp → List ArrOp) : State := { s with arr := { s.arr with ops := f s.arr.ops } }

/-- Whether two entries in execution are the same. -/
def ArrOp.same (a b : ArrOp) : Bool := a.unit == b.unit && a.run == b.run && a.index == b.index

def State.updOp (s : State) (o : ArrOp) : State := s.setOps (updateFirst (fun x => x.same o) (fun _ => o))

/-- Free the set of a chain. -/
def State.freeSetOf (s : State) (o : ArrOp) : State :=
  { s with arr := { s.arr with sets := s.arr.sets.filter (fun x => !(x.unit == o.unit && x.run == o.run && x.tile == o.tile && x.set == o.set)) } }

/-- Whether a buffer holds an entry's data. -/
def ArrBuf.of (b : ArrBuf) (o : ArrOp) : Bool := b.unit == o.unit && b.run == o.run && b.index == o.index

/-- Whether a buffer is loaded for the operation that an entry has come to. -/
def ArrBuf.fits (b : ArrBuf) (o : ArrOp) : Bool := b.of o && b.tile == o.tile && b.rep == o.rep && b.block == o.block

/-- Keep some of the buffers only. -/
def State.keepBufs (s : State) (keep : ArrBuf → Bool) : State := { s with arr := { s.arr with bufs := s.arr.bufs.filter keep } }

/-- An entry ends with ERROR, and its chain's set and its buffers are freed (R182, R187). -/
def State.arrError (s : State) (o : ArrOp) (code : Nat) : State :=
  ((s.freeSetOf o).keepBufs (fun b => !b.of o)).updOp { o with phase := .ended (some code) }

/-- A single-bit error in a tile's memories (R187). -/
def State.arrCorrected (s : State) (o : ArrOp) : State :=
  let s := ((s.arrEvent F.ARR_EVENT_ECC_CORR o.tile o.run.cycle).satInc F.ARR_ECC_CORRECTED).satInc (F.ARR_TILE_STAT_ECC_CORR o.tile)
  (s.count 6 0 1 (some o.unit)).life (432 + 4 * o.tile)

/-- A double-bit error in a tile's memories, or a poisoned operand: the chain ends with ERROR (R187). -/
def State.arrUncorrected (s : State) (o : ArrOp) : State :=
  let s := (s.arrEvent F.ARR_EVENT_ECC_UNCORR o.tile o.run.cycle).satInc F.ARR_ECC_UNCORRECTED
  let s := (s.count 6 1 1 (some o.unit)).log wARR 5 1 o.unit o.tile
  (s.detect cCONTAINED o.unit o.tile).arrError o 0

/-- The user of an entry's layout descriptors (R199). -/
def ArrOp.user (o : ArrOp) : LayUser := { unit := o.unit, cycle := o.run.cycle, map := if o.run.golden then 4 else o.run.slot }

/-- The repetition that an entry's descriptors see (R181). -/
def ArrOp.repOf (o : ArrOp) : Option Nat := if 1 < o.count then some o.rep else none

/-! ## Staging blocks as operands (R98, R101) -/

/-- The physical address that an entry's operand read descriptor generates first; none where it has no place. -/
def State.firstOperand (s : State) (o : ArrOp) : Option Nat :=
  let d := s.readBytes (adA o.desc) 128
  let dims := layDims d
  ((layIndexes dims o.repOf).find? (fun i => !layIsPad dims i)).bind (fun i =>
    match s.layPosition d dims i with
    | .ok (some a) => (match s.pieces (layCtx d) (ofInt 40 a) (layW d) false with
      | .ok ps => ps.head?.map (·.1)
      | .error _ => none)
    | _ => none)

/-- The header of the staging block that an entry's operands are (R98); none where they lie elsewhere.
(DEDUCED: log entry 182) -/
def State.stagedHeader (s : State) (o : ArrOp) : Option (List Byte) :=
  let base := s.base F.PTS_CONV_STAGE_BASE_BASE
  match s.firstOperand o with
  | some p => if s.on F.PTS_CTRL_ENABLE ∧ base ≤ p ∧ p < base + 8 * 196608 then some (s.readBytes (base + (p - base) / 196608 * 196608) 64) else none
  | none => none

/-- The weight blocks of a repetition's tile operations (R98, R181): all of them, or of a staging block the slices of the offsets present
in it. (DEDUCED: log entry 182) -/
def State.blocksOf (s : State) (o : ArrOp) : List Nat :=
  let n := adBlocks o.desc
  match s.stagedHeader o with
  | none => List.range n
  | some h =>
    if !crcOk h then List.range n
    else
      let offs := if bitSet (s.byte (s.base F.PTS_LAYER_BASE_BASE + 8 * leAt h 8 1)).toNat 0 then List.range 9 else [4]
      let per := n / offs.length
      (offs.zipIdx.filter (fun x => bitSet (leAt h 6 2) x.1)).flatMap (fun x => (List.range per).map (fun g => x.2 * per + g))

/-- An entry at the begin of its repetition (R98, R101). -/
def State.atRep (s : State) (o : ArrOp) : ArrOp :=
  { o with blocks := s.blocksOf o, block := 0
           zeroed := match s.stagedHeader o with
             | some h => !crcOk h
             | none => false }

/-- A staging header that fails its CRC at the array: the pass is degraded (R101). (DEDUCED: log entry 182) -/
def State.stageFailed (s : State) (o : ArrOp) : State :=
  if !o.zeroed then s
  else
    let mark (x : Spc) : Spc := if o.run.golden || x.table.cycle = o.run.cycle then { x with degraded := true } else x
    let s := s.raise F.PTS_SPC_EVENT_DEGRADED
    if o.run.golden then { s with spcGold := s.spcGold.map mark } else { s with spc := s.spc.map mark }

/-! ## The buffers of a tile (R172, R173) -/

/-- The tile operation that an entry comes to next, of this repetition or the next one. -/
def State.opAfter (s : State) (o : ArrOp) : Option ArrOp :=
  if o.block + 1 < o.blocks.length then some { o with block := o.block + 1 }
  else if o.rep + 1 < o.count then some (s.atRep { o with rep := o.rep + 1 })
  else none

/-- Load half of a tile's buffers for the operation that an entry has come to: its weight block and its operand rows, whose
layout descriptor is complete with the last block (R173, R181, R187). (DEDUCED: log entry 75) -/
def State.loadHalf (s : State) (o : ArrOp) (half : Nat) : State :=
  let n := blockBytes (adAFmt o.desc)
  let addr := adW o.desc + o.blocks.getD o.block 0 * n
  let s := s.reportBad addr n
  let s := if s.populatedRange addr n then s else s.hole addr
  let len := adRows o.desc * rowBytes (adAFmt o.desc)
  let w := max 1 (layW (s.readBytes (adA o.desc) 128))
  let from_ := o.block * len
  let sel : LaySel := { sel := fun i => decide (i * w < from_ + len) && decide (from_ < (i + 1) * w), fin := o.block + 1 == o.blocks.length }
  let a : LayOut := if o.zeroed then { s, bytes := zeroBytes len }
    else
      let a := s.layRead o.user (adA o.desc) o.repOf false sel
      { a with bytes := (a.bytes.drop (from_ % w)).take len }
  let b : ArrBuf := { tile := o.tile, half, unit := o.unit, run := o.run, index := o.index, rep := o.rep, block := o.block
                      weights := a.s.readBytes addr n, rows := a.bytes, bad := a.poison || a.s.poisoned addr n, code := a.code }
  { a.s with arr := { a.s.arr with bufs := a.s.arr.bufs.filter (fun x => !(x.tile == o.tile && x.half == half)) ++ [b] } }

/-- Load an operation into the half that the other one leaves, unless it is loaded. -/
def State.loadOther (s : State) (o : ArrOp) : State :=
  if s.arr.bufs.any (fun b => b.fits o) then s
  else s.loadHalf o (match s.arr.bufs.find? (fun b => b.tile == o.tile && b.started) with
    | some b => 1 - b.half
    | none => 0)

/-- What is left of the golden pool: 3 % of PERIOD in array time, as tile time (R168). (DEDUCED: log entry 68) -/
def State.poolLeft (s : State) : Bool := decide (s.arr.pool * 100 < s.get F.GLZ_TOV_PERIOD * 3 * 64)

/-- The entry whose operation comes next at a tile-operation boundary (R168, R188): while the pool lasts golden work goes first,
and real work waits for the golden chain; after that golden work and the head's take turns as they have fired, before run-ahead work.
(DEDUCED: log entry 68) -/
def State.opNext (s : State) (tile : Nat) : Option ArrOp :=
  let here := s.arr.ops.filter (fun o => o.tile == tile && o.phase == .running)
  let gold := here.find? (·.run.golden)
  let real := here.find? (fun o => !o.run.golden)
  match gold, real with
  | some g, some r => if s.poolLeft || !s.isHead r.run.cycle then some g else here.head?
  | some g, none => some g
  | none, some r => if s.poolLeft && s.arr.sets.any (fun x => x.tile == tile && x.run.golden) then none else some r
  | none, none => none

/-- The entry whose operation runs on a tile, or comes next (R173). -/
def State.opOn (s : State) (tile : Nat) : Option ArrOp :=
  match s.arr.bufs.find? (fun b => b.tile == tile && b.started) with
  | some b => s.arr.ops.find? (fun o => b.fits o && o.phase == .running)
  | none => s.opNext tile

/-- A tile starts the operation that is due, once its half of the buffers is loaded, and the operation after it is loaded into the
other half (R173). -/
def State.tileStart (s : State) (tile : Nat) : State :=
  if s.arr.bufs.any (fun b => b.tile == tile && b.started) then s
  else match s.opNext tile with
    | none => s
    | some o =>
      let s := s.loadOther o
      let s := { s with arr := { s.arr with bufs := s.arr.bufs.map (fun (b : ArrBuf) => if b.fits o then { b with started := true } else b) } }
      match (s.opAfter o).or (s.arr.ops.find? (fun x => x.tile == tile && !x.same o && x.phase == .running)) with
      | some n => s.loadOther n
      | none => s

/-- An entry fires on a tile (R181, R182): a rejected descriptor sets DESC_ERR and ends with ERROR; a no-op ends at once; else
the chain's set is taken or found, and the tile starts. -/
def State.arrFire (s : State) (tile unit : Nat) (run : RunId) (index count : Nat) (desc : List Byte) : State :=
  let ch := s.arr.chain tile unit run
  let o : ArrOp := { tile, unit, run, index, desc, count }
  if arrReject desc count ch.isSome then
    let s := s.setOps (· ++ [o])
    let o := match ch with
      | some c => { o with set := c.set }
      | none => { o with set := 4 }
    (s.arrEvent F.ARR_EVENT_DESC_ERR tile run.cycle).arrError o 0
  else if arrNoop desc then s.setOps (· ++ [{ o with phase := .ended none }])
  else if adKind desc = 1 then s.setOps (· ++ [{ o with phase := .storing, set := 4 }])
  else
    let o := s.atRep o
    let s := s.stageFailed o
    let (sets, k) := match ch with
      | some c => (s.arr.sets, c.set)
      | none =>
        let k := (s.arr.freeSet tile run.golden).getD 0
        (s.arr.sets ++ [({ tile, set := k, unit, run } : ArrSet)], k)
    let sets := updateFirst (fun x => x.tile == tile && x.set == k) (fun (x : ArrSet) => { x with closing := adStore desc }) sets
    ({ s with arr := { s.arr with sets, ops := s.arr.ops ++ [{ o with set := k }] } }).tileStart tile

/-- The tile time of an operation, ns (R186). (DEDUCED: log entry 68) -/
def opTime (rows : Nat) : Nat := max rows 64

/-- Accumulate one weight block over the operand rows of an operation (R173, R179): the chain's rows and the overflows. -/
def blockOp (o : ArrOp) (b : ArrBuf) (rows : List (List Nat)) : List (List Nat) × Nat :=
  let af := adAFmt o.desc
  let n := adRows o.desc
  let w := rowBytes af
  let data (r : Nat) : List Byte :=
    let l := slice b.rows (r * w) w
    l ++ (List.range (w - l.length)).map (fun k => Config.missingOperand ((o.block * n + r) * w + l.length + k))
  let res := (List.range (max n rows.length)).map (fun r =>
    if r < n then rowOp af (adWFmt o.desc) (data r) b.weights (rows.getD r []) else (rows.getD r [], 0))
  (res.map (·.1), (res.map (·.2)).foldl (· + ·) 0)

/-- Whether a set is the one that an entry accumulates into. -/
def ArrSet.of (x : ArrSet) (o : ArrOp) : Bool := x.tile == o.tile && x.set == o.set && x.unit == o.unit && x.run == o.run

/-- The rows of an entry's set. -/
def Arr.rowsOf (a : Arr) (o : ArrOp) : List (List Nat) :=
  match a.sets.find? (fun x => x.of o) with
  | some c => c.rows
  | none => []

/-- The operation after its arithmetic: the chain's accumulators, the next block, the store or the end (R173, R174). -/
def State.opAdvance (s : State) (o : ArrOp) (b : ArrBuf) : State :=
  let r := blockOp o b (s.arr.rowsOf o)
  let s := if r.2 = 0 then s else (s.arrEvent F.ARR_EVENT_ACC_OVF o.tile o.run.cycle).satAdd F.ARR_NUMERIC_ACC_OVF r.2
  let last := decide (o.blocks.length ≤ o.block + 1)
  let storing := last && adStore o.desc
  let s := { s with arr := { s.arr with
    sets := updateFirst (fun x => x.of o) (fun (x : ArrSet) => { x with rows := r.1, storing := storing }) s.arr.sets
    pool := if o.run.golden then s.arr.pool + opTime (adRows o.desc) else s.arr.pool } }
  let s := if o.run.golden then s.put F.TGS_GOLDEN_POOL_USED (satNat 16 (s.arr.pool / 64000)) else s
  let s := (s.modInc (F.ARR_TILE_STAT_OPS o.tile)).count 2 0 1 (some o.unit)
  let s := s.count 2 1 (opTime (adRows o.desc)) (some o.unit)
  let s := if o.run.golden then s.count 2 3 1 (some o.unit) else s
  (s.keepBufs (fun x => !x.fits o)).updOp { o with
    block := o.block + 1
    phase := if storing then .storing else if last then .ended none else .running }

/-- What a command of the array met and corrected: `fault` 1 in the tile's memories (R187), 3 in the table store (R206: TABLE_CORR of
the lifetime record). -/
def State.arrMet (s : State) (o : ArrOp) (fault : Nat) : State :=
  if fault = 1 then s.arrCorrected o else if fault = 3 then (s.count 6 0 1 (some o.unit)).life 688 else s

/-- The operation whose half of the buffers is `b` ends (R173, R187): with an error of its operand read, or poisoned or hit by a
double-bit error (`fault` 2), its chain ends with ERROR; else it has accumulated. -/
def State.opEnd (s : State) (o : ArrOp) (b : ArrBuf) (fault : Nat) : State :=
  match b.code with
  | some c => s.arrError o c
  | none =>
    let s := s.arrMet o fault
    if b.bad || fault = 2 then s.arrUncorrected o else s.opAdvance o b

/-- TILE_OPERATION_DONE (R173, R179, R187, R188): the tile operation on a tile completes, and the next one starts. `fault` is what
the tile's memories met: 0 nothing, 1 a corrected error, 2 a double-bit error in a weight or operand buffer, 3 a corrected
error of the table store; `tableErr` an uncorrectable table-store error under its operand reads (R206).
(DESIGN CHOICE: log entry 48) -/
def execTileOperationDone (tile fault : Nat) (tableErr : Bool) (s : State) : Host.Outcome State Fault Refusal :=
  .next (
    if !s.arrRuns then s
    else
      -- work may have come to the head of the tile since
      let s := s.tileStart tile
      match s.opOn tile with
      | none => s
      | some o =>
        let a := if tableErr then s.layRead o.user (adA o.desc) o.repOf true else { s }
        let s := match a.code, s.arr.bufs.find? (fun b => b.fits o) with
          | some c, _ => a.s.arrError o c
          | none, some b => s.opEnd o b fault
          | none, none => s
        s.tileStart tile)

/-- The rows a store works on: the set's, or for a REQUANT those its read descriptor delivers (R181, R182).
(DEDUCED: log entry 78) -/
def State.storeRows (s : State) (o : ArrOp) (tableErr : Bool) : LayOut × List (List Nat) :=
  if adKind o.desc = 1 then
    let a := s.layRead o.user (adA o.desc) o.repOf tableErr
    (a, (List.range (adRows o.desc)).map (fun r => (List.range 64).map (fun n => leAt a.bytes (256 * r + 4 * n) 4)))
  else
    ({ s }, (s.arr.rowsOf o).take (adRows o.desc))

/-- What a store makes of its rows, with its requantisation table (R183, R184). -/
def State.storedRows (s : State) (o : ArrOp) (rows : List (List Nat)) : List (List Byte × Nat × Nat) :=
  rows.map (storeRow o.desc (s.readBytes (adQ o.desc) 512) (adAFmt o.desc == 0 || adAFmt o.desc == 5))

/-- The end of a store that has saturated and met NaNs so often: an error, or the set is freed and the next repetition begins or
the entry ends (R174, R181, R187). -/
def State.storeEnd (s : State) (o : ArrOp) (golden : Bool) (code : Option Nat) (sats nans : Nat) : State :=
  let s := if sats = 0 then s
    else (s.arrEvent F.ARR_EVENT_STORE_SAT o.tile o.run.cycle).satAdd F.ARR_NUMERIC_STORE_SAT sats
  let s := if nans = 0 then s
    else (s.arrEvent F.ARR_EVENT_NAN_OUT o.tile o.run.cycle).satAdd F.ARR_NUMERIC_NAN_OUT nans
  match code with
  | some c => s.arrError o c
  | none =>
    let s := (s.freeSetOf o).count 2 2 1 (some o.unit)
    if o.rep + 1 < o.count then
      if adKind o.desc = 1 then s.updOp { o with rep := o.rep + 1 }
      else
        let k := (s.arr.freeSet o.tile golden).getD o.set
        let o := s.atRep { o with rep := o.rep + 1 }
        let s := s.stageFailed o
        let c : ArrSet := { tile := o.tile, set := k, unit := o.unit, run := o.run, closing := true }
        let s := { s with arr := { s.arr with sets := s.arr.sets ++ [c] } }
        s.updOp { o with set := k, phase := .running }
    else s.updOp { o with phase := .ended none }

/-- The store of a chain: every row of the set is requantised and written through the write descriptor (R174, R180, R183, R184, R187).
(DEDUCED: log entry 76) -/
def State.storeChain (s : State) (o : ArrOp) (golden tableErr : Bool) : State :=
  let (a, rows) := s.storeRows o tableErr
  match a.code with
  | some c => a.s.arrError o c
  | none =>
    if a.poison then a.s.arrUncorrected o
    else
      let s := if adQ o.desc = 0 then a.s else a.s.reportBad (adQ o.desc) 512
      let out := s.storedRows o rows
      let comb : Option AddComb := if adAdd o.desc then some (addStore (adOutFmt o.desc == 5)) else none
      let w := s.layWrite o.user (adO o.desc) o.repOf (out.flatMap (·.1)) false comb tableErr
      -- an FP32 ADD stores sums
      let nans := if adAdd o.desc && adOutFmt o.desc == 6 then w.nans else (out.map (·.2.2)).foldl (· + ·) 0
      if w.lost && w.code.isNone then w.s.arrUncorrected o
      else w.s.storeEnd o golden w.code ((out.map (·.2.1)).foldl (· + ·) 0 + w.sats) nans

/-- CHAIN_STORE_DONE (R174, R180, R183, R184, R187): the requantising store of a chain completes and its set is freed; the next
repetition begins, or the entry ends. `fault` is what it met: 1 a corrected error of the set, 2 a double-bit error in it (the store writes
nothing), 3 a corrected error of the table store (R206). -/
def execChainStoreDone (tile : Nat) (golden : Bool) (fault : Nat) (tableErr : Bool) (s : State) :
    Host.Outcome State Fault Refusal :=
  .next (
    match s.arr.ops.find? (fun o => o.tile == tile && o.run.golden == golden && o.phase == .storing) with
    | none => s
    | some o =>
      if !s.arrRuns then s
      else
        let s := s.arrMet o fault
        (if fault = 2 then s.arrUncorrected o else s.storeChain o golden tableErr).tileStart tile)

/-- Forget the entry that an array unit has ended, and say how it ended (R157): none while it still runs. -/
def State.arrEnded (s : State) (unit : Nat) (run : RunId) (index : Nat) : Option (State × Option Nat) :=
  match s.arr.ops.find? (fun o => o.unit == unit && o.run == run && o.index == index) with
  | some o => match o.phase with
    | .ended c => some (s.setOps (fun l => l.filter (fun x => !x.same o)), c)
    | _ => none
  | none => none

end Sys2Proof.Machine
end

