-- ==== Sys2Proof/Machine/Instances.lean ====
section
/-! DEFINITION. Instances as operations: opening (R137), squash (R163 to R167), issue (R147 to R149), finality (R11),
the time discontinuity (R20, R138), and what finality lets follow (the next head's held tiles, Idle). -/

namespace Sys2Proof.Machine

/-! ## Streams of an instance (R52, R140) -/

/-- The mask of enabled streams whose state is one of `sts`. -/
def State.streamMask (s : State) (sts : List Nat) : Nat :=
  (List.range 64).foldl (fun m i =>
    if s.on (F.ING_STR_CFG_ENABLE i) && sts.contains (s.get (F.ING_STR_STAT_STATE i)) then m + 2 ^ i else m) 0

/-- Streams included: ADMITTED or ABSENT. -/
def State.includedNow (s : State) : Nat := s.streamMask [2, 4]

/-- Streams excluded: enabled and WAITING or QUARANTINED (R145). -/
def State.excludedNow (s : State) : Nat := s.streamMask [1, 3]

/-! ## Values (R139, R140) -/

/-- Whether a value still stands beside the streams emptied since it was made: a camera's stream is not among them, and of the shared
pillar value some lidar that kept records in it is not (R139, R140). (DEDUCED: log entry 191) -/
def Contribution.stands (c : Contribution) (gone : List Nat) : Bool :=
  match c.stream with
  | some k => !gone.contains k
  | none => c.oldest.any (fun o => !gone.contains o.1)

/-- Search instances, the youngest first, for the pending value of a stream, or of the pillars; `gone` are the streams emptied from a
younger instance on (R139, R140). -/
def valueIn (settled : List Contribution) (stream : Option Nat) (gone : List Nat) : List Inst → Option Contribution
  | [] => settled.find? (fun c => c.stream == stream && c.stands gone)
  | i :: r =>
    match i.pending.find? (fun c => c.stream == stream && c.stands gone) with
    | some c => some c
    | none => valueIn settled stream (i.emptied ++ gone) r

/-- The instances from a cycle's down to the head, the youngest first. -/
def State.downToHead (s : State) (cycle : Nat) : List Inst :=
  ((s.glz.insts.takeWhile (fun i => i.cycle != cycle)) ++ (s.inst cycle).toList).reverse

/-- The value an instance uses for a stream, or for the shared pillar value: the newest pending value of the instances
from it down to the head, else the settled one (R139). -/
def State.valueOf (s : State) (cycle : Nat) (stream : Option Nat) : Option Contribution :=
  valueIn s.glz.settled stream [] (s.downToHead cycle)

/-- Search instances, the youngest first, for the latest-value time of a lidar stream (R139, R140). -/
def lidarIn (settled : List (Nat × Time)) (stream : Nat) : List Inst → Option Time
  | [] => (settled.find? (fun l => l.1 == stream)).map (·.2)
  | i :: r =>
    match (i.pending.flatMap (·.oldest)).find? (fun l => l.1 == stream) with
    | some l => some l.2
    | none => if i.emptied.contains stream then none else lidarIn settled stream r

/-- Make a contribution the pending value of its stream for an instance: the one with the latest contribution time
(R139). -/
def Inst.addPending (i : Inst) (c : Contribution) : Inst :=
  match i.pending.find? (fun x => x.stream == c.stream) with
  | some x =>
    if x.time ≤ c.time then { i with pending := c :: i.pending.filter (fun y => y.stream != c.stream) } else i
  | none => { i with pending := c :: i.pending }

/-- A change in stream quarantine (R52) takes effect for the instance whose ingest window contains the deciding arrival
and for every younger one: their stream sets, and for a stream that leaves the admitted set its values, emptied from
that instance on (R140). -/
def State.applyQuarantine (s : State) (stream : Nat) (arrival : Time) (leaves : Bool) : State :=
  let reached (i : Inst) : Bool := decide (arrival < i.tov)
  let set (m : Nat) (b : Bool) : Nat := if b then setBit m stream else clearBit m stream
  let f (i : Inst) : Inst :=
    if !reached i then i
    else { i with included := set i.included !leaves, excluded := set i.excluded leaves
                  pending := if leaves then i.pending.filter (fun c => c.stream != some stream) else i.pending }
  let insts := s.glz.insts.map f
  let insts := if leaves then updateFirst reached (fun i => { i with emptied := stream :: i.emptied.filter (· != stream) }) insts
    else insts
  let next := if leaves && !s.glz.insts.any reached then stream :: s.glz.emptyNext.filter (· != stream) else s.glz.emptyNext
  { s with glz := { s.glz with insts := insts, emptyNext := next } }

/-! ## Squash (R163 to R167) -/

/-- Squash causes (R163): bit in TGS_LAST_SQUASH.CAUSES. -/
abbrev sqCommit := 0
abbrev sqDiscontinuity := 1
abbrev sqQuarantine := 2
abbrev sqDisagree := 3

def squashCount (c : Nat) : Fld :=
  match c with
  | 0 => F.TGS_SQUASH_COUNT_COMMIT
  | 1 => F.TGS_SQUASH_COUNT_DISCONTINUITY
  | 2 => F.TGS_SQUASH_COUNT_QUARANTINE
  | _ => F.TGS_SQUASH_COUNT_DISAGREE

def State.bumpEpoch (s : State) (slot : Nat) : State :=
  let f : Fld := ⟨F.TGS_STATUS_EPOCHS.addr, F.TGS_STATUS_EPOCHS.lo + 4 * slot, 4⟩
  s.modInc f

/-- Drop the fabric's work of the runs `mine` picks by golden, slot and cycle: ready, waiting and running entries; each discarded token
returns its credit, and waiting tokens of other runs take the places (R161, R165 steps 2 and 3, R169). `wire` drops the tokens still on
their way too. -/
def State.dropWork (s : State) (mine : Bool → Nat → Nat → Bool) (wire : Bool) : State :=
  let tok (k : Token) : Bool := mine k.golden k.slot k.cycle
  let run (r : RunId) : Bool := mine r.golden r.slot r.cycle
  let gone := s.tgs.tokens.filter tok ++ s.tgs.waiting.filter tok ++ (if wire then s.tgs.sent.filter tok else [])
  let dropped := s.tgs.firing.filter (fun f => run f.run)
  -- notices hold no credit; abandoned entries hold none of their inputs or outputs any more
  let t := ((gone.filter (·.kind != 2)).map (·.edge)).foldl Tgs.returnCredit s.tgs
  let t := (dropped.flatMap (fun f => let e := s.entryOf f.run.graph f.unit f.index; e.ins ++ e.outs)).foldl Tgs.returnCredit t
  ({ s with tgs := { t with
    tokens := t.tokens.filter (fun k => !tok k)
    waiting := t.waiting.filter (fun k => !tok k)
    sent := if wire then t.sent.filter (fun k => !tok k) else t.sent
    firing := t.firing.filter (fun f => !run f.run)
    fired := t.fired.filter (fun f => !run f.2.1) } }).admitWaiting

/-- Drop the work of a slot (R165). `stale` counts the discarded tokens in STALE; at finality, where the slot's epoch stays, the tokens
still on their way are dropped instead. -/
def State.dropSlotWork (s : State) (slot : Nat) (stale : Bool) : State :=
  let mine (k : Token) : Bool := !k.golden && k.slot == slot
  let gone := s.tgs.tokens.countP mine + s.tgs.waiting.countP mine
  let n := s.inFlight.countP (fun e => !e.1.golden && e.1.slot == slot)
  let s := s.dropWork (fun g k _ => !g && k == slot) (!stale)
  if stale then ((s.satAdd F.TGS_DISCARDS_STALE gone).modAdd F.TGS_DISCARDS_SQUASHED_OPS n).count 3 2 n else s

/-- The queues that hold a mark in a slot. -/
def State.markedQueues (s : State) (slot : Nat) : List Nat :=
  (s.queues.filter (fun q => (q.2.marks.getD slot none).isSome)).map (·.1)

/-- Discard one run-ahead instance's state, keeping its ToV, deadline, stream set and settings (R164, R165). -/
def Inst.restart (i : Inst) : Inst :=
  { i with pending := [], tiles := List.replicate 256 {}, warped := false, disagreed := false, fallback := []
           solverDeg := false, warmDisc := false, poseDeg := false, pillarDone := false, amendVals := [], heldOrder := []
           lastDone := none, late := [] }

/-- Squash one slot (R165 steps 1 to 5). -/
def State.squashSlot (s : State) (cycle : Nat) : State :=
  let slot := slotOf cycle
  let s := (s.bumpEpoch slot).dropSlotWork slot true
  let s := (s.markedQueues slot).foldl (fun t q => t.queueRewind q slot) s
  let s := (s.rerunEngines cycle).updInst cycle Inst.restart
  { s with tgs := { s.tgs with budgets := s.tgs.budgets.filter (fun b => b.cycle != cycle) } }

/-- A squash event (R163): every run-ahead instance, and none else, is squashed; with no run-ahead in flight nothing is discarded and
SQUASH_EMPTY counts (R167). An event before the end of an earlier squash merges with it; events of one instant are one squash, each cause
counted once. (DEDUCED: log entries 64, 65) -/
def State.squash (s : State) (cause : Nat) : State :=
  let prev : Nat × Nat × Time := s.tgs.squash.getD (0, 0, s.now)
  let same := s.tgs.squash.isSome && prev.2.2 == s.now
  let s := if same && bitSet prev.2.1 cause then s else s.satInc (squashCount cause)
  let ra := (s.glz.insts.drop 1).map (·.cycle)
  if ra.isEmpty then s.satInc F.TGS_DISCARDS_SQUASH_EMPTY
  else
    -- the youngest first, so that each queue's last rewind is to the oldest squashed instance's mark
    let hit := ra.reverse.filter (fun c => !same || !bitSet prev.1 (slotOf c))
    let s := hit.foldl State.squashSlot s
    let slots := ra.foldl (fun m c => setBit m (slotOf c)) prev.1
    let causes := setBit prev.2.1 cause
    let s := { s with tgs := { s.tgs with squash := some (slots, causes, s.now) } }
    let s := (((s.put F.TGS_LAST_SQUASH_CAUSES causes).put F.TGS_LAST_SQUASH_SLOTS slots).put
      F.TGS_LAST_SQUASH_CYCLE s.headCycle).raise F.TGS_EVENT_SQUASH
    s.syncHead.syncOps

/-! ## The fused tile as stored (R145, R146, R148) -/

/-- The 64-byte header of a tile (R145). -/
def Tile.header (t : Tile) : List Byte :=
  let payload := t.cells.flatMap (fun c => natLe 8 c.toNat)
  withCrc (natLe 2 0x1D5A ++ natLe 2 t.index ++ natLe 4 t.seq ++ natLe 8 (ofInt 64 t.tov) ++ natLe 3 t.age
    ++ natLe 1 t.domain ++ natLe 8 t.included ++ natLe 8 t.excluded ++ natLe 4 t.flags ++ natLe 1 t.amend ++ natLe 3 0
    ++ natLe 4 t.cycle ++ natLe 8 0 ++ natLe 4 (crc32c payload))

/-- The 8,256 bytes of a tile (R145, R146). -/
def Tile.bytes (t : Tile) : List Byte := t.header ++ t.cells.flatMap (fun c => natLe 8 c.toNat)

/-- The store address of a tile: slot CYCLE mod STORE_CYCLES of 2,113,536 bytes, 8,256 bytes a tile (R148, R153).
(DEDUCED: log entry 62) -/
def State.storeAddr (s : State) (cycle tile : Nat) : Nat :=
  s.base F.GLZ_STORE_BASE_BASE + cycle % max 1 (s.get F.GLZ_CTRL_STORE_CYCLES) * 2113536 + tile * 8256

/-- Whether the store slot still holds a tile of a cycle, as the CYCLE field of the stored header shows (R329).
(DEDUCED: log entry 62) -/
def State.storeHolds (s : State) (cycle tile : Nat) : Bool :=
  let h := s.readBytes (s.storeAddr cycle tile) 64
  leAt h 0 2 == 0x1D5A && leAt h 44 4 == cycle % 2 ^ 32 && leAt h 2 2 == tile

/-- FLAGS bits (R147). -/
abbrev fVALID := 0
abbrev fREUSED := 1
abbrev fAMENDED := 2
abbrev fOVF_POINTS := 3
abbrev fOVF_PILLARS := 4
abbrev fDEGRADED := 5
abbrev fEXCLUDED := 6
abbrev fSAFE_INVALID := 7
abbrev fSUSPECT := 8
abbrev fFALLBACK := 9
abbrev fSOLVER := 10
abbrev fWARM := 11

/-- FLAGS at issue (R147): a composed tile carries VALID when it has data; SAFE_INVALID, CHECK_SUSPECT, DEGRADED of the
state and the final VALID come from the conditions at its own issue. -/
def issueFlags (flags safety : Nat) (disagreed : Bool) : Nat :=
  let inv := safety == stSafe || disagreed
  let f := clearBit (clearBit flags fSAFE_INVALID) fSUSPECT
  let f := if inv then clearBit (setBit f fSAFE_INVALID) fVALID else f
  let f := if safety = stSuspect && !inv then setBit f fSUSPECT else f
  if safety = stDegraded then setBit f fDEGRADED else f

/-! ## Delivery to the host (R330, R331) -/

/-- TILE_DATA frames of a stored tile (R329): six fragments, or one frame with the status that says why not. -/
def State.tileFrames (s : State) (flags reqId cycle tile : Nat) (last : Bool) : List (List Byte) :=
  let a := s.storeAddr cycle tile
  if !s.storeHolds cycle tile then
    [frameBytes ftTileData (flags + if last then flLast else 0) stNotHeld reqId 0 1 cycle tile []]
  else if s.poisoned a 8256 then
    [frameBytes ftTileData (flags + if last then flLast else 0) stDataErr reqId 0 1 cycle tile []]
  else unitFrames ftTileData flags stOk reqId cycle tile last (s.readBytes a 8256)

/-- Answer the open WAIT reads that wait for a tile (R330). -/
def State.serveWaits (s : State) (cycle tile : Nat) : State :=
  let mine := s.hst.waits.filter (fun w => w.cycle == cycle && w.tiles.contains tile)
  let s := mine.foldl (fun t w =>
    t.sendFrames w.port txReply w.src (t.tileFrames flReply w.reqId cycle tile (w.tiles.length == 1))) s
  let f := fun (w : WaitRead) => if w.cycle == cycle then { w with tiles := w.tiles.filter (· != tile) } else w
  { s with hst := { s.hst with waits := (s.hst.waits.map f).filter (fun w => !w.tiles.isEmpty) } }

/-- Send one tile to a subscriber on the ports its mode gives (R331, R332); a tile the store no longer holds is counted. -/
def State.sendToSub (s : State) (k cycle tile : Nat) : State :=
  let dst := s.get (F.HST_SUB_MAC_MAC k)
  let s := (s.subPorts k).foldl (fun t p =>
    if t.storeHolds cycle tile then t.sendFrames p txIssue dst (t.tileFrames flUnsolicited 0 cycle tile false)
    else (t.satInc (F.HST_TX_TILES_LOST p)).raise F.HST_EVENT_TILES_LOST) s
  { s with hst := { s.hst with sent := (k, cycle, tile) :: s.hst.sent.filter (fun x => x != (k, cycle, tile)) } }

/-- The subscriber settings of a cycle (R342). -/
def State.subsOf (s : State) (cycle : Nat) : List (Bool × Nat × Nat) :=
  match s.inst cycle with
  | some i => i.subs
  | none => match s.glz.past.find? (fun r => r.cycle == cycle) with
    | some r => r.subs
    | none => []

/-- Deliver an issued or re-issued tile to its subscribers (R331): ON_ISSUE at once; TRAIN at once only when its train
of the cycle has been built; a re-issue again to every subscriber that has been sent the tile. -/
def State.deliverTile (s : State) (cycle tile : Nat) (again : Bool) : State :=
  let s := s.serveWaits cycle tile
  (List.range 8).foldl (fun t k =>
    match (t.subsOf cycle)[k]? with
    | none => t
    | some (en, _, mask) =>
      if !en || !bitSet mask tile then t
      else if again then (if t.hst.sent.contains (k, cycle, tile) then t.sendToSub k cycle tile else t)
      else if t.on (F.HST_SUB_CFG_DELIVERY k) || t.hst.trains.contains (k, cycle) then t.sendToSub k cycle tile
      else t) s

/-! ## Issue (R148, R149) -/

/-- The end of the FUSION budget when the 256th tile has issued (R170). -/
def State.fusionEnd (s : State) (cycle : Nat) : State :=
  match s.inst cycle with
  | some i => if i.issuedCount = 256 then s.endBudget 8 cycle else s
  | none => s

/-- Issue a composed and compared tile of the head (R148): flags of the instant, the next SEQ, the tile store, the
issue notice, the counts, and delivery. In Halted nothing issues. (DESIGN CHOICE: log entry 61) -/
def State.issueTile (s : State) (cycle tile : Nat) : State :=
  match s.inst cycle with
  | none => s
  | some i =>
    match (i.tile tile).tile with
    | none => s
    | some t =>
      if s.safety = stHalted || !s.isHead cycle then s
      else
        let disagreed := i.disagreed || (i.tile tile).bad
        let fl := issueFlags t.flags s.safety disagreed
        let t := { t with tov := i.tov, seq := s.glz.seq, domain := s.get F.TIM_STATUS_ACTIVE_DOMAIN, flags := fl }
        let s := { s with glz := { s.glz with seq := (s.glz.seq + 1) % 2 ^ 32 } }
        let s := s.updInst cycle (fun i =>
          { i.updTile tile (fun x => { x with phase := .issued, tile := some t }) with
            disagreed := disagreed, issueOrder := i.issueOrder ++ [tile]
            baseSeq := if i.issueOrder.isEmpty then t.seq else i.baseSeq })
        let s := s.writeBytes (s.storeAddr cycle tile) t.bytes
        let s := (s.put F.GLZ_SEQ_LAST_SEQ t.seq).put F.GLZ_SEQ_LAST_CYCLE cycle
        let s := if bitSet fl fVALID then { s with saf := { s.saf with lastValid := t.seq } } else s
        let s := if bitSet fl fSAFE_INVALID then s.raise F.GLZ_EVENT_SAFE_ISSUE else s
        let s := if bitSet fl fREUSED then
            (((s.raise F.GLZ_EVENT_REUSE).satInc F.GLZ_COUNTS_REUSED).count 7 1 1)
          else s
        let s := (s.count 7 0 1).queueWrite (s.get F.GLZ_CTRL_ISSUE_Q) t.header
        ((s.syncHead).deliverTile cycle tile false).fusionEnd cycle

/-- Issue every held tile of the head, in the order their comparisons ended (R148): `order` is that order. -/
def State.issueHeld (s : State) (cycle : Nat) (order : List Nat) : State :=
  order.foldl (fun t k => match t.inst cycle with
    | some i => if (i.tile k).phase = .held then t.issueTile cycle k else t
    | none => t) s

/-! ## Idle (R349) -/

/-- Enter Idle once no instance is in flight and a low-power TARGET has applied: every queue is emptied; the device
continues at once to Doze or Standby when that is the target (R349). -/
def State.idleIfDue (s : State) : State :=
  match s.pwr.goingTo with
  | none => s
  | some t =>
    if !s.glz.insts.isEmpty || s.power ≠ 0 then s
    else
      let s := ((s.put F.PWR_STATUS_STATE 1).raise F.PWR_EVENT_IDLE).emptyQueues
      let s := { s with
        saf := { s.saf with golden := [], dueAt := none }
        ing := { s.ing with bursts := [] }
        tgs := { s.tgs with budgets := [] } }
      s.deeper t

/-! ## Finality (R11) -/

/-- Whether the head is final: all 256 tiles issued and no amendment can still be re-issued (R11). -/
def Inst.isFinal (i : Inst) : Bool :=
  i.tiles.all (fun t => t.phase.isIssued && t.phase != .recomparing)
    && (i.reuseDone || (i.amendClosed && !i.tiles.any (·.pendingAmend)))

/-- Whether an amending frame of a cycle is not yet ready: a camera frame of the next instance whose FRAME_END arrival lies
in the amend window and whose STAMP is at or before the ToV (R150). -/
def State.amendOutstanding (s : State) (i : Inst) : Bool :=
  (s.lft.frames ++ (s.lft.lifting.map (·.frame)).toList).any (fun f => (f.phase == .waiting || f.phase == .columns) && !f.golden
    && !f.again && f.cycle == (i.cycle + 1) % 2 ^ 32 && decide (f.stamp ≤ i.tov)
    && decide (i.tov ≤ f.arrival) && decide (f.arrival ≤ i.tov + i.amendWin))

/-- Count a final instance in the safety state's holds (R286): DEGRADE_HOLD in Degraded, clean instances in Suspect. -/
def State.countFinal (s : State) (i : Inst) : State :=
  let s := { s with saf := { s.saf with hold := s.saf.hold + 1 } }
  if s.safety = stDegraded then
    (if s.get F.SAF_CTRL_DEGRADE_HOLD ≤ s.saf.hold && !s.saf.unitLost then s.returnTo stNormal else s)
  else if s.safety = stSuspect then
    let s := if i.cycle != s.saf.suspectCyc && !i.suspect then
        s.put F.SAF_STATE_CLEAN (min 3 (s.get F.SAF_STATE_CLEAN + 1))
      else s
    if s.get F.SAF_STATE_CLEAN = 3 && s.on F.SAF_STATE_EXTRA_PASSED then s.returnTo s.saf.returnState else s
  else s

/-- Make the head final (R11, R139, R151): its pending values settle, its marks are released, its unfinished entries
are discarded, its history appends become history, and the next instance becomes head. -/
def State.finalizeHead (s : State) : State :=
  match s.head with
  | none => s
  | some i =>
    let slot := slotOf i.cycle
    -- pending values replace the settled ones; the pillar value only if the table kept a record
    let settle := i.pending.filter (fun c => c.stream.isSome || !c.oldest.isEmpty)
    let keep (c : Contribution) : Bool := !settle.any (fun x => x.stream == c.stream) && c.stands i.emptied
    let settled := settle ++ s.glz.settled.filter keep
    let olds := settle.flatMap (·.oldest)
    let lt := olds ++ s.glz.lidarTime.filter (fun l => !olds.any (fun o => o.1 == l.1) && !i.emptied.contains l.1)
    let ht : Option Int := if i.reused then none else i.lastDone.map (fun t => t - i.tov)
    let rec_ : CycleRec := { cycle := i.cycle, tov := i.tov, ego := i.ego, issueOrder := i.issueOrder, subs := i.subs }
    let s := { s with glz := { s.glz with
      insts := s.glz.insts.drop 1, settled := settled, lidarTime := lt
      headTimes := (ht :: s.glz.headTimes).take 8, finalCycle := some i.cycle, finalReused := i.reused
      past := (rec_ :: s.glz.past).take 8 } }
    let s := (s.markedQueues slot).foldl (fun t q => t.queueRelease q slot) s
    let s := (s.finalEngines i.cycle).dropSlotWork slot false
    let s := { s with tgs := { s.tgs with budgets := s.tgs.budgets.filter (fun b => b.cycle != i.cycle) }
                      hst := { s.hst with sent := s.hst.sent.take 16384, trains := s.hst.trains.take 64 } }
    (s.syncHead.syncOps.countFinal i).idleIfDue

/-- Every amend window whose end has come closes, a run-ahead instance's too (R11, R150). -/
def State.closeWindows (s : State) : State :=
  { s with glz := { s.glz with insts := s.glz.insts.map (fun i =>
      if i.tov + i.amendWin ≤ s.now then { i with amendClosed := true } else i) } }

/-- Finality and what follows it (R11, R148): while the head is final it leaves, and the next head's held tiles issue.
`fuel` bounds the instances that can leave at once; at most 4 are in flight (R162). -/
def State.settleHeads : Nat → State → State
  | 0, s => s
  | f + 1, s =>
    match s.head with
    | none => s
    | some i =>
      if s.safety ≠ stHalted && i.isFinal && (i.reuseDone || !s.amendOutstanding i) then
        let s := s.finalizeHead
        match s.head with
        | none => s
        | some j => ((s.issueHeld j.cycle j.heldOrder).closeWindows).settleHeads f
      else s

/-- Instances leave as they become final. -/
def State.tryFinal (s : State) : State := s.closeWindows.settleHeads 4

/-! ## Choosing the time of validity (R137) -/

/-- The smallest schedule point at or after a time: PHASE + k * PERIOD, k ≥ 0 (09). -/
def State.schedAfter (s : State) (t : Time) : Time :=
  let per : Int := max 1 (s.get F.GLZ_TOV_PERIOD)
  let ph : Int := s.get F.GLZ_TOV_PHASE
  if t ≤ ph then ph else ph + (t - ph + per - 1) / per * per

/-- The budget of an instance in LATEST mode, ns (R137). -/
def State.latestBudget (s : State) (first : Bool) (prev : Nat) : Nat :=
  let bmax : Int := s.get F.GLZ_LATEST_B_MAX * 1000
  let bmin : Int := s.get F.GLZ_LATEST_B_MIN * 1000
  if first then bmax.toNat
  else
    let step : Int := s.get F.GLZ_TOV_PERIOD / 16
    let m : Int := match s.glz.headTimes with
      | [] => bmax
      | l => (l.map (fun h => h.getD bmax)).foldl max 0
    let b := clampInt bmin bmax (m + s.get F.GLZ_LATEST_MARGIN * 1000)
    (clampInt (prev - step) (prev + step) b).toNat

/-- ToV, deadline and budget of an instance (R137): `first` is the n = 0 rule; else `prevTov` and `prevB` are those of
the instance before it. -/
def State.chooseTov (s : State) (first : Bool) (prevTov : Time) (prevB : Nat) : Time × Time × Nat :=
  let half : Int := s.get F.GLZ_TOV_PERIOD / 2
  let fl : Time := if first then s.now + half else max (prevTov + half) s.now
  if !s.on F.GLZ_CTRL_MODE then
    let t := s.schedAfter fl
    (t, t + s.get F.GLZ_DEADLINE_DEADLINE * 1000, 0)
  else
    let b := s.latestBudget first prevB
    let d := s.schedAfter (fl + b)
    (d - b, d, b)

/-! ## Time discontinuity (R20, R138) -/

/-- Rebase a value's times (R20): its own, those of its lidars, and those in its blocks' headers (R102, R112). -/
def Contribution.rebase (step : Time) (c : Contribution) : Contribution :=
  { c with time := c.time + step, arrival := c.arrival + step, oldest := c.oldest.map (fun o => (o.1, o.2 + step))
           blocks := c.blocks.map (Block.rebase step) }

/-- Rebase an instance's held times by a step (R138, R20): the ToV and deadline of one whose ToV has passed, with the tiles composed for
it, the start of its window, and the times of its values. -/
def Inst.rebase (i : Inst) (now step : Time) : Inst :=
  let past := decide (i.tov ≤ now)
  { i with
    tov := if past then i.tov + step else i.tov
    deadline := if past then i.deadline + step else i.deadline
    winStart := i.winStart + step
    openedAt := i.openedAt + step
    lastDone := i.lastDone.map (· + step)
    prevTov := i.prevTov + step
    pending := i.pending.map (Contribution.rebase step)
    amendVals := i.amendVals.map (Contribution.rebase step)
    tiles := i.tiles.map (fun t => { t with
      fired := t.fired.map (· + step)
      tile := t.tile.map (fun x => if past then { x with tov := x.tov + step } else x) }) }

/-- Fix again the ToV and deadline of every instance whose ToV lay ahead of the step, oldest first (R138); `ahead` are
their cycles, `prev` the instance before the list. The oldest in flight keeps the n = 0 rule, or the ToV and budget of the instance before
it, which is final. -/
def State.refix (s : State) (ahead : List Nat) : Option Inst → List Inst → List Inst
  | _, [] => []
  | prev, i :: r =>
    if !ahead.contains i.cycle then i :: s.refix ahead (some i) r
    else
      let p := match prev with
        | some p => s.chooseTov false p.tov p.budget
        | none => s.chooseTov i.first i.prevTov i.prevB
      let i := { i with tov := p.1, deadline := p.2.1, budget := p.2.2 }
      i :: s.refix ahead (some i) r

/-- A commit's instants, rebased (R307). -/
def Commit.rebase (step : Time) (c : Commit) : Commit := { c with applyAt := c.applyAt + step, time := c.time + step }

/-- The opening instant of the instance `k` after the latest, by the rule of R137, and its time of validity and budget:
`first` is the n = 0 rule, `prev` and `prevB` those of the instance before. -/
def State.openingAfter (s : State) (first : Bool) (prev : Time) (prevB : Nat) : Nat → Time
  | 0 => if first then s.now else max prev s.now
  | k + 1 =>
    let t := s.chooseTov first prev prevB
    s.openingAfter false t.1 t.2.2 k

/-- The opening instant of a cycle's instance, as it stands now. -/
def State.openingOf (s : State) (cycle : Nat) : Time :=
  match s.inst cycle with
  | some i => i.openedAt
  | none => s.openingAfter s.glz.fresh s.glz.prevTov s.glz.prevBudget ((cycle + 2 ^ 32 - s.glz.nextCycle) % 2 ^ 32 % 65536)

/-- NEXT_BOUNDARY commits follow the opening of their instance (R307), and the first schedule point where none opens.
(DEDUCED: log entry 144) -/
def State.followOpenings (s : State) : State :=
  { s with boot := { s.boot with pending := s.boot.pending.map (fun c =>
      if c.boundary then { c with applyAt := s.openingOf c.cycle }
      else if c.atTime then c else { c with applyAt := s.schedAfter c.time }) } }

/-- Move the instants that TIM, ING, the host ports and the safety blocks hold for past events with device time, so that each
still names the same instant (R20): receipt timers, measurements in progress, pulses, arrivals. -/
def State.moveHeld (s : State) (step : Time) : State :=
  let now := s.now
  let mv (t : Time) : Time := t + step
  { s with
    tim := { s.tim with
      acqStart := s.tim.acqStart.map mv, holdSince := s.tim.holdSince.map mv
      doms := s.tim.doms.map (fun d => { d with
        syncRx := d.syncRx.map (fun x => (x.1, x.2.1 + step, x.2.2))
        announceRx := d.announceRx.map (fun x => (x.1, x.2.1 + step, x.2.2))
        twoStep := d.twoStep.map (fun x => (x.1, x.2.1, x.2.2.1 + step, x.2.2.2))
        qualSince := d.qualSince.map mv })
      ports := s.tim.ports.map (fun p => { p with t1 := p.t1.map mv, resp := p.resp.map (fun r => (r.1, r.2 + step)) })
      lastTx := []
      -- a pulse in progress completes at its own length
      pulse := s.tim.pulse.map (fun p => p.map (fun x => (x.1 + step, x.2)))
      lastEdge := s.tim.lastEdge.map (fun _ => some (now + step)) }
    ing := { s.ing with
      frames := s.ing.frames.map (fun f => { f with arrival := f.arrival + step, embedded := f.embedded.map mv })
      endAt := s.ing.endAt.map (fun x => (x.1, x.2 + step))
      frameAt := s.ing.frameAt.map (fun x => (x.1, x.2 + step))
      lastRx := s.ing.lastRx.map (fun x => (x.1, x.2 + step))
      buffers := s.ing.buffers.map (fun b => (b.1, b.2.1 + step, b.2.2))
      spiEdge := s.ing.spiEdge.map (fun o => o.map mv)
      spiRead := s.ing.spiRead.map (fun o => o.map mv)
      enc := s.ing.enc.map (fun e => { e with lastRec := e.lastRec.map mv, lastIdle := e.lastIdle.map mv, edgeAt := e.edgeAt.map mv }) }
    saf := { s.saf with hbRx := s.saf.hbRx.map mv }
    chk := { s.chk with guardLast := s.chk.guardLast.map mv }
    hst := { s.hst with nonce := s.hst.nonce.map (fun n => (n.1, n.2.1, n.2.2 + step))
                        sleepReq := s.hst.sleepReq.map (fun o => o.map mv) }
    sec := { s.sec with challenge := s.sec.challenge.map (fun c => (c.1, c.2 + step)) } }

/-- Rebase every device time held for a past event by the step (R20). Words stored in queues are not altered (R64). -/
def State.rebaseHeld (s : State) (step : Time) : State :=
  let now := s.now
  let s := s.moveHeld step
  { s with
    tim := { s.tim with
      steps := s.tim.steps + step
      -- pending single launches (R20)
      launch := s.tim.launch.map (fun q => q.map (fun e => { e with time := e.time + step }))
      tx := s.tim.tx.map (fun q => { q with last := q.last.map (fun x => (x.1 + step, x.2)) }) }
    ing := { s.ing with graceEnd := some (now + step + s.get F.ING_CTRL_DISC_GRACE * 100000000) }
    glz := { s.glz with
      insts := s.glz.insts.map (fun i => i.rebase now step)
      prevTov := if s.glz.prevTov ≤ now then s.glz.prevTov + step else s.glz.prevTov
      settled := s.glz.settled.map (Contribution.rebase step)
      lidarTime := s.glz.lidarTime.map (fun x => (x.1, x.2 + step))
      past := s.glz.past.map (fun r => { r with tov := r.tov + step })
      traj := s.glz.traj.map (fun x => (x.1 + step, x.2)) }
    saf := { s.saf with golden := s.saf.golden.map (fun g => { g with due := g.due.map (fun d => (d.1 + step, d.2)) }) }
    -- apply instants are rebased (R307)
    boot := { s.boot with
      pending := s.boot.pending.map (Commit.rebase step)
      checking := s.boot.checking.map (Commit.rebase step) } }

/-- The times in memory that a step rebases: the headers of the blocks held (R102, R112), by the ring they stand in. -/
def State.rebaseBlocks (s : State) (step : Time) : State :=
  let vals := s.glz.settled ++ s.glz.insts.flatMap (fun i => i.pending ++ i.amendVals)
  let lifted := (vals.filter (·.stream.isSome)).flatMap (·.blocks) ++ s.lft.lifting.toList.flatMap (·.blocks)
  let out := (vals.filter (·.stream.isNone)).flatMap (·.blocks) ++ s.spc.toList.flatMap (·.blocks)
  let ring (base len : Nat) (u : State) (l : List Block) : State :=
    ((l.filter (fun b => !b.empty)).map (·.buffer)).eraseDups.foldl (fun u b => u.rebaseRecord (base + b * len) 8 step) u
  ring (s.base F.PTS_TILE_BUF_BASE_BASE) 327680
    (ring (s.base F.LFT_OUT_BASE_BASE) (64 + 65536 * (s.get F.LFT_CTRL_C_LIFT + 1)) s lifted) out

/-- The estimates of the trajectory ring and the headers of the tile store, rebased (R152). -/
def State.rebaseStore (s : State) (step : Time) : State :=
  let s := s.glz.traj.foldl (fun u e => u.rebaseRecord e.2 0 step) s
  if s.mem.bytes.isEmpty then s
  else
    (List.range (s.get F.GLZ_CTRL_STORE_CYCLES)).foldl (fun u c => (List.range 256).foldl (fun u t =>
      if u.readLe (u.storeAddr c t) 2 = 0x1D5A then u.rebaseRecord (u.storeAddr c t) 8 step else u) u) s

/-- A step of device time (R20): a time discontinuity, with everything that takes effect at its instant. -/
def State.stepTime (s : State) (step : Time) : State :=
  let ahead := (s.glz.insts.filter (fun i => decide (s.now < i.tov))).map (·.cycle)
  let s := (((s.rebaseBlocks step).rebaseStore step).rebaseHeld step).rebaseEngines step
  let s := { s with tim := { s.tim with time := s.tim.time + step } }
  let s := ((s.putI F.TIM_LAST_STEP_VALUE step).raise F.TIM_EVENT_DISCONTINUITY).satInc F.TIM_COUNTS_DISC_COUNT
  let s := (s.log wTIM 0 0 0xFF (ofInt 64 step)).squash sqDiscontinuity
  let s := { s with glz := { s.glz with insts := s.refix ahead none s.glz.insts } }
  let s := match s.glz.insts.getLast? with
    | some i => { s with glz := { s.glz with prevTov := i.tov, prevBudget := i.budget } }
    | none => s
  s.followOpenings.syncHead

end Sys2Proof.Machine
end

