-- ==== Sys2Proof/Machine/History.lean ====
section
/-! DEFINITION. The history cache's commands (spec/15_history_cache.md): edits and their batches, generations, walks,
appends with copy on write, spill and prefetch. -/

namespace Sys2Proof.Machine

/-- A cause of KVC_EVENT with KVC_LAST_ERR. -/
def State.kvcErr (s : State) (f : Fld) (seq page : Nat) : State :=
  (((s.raise f).put F.KVC_LAST_ERR_SEQ seq).put F.KVC_LAST_ERR_PAGE page).put F.KVC_LAST_ERR_CAUSE f.lo

/-! ## Edits (R245, R246) -/

/-- The next edit record of EDIT_Q, if it is one that a command of operation `op` takes: its own, or one whose OP is not
defined. -/
def State.takeEdit (s : State) (op : Nat) : State × Option (List Byte) :=
  let q := s.get F.KVC_QUEUES_EDIT_Q
  let r := s.peekBytes q 64
  if r.length = 64 ∧ edOp r ≠ op ∧ 1 ≤ edOp r ∧ edOp r ≤ 6 then (s, none)
  else match s.takeBytes q 64 with
    | (t, some (b, poisoned)) => (t, some (if poisoned then [] else b))
    | (t, none) => (t, none)

/-- An edit record enters the edit buffer; a full buffer refuses and counts it (R245, R246). -/
def State.editRecord (s : State) (op : Nat) : State :=
  if !s.kvcRuns then s
  else match s.takeEdit op with
    | (s, none) => s
    | (s, some r) =>
      if 1024 ≤ s.kvc.edits.length then
        { s.satInc F.KVC_COUNTS_REJECTED with kvc := { s.kvc with overflow := true } }
      else { s with kvc := { s.kvc with edits := s.kvc.edits ++ [r] } }

/-- DROP_RANGE (R245). -/
def execDropRange (s : State) : Host.Outcome State Fault Refusal := .next (s.editRecord 1)
/-- SHARE (R245). -/
def execShare (s : State) : Host.Outcome State Fault Refusal := .next (s.editRecord 2)
/-- RENUMBER (R245). -/
def execRenumber (s : State) : Host.Outcome State Fault Refusal := .next (s.editRecord 3)
/-- CLEAR (R245). -/
def execClear (s : State) : Host.Outcome State Fault Refusal := .next (s.editRecord 4)
/-- UNDEFINE (R245). -/
def execUndefine (s : State) : Host.Outcome State Fault Refusal := .next (s.editRecord 5)

/-- Whether a record can stand in a batch that passes (R246): its CRC holds, its OP is an edit, its sequences exist. -/
def State.editOk (s : State) (r : List Byte) : Bool :=
  crcOk r && decide (1 ≤ edOp r) && decide (edOp r ≤ 5) && decide (edSeq r < s.seqs)
    && (edOp r != 2 || decide (edA r < s.seqs))

/-- Whether the result of a batch meets R246: every changed list is well-formed, and every REFS fits 16 bits. -/
def State.batchOk (s : State) (o : List (Nat × HistSeq)) : Bool :=
  o.all (fun x => s.listOk x.2) && (s.touched o).all (fun p => decide (s.refsUnder o p ≤ 65535))

/-- A batch fails (R246): nothing changes but the count, the event, and the reason code KVC_TABLE returned to firmware.
(DESIGN CHOICE: log entry 96) -/
def State.rejectBatch (s : State) (seq : Nat) : State :=
  ((s.kvcErr F.KVC_EVENT_EDIT_REJECT seq 0).satInc F.KVC_COUNTS_REJECTED).emit (.core 0 [3, 0x26])

/-- COMMIT (R246): the batch is checked against the shadow as it stands and staged, or rejected whole; the edit buffer is
emptied. -/
def execCommit (s : State) : Host.Outcome State Fault Refusal :=
  .next (
    if !s.kvcRuns then s
    else match s.takeEdit 6 with
      | (s, none) => s
      | (s, some r) =>
        let b := s.kvc.edits
        let full := s.kvc.overflow
        let s := { s with kvc := { s.kvc with edits := [], overflow := false } }
        match b.find? (fun x => !s.editOk x) with
        | some x => s.rejectBatch (edSeq x)
        | none =>
          if full || !crcOk r then s.rejectBatch (edSeq r)
          else match s.applyEdits s.kvc.shadow b with
            | none => s.rejectBatch (edSeq r)
            | some o =>
              if !s.batchOk o then s.rejectBatch (edSeq r)
              else match s.stage s.kvc.appends (s.kvc.batches ++ [b]) with
                | some t => t
                | none => s.rejectBatch (edSeq r))

/-! ## Generations (R244, R248) -/

/-- Whether a generation change may occur now (R244). -/
def State.changeDue (s : State) : Bool :=
  s.kvcRuns && s.kvcStaged && s.kvc.shadowReady && (s.atn.boundary || s.atn.steps.all (·.run.golden))
    && (match s.kvc.lastChange with
      | some t => decide (t + 100000 ≤ s.now)
      | none => true)

/-- The lowest bank that is not current and that no step holds. -/
def State.freeBank (s : State) : Nat :=
  ((List.range 6).find? (fun b => b != s.kvc.current && !(s.atn.steps.map (·.bank)).contains b)).getD 0

/-- GENERATION_CHANGE (R244): the shadow becomes current in one change, the generation increments, and the copy of the new
current bank into a free bank begins. -/
def execGenerationChange (s : State) : Host.Outcome State Fault Refusal :=
  .next (
    if !s.changeDue then s
    else
      let gen := (s.kvc.gen + 1) % 2 ^ 32
      let zero := s.touched s.kvc.shadow
      let s := { s with
        kvc := { s.kvc with
          current := s.kvc.shadowBank, gen := gen, lastChange := some s.now, shadowReady := false
          shadow := [], appends := [], batches := [] }
        atn := { s.atn with boundary := false } }
      let s := zero.foldl (fun t p => t.updPage p (fun r => { r with zeroAt := if r.refs = 0 then some gen else none })) s
      let b := s.freeBank
      let n := s.seqs * 8
      let s := s.writeBytes (s.dirAddr b 0) (s.readBytes (s.dirAddr s.kvc.current 0) n)
      { s with kvc := { s.kvc with shadowBank := b } }.freePages)

/-- SHADOW_COPY_DONE (R244): the new shadow is ready, and batches staged meanwhile may apply. -/
def execShadowCopyDone (s : State) : Host.Outcome State Fault Refusal :=
  .next (if s.kvcRuns then { s with kvc := { s.kvc with shadowReady := true } } else s)

/-! ## The walk (R247, R248) -/

/-- A page descriptor (R247). -/
def State.pageDesc (s : State) (e : Nat × Nat × Nat) (p : PageRec) (dim gen : Nat) : List Byte :=
  let fmt := if p.state = .bad ∨ p.dim ≠ dim then 15 else p.fmt
  let a := s.pageAddr p
  withCrc (natLe 2 e.1 ++ natLe 1 (fmt % 16 + 16 * (p.size % 16)) ++ natLe 1 (p.dim % 16 + if p.state.inSpill then 16 else 0)
    ++ natLe 2 e.2.1 ++ natLe 2 e.2.2 ++ natLe 8 a ++ natLe 8 (a + p.cap * p.rowBytes) ++ natLe 4 gen)

/-- The end descriptor (R247). -/
def endDesc (gen : Nat) : List Byte :=
  withCrc (natLe 2 0xFFFF ++ zeroBytes 22 ++ natLe 4 gen)

/-- ATN receives a page descriptor of a walk. -/
def AtnStep.receive (x : AtnStep) (seq : Nat) (d : List Byte) : AtnStep :=
  let old := match x.walks.find? (fun w => w.1 == seq) with
    | some w => w
    | none => (seq, [], false)
  let new := if leAt d 0 2 = 0xFFFF then (seq, old.2.1, true) else (seq, old.2.1 ++ [d], old.2.2)
  { x with walks := new :: x.walks.filter (fun w => w.1 != seq) }

def State.updStep (s : State) (id : Nat) (f : AtnStep → AtnStep) : State :=
  { s with atn := { s.atn with steps := updateFirst (fun x => x.id == id) f s.atn.steps } }

/-- Deliver a descriptor on PAGE_Q to ATN, which reads it at once (R247); what the queue drops does not arrive. -/
def State.deliverDesc (s : State) (id seq : Nat) (d : List Byte) : State :=
  let q := s.get F.KVC_QUEUES_PAGE_Q
  match ((s.queueWrite q d).queueFlush q).takeBytes q 32 with
  | (t, some (b, poisoned)) => if poisoned || !crcOk b then t else t.updStep id (fun x => x.receive seq b)
  | (t, none) => t

/-- Mark a page bad after an uncorrectable error in the page store (R254). (DESIGN CHOICE: log entry 97) -/
def State.badPage (s : State) (seq p : Nat) : State :=
  let s := (s.updPage p (fun r => { r with state := .bad })).kvcErr F.KVC_EVENT_BAD_PAGE seq p
  ((s.raise F.KVC_EVENT_ECC).log wKVC 6 1 102 p).detect cCONTAINED 102 p

/-- Emit the descriptor of a list entry: its page is pinned for the step (R247, R248), and one read from DDR4 is counted (R253). -/
def State.emitDesc (s : State) (st : AtnStep) (i seqId : Nat) (e : Nat × Nat × Nat) (badPage : Option Nat) : State :=
  let s := if badPage = some e.1 then s.badPage seqId e.1 else s
  let p := s.page e.1
  let s := { s with kvc := { s.kvc with pins := (e.1, false, st.id) :: s.kvc.pins } }
  let s := if p.state.inSpill then s.satInc F.KVC_COUNTS_DDR_READS else s
  s.deliverDesc st.id i (s.pageDesc e p (leAt st.desc 2 1 % 16) st.gen)

/-- The history sequence of a step's length-table entry, as the step recorded it. -/
def AtnStep.seqId (x : AtnStep) (i : Nat) : Nat := x.seqIds.getD i 0

/-- The page whose record met an uncorrectable error, of the page record that met one and whether it was corrected (R254). -/
def pageBad : Option (Nat × Bool) → Option Nat
  | some (p, false) => some p
  | _ => none

/-- A corrected error of the page store counts in the lifetime record (R242, R366: PAGE_CORR). -/
def State.pageMet (s : State) : Option (Nat × Bool) → State
  | some (_, true) => (s.count 6 0 1 (some 102)).life 692
  | _ => s

/-- WALK (R247): the walker of the head's core walks one sequence of a step. `seq` is the index in the step's length table;
`badPage` a page whose record met an error of the page store, and whether it was corrected (R242). An uncorrectable directory or list word leaves only the end
descriptor (R254). (DEDUCED: log entry 89; DESIGN CHOICE: log entry 97) -/
def execWalk (step seq : Nat) (badPage : Option (Nat × Bool)) (s : State) : Host.Outcome State Fault Refusal :=
  .next (
    match s.atn.steps.find? (fun x => x.id == step) with
    | none => s
    | some st =>
      if !s.kvcRuns || st.walks.any (fun w => w.1 == seq) || st.seqIds.length ≤ seq then s
      else
        let id := st.seqId seq
        let bank := if st.run.golden then 6 else st.bank
        let at_ := s.dirAddr bank id
        let d := s.dirEntry bank id
        let bad := s.poisoned at_ 8 || (deValid d && s.poisoned (s.listAddr d) (8 * deNent d))
        let s := if bad then
            (((s.reportBad at_ 8).reportBad (s.listAddr d) (8 * deNent d)).kvcErr F.KVC_EVENT_ECC id 0)
          else s
        let es := if bad || !deValid d || s.seqs ≤ id then [] else (s.seqOf bank id).entries
        (es.foldl (fun t e => t.emitDesc st seq id e (pageBad badPage)) (s.pageMet badPage)).deliverDesc st.id seq (endDesc st.gen))

/-! ## Spill (R252) -/

/-- The pages that the golden table names (R255). -/
def State.goldenPages (s : State) : List Nat :=
  if !s.on F.KVC_CTRL_GOLDEN_EN then []
  else (List.range s.seqs).flatMap (fun q => (s.seqOf 6 q).entries.map (·.1))

/-- The next page to spill (R252): unpinned, resident, the oldest by T_NEWEST, then the lowest index.
(DEDUCED: log entry 94) -/
def State.spillChoice (s : State) : Option Nat :=
  let gold := s.goldenPages
  let cs := s.kvc.pages.filter (fun p => p.2.state == .resident && !s.pinned p.1 && !gold.contains p.1)
  (cs.foldl (fun (b : Option (Nat × PageRec)) p =>
    match b with
    | none => some p
    | some q => if p.2.newest < q.2.newest then some p else some q) none).map (·.1)

/-- Whether pages can be spilled at all (R252, R254). -/
def State.maySpill (s : State) : Bool := s.on F.KVC_CTRL_SPILL_EN && s.on F.DDR_STATUS_INSTALLED

/-- Copy bytes within memory, poison with them. -/
def State.copyWords (s : State) (src dst n : Nat) : State :=
  let bad := (wordsOf src n).filter (s.mem.poison.contains ·)
  bad.foldl (fun t w => t.poisonWord (dst + (w - src))) (s.writeBytes dst (s.readBytes src n))

/-- The data of a page are copied between the history partition and the spill region, and its state follows (R252, R253). -/
def State.endCopy (s : State) (q : Nat) (toSpill : Bool) : State :=
  let p := s.page q
  let n := p.granules * 4096
  let nou := s.histBase + p.loc * 4096
  let ddr := s.base F.KVC_SPILL_BASE_BASE + p.spill * 4096
  if toSpill then
    ((s.copyWords nou ddr n).setPage q { p with state := .spilled, clean := true }).modInc F.KVC_TRAFFIC_SPILLED
  else ((s.copyWords ddr nou n).setPage q { p with state := .resident, clean := true }).modInc F.KVC_TRAFFIC_PREFETCHED

/-- Begin to spill a page (R252): a CLEAN page is released at once; any other takes a spill granule and moves. None when the
spill region has no room. (DEDUCED: log entry 94) -/
def State.beginSpill (s : State) (q : Nat) : Option State :=
  let p := s.page q
  if p.clean then some ((s.setPage q { p with state := .spilled }).modInc F.KVC_TRAFFIC_SPILLED)
  else match s.spillBlock p.granules with
    | none => none
    | some a => some (s.setPage q { p with state := .moving true, spill := a })

/-- Spill a page now, for an allocation that waits for its granules (R252). -/
def State.spillNow (s : State) (q : Nat) : Option State :=
  (s.beginSpill q).map (fun t => if (t.page q).state = .moving true then t.endCopy q true else t)

/-- Granules free or about to be. -/
def State.freeSoon (s : State) : Nat :=
  s.residentFree + ((s.kvc.pages.filter (fun p => p.2.state == .moving true)).map (fun p => p.2.granules)).foldl (· + ·) 0

/-- Spill below SPILL_LOW, the oldest page first (R252); `fuel` bounds the pages. -/
def State.spillLow : Nat → State → State
  | 0, s => s
  | f + 1, s =>
    if !s.maySpill || s.get F.KVC_CTRL_SPILL_LOW ≤ s.freeSoon then s
    else match s.spillChoice with
      | none => s
      | some q => match s.beginSpill q with
        | none => s
        | some t => t.spillLow f

/-- Find a block of `n` granules, spilling pages as needed (R252). (DEDUCED: log entry 94) -/
def State.makeRoom (n : Nat) : Nat → State → State × Option Nat
  | 0, s => (s, s.histBlock n)
  | f + 1, s =>
    match s.histBlock n with
    | some a => (s, some a)
    | none =>
      if !s.maySpill then (s, none)
      else match s.spillChoice with
        | none => (s, none)
        | some q => match s.spillNow q with
          | none => (s, none)
          | some t => t.makeRoom n f

/-- PAGE_COPY_END (R252, R253): the copy of a moving page ends. A page pinned meanwhile is not spilled (R248, R255). -/
def execPageCopyEnd (page : Nat) (s : State) : Host.Outcome State Fault Refusal :=
  .next (
    if !s.kvcRuns then s
    else match (s.page page).state with
      | .moving true =>
        if s.pinned page then s.updPage page (fun p => { p with state := .resident })
        else (s.endCopy page true).freePages
      | .moving false => (s.endCopy page false).freePages
      | _ => s)

/-! ## Appends (R249, R254) -/

/-- An allocation fails (R254). -/
def State.allocFail (s : State) (f : Fld) (seq : Nat) : State :=
  let s := (s.kvcErr f seq 0).satInc F.KVC_COUNTS_APPEND_LOST
  (s.log wKVC f.lo 1 102 seq).detect cCONTAINED 102 seq

/-- Allocate a page of a size, format and head dimension (R242, R249, R252). -/
def State.allocPage (s : State) (seq size fmt dim : Nat) : State × Option Nat :=
  match s.freePage with
  | none => (s.allocFail F.KVC_EVENT_PAGES_FULL seq, none)
  | some q => match s.makeRoom (2 ^ size) s.kvc.pages.length with
    | (s, none) => (s.allocFail F.KVC_EVENT_HIST_FULL seq, none)
    | (s, some a) => (s.setPage q { size, fmt, dim, state := .resident, loc := a }, some q)

/-- Write the key and value rows of a position into a page; its spill copy is no longer valid (R249, R252). -/
def State.writeRow (s : State) (q i : Nat) (key val : List Byte) (tov : Time) : State :=
  let p := s.page q
  let a := s.pageAddr p
  let s := (s.writeBytes (a + i * p.rowBytes) (padTo p.rowBytes key)).writeBytes (a + (p.cap + i) * p.rowBytes) (padTo p.rowBytes val)
  s.setPage q { p with newest := tov, clean := if p.state = .spilled then p.clean else false }

/-- A sequence as the head's appends extend it (R249): the current generation, what is staged of earlier appends, and the
pending list. -/
def State.appendView (s : State) (seq : Nat) : HistSeq :=
  let o := (s.kvc.appends ++ [s.kvc.pending]).foldl s.applyAppends []
  s.overlay o seq

/-- Put an entry into a sequence's pending list. -/
def State.pend (s : State) (seq : Nat) (e : Nat × Nat × Nat) (next : Nat) : State :=
  let old : HistSeq := match s.kvc.pending.find? (fun x => x.1 == seq) with
    | some x => x.2
    | none => {}
  let new : HistSeq := { old with next := next, entries := old.entries.filter (fun x => x.2.1 != e.2.1) ++ [e] }
  { s with kvc := { s.kvc with pending := setSeq s.kvc.pending seq new } }

/-- append(row r, seq s) (R249). (DEDUCED: log entry 92) -/
def State.appendRow (s : State) (fmt dim size : Nat) (tov : Time) (seq : Nat) (key val : List Byte) : State :=
  let v := s.appendView seq
  let pos := v.next
  if s.seqs ≤ seq then s.satInc F.KVC_COUNTS_APPEND_LOST
  else if 8192 ≤ pos then s.kvcErr F.KVC_EVENT_SEQ_FULL seq 0
  else
    let tail := match v.entries.getLast? with
      | some e =>
        let p := s.page e.1
        if e.2.1 + e.2.2 = pos ∧ e.2.2 < p.cap ∧ p.fmt = fmt ∧ p.dim = dim ∧ p.state ≠ .bad ∧ p.state ≠ .free then some e else none
      | none => none
    match tail with
    | some (t, first, n) =>
      if 1 < (s.page t).refs then
        -- copy on write
        match s.allocPage seq (s.page t).size fmt dim with
        | (s, none) => s
        | (s, some q) =>
          let p := s.page t
          let src := s.pageAddr p
          let dst := s.pageAddr (s.page q)
          let s := (s.copyWords src dst (n * p.rowBytes)).copyWords (src + p.cap * p.rowBytes) (dst + p.cap * p.rowBytes) (n * p.rowBytes)
          let s := (s.satInc F.KVC_COUNTS_COW).writeRow q n key val tov
          s.pend seq (q, first, n + 1) (pos + 1)
      else (s.writeRow t n key val tov).pend seq (t, first, n + 1) (pos + 1)
    | none =>
      match s.allocPage seq size fmt dim with
      | (s, none) => s
      | (s, some q) => (s.writeRow q 0 key val tov).pend seq (q, pos, 1) (pos + 1)

/-- Fields of a KVC descriptor (R249). -/
def kdKind (d : List Byte) : Nat := leAt d 0 1
def kdFmt (d : List Byte) : Nat := bitsAt (leAt d 1 1) 0 4
def kdDim (d : List Byte) : Nat := bitsAt (leAt d 1 1) 4 4
def kdSize (d : List Byte) : Nat := leAt d 2 1
def kdCtx (d : List Byte) : Nat := leAt d 3 1
def kdRows (d : List Byte) : Nat := leAt d 4 4

/-- The oldest fired KVC entry of a kind that has not executed. -/
def State.kvcEntry (s : State) (kind : Nat) : Option (Firing × List Byte) :=
  s.tgs.firing.findSome? (fun f =>
    if f.unit ≠ 102 || f.error || s.kvc.ended.any (fun e => e.1 == f.run && e.2.1 == f.index) then none
    else
      let d := s.readBytes (s.entryOf f.run.graph f.unit f.index).desc 64
      if kdKind d = kind then some (f, d) else none)

/-- A KVC entry has executed. -/
def State.kvcEnd (s : State) (f : Firing) (code : Option Nat) : State :=
  { s with kvc := { s.kvc with ended := s.kvc.ended ++ [(f.run, f.index, code)] } }

/-- Go on after a descriptor that has not failed; else its code. -/
def LayOut.andThen {α : Type} (k : LayOut) (f : LayOut → State × Except Nat α) : State × Except Nat α :=
  match k.code with
  | some c => (k.s, .error c)
  | none => f k

/-- The user of a KVC entry's descriptors. -/
def kvcUser (f : Firing) : LayUser := { unit := 102, cycle := f.run.cycle, map := f.run.slot }

/-- The table and the reads of an APPEND descriptor, or the code that ends the entry. (DEDUCED: log entry 93) -/
def State.appendReads (s : State) (f : Firing) (d : List Byte) : State × Except Nat (List Byte × List Byte × List Byte) :=
  if !s.ctxAllowed (kdCtx d % 16) 102 then (s.layFail (kvcUser f) 0x04 (kdCtx d % 16) 0, .error 0x04)
  else match s.ctxTable (kdCtx d % 16) (leAt d 8 8) (2 * kdRows d) with
    | .error c => (s.layFail (kvcUser f) c (kdCtx d % 16) (leAt d 8 5), .error c)
    | .ok (t, bad) =>
      (s.layRead (kvcUser f) (leAt d 16 8) none).andThen (fun k => (k.s.layRead (kvcUser f) (leAt d 24 8) none).andThen (fun v =>
        if bad || k.poison || v.poison then (v.s, .error 0x06) else (v.s, .ok (t, k.bytes, v.bytes))))

/-- APPEND (R249, R250): the oldest fired APPEND entry writes its key and value rows; the head instance alone appends (R251).
Pages are spilled below SPILL_LOW (R252). (DEDUCED: log entry 93) -/
def execAppend (s : State) : Host.Outcome State Fault Refusal :=
  .next (
    if !s.kvcRuns then s
    else match s.kvcEntry 0 with
      | none => s
      | some (f, d) =>
        if !crcOk d then s.kvcEnd f (some 0x07)
        else if kdRows d = 0 || f.run.golden then s.kvcEnd f none
        else match s.appendReads f d with
          | (s, .error c) => s.kvcEnd f (some c)
          | (s, .ok (t, k, v)) =>
            let tov := match s.inst f.run.cycle with
              | some i => i.tov
              | none => s.now
            let row := ({ fmt := kdFmt d, dim := kdDim d } : PageRec).rowBytes
            let s := (List.range (kdRows d)).foldl (fun u r =>
              u.appendRow (kdFmt d) (kdDim d) (kdSize d % 16) tov (leAt t (2 * r) 2) (slice k (r * row) row) (slice v (r * row) row)) s
            (s.spillLow s.kvc.pages.length).kvcEnd f none)

/-! ## Prefetch (R253) -/

/-- Bring a spilled page back and pin it for the instance; it stays where it is when there is no room (R253). -/
def State.fetchPage (s : State) (cycle q : Nat) : State :=
  if (s.page q).state ≠ .spilled then s
  else match s.makeRoom (s.page q).granules s.kvc.pages.length with
    | (s, none) => s
    | (s, some a) =>
      let s := s.updPage q (fun p => { p with state := .moving false, loc := a })
      { s with kvc := { s.kvc with pins := (q, true, cycle) :: s.kvc.pins } }

/-- PREFETCH (R253): the spilled pages of the current generation that hold a position at or above FROM_POS are brought back; others are
spilled below SPILL_LOW (R252). (DEDUCED: log entry 95) -/
def execPrefetch (s : State) : Host.Outcome State Fault Refusal :=
  .next (
    if !s.kvcRuns then s
    else match s.kvcEntry 1 with
      | none => s
      | some (f, d) =>
        if !crcOk d then s.kvcEnd f (some 0x07)
        else if f.run.golden then s.kvcEnd f none
        else
          if !s.ctxAllowed (kdCtx d % 16) 102 then (s.layFail (kvcUser f) 0x04 (kdCtx d % 16) 0).kvcEnd f (some 0x04)
          else match s.ctxTable (kdCtx d % 16) (leAt d 8 8) (4 * kdRows d) with
            | .error c => (s.layFail (kvcUser f) c (kdCtx d % 16) (leAt d 8 5)).kvcEnd f (some c)
            | .ok (t, bad) =>
              if bad then s.kvcEnd f (some 0x06)
              else
                let pages := (List.range (kdRows d)).flatMap (fun r =>
                  ((s.seqOf s.kvc.current (leAt t (4 * r) 2)).entries.filter (fun e =>
                    decide (leAt t (4 * r + 2) 2 < e.2.1 + e.2.2))).map (·.1))
                let s := pages.foldl (fun u q => u.fetchPage f.run.cycle q) s
                (s.spillLow s.kvc.pages.length).kvcEnd f none)

end Sys2Proof.Machine
end

