-- ==== Sys2Proof/Machine/Firing.lean ====
section
/-! DEFINITION. What an engine's completion does in the operation scheduler fabric (R157, R159 to R161): the tokens
of a completed entry, and the completion tokens of engines. -/

namespace Sys2Proof.Machine

/-! ## Golden frames leave (R102, R114, R169, R281) -/

/-- Golden frames leave the fabric, finished or abandoned: their work is dropped, and what the engines hold of their passes is given up;
frames that are not yet due go on. -/
def State.goldenLeave (s : State) (gone : List Golden) : State :=
  let nums := gone.map (·.num)
  let mine (r : RunId) : Bool := r.golden && nums.contains r.cycle
  let s := ((s.dropWork (fun g _ c => g && nums.contains c) true).discardArray mine).discardSteps mine
  let s := { s with saf := { s.saf with golden := s.saf.golden.filter (fun g => !nums.contains g.num) } }
  let s := if gone.any (·.kind == 0) then
      { s with lft := { s.lft with
          frames := s.lft.frames.filter (fun f => !f.golden || f.phase == .reading)
          lifting := if s.lft.lifting.any (·.frame.golden) then none else s.lft.lifting
          goldBlocks := [] } }
    else s
  let s := if gone.any (·.kind == 1) then
      { s with spcGold := none
               pts := { s.pts with goldBlocks := []
                                   golden := if s.spcGold.isSome || !s.saf.golden.any (·.kind == 1) then none else s.pts.golden } }
    else s
  s.syncOps

/-! ## Completion (R157, R159, R160) -/

/-- Send a token on each output edge of an entry (R157, R159, R160). -/
def State.sendTokens (s : State) (e : ListEntry) (run : RunId) (kind arg : Nat) : State :=
  let toks := e.outs.map (fun x => ({ edge := x, kind, slot := run.slot, epoch := run.epoch, golden := run.golden,
                                      cycle := run.cycle, arg } : Token))
  { s with tgs := { s.tgs with sent := s.tgs.sent ++ toks } }

/-- An entry is complete: its tokens are sent, the data of its inputs are finished with, and its place is free (R157, R159). -/
def State.completeEntry (s : State) (f : Firing) (e : ListEntry) (code : Option Nat) (arg : Nat) : State :=
  let s := { s with tgs := { s.tgs with firing := removeFirst (fun x => x.unit == f.unit && x.run == f.run && x.index == f.index) s.tgs.firing
                                        used := s.tgs.used ++ e.ins } }
  let err := f.error || code.isSome
  let s := s.sendTokens e f.run (if err then 3 else 1) (if f.error then 0 else code.getD arg)
  let s := if err then s.raise F.TGS_EVENT_ERROR_TOKEN else s
  (s.admitWaiting).syncOps

/-- An engine emits a completion token (R87, R100, R111): the oldest entry that its unit has fired for the run completes with DONE. With
no entry in flight the completion is seen in the outputs alone. (DEDUCED: log entry 180) -/
def State.unitDone (s : State) (unit : Nat) (golden : Bool) (cycle arg : Nat) : State :=
  let s := s.emit (.completion unit cycle arg)
  match s.tgs.firing.find? (fun f => f.unit == unit && f.run.golden == golden && (golden || f.run.cycle == cycle)) with
  | some f => if s.tgsRuns && !f.error then s.completeEntry f (s.entryOf f.run.graph unit f.index) none arg else s
  | none => s

end Sys2Proof.Machine
end

