-- ==== Sys2Proof/Machine/Trig.lean ====
section
/-! DEFINITION. cos and sin of a binary32 angle to within 1 ulp (R71), and exp to within 2 ulp (R234): the exact value is evaluated in
integer arithmetic with 400 fraction bits, far below an ulp, and Config picks among the binary32 numbers near enough to it. -/

namespace Sys2Proof.Machine

/-- The fraction bits of the exact evaluation. -/
abbrev trigBits : Nat := 400

/-- arctan(1 / n) in fixed point: `t` is 2^bits / n^(2k + 1). -/
def arctanInv (n : Nat) : Nat → Nat → Nat → Int
  | 0, _, _ => 0
  | f + 1, k, t =>
    let u : Int := t / (2 * k + 1)
    (if k % 2 = 0 then u else -u) + arctanInv n f (k + 1) (t / (n * n))

/-- π in fixed point, by Machin's sum. -/
def piFixed : Int :=
  16 * arctanInv 5 100 0 (2 ^ trigBits / 5) - 4 * arctanInv 239 40 0 (2 ^ trigBits / 239)

/-- The alternating series whose term `n` is given, in fixed point. -/
def altSeries (r2 : Int) : Nat → Nat → Int → Int
  | 0, _, _ => 0
  | f + 1, n, term => term + altSeries r2 f (n + 2) (-(term * r2 / 2 ^ trigBits) / ((n + 1) * (n + 2) : Nat))

/-- cos (`sine` false) or sin of a finite binary32 angle, in fixed point. -/
def trigFixed (sine : Bool) (x : Nat) : Int :=
  let d := f32Val x
  let a : Int := d.m * 2 ^ (d.e + trigBits).toNat
  let r := a % (2 * piFixed)
  let r2 := r * r / 2 ^ trigBits
  if sine then altSeries r2 50 1 r else altSeries r2 50 0 (2 ^ trigBits)

/-- The neighbour of a binary32 number in magnitude, away from zero or towards it; below zero in magnitude the other sign's least. -/
def f32Step (x : Nat) (up : Bool) : Nat :=
  if up then x + 1 else if x % 2 ^ 31 = 0 then x / 2 ^ 31 * 2 ^ 31 + 2 ^ 31 + 1 else x - 1

/-- The binary32 number next to num / den towards zero, and whether the two are equal. -/
def f32Toward (num : Int) (den : Nat) : Nat × Bool :=
  let n := num.natAbs
  let k := Nat.log2 den + 60
  let q := n * 2 ^ k / max 1 den
  -- the last place of a subnormal is 2^-149
  let drop := max (Nat.log2 q + 1 - 24) (k - 149)
  let m := q / 2 ^ drop
  (roundFloat 24 8 (decide (num < 0)) m ((drop : Int) - k), decide (m * 2 ^ drop * den = n * 2 ^ k))

/-- cos or sin of a binary32 angle: one of the numbers within 1 ulp of the exact value (R71).
(DESIGN CHOICE: log entry 42) -/
def trigF32 (sine : Bool) (x : Nat) : Nat :=
  if f32Exp x = 255 then f32Nan
  else
    let r := f32Toward (trigFixed sine x) (2 ^ trigBits)
    match Config.trigChoice sine x with
    | 0 => if r.2 then f32Step r.1 false else r.1
    | 1 => r.1
    | 2 => f32Step r.1 true

/-! ## exp (R234) -/

/-- ln 2 in fixed point: twice the sum of 1 / ((2k + 1) 3^(2k + 1)). -/
def ln2Fixed : Int :=
  let rec go : Nat → Nat → Nat → Int
    | 0, _, _ => 0
    | f + 1, k, t => (t / (2 * k + 1) : Nat) + go f (k + 1) (t / 9)
  2 * go 130 0 (2 ^ trigBits / 3)

/-- The exponential series from term `n` on, in fixed point. -/
def expSeries (r : Int) : Nat → Nat → Int → Int
  | 0, _, _ => 0
  | f + 1, n, term => term + expSeries r f (n + 1) (term * r / 2 ^ trigBits / (n + 1 : Nat))

/-- exp of a binary32 number: one of those within 2 ulp of the exact value, which is 1 for 0 (R234).
(DESIGN CHOICE: log entry 88) -/
def expF32 (x : Nat) : Nat :=
  if f32IsNan x then f32Nan
  else if f32IsInf x then (if f32Sign x then 0 else x)
  else
    let d := f32Val x
    let a := clampInt (-(256 * 2 ^ trigBits)) (256 * 2 ^ trigBits) (dyFloor ⟨d.m, d.e + trigBits⟩)
    let n := a / ln2Fixed
    let e := expSeries (a % ln2Fixed) 80 0 (2 ^ trigBits)
    let r := f32Toward (e * 2 ^ n.toNat) (2 ^ trigBits * 2 ^ (-n).toNat)
    let k : Int := ((Config.expChoice x).val : Int) - 2
    -- two places below is too far, unless the value is exact
    let k := if k = -2 && !r.2 then 0 else k
    min (f32Inf false) (r.1 + k).toNat

end Sys2Proof.Machine
end

