-- ==== Sys2Proof/Machine/Pose.lean ====
section
/-! DEFINITION. The ego trajectory as its consumers see it: the ring of published estimates (R141), the pose at a time
(R75, R122, R390) in exact arithmetic, and the flags that an instance takes from what it uses (R123). -/

namespace Sys2Proof.Machine

/-! ## Rounding of an exact value -/

/-- num / den as an integer: exact where it is one, else the integer below or above, whichever Config holds; a quotient by 0 is
open. (DESIGN CHOICE: log entry 42) -/
def roundFree (num : Int) (den : Nat) : Int :=
  if den = 0 then Config.noQuotient num
  else num / den + (if num % den = 0 then 0 else if Config.roundsUp num den then 1 else 0)

/-- The largest number of at most `k` bits whose square is at most `n`. -/
def isqrtBits : Nat → Nat → Nat → Nat
  | 0, _, r => r
  | k + 1, n, r => isqrtBits k n (if (r + 2 ^ k) * (r + 2 ^ k) ≤ n then r + 2 ^ k else r)

/-- The integer square root. -/
def isqrt (n : Nat) : Nat := isqrtBits (Nat.log2 n / 2 + 1) n 0

/-- num / den as a binary32 number: exact where it is one, else a neighbour that Config picks.
(DESIGN CHOICE: log entry 42) -/
def f32Free (num : Int) (den : Nat) : Nat :=
  if den = 0 then f32OfInt (Config.noQuotient num)
  else
    let r := f32Toward num den
    if r.2 || !Config.roundsUp num den then r.1 else r.1 + 1

/-! ## Quaternions and vectors -/

/-- A quaternion of any norm but 0: w, x, y, z. -/
abbrev Quat := Int × Int × Int × Int
abbrev Vec3 := Int × Int × Int

def Quat.mul (a b : Quat) : Quat :=
  (a.1 * b.1 - a.2.1 * b.2.1 - a.2.2.1 * b.2.2.1 - a.2.2.2 * b.2.2.2,
   a.1 * b.2.1 + a.2.1 * b.1 + a.2.2.1 * b.2.2.2 - a.2.2.2 * b.2.2.1,
   a.1 * b.2.2.1 - a.2.1 * b.2.2.2 + a.2.2.1 * b.1 + a.2.2.2 * b.2.1,
   a.1 * b.2.2.2 + a.2.1 * b.2.2.1 - a.2.2.1 * b.2.1 + a.2.2.2 * b.1)

def Quat.conj (a : Quat) : Quat := (a.1, -a.2.1, -a.2.2.1, -a.2.2.2)

/-- The squared norm. -/
def Quat.norm (a : Quat) : Nat := (a.1 * a.1 + a.2.1 * a.2.1 + a.2.2.1 * a.2.2.1 + a.2.2.2 * a.2.2.2).toNat

/-- A vector turned by a quaternion, times the quaternion's squared norm. -/
def Quat.turn (q : Quat) (v : Vec3) : Vec3 := ((q.mul (0, v)).mul q.conj).2

def Vec3.map (f : Int → Int) (v : Vec3) : Vec3 := (f v.1, f v.2.1, f v.2.2)
def Vec3.zip (f : Int → Int → Int) (a b : Vec3) : Vec3 := (f a.1 b.1, f a.2.1 b.2.1, f a.2.2 b.2.2)

/-- A quaternion normalised to 2^-30 units, each component rounded down or up. (DESIGN CHOICE: log entry 42) -/
def Quat.unit30 (q : Quat) : Quat :=
  let one (c : Int) : Int :=
    let n := c.natAbs * c.natAbs * 2 ^ 60
    let r := isqrt (n / max 1 q.norm)
    let m : Int := if q.norm = 0 then Config.noQuotient c
      else if r * r * q.norm = n || !Config.roundsUp c q.norm then r else r + 1
    if c < 0 then -m else m
  (one q.1, one q.2.1, one q.2.2.1, one q.2.2.2)

/-- e.q * quaternion(1, w dt / 2), not normalised: rates in 2^-12 rad/s, dt in ns (R122). -/
def predictTurn (q : Quat) (w : Vec3) (dt : Int) : Quat := q.mul (8192000000000, w.map (· * dt))

/-- Distance moved in `dt` ns at a velocity in 2 mm/s units, in mm: nearest, halves away from zero (R122). -/
def moved (v dt : Int) : Int := divRound (v * 2 * dt) 1000000000

/-! ## Poses -/

/-- A pose: position numerators in mm over `den`, and a rotation. -/
structure Pose where
  p   : Vec3
  den : Nat
  q   : Quat
  deriving DecidableEq, Repr

def Pose.id : Pose := { p := (0, 0, 0), den := 1, q := (1, 0, 0, 0) }

/-- Three signed numbers of `w` bytes in a record. -/
def vecAt (b : List Byte) (off w : Nat) : Vec3 :=
  (toSigned (8 * w) (leAt b off w), toSigned (8 * w) (leAt b (off + w) w), toSigned (8 * w) (leAt b (off + 2 * w) w))

/-- The pose of an estimate record (R120). -/
def estPose (b : List Byte) : Pose := { p := vecAt b 8 4, den := 1, q := (toSigned 32 (leAt b 20 4), vecAt b 24 4) }

/-- The pose that predict() gives `dt` ns after an estimate (R122). -/
def predictedPose (b : List Byte) (dt : Int) : Pose :=
  { p := (vecAt b 8 4).zip (fun p v => p + moved v dt) (vecAt b 36 2), den := 1
    q := predictTurn (toSigned 32 (leAt b 20 4), vecAt b 24 4) (vecAt b 42 2) dt }

/-- A number taken modulo `m` to the representative nearest 0: positions differ modulo 2^32 (R120). -/
def wrapInt (m x : Int) : Int := (x + m / 2) % m - m / 2

/-- The pose between two, `a` of `n` from the first: linear translation, normalised-linear rotation (R75). The quaternions are taken as
published, with no change of sign. (DEDUCED: log entry 43) -/
def Pose.between (x y : Pose) (a n : Int) : Pose :=
  { p := x.p.zip (fun u v => u * n + wrapInt (2 ^ 32) (v - u) * a) y.p, den := n.toNat
    q := (x.q.1 * (n - a) + y.q.1 * a, Vec3.zip (fun u v => u * (n - a) + v * a) x.q.2 y.q.2) }

/-- inverse(a) * b applied to the point v / d: numerators and their denominator. -/
def Pose.between_apply (a b : Pose) (v : Vec3) (d : Nat) : Vec3 × Nat :=
  let dd := a.den * b.den
  let off := (b.p.zip (fun y x => wrapInt (2 ^ 32 * dd) (y * a.den - x * b.den)) a.p).map (· * (d * b.q.norm))
  let m := ((b.q.turn v).map (· * dd)).zip (· + ·) off
  (a.q.conj.turn m, d * b.q.norm * dd * a.q.norm)

/-! ## The trajectory -/

/-- The estimates used for a time, oldest first: the two that bracket it, the newest beyond which it lies, or the oldest
that it precedes (R75, R122, R141). -/
def bracketOf (t : Time) : List (Time × Nat) → List (Time × Nat)
  | [] => []
  | [x] => [x]
  | x :: y :: r => if x.1 ≤ t then [x] else if y.1 ≤ t then [y, x] else bracketOf t (y :: r)

/-- The estimates of the ring that can be read, newest first: one in a poisoned word is lost (R123). -/
def State.heldTraj (s : State) : List (Time × Nat) := s.glz.traj.filter (fun e => !s.poisoned e.2 64)

def State.bracket (s : State) (t : Time) : List (Time × Nat) := bracketOf t s.heldTraj

/-- E(t) (R75, R122, R141): interpolated between the two estimates that bracket t, predicted beyond the newest, the oldest before
it, and the identity while there is none (R390). (DEDUCED: log entry 43) -/
def State.poseAt (s : State) (t : Time) : Pose :=
  match s.bracket t with
  | [] => Pose.id
  | [e] => if e.1 < t then predictedPose (s.readBytes e.2 64) (t - e.1) else estPose (s.readBytes e.2 64)
  | a :: b :: _ => (estPose (s.readBytes a.2 64)).between (estPose (s.readBytes b.2 64)) (t - a.1) (b.1 - a.1)

/-- Whether the published trajectory covers a time; the identity pose serves every time while there is none (R76).
(DEDUCED: log entry 43) -/
def State.trajCovers (s : State) (t : Time) : Bool :=
  match s.heldTraj.head? with
  | none => s.glz.traj.isEmpty
  | some e => decide (t ≤ e.1)

/-- PREDICT_MAX, ns. -/
def State.predictMax (s : State) : Int := s.get F.SLV_TIMING_PREDICT_MAX * 1000000

/-- What the pose at a time brings to the tiles that use it (R123): SOLVER_DEGRADED for an estimate that has DEGRADED, a prediction
beyond PREDICT_MAX, or an estimate lost to poison; WARM_DISCARDED. -/
def State.poseFlags (s : State) (t : Time) : Bool × Bool :=
  let used := (s.bracket t).map (fun e => s.readLe (e.2 + 48) 2)
  let far := match s.heldTraj.head? with
    | some n => decide (s.predictMax < t - n.1)
    | none => false
  (used.any (bitSet · 0) || far || (bracketOf t s.glz.traj).any (fun e => s.poisoned e.2 64), used.any (bitSet · 5))

/-- An instance uses the pose at a time (R123, R390). Estimates in poisoned words are reported as they are read (R214). -/
def State.usePose (s : State) (cycle : Nat) (t : Time) : State :=
  if s.glz.traj.isEmpty then
    (s.raise F.GLZ_EVENT_STALE_POSE).updInst cycle (fun i => { i with solverDeg := true, poseDeg := true })
  else
    let f := s.poseFlags t
    let s := (bracketOf t s.glz.traj).foldl (fun u e => u.reportBad e.2 64) s
    s.updInst cycle (fun i => { i with solverDeg := i.solverDeg || f.1, warmDisc := i.warmDisc || f.2 })

/-- A value that comes after an instance has been warped brings the pose of its time to the instance's tiles (R123). -/
def State.poseForValue (s : State) (cycle : Nat) (t : Time) : State :=
  if (s.inst cycle).any (·.warped) then s.usePose cycle t else s

end Sys2Proof.Machine
end

