-- ==== Sys2Proof/Machine/Attention.lean ====
section
/-! DEFINITION. The attention engine (spec/14_temporal_attention.md): step descriptors and their validation, candidates and
masks, the phases of a row block, and the backward pass. -/

namespace Sys2Proof.Machine

/-! ## The step descriptor (R226): 128 bytes -/

def sdBackward (d : List Byte) : Bool := bitsAt (leAt d 0 1) 0 2 == 1
def sdLocal (d : List Byte) : Bool := bitSet (leAt d 0 1) 2
def sdCausal (d : List Byte) : Bool := bitSet (leAt d 0 1) 3
def sdMask (d : List Byte) : Nat := bitsAt (leAt d 0 1) 4 2
def sdQFmt (d : List Byte) : Nat := bitsAt (leAt d 1 1) 0 4
def sdOutFmt (d : List Byte) : Nat := bitsAt (leAt d 1 1) 4 4
def sdDim (d : List Byte) : Nat := bitsAt (leAt d 2 1) 0 4 * 32
def sdCtx (d : List Byte) : Nat := bitsAt (leAt d 2 1) 4 4
def sdHead (d : List Byte) : Nat := bitsAt (leAt d 3 1) 0 6
def sdBefore (d : List Byte) : Nat := bitsAt (leAt d 4 2) 0 10
def sdAfter (d : List Byte) : Nat := bitsAt (leAt d 6 2) 0 10
def sdNseq (d : List Byte) : Nat := bitsAt (leAt d 8 2) 0 13
def sdNglobal (d : List Byte) : Nat := bitsAt (leAt d 10 1) 0 7
def sdLenTable (d : List Byte) : Nat := leAt d 48 5
def sdGlobalTable (d : List Byte) : Nat := leAt d 56 5
def sdMaskBase (d : List Byte) : Nat := leAt d 64 5
def sdStatBase (d : List Byte) : Nat := leAt d 72 5
def sdGradBase (d : List Byte) : Nat := leAt d 112 5

/-- The index of a page format among the scales (R226): INT8, E4M3, E5M2, BF16. -/
def scaleIndex (fmt : Nat) : Nat := if fmt = 4 then 3 else fmt
def sdSScale (d : List Byte) (fmt : Nat) : Nat := leAt d (12 + 4 * scaleIndex fmt) 4
def sdVScale (d : List Byte) (fmt : Nat) : Nat := leAt d (28 + 4 * scaleIndex fmt) 4

/-- A length-table entry (R227). -/
structure LenEntry where
  keyLen  : Nat
  qLen    : Nat
  qPos    : Nat
  seqId   : Nat
  maskOff : Nat
  gradOff : Nat
  /-- A reserved bit is set. -/
  bad     : Bool
  deriving DecidableEq, Repr

def lenEntry (b : List Byte) : LenEntry :=
  { keyLen := bitsAt (leAt b 0 2) 0 14, qLen := bitsAt (leAt b 2 2) 0 14, qPos := bitsAt (leAt b 4 2) 0 13
    seqId := leAt b 6 2, maskOff := leAt b 8 4, gradOff := leAt b 12 4
    bad := bitsAt (leAt b 0 2) 14 2 != 0 || bitsAt (leAt b 2 2) 14 2 != 0 || bitsAt (leAt b 4 2) 13 3 != 0 }

/-- BAD_FIELD of a step descriptor (R238). -/
def State.stepBadField (s : State) (d : List Byte) : Bool :=
  let back := sdBackward d
  let addrs := [96, 104, 112].map (fun o => leAt d o 8)
  bitsAt (leAt d 0 1) 6 2 != 0 || bitsAt (leAt d 3 1) 6 2 != 0 || bitsAt (leAt d 4 2) 10 6 != 0 || bitsAt (leAt d 6 2) 10 6 != 0
    || bitsAt (leAt d 8 2) 13 3 != 0 || bitSet (leAt d 10 1) 7 || leAt d 11 1 != 0 || leAt d 44 4 != 0 || leAt d 120 4 != 0
    || [48, 56, 64, 72, 80, 88, 96, 104, 112].any (fun o => leAt d (o + 5) 3 != 0)
    || decide (1 < bitsAt (leAt d 0 1) 0 2) || !([0, 1, 2, 4].contains (sdQFmt d)) || !([0, 1, 2, 4, 6].contains (sdOutFmt d))
    || sdMask d == 3 || sdDim d == 0 || decide (256 < sdDim d) || (sdCausal d && sdLocal d)
    || (sdLocal d && decide (512 < sdBefore d + sdAfter d + 1)) || decide (64 < sdNglobal d) || decide (4096 < sdNseq d)
    || !s.on (F.ATN_HEAD_VALID (sdHead d)) || (if back then addrs.any (· == 0) else addrs.any (· != 0))

/-- LEN_RANGE of the tables (R238). -/
def stepLenRange (lens : List LenEntry) (globals : List Nat) : Bool :=
  let rec asc : List Nat → Bool
    | a :: b :: r => decide (a < b) && asc (b :: r)
    | _ => true
  lens.any (fun l => decide (8192 < l.keyLen) || decide (8192 < l.qPos + l.qLen))
    || decide (65536 < (lens.map (·.qLen)).foldl (· + ·) 0) || globals.any (fun g => decide (8192 ≤ g)) || !asc globals

/-- ALIGN of a step (R238). -/
def stepMisaligned (d : List Byte) (lens : List LenEntry) : Bool :=
  sdLenTable d % 64 != 0 || (sdNglobal d != 0 && sdGlobalTable d % 64 != 0) || sdStatBase d % 64 != 0
    || (sdMask d != 0 && (sdMaskBase d % 64 != 0 || lens.any (fun l => l.maskOff % 64 != 0)))

/-! ## Candidates and masks (R229, R230) -/

/-- candidates(p, L) (R229). -/
def candidates (d : List Byte) (globals : List Nat) (p len : Nat) : List Nat :=
  if !sdLocal d then
    let hi := if sdCausal d then min p (len - 1) else len - 1
    if len = 0 then [] else List.range (hi + 1)
  else
    let lo := p - sdBefore d
    let hi := min (len - 1) (p + sdAfter d)
    let g := globals.filter (fun g => decide (g < len) && decide (g ≤ p + sdAfter d) && decide (g < lo))
    if lo ≤ hi ∧ len ≠ 0 then g ++ (List.range (hi + 1 - lo)).map (· + lo) else g

/-- The written rows of a step, in order (R228). -/
def stepRows (d : List Byte) (globals : List Nat) (lens : List LenEntry) : List AtnRow :=
  (lens.foldl (fun (a : Nat × Nat × List AtnRow) l =>
    let rows := if l.keyLen = 0 then []
      else (List.range l.qLen).map (fun k =>
        ({ row := a.2.1 + k, seq := a.1, k := k, pos := l.qPos + k, len := l.keyLen
           cands := candidates d globals (l.qPos + k) l.keyLen } : AtnRow))
    (a.1 + 1, a.2.1 + l.qLen, a.2.2 ++ rows)) (0, 0, [])).2.2

/-- Bytes of a score slot, and its address. -/
def State.slotBytes (s : State) : Nat := (s.get F.ATN_CTRL_SLOT_SIZE + 1) * 65536
def State.slotAddr (s : State) (golden : Bool) (slot : Nat) : Nat :=
  (if golden then s.base F.ATN_GOLDEN_BASE_BASE else s.base F.ATN_SCORE_BASE_BASE) + slot * s.slotBytes

/-- Bytes that a row takes in a slot (R231, R236). -/
def scoreStride (n : Nat) : Nat := max 1 ((n + 15) / 16) * 64
def rowSpan (back : Bool) (r : AtnRow) : Nat := if back then 2 * scoreStride r.cands.length else scoreStride r.cands.length

/-- Bytes of a mask bitmap (R230). -/
def maskBytes (len : Nat) : Nat := (len + 511) / 512 * 64

/-! ## Ending a step (R228, R238, R239, R244) -/

/-- The user of a step's layout descriptors. -/
def atnUser (run : RunId) : LayUser := { unit := 101, cycle := run.cycle, map := if run.golden then 4 else run.slot }

/-- An ATN entry ends: the fabric sends its tokens at its completion (R157). -/
def State.atnEnd (s : State) (run : RunId) (index : Nat) (code : Option Nat) (arg : Nat) : State :=
  { s with atn := { s.atn with ended := s.atn.ended ++ [(run, index, code, arg)] } }

/-- The latest rejection or fault (ATN_LAST_ERR). -/
def State.atnErr (s : State) (head code seq cycle : Nat) : State :=
  (((s.put F.ATN_LAST_ERR_HEAD head).put F.ATN_LAST_ERR_CODE code).put F.ATN_LAST_ERR_SEQ seq).put F.ATN_LAST_ERR_CYCLE cycle

/-- The ATN_EVENT bit of a code; a LAY code sets none. -/
def atnEventBit (code : Nat) : Option Fld :=
  match code with
  | 0x01 => some F.ATN_EVENT_BAD_FIELD
  | 0x02 => some F.ATN_EVENT_LEN_RANGE
  | 0x03 => some F.ATN_EVENT_ALIGN
  | 0x04 => some F.ATN_EVENT_HISTORY
  | 0x05 => some F.ATN_EVENT_CRC_ERR
  | 0x06 => some F.ATN_EVENT_ECC
  | _ => none

def State.atnEvent (s : State) (code : Nat) : State :=
  match atnEventBit code with
  | some f => s.raise f
  | none => s

/-- A step is rejected (R238). -/
def State.atnReject (s : State) (run : RunId) (index : Nat) (d : List Byte) (code seq : Nat) : State :=
  (((s.atnEvent code).atnErr (sdHead d) code seq run.cycle).satInc F.ATN_COUNTS_REJECTED).atnEnd run index (some code) 0

/-- A step leaves the engine: its slots, its generation and its pins are released, at a head-step boundary (R240, R244, R248). -/
def State.closeStep (s : State) (id : Nat) : State :=
  { s with
    atn := { s.atn with steps := s.atn.steps.filter (fun x => x.id != id), blocks := s.atn.blocks.filter (fun b => b.step != id)
                        boundary := true }
    kvc := { s.kvc with pins := s.kvc.pins.filter (fun p => p.2.1 || p.2.2 != id) } }.freePages

/-- A fault stops a step (R239): codes HISTORY, ECC, or a code of LAY, which LAY has already recorded and reported. -/
def State.atnFault (s : State) (st : AtnStep) (code seq : Nat) : State :=
  let s := ((s.atnEvent code).atnErr (sdHead st.desc) code seq st.run.cycle).satInc F.ATN_COUNTS_FAULTS
  let s := if (atnEventBit code).isSome then (s.log wATN code 1 101 seq).detect cCONTAINED 101 seq else s
  (s.closeStep st.id).atnEnd st.run st.index (some code) 0

/-- A step's recomputed COUNT differs: it is rejected (R236, R238). -/
def State.atnRejectOpen (s : State) (st : AtnStep) (code seq : Nat) : State :=
  (s.closeStep st.id).atnReject st.run st.index st.desc code seq

/-! ## Opening a step (R226 to R231, R238) -/

/-- The tables of a step (R226, R227), or the LAY code of a failed access. -/
def State.stepTables (s : State) (d : List Byte) : Except Nat (List Byte × List Byte × Bool) :=
  match s.ctxTable (sdCtx d) (sdLenTable d) (16 * sdNseq d), s.ctxTable (sdCtx d) (sdGlobalTable d) (2 * sdNglobal d) with
  | .ok l, .ok g => .ok (l.1, g.1, l.2 || g.2)
  | .error c, _ => .error c
  | _, .error c => .error c

/-- A table of a step cannot be read (R239): a translation or permission fault, or an uncorrectable word. -/
def State.stepTableFault (s : State) (run : RunId) (index : Nat) (d : List Byte) (code : Nat) : State :=
  let s := if code = 0x06 then
      ((s.atnEvent code).log wATN code 1 101 0).detect cCONTAINED 101 0
    else s.layFail (atnUser run) code (sdCtx d) (sdLenTable d)
  (((s.atnErr (sdHead d) code 0 run.cycle).satInc F.ATN_COUNTS_FAULTS).atnEnd run index (some code) 0)

/-- An ATN entry fires: its step is validated, rejected, completed at once, or opened on the generation in force (R228, R231,
R238). (DEDUCED: log entry 87) -/
def State.atnFire (s : State) (run : RunId) (index : Nat) (d : List Byte) : State :=
  if !crcOk d then s.atnReject run index d 0x05 0
  else if s.stepBadField d then s.atnReject run index d 0x01 0
  else if !s.ctxAllowed (sdCtx d) 101 then s.stepTableFault run index d 0x04
  else match s.stepTables d with
    | .error c => s.stepTableFault run index d c
    | .ok (lt, gt, poisoned) =>
      let lens := (chunks 16 lt).map lenEntry
      let globals := (chunks 2 gt).map leNat
      let seqOf (p : LenEntry → Bool) : Nat := (lens.findIdx? p).getD 0
      if poisoned then s.stepTableFault run index d 0x06
      else if lens.any (·.bad) then s.atnReject run index d 0x01 (seqOf (·.bad))
      else if stepLenRange lens globals then
        s.atnReject run index d 0x02 (seqOf (fun l => decide (8192 < l.keyLen) || decide (8192 < l.qPos + l.qLen)))
      else if let some r := (stepRows d globals lens).find? (fun r => decide (s.slotBytes < rowSpan (sdBackward d) r)) then
        s.atnReject run index d 0x02 r.seq
      else if stepMisaligned d lens then s.atnReject run index d 0x03 (seqOf (fun l => l.maskOff % 64 != 0))
      else
        let rows := stepRows d globals lens
        if rows.isEmpty then
          ({ s with atn := { s.atn with boundary := true } }.modInc F.ATN_COUNTS_STEPS).atnEnd run index none 0
        else
          let st : AtnStep := { id := s.atn.nextId, run, index, desc := d, gen := s.kvc.gen
                                bank := if run.golden then 6 else s.kvc.current
                                core := s.get (F.ATN_HEAD_CORE (sdHead d)), seqIds := lens.map (·.seqId)
                                masks := lens.map (·.maskOff), grads := lens.map (·.gradOff), rows }
          { s with atn := { s.atn with steps := s.atn.steps ++ [st], nextId := s.atn.nextId + 1 } }

/-! ## Pages and keys (R232, R247) -/

/-- A page descriptor as ATN holds it (R247). -/
structure PageView where
  page  : Nat
  fmt   : Nat
  first : Nat
  count : Nat
  key   : Nat
  val   : Nat
  deriving DecidableEq, Repr

def pageView (d : List Byte) : PageView :=
  { page := leAt d 0 2, fmt := bitsAt (leAt d 2 1) 0 4, first := leAt d 4 2, count := leAt d 6 2, key := leAt d 8 8, val := leAt d 16 8 }

/-- The pages of a sequence of a step, once its walk has ended. -/
def AtnStep.pages (x : AtnStep) (seq : Nat) : Option (List PageView) :=
  match x.walks.find? (fun w => w.1 == seq) with
  | some (_, ds, true) => some (ds.map pageView)
  | _ => none

/-- Whether a walk is usable for keys up to `len` (R239): in order, with known formats, reaching `len`. -/
def pagesOk (len : Nat) (l : List PageView) : Bool :=
  let rec go : Nat → List PageView → Bool
    | lo, [] => decide (len ≤ lo)
    | lo, p :: r => decide (lo ≤ p.first) && [0, 1, 2, 4].contains p.fmt && go (p.first + p.count) r
  go 0 l

/-- Bytes of a row of a head dimension in a format (R242). -/
def keyRowBytes (dim fmt : Nat) : Nat := (dim * elemSize fmt + 63) / 64 * 64

/-- The elements of a row of a format. -/
def rowElems (fmt dim : Nat) (b : List Byte) : List Nat := (List.range dim).map (fun c => leAt b (elemSize fmt * c) (elemSize fmt))

/-- A key or value row: its format, elements, and the address and length read. -/
def State.pageRow (s : State) (p : PageView) (dim j : Nat) (val : Bool) : List Nat × Nat × Nat :=
  let n := keyRowBytes dim p.fmt
  let a := (if val then p.val else p.key) + (j - p.first) * n
  (rowElems p.fmt dim (s.readBytes a n), a, n)

/-- The page that holds a position. -/
def pageAt (l : List PageView) (j : Nat) : Option PageView := l.find? (fun p => decide (p.first ≤ j) && decide (j < p.first + p.count))

/-! ## Arithmetic (R233, R235) -/

/-- The dot product of two rows, before scaling, as binary32: exact sums of 32 products, added in channel order (R233). At
INT8 every partial sum is exact. -/
def dotF32 (fa fb : Nat) (a b : List Nat) : Nat :=
  let prods := (a.zip b).map (fun p => (fvOf fa p.1).mul (fvOf fb p.2))
  let groups := (List.range (prods.length / 32)).map (fun g => fvSum ((prods.drop (32 * g)).take 32))
  groups.foldl (fun acc g => (FV.add (fvOf 6 acc) g).toF32.1) 0

/-- The sign of an element. -/
def elemNeg (fmt x : Nat) : Bool :=
  match fmt with
  | 0 | 1 | 2 => bitSet x 7
  | 4 => bitSet x 15
  | _ => bitSet x 31

/-- round_fp32(o + w * v), with the product exact (R235). -/
def fmaF32 (o w fmt v : Nat) : Nat :=
  match FV.add (fvOf 6 o) ((fvOf 6 w).mul (fvOf fmt v)) with
  | .fin d => f32Round d (f32Sign o && (f32Sign w != elemNeg fmt v))
  | x => x.toF32.1

/-- An element of a format as binary32, exactly. -/
def widenF32 (fmt x : Nat) : Nat :=
  match fvOf fmt x with
  | .fin d => f32Round d (elemNeg fmt x && fmt != 0 && fmt != 5)
  | v => v.toF32.1

/-! ## Slots (R231, R240) -/

/-- The longest run of rows that fits a slot (R231). -/
def takeBlock (back : Bool) : Nat → List AtnRow → List AtnRow
  | _, [] => []
  | room, r :: l => if rowSpan back r ≤ room then r :: takeBlock back (room - rowSpan back r) l else []

/-- The lowest free slot of a kind (R231, R240). -/
def State.freeSlot (s : State) (golden : Bool) : Option Nat :=
  (List.range (if golden then 2 else s.get F.ATN_CTRL_SCORE_SLOTS)).find? (fun k =>
    !s.atn.blocks.any (fun b => b.golden == golden && b.slot == k) && (golden || !s.atn.deadSlots.contains k))

/-- The rows of a block with their places in the slot. -/
def blockRows (back : Bool) (a : Nat) : List AtnRow → List (AtnRow × Nat)
  | [] => []
  | r :: l => (r, a) :: blockRows back (a + rowSpan back r) l

/-! ## What a phase reads of a row -/

/-- The result of a phase over a block: the state, and the code and sequence of a fault. -/
structure PhaseRun where
  s    : State
  code : Option Nat := none
  seq  : Nat := 0
  deriving DecidableEq, Repr

/-- Whether candidate `j` of a row is allowed, with the poison met (R230). -/
def State.maskOf (s : State) (st : AtnStep) (r : AtnRow) : Except Nat (List Bool × Bool) :=
  let d := st.desc
  if sdMask d = 0 then .ok (r.cands.map (fun _ => true), false)
  else
    let n := maskBytes r.len
    let a := sdMaskBase d + st.masks.getD r.seq 0 + if sdMask d = 2 then r.k * n else 0
    match s.ctxTable (sdCtx d) a n with
    | .error c => .error c
    | .ok (b, p) => .ok (r.cands.map (fun j => bitSet (leAt b (j / 8) 1) (j % 8)), p)

/-- One descriptor's rows of a step: which rows it selects, and what it delivers for each. (DEDUCED: log entry 84) -/
def State.stepRead (s : State) (st : AtnStep) (at_ : Nat) (rows : List AtnRow) (fin : Bool) : LayOut × (Nat → List Nat) :=
  let d := s.readBytes at_ 128
  let n := sdDim st.desc * elemSize (layFmt d)
  let per := (n + layW d - 1) / max 1 (layW d)
  let want := rows.map (·.row)
  let x := s.layRead (atnUser st.run) at_ none false { sel := fun k => want.contains (k / max 1 per), fin }
  (x, fun row => rowElems (layFmt d) (sdDim st.desc) (x.bytes.drop ((want.findIdx? (· == row)).getD 0 * per * layW d)))

/-- Write one row per row of a block through a descriptor of a step. (DEDUCED: log entry 84) -/
def State.stepWrite (s : State) (st : AtnStep) (at_ : Nat) (rows : List (AtnRow × List Byte)) (fin : Bool) : LayOut :=
  let d := s.readBytes at_ 128
  let n := sdDim st.desc * elemSize (layFmt d)
  let per := (n + layW d - 1) / max 1 (layW d)
  let want := rows.map (·.1.row)
  s.layWrite (atnUser st.run) at_ none (rows.flatMap (fun r => padTo (per * layW d) r.2)) (w := { sel := fun k => want.contains (k / max 1 per), fin })

/-- The context address of a row record (R234). -/
def recordAddr (d : List Byte) (row : Nat) : Nat := sdStatBase d + 16 * row

/-! ## SCORE (R229 to R233, R236) -/

/-- The scores of a row, and in BACKWARD its dp row; with whether a word was poisoned and a page was missing. -/
def State.scoreRow (s : State) (st : AtnStep) (pages : List PageView) (r : AtnRow) (mask : List Bool) (q dO : List Nat) (dFmt : Nat) :
    List (Nat × Nat) × Bool × Bool × State :=
  let d := st.desc
  let dim := sdDim d
  (r.cands.zip mask).foldl (fun (a : List (Nat × Nat) × Bool × Bool × State) jm =>
    match pageAt pages jm.1 with
    | none => (a.1 ++ [(0, 0)], a.2.1, true, a.2.2.2)
    | some p =>
      if !jm.2 then (a.1 ++ [(f32Inf true, 0)], a.2.1, a.2.2.1, a.2.2.2)
      else
        let k := a.2.2.2.pageRow p dim jm.1 false
        let u := a.2.2.2.reportBad k.2.1 k.2.2
        let bad := u.poisoned k.2.1 k.2.2
        let sc := f32Mul (dotF32 (sdQFmt d) p.fmt q k.1) (sdSScale d p.fmt)
        if sdBackward d then
          let v := u.pageRow p dim jm.1 true
          let u := u.reportBad v.2.1 v.2.2
          let dp := f32Mul (sdVScale d p.fmt) (dotF32 dFmt p.fmt dO v.1)
          (a.1 ++ [(sc, dp)], a.2.1 || bad || u.poisoned v.2.1 v.2.2, a.2.2.1, u)
        else (a.1 ++ [(sc, 0)], a.2.1 || bad, a.2.2.1, u)) ([], false, false, s)

/-- Score one row into its place in the slot, with COUNT, and in BACKWARD DELTA, in its record. (DEDUCED: log entry 90) -/
def State.scoreOne (x : PhaseRun) (st : AtnStep) (q dO o : Nat → List Nat) (dFmt oFmt : Nat) (ra : AtnRow × Nat) : PhaseRun :=
  if x.code.isSome then x
  else
    let r := ra.1
    let d := st.desc
    let fail (s : State) (c : Nat) : PhaseRun := { s, code := some c, seq := r.seq }
    match st.pages r.seq with
    | none => x
    | some pages =>
      if !pagesOk r.len pages then fail x.s 0x04
      else match x.s.maskOf st r with
        | .error c => fail (x.s.layFail (atnUser st.run) c (sdCtx d) (sdMaskBase d)) c
        | .ok (mask, mp) =>
          let sc := x.s.scoreRow st pages r mask (q r.row) (dO r.row) dFmt
          if sc.2.2.1 then fail sc.2.2.2 0x04
          else if mp || sc.2.1 then fail sc.2.2.2 0x06
          else
            let s := sc.2.2.2
            let stride := scoreStride r.cands.length
            let s := s.writeBytes ra.2 (sc.1.flatMap (fun v => natLe 4 v.1))
            let s := if sdBackward d then s.writeBytes (ra.2 + stride) (sc.1.flatMap (fun v => natLe 4 v.2)) else s
            let rec_ := recordAddr d r.row
            if sdBackward d then
              match s.ctxTable (sdCtx d) rec_ 16 with
              | .error c => fail (s.layFail (atnUser st.run) c (sdCtx d) rec_) c
              | .ok (b, p) =>
                if p then fail s 0x06
                else if leAt b 8 2 ≠ r.cands.length then fail s 0x02
                else
                  let delta := ((dO r.row).zip (o r.row)).foldl (fun acc v => fmaF32 acc (widenF32 dFmt v.1) oFmt v.2) 0
                  match s.ctxWrite (sdCtx d) (rec_ + 12) (natLe 4 delta) with
                  | .error c => fail (s.layFail (atnUser st.run) c (sdCtx d) rec_) c
                  | .ok s => { x with s }
            else match s.ctxWrite (sdCtx d) (rec_ + 8) (natLe 2 r.cands.length) with
              | .error c => fail (s.layFail (atnUser st.run) c (sdCtx d) rec_) c
              | .ok s => { x with s }

/-- The open step whose next block is scored (R231, R240): golden first, then the oldest, with a free slot of its kind.
(DEDUCED: log entry 118) -/
def State.scoreChoice (s : State) : Option (AtnStep × Nat) :=
  let try_ (g : Bool) : Option (AtnStep × Nat) :=
    match s.atn.steps.find? (fun x => x.run.golden == g && !x.rows.isEmpty), s.freeSlot g with
    | some x, some k => some (x, k)
    | _, _ => none
  (try_ true).or (try_ false)

/-- What SCORE reads of a block's rows (R226, R231, R236): Q, and in BACKWARD dO and O, in that order. -/
def State.stepInputs (s : State) (st : AtnStep) (rows : List AtnRow) (fin : Bool) :
    (LayOut × (Nat → List Nat)) × (LayOut × (Nat → List Nat)) × (LayOut × (Nat → List Nat)) :=
  let q := s.stepRead st (leAt st.desc 80 5) rows fin
  let dO := if sdBackward st.desc then q.1.s.stepRead st (leAt st.desc 96 5) rows fin else ({ s := q.1.s }, fun _ => [])
  let o := if sdBackward st.desc then dO.1.s.stepRead st (leAt st.desc 88 5) rows fin else ({ s := dO.1.s }, fun _ => [])
  (q, dO, o)

/-- Score the rows of a block into a slot (R231 to R233, R236). -/
def State.scoreBlock (s : State) (st : AtnStep) (slot : Nat) (rows : List AtnRow)
    (r : (LayOut × (Nat → List Nat)) × (LayOut × (Nat → List Nat)) × (LayOut × (Nat → List Nat))) : PhaseRun :=
  let dFmt := layFmt (s.readBytes (leAt st.desc 96 5) 128)
  let oFmt := layFmt (s.readBytes (leAt st.desc 88 5) 128)
  (blockRows (sdBackward st.desc) (s.slotAddr st.run.golden slot) rows).foldl
    (fun x ra => State.scoreOne x st r.1.2 r.2.1.2 r.2.2.2 dFmt oFmt ra) { s }

/-- A scored block holds its slot and is sent to its head's core; or the step faults or is rejected (R231, R236, R239). -/
def PhaseRun.scored (x : PhaseRun) (st : AtnStep) (slot : Nat) (rows : List AtnRow) : State :=
  match x.code with
  | some 0x02 => x.s.atnRejectOpen st 0x02 x.seq
  | some c => x.s.atnFault st c x.seq
  | none =>
    let b : AtnBlock := { step := st.id, slot, golden := st.run.golden, core := st.core, head := sdHead st.desc, rows }
    let s := x.s.modAdd F.ATN_CANDS_CANDIDATES ((rows.map (·.cands.length)).foldl (· + ·) 0)
    let s := (s.updStep st.id (fun y => { y with rows := y.rows.drop rows.length })).emit (.core st.core [1, slot])
    { s with atn := { s.atn with blocks := s.atn.blocks ++ [b] } }

/-- SCORE_DONE (R231 to R233, R236, R239): a row block is scored into a free slot and NORM is sent to the head's core, once the
walks of its sequences have ended. (DEDUCED: log entry 87) -/
def execScoreDone (s : State) : Host.Outcome State Fault Refusal :=
  .next (
    if !s.atnRuns then s
    else match s.scoreChoice with
      | none => s
      | some (st, slot) =>
        let rows := takeBlock (sdBackward st.desc) s.slotBytes st.rows
        if rows.isEmpty then s.atnRejectOpen st 0x02 0
        else if rows.any (fun r => (st.pages r.seq).isNone) then s
        else
          let r := s.stepInputs st rows (decide (st.rows.length ≤ rows.length))
          match r.1.1.code.or (r.2.1.1.code.or r.2.2.1.code) with
          | some c => r.2.2.1.s.atnFault st c (rows.headD default).seq
          | none =>
            if r.1.1.poison || r.2.1.1.poison || r.2.2.1.poison then r.2.2.1.s.atnFault st 0x06 (rows.headD default).seq
            else (r.2.2.1.s.scoreBlock st slot rows r).scored st slot rows)

/-! ## NORM (R224, R234, R236) -/

/-- The largest of scores without a NaN. -/
def maxF32 (l : List Nat) : Nat := l.foldl (fun m x => if f32Le x m then m else x) (f32Inf true)

/-- norm_forward(row) (R234): the probabilities, M, SUM and FLAGS. -/
def normForward (sc : List Nat) : List Nat × Nat × Nat × Nat :=
  if sc.all (· == f32Inf true) then (sc.map (fun _ => 0), f32Inf true, 0, 1)
  else if sc.any (fun x => f32IsNan x || x == f32Inf false) then (sc.map (fun _ => f32Nan), f32Nan, f32Nan, 2)
  else
    let m := maxF32 sc
    let e := sc.map (fun x => expF32 (f32Sub x m))
    let sum := e.foldl f32Add 0
    (e.map (fun x => f32Div x sum), m, sum, 0)

/-- The binary32 values of a score row. -/
def State.scoreVals (s : State) (a n : Nat) : List Nat := (chunks 4 (s.readBytes a (4 * n))).map leNat

/-- Normalise one row in place (R234, R236). -/
def State.normOne (x : PhaseRun) (st : AtnStep) (ra : AtnRow × Nat) : PhaseRun :=
  if x.code.isSome then x
  else
    let r := ra.1
    let d := st.desc
    let n := r.cands.length
    let stride := scoreStride n
    let rec_ := recordAddr d r.row
    let fail (s : State) (c : Nat) : PhaseRun := { s, code := some c, seq := r.seq }
    let s := x.s.reportBad ra.2 (rowSpan (sdBackward d) r)
    if s.poisoned ra.2 (rowSpan (sdBackward d) r) then fail s 0x06
    else match s.ctxTable (sdCtx d) rec_ 16 with
      | .error c => fail (s.layFail (atnUser st.run) c (sdCtx d) rec_) c
      | .ok (b, p) =>
        if p then fail s 0x06
        else
          let sc := s.scoreVals ra.2 n
          if sdBackward d then
            let m := leAt b 0 4
            let sum := leAt b 4 4
            let fl := leAt b 10 1
            let delta := leAt b 12 4
            let dp := s.scoreVals (ra.2 + stride) n
            let pr := sc.map (fun v => if bitSet fl 0 then 0 else if bitSet fl 1 then f32Nan else f32Div (expF32 (f32Sub v m)) sum)
            let ds := (pr.zip dp).map (fun v => f32Mul v.1 (f32Sub v.2 delta))
            { x with s := (s.writeBytes ra.2 (pr.flatMap (natLe 4))).writeBytes (ra.2 + stride) (ds.flatMap (natLe 4)) }
          else
            let r4 := normForward sc
            let s := s.writeBytes ra.2 (r4.1.flatMap (natLe 4))
            let out := natLe 4 r4.2.1 ++ natLe 4 r4.2.2.1 ++ slice b 8 2 ++ natLe 1 r4.2.2.2 ++ zeroBytes 5
            match s.ctxWrite (sdCtx d) rec_ out with
            | .error c => fail (s.layFail (atnUser st.run) c (sdCtx d) rec_) c
            | .ok s =>
              let s := if bitSet r4.2.2.2 0 then (s.raise F.ATN_EVENT_EMPTY_ROW).satInc F.ATN_ROWS_EMPTY_ROWS else s
              { x with s := if bitSet r4.2.2.2 1 then (s.raise F.ATN_EVENT_NAN_ROW).satInc F.ATN_ROWS_NAN_ROWS else s }

/-- The block of a slot in a phase, with its step. -/
def State.blockOf (s : State) (slot : Nat) (golden : Bool) (ph : AtnPhase) : Option (AtnBlock × AtnStep) :=
  match s.atn.blocks.find? (fun b => b.slot == slot && b.golden == golden && b.phase == ph) with
  | none => none
  | some b => (s.atn.steps.find? (fun x => x.id == b.step)).map (fun x => (b, x))

/-- Whether a block is the one its core normalises (R224, R240): golden ahead of real, then in the order they became ready. -/
def State.coreTurn (s : State) (b : AtnBlock) : Bool :=
  let mine := s.atn.blocks.filter (fun c => c.core == b.core && c.phase == .norm)
  match mine.find? (·.golden) with
  | some c => c == b
  | none => match mine.head? with
    | some c => c == b
    | none => false

/-- NORM over the rows of a block (R234, R236). -/
def State.normBlock (s : State) (st : AtnStep) (rows : List (AtnRow × Nat)) : PhaseRun :=
  rows.foldl (fun x ra => State.normOne x st ra) { s }

/-- A normalised block goes on to its last phase; or the step faults (R231, R239). -/
def PhaseRun.normed (x : PhaseRun) (b : AtnBlock) (st : AtnStep) : State :=
  match x.code with
  | some c => x.s.atnFault st c x.seq
  | none =>
    { x.s with atn := { x.s.atn with blocks := updateFirst (fun c => c == b) (fun c => { c with phase := .value }) x.s.atn.blocks } }

/-- NORM_DONE (R234, R236, R224): the core has normalised a block in place. -/
def execNormDone (slot : Nat) (golden : Bool) (s : State) : Host.Outcome State Fault Refusal :=
  .next (
    match s.blockOf slot golden .norm with
    | none => s
    | some (b, st) =>
      if !s.atnRuns || !s.coreTurn b then s
      else
        (s.normBlock st (blockRows (sdBackward st.desc) (s.slotAddr golden slot) b.rows)).normed b st)

/-! ## VALUE and GRADIENT (R235, R236) -/

/-- The output row of a row's probabilities (R235), with whether a word was poisoned. -/
def State.valueRow (s : State) (st : AtnStep) (pages : List PageView) (r : AtnRow) (mask : List Bool) (p : List Nat) :
    List Nat × Bool × State :=
  let d := st.desc
  let dim := sdDim d
  ((r.cands.zip mask).zip p).foldl (fun (a : List Nat × Bool × State) jp =>
    if !jp.1.2 then a
    else match pageAt pages jp.1.1 with
      | none => a
      | some g =>
        let v := a.2.2.pageRow g dim jp.1.1 true
        let u := a.2.2.reportBad v.2.1 v.2.2
        let w := f32Mul jp.2 (sdVScale d g.fmt)
        ((a.1.zip v.1).map (fun ov => fmaF32 ov.1 w g.fmt ov.2), a.2.1 || u.poisoned v.2.1 v.2.2, u))
    (List.replicate dim 0, false, s)

/-- The bytes of an output row in OUT_FMT (R183, R235). -/
def outBytes (fmt : Nat) (o : List Nat) : List Byte := o.flatMap (fun y => natLe (elemSize fmt) (convertTo fmt false y).1)

/-- One row of VALUE: its output bytes are collected. -/
def State.valueOne (x : PhaseRun × List (AtnRow × List Byte)) (st : AtnStep) (ra : AtnRow × Nat) : PhaseRun × List (AtnRow × List Byte) :=
  if x.1.code.isSome then x
  else
    let r := ra.1
    let d := st.desc
    let fail (s : State) (c : Nat) : PhaseRun × List (AtnRow × List Byte) := ({ s, code := some c, seq := r.seq }, x.2)
    let s := x.1.s.reportBad ra.2 (scoreStride r.cands.length)
    match s.maskOf st r, st.pages r.seq with
    | .error c, _ => fail (s.layFail (atnUser st.run) c (sdCtx d) (sdMaskBase d)) c
    | .ok _, none => fail s 0x04
    | .ok (mask, mp), some pages =>
      let p := s.scoreVals ra.2 r.cands.length
      -- an EMPTY row, whose probabilities are all 0, is written as zeros
      let v := if p.all (· == 0) then (List.replicate (sdDim d) 0, false, s) else s.valueRow st pages r mask p
      if mp || v.2.1 || s.poisoned ra.2 (scoreStride r.cands.length) then fail v.2.2 0x06
      else ({ s := v.2.2 }, x.2 ++ [(r, outBytes (sdOutFmt d) v.1)])

/-- A block is finished (R231): its slot is free and its rows counted; with its last block a step ends (R228, R244). -/
def State.blockDone (s : State) (b : AtnBlock) (st : AtnStep) : State :=
  let n := b.rows.length
  let s := { s with atn := { s.atn with blocks := s.atn.blocks.filter (fun c => c != b) } }
  let s := (s.modAdd F.ATN_ROWS_ROWS n).updStep st.id (fun x => { x with done := x.done + n })
  if st.rows.isEmpty && !s.atn.blocks.any (fun c => c.step == st.id) then
    ((s.closeStep st.id).modInc F.ATN_COUNTS_STEPS).atnEnd st.run st.index none (st.done + n)
  else s

/-- Whether a block is the last of its step: its writes complete their descriptor. -/
def State.lastBlock (s : State) (b : AtnBlock) (st : AtnStep) : Bool :=
  st.rows.isEmpty && !s.atn.blocks.any (fun c => c.step == st.id && c != b)

/-- VALUE over the rows of a block (R235). -/
def State.valueBlock (s : State) (st : AtnStep) (rows : List (AtnRow × Nat)) : PhaseRun × List (AtnRow × List Byte) :=
  rows.foldl (fun x ra => State.valueOne x st ra) ({ s }, [])

/-- The rows of a finished block are written through the descriptor at a device address, and the block is done; or the step
faults (R231, R239). -/
def State.rowsWritten (x : PhaseRun × List (AtnRow × List Byte)) (b : AtnBlock) (st : AtnStep) (at_ : Nat) (fin : Bool) : State :=
  match x.1.code with
  | some c => x.1.s.atnFault st c x.1.seq
  | none =>
    let w := x.1.s.stepWrite st at_ x.2 fin
    match w.code with
    | some c => w.s.atnFault st c (b.rows.headD default).seq
    | none => w.s.blockDone b st

/-- VALUE_DONE (R235, R228, R231): a FORWARD block's output rows are written and its slot freed. -/
def execValueDone (slot : Nat) (golden : Bool) (s : State) : Host.Outcome State Fault Refusal :=
  .next (
    match s.blockOf slot golden .value with
    | none => s
    | some (b, st) =>
      if !s.atnRuns || sdBackward st.desc then s
      else
        State.rowsWritten (s.valueBlock st (blockRows false (s.slotAddr golden slot) b.rows)) b st (leAt st.desc 88 5) (s.lastBlock b st))

/-- Add binary32 terms to words at a context address, each one indivisible read, add and write (R180, R236). -/
def State.addTerms (s : State) (ctx a : Nat) (l : List Nat) : Except Nat (State × Bool) :=
  match s.ctxTable ctx a (4 * l.length) with
  | .error c => .error c
  | .ok (b, p) =>
    let new := (l.zip ((chunks 4 b).map leNat)).flatMap (fun v => natLe 4 (f32Add v.2 v.1))
    (chunks 64 new).zipIdx.foldl (fun (r : Except Nat (State × Bool)) c =>
      match r with
      | .error e => .error e
      | .ok (s, q) => match s.ctxWrite ctx (a + 64 * c.2) c.1 with
        | .error e => .error e
        | .ok s => .ok (s, q)) (.ok (s, p))

/-- A product of binary32 factors, one multiplication after another, each rounded to a neighbour: the rounding is not stated (R236).
(DESIGN CHOICE: log entry 88) -/
def productFree (l : List Nat) : Nat :=
  l.foldl (fun a b =>
    if f32Exp a = 255 ∨ f32Exp b = 255 ∨ (f32Val a).m = 0 ∨ (f32Val b).m = 0 then f32Mul a b
    else
      let d := dyMul (f32Val a) (f32Val b)
      f32Free (d.m * 2 ^ d.e.toNat) (2 ^ (-d.e).toNat)) (f32OfInt 1)

/-- One candidate of GRADIENT (R236): dV and dK in memory, and dQ of the row. -/
def State.gradCand (x : PhaseRun × List Nat) (st : AtnStep) (pages : List PageView) (r : AtnRow) (q dO : List Nat) (dFmt : Nat)
    (j p ds : Nat) : PhaseRun × List Nat :=
  if x.1.code.isSome then x
  else
    let d := st.desc
    let dim := sdDim d
    let fail (s : State) (c : Nat) : PhaseRun × List Nat := ({ s, code := some c, seq := r.seq }, x.2)
    match pageAt pages j with
    | none => fail x.1.s 0x04
    | some g =>
      let k := x.1.s.pageRow g dim j false
      let s := x.1.s.reportBad k.2.1 k.2.2
      let sc := sdSScale d g.fmt
      let at_ := sdGradBase d + st.grads.getD r.seq 0 * 64 + j * dim * 8
      let dK := q.map (fun e => productFree [ds, sc, widenF32 (sdQFmt d) e])
      let dV := dO.map (fun e => productFree [p, widenF32 dFmt e])
      let dQ := (x.2.zip k.1).map (fun v => f32Add v.1 (productFree [ds, sc, widenF32 g.fmt v.2]))
      if s.poisoned k.2.1 k.2.2 then fail s 0x06
      else match s.addTerms (sdCtx d) at_ dK with
        | .error c => fail (s.layFail (atnUser st.run) c (sdCtx d) at_) c
        | .ok (s, b1) => match s.addTerms (sdCtx d) (at_ + dim * 4) dV with
          | .error c => fail (s.layFail (atnUser st.run) c (sdCtx d) at_) c
          | .ok (s, b2) => if b1 || b2 then fail s 0x06 else ({ s }, dQ)

/-- One row of GRADIENT. -/
def State.gradOne (x : PhaseRun × List (AtnRow × List Byte)) (st : AtnStep) (q dO : Nat → List Nat) (dFmt : Nat)
    (ra : AtnRow × Nat) : PhaseRun × List (AtnRow × List Byte) :=
  if x.1.code.isSome then x
  else
    let r := ra.1
    let d := st.desc
    let n := r.cands.length
    let fail (s : State) (c : Nat) : PhaseRun × List (AtnRow × List Byte) := ({ s, code := some c, seq := r.seq }, x.2)
    let s := x.1.s.reportBad ra.2 (rowSpan true r)
    match s.maskOf st r, st.pages r.seq with
    | .error c, _ => fail (s.layFail (atnUser st.run) c (sdCtx d) (sdMaskBase d)) c
    | .ok _, none => fail s 0x04
    | .ok (mask, mp), some pages =>
      if mp || s.poisoned ra.2 (rowSpan true r) then fail s 0x06
      else
        let p := s.scoreVals ra.2 n
        let ds := s.scoreVals (ra.2 + scoreStride n) n
        let y := ((r.cands.zip mask).zip (p.zip ds)).foldl (fun y c =>
          if c.1.2 then State.gradCand y st pages r (q r.row) (dO r.row) dFmt c.1.1 c.2.1 c.2.2 else y)
          (({ s } : PhaseRun), List.replicate (sdDim d) 0)
        (y.1, x.2 ++ [(r, outBytes (sdOutFmt d) y.2)])

/-- GRADIENT over the rows of a block (R236). -/
def State.gradBlock (s : State) (st : AtnStep) (rows : List (AtnRow × Nat)) (q dO : Nat → List Nat) (dFmt : Nat) :
    PhaseRun × List (AtnRow × List Byte) :=
  rows.foldl (fun x ra => State.gradOne x st q dO dFmt ra) ({ s }, [])

/-- GRADIENT_DONE (R236): a BACKWARD block adds into dK and dV and writes its rows of dQ; its slot is freed.
(DEDUCED: log entry 90) -/
def execGradientDone (slot : Nat) (golden : Bool) (s : State) : Host.Outcome State Fault Refusal :=
  .next (
    match s.blockOf slot golden .value with
    | none => s
    | some (b, st) =>
      let d := st.desc
      if !s.atnRuns || !sdBackward d then s
      else
        let q := s.stepRead st (leAt d 80 5) b.rows false
        let dO := q.1.s.stepRead st (leAt d 96 5) b.rows false
        match q.1.code.or dO.1.code with
        | some c => dO.1.s.atnFault st c (b.rows.headD default).seq
        | none =>
          if q.1.poison || dO.1.poison then dO.1.s.atnFault st 0x06 (b.rows.headD default).seq
          else
            let x := dO.1.s.gradBlock st (blockRows true (s.slotAddr golden slot) b.rows) q.2 dO.2 (layFmt (s.readBytes (leAt d 96 5) 128))
            State.rowsWritten x b st (leAt d 104 5) (s.lastBlock b st))

end Sys2Proof.Machine
end

