-- ==== Sys2Proof/Machine/Flags.lean ====
section
/-! DEFINITION. Register writes by access type (R6 to R9): what a write does under RO, RW, W1C, WO, RWS and RWL, the
LOCK_ERR bit of a discarded locked write, and gated windows. -/

namespace Sys2Proof.Machine

/-- The LOCK_ERR bit of the block that owns an address (R7). PTS has a second EVENT register for the registers of
sparse convolution (06). (DEDUCED: log entry 12) -/
def lockErr (a : Nat) : Option Fld :=
  match windowOf a with
  | some 0 => some F.ARR_EVENT_LOCK_ERR
  | some 1 => some F.NGT_EVENT_LOCK_ERR
  | some 4 => some F.CHK_EVENT_LOCK_ERR
  | some 5 => some (if (a - windowBase) % 0x10000 < 0x400 then F.PTS_EVENT_LOCK_ERR else F.PTS_SPC_EVENT_LOCK_ERR)
  | some 6 => some F.LFT_EVENT_LOCK_ERR
  | some 7 => some F.GLZ_EVENT_LOCK_ERR
  | some 8 => some F.SLV_EVENT_LOCK_ERR
  | some 9 => some F.LAY_EVENT_LOCK_ERR
  | some 10 => some F.ATN_EVENT_LOCK_ERR
  | some 11 => some F.KVC_EVENT_LOCK_ERR
  | some 12 => some F.TIM_EVENT_LOCK_ERR
  | some 13 => some F.ING_EVENT_LOCK_ERR
  | some 14 => some F.SQ_EVENT_LOCK_ERR
  | some 15 => some F.TGS_EVENT_LOCK_ERR
  | some 16 => some F.BML_EVENT_LOCK_ERR
  | some 17 => some F.DDR_EVENT_LOCK_ERR
  | some 18 => some F.SEC_EVENT_LOCK_ERR
  | some 19 => some F.HST_EVENT_LOCK_ERR
  | some 20 => some F.CLK_EVENT_LOCK_ERR
  | some 21 => some F.PWR_EVENT_LOCK_ERR
  | some 23 => some F.OBS_EVENT_LOCK_ERR
  | some 24 => some F.SAF_EVENT_LOCK_ERR
  | _ => none

/-- The bits a write of `half` addresses: all 64, or the addressed 32 (R6). -/
def writeMask (a : Nat) (half : Bool) : BitVec 64 :=
  if !half then ~~~0#64 else if a % 8 = 4 then 0xFFFFFFFF00000000#64 else 0xFFFFFFFF#64

/-- The data of a write, on the addressed half (R6). -/
def writeData (a value : Nat) (half : Bool) : BitVec 64 :=
  if half && a % 8 = 4 then BitVec.ofNat 64 (value % 2 ^ 32 * 2 ^ 32)
  else if half then BitVec.ofNat 64 (value % 2 ^ 32) else BitVec.ofNat 64 value

/-- The register value after a write under the access types of its bits (R7); reserved and RO bits keep theirs (R8). -/
def RegRow.written (r : RegRow) (old data mask : BitVec 64) (locked : Bool) : BitVec 64 :=
  let plain := (r.rw ||| r.rws ||| (if locked then 0#64 else r.rwl)) &&& mask
  let cleared := r.w1c &&& mask &&& data
  (old &&& ~~~plain &&& ~~~cleared) ||| (data &&& plain)

/-- What follows a register write in the block's own status: the number of enabled counters (OBS_STATUS.ACTIVE), and
CHAIN on an even counter discarded (R360). -/
def State.afterWrite (s : State) (a : Nat) : State :=
  if (F.OBS_SEL_EN 0).addr ≤ a ∧ a < (F.OBS_SEL_EN 256).addr then
    let k := (a - (F.OBS_SEL_EN 0).addr) / 8
    let s := if k % 2 = 0 then s.put (F.OBS_SEL_CHAIN k) 0 else s
    s.put F.OBS_STATUS_ACTIVE ((List.range 256).countP (fun k => s.on (F.OBS_SEL_EN k)))
  else if a = F.OBS_CTRL_ENABLE.addr then s.put F.OBS_STATUS_RUNNING (s.get F.OBS_CTRL_ENABLE)
  else s

/-- A write to a register under its access types (R6 to R9). A write at an undefined offset, or in a gated window, is
discarded. A discarded write to locked bits sets LOCK_ERR of the owning block. (DEDUCED: log entry 9) -/
def State.writeReg (s : State) (addr value : Nat) (half : Bool) : State :=
  let a := addr / 8 * 8
  match windowOf a, regRow a with
  | some w, some r =>
    if s.gated w then s
    else
      let mask := writeMask addr half
      let v := r.written (s.reg a) (writeData addr value half) mask s.boot.locked
      -- the Alive bits of CLK_EN read 1 whatever is written (R347)
      let v := if a = F.CLK_EN_EN.addr then v ||| 0x017C000E#64 else v
      let s := if v = s.reg a then s else s.setReg a v
      let s := if s.boot.locked && (r.rwl &&& mask) != 0#64 then
          match lockErr a with
          | some f => s.raise f
          | none => s
        else s
      s.afterWrite a
  | _, _ => s

end Sys2Proof.Machine
end

