-- ==== Sys2Proof/Machine/Points.lean ====
section
/-! DEFINITION. The point engine's commands (spec/05_point_pipeline.md): reading and decoding lidar items, slices and
parts, compensation and insertion, the close of a table, its release. -/

namespace Sys2Proof.Machine

/-- Do something while PTS is enabled and not gated. -/
def State.whenPts (s : State) (f : State → State) : State :=
  if s.on F.PTS_CTRL_ENABLE && s.runs wPTS && !s.pwr.refLost then f s else s

/-! ## Lidar templates (R41, R42) -/

/-- The 64 bytes of a template. -/
def State.template (s : State) (t : Nat) : List Byte :=
  (List.range 8).flatMap (fun j => natLe 8 (s.get (F.ING_TEMPLATE_DATA t j)))

/-- A payload field in the byte order of the template. -/
def payloadField (big : Bool) (p : List Byte) (off w : Nat) : Nat := if big then beAt p off w else leAt p off w

/-- Points of a packet (R41): the fixed number, or as many as fit. -/
def packetPoints (tpl : List Byte) (len : Nat) : Nat :=
  if leAt tpl 4 2 ≠ 0 then leAt tpl 4 2 else (len - leAt tpl 0 2) / max 1 (leAt tpl 2 2)

/-- A template's field `j` of the point at `off`: its raw value in binary32 times SCALE (R71); none when absent. -/
def pointField (tpl p : List Byte) (off j : Nat) : Option Nat :=
  let d := slice tpl (16 + 8 * j) 8
  if !bitSet (leAt d 2 1) 3 then none
  else
    let w := leAt d 2 1 % 4 + 1
    let raw := payloadField (bitSet (leAt tpl 6 1) 1) p (off + leAt d 0 2) w
    let v : Int := if bitSet (leAt d 2 1) 2 then toSigned (8 * w) raw else raw
    some (f32Mul (f32OfInt v) (leAt d 4 4))

/-- A binary32 value times a number, rounded to the nearest integer, halves away from zero. -/
def roundUnit (f : Nat) (scale : Int) : Int :=
  let d := f32Val f
  let m := d.m * scale
  if 0 ≤ d.e then m * 2 ^ d.e.toNat
  else
    let q : Int := ((2 * m.natAbs + 2 ^ (-d.e).toNat) / (2 * 2 ^ (-d.e).toNat) : Nat)
    if m < 0 then -q else q

/-- What becomes of a point (R71). -/
inductive Decoded where
  | noReturn
  | outGrid
  | point (r : PointRec)
  deriving DecidableEq, Repr

/-- Whether a binary32 value is a zero. -/
def f32IsZero (x : Nat) : Bool := x % 2 ^ 31 == 0

/-- Decode point `j` of a packet (R71). The time is STAMP plus the point's offset. -/
def decodePoint (tpl p : List Byte) (stamp : Time) (lidar j : Nat) : Time × Decoded :=
  let off := leAt tpl 0 2 + j * leAt tpl 2 2
  let f (k : Nat) : Nat := (pointField tpl p off k).getD 0
  let sph := bitSet (leAt tpl 6 1) 0
  let ce := trigF32 false (f 2)
  let x := if sph then f32Mul (f32Mul (f 0) ce) (trigF32 false (f 1)) else f 0
  let y := if sph then f32Mul (f32Mul (f 0) ce) (trigF32 true (f 1)) else f 1
  let z := if sph then f32Mul (f 0) (trigF32 true (f 2)) else f 2
  let t := stamp + (match pointField tpl p off 4 with
    | some o => roundUnit o 1
    | none => 0)
  let none_ := if sph then f32IsZero (f 0) else f32IsZero x && f32IsZero y && f32IsZero z
  if none_ then (t, .noReturn)
  else
    let ix := roundUnit x 1000
    let iy := roundUnit y 1000
    let iz := roundUnit z 1000
    if -8388608 ≤ ix ∧ ix ≤ 8388607 ∧ -8388608 ≤ iy ∧ iy ≤ 8388607 ∧ -32768 ≤ iz ∧ iz ≤ 32767 then
      let inten := match pointField tpl p off 3 with
        | some v => (clampInt 0 255 (roundUnit v 1)).toNat
        | none => 0
      let ret := match pointField tpl p off 5 with
        | some v => ofInt 4 (roundUnit v 1)
        | none => 0
      (t, .point { x := ix, y := iy, z := iz, t, intensity := inten, lidar, ret, slice := 0 })
    else (t, .outGrid)

/-! ## Slices and parts (R72, R73) -/

def State.lslot (s : State) (l : Nat) : LidarSlot := s.pts.slots.getD l {}

def State.updLslot (s : State) (l : Nat) (f : LidarSlot → LidarSlot) : State :=
  { s with pts := { s.pts with slots := modifyAt f l s.pts.slots } }

/-- The 16 bytes of a stored record (R70). -/
def PointRec.bytes (r : PointRec) (p : Time) : List Byte :=
  natLe 3 (ofInt 24 r.x) ++ natLe 3 (ofInt 24 r.y) ++ natLe 2 (ofInt 16 r.z)
    ++ natLe 4 (ofInt 32 (clampInt (-(2 ^ 31 - 1)) (2 ^ 31 - 1) (r.t - p))) ++ natLe 1 r.intensity
    ++ natLe 1 (r.lidar + 16 * r.ret) ++ natLe 1 (r.slice + 128) ++ [0]

/-- A record's DT saturates (R70). -/
def PointRec.farFrom (r : PointRec) (p : Time) : Bool := decide (2 ^ 31 - 1 < (r.t - p).natAbs)

/-- The address of the `n`-th record of a slot's staging area: 1 MiB per enabled slot from PTS_STAGE_BASE, used as a ring (R70).
(DESIGN CHOICE: log entry 181) -/
def State.stageAddr (s : State) (l n : Nat) : Nat :=
  s.base F.PTS_STAGE_BASE_BASE + (List.range l).countP (fun k => s.on (F.PTS_LIDAR_CFG_ENABLE k)) * 0x100000 + n % 65536 * 16

/-- The reference time of a cycle's table, from which DT counts (R70, R75). -/
def State.refTime (s : State) (cycle : Nat) : Time := ((s.ptable cycle).map (·.p)).getD 0

/-- Complete the open part of a slot (R73). A part with no record completes at once as a no-op, with its completion token (R87). -/
def State.completePart (s : State) (l : Nat) : State :=
  match (s.lslot l).part with
  | none => s
  | some p =>
    let s := s.updLslot l (fun x => { x with part := none })
    if p.recs.isEmpty then s.emit (.completion 96 p.cycle p.slice)
    else { s with pts := { s.pts with parts := s.pts.parts ++ [{ p with doneAt := s.now }] } }

/-- The stream of a lidar slot. -/
def State.lidarStream (s : State) (l : Nat) : Nat := s.get (F.PTS_LIDAR_CFG_STREAM l)

/-- SLICES of a slot and PERIOD of its stream (R72). -/
def State.sliceCount (s : State) (l : Nat) : Nat := max 1 (s.get (F.PTS_LIDAR_CFG_SLICES l))
def State.sweepPeriod (s : State) (l : Nat) : Int := max 1 (s.get (F.ING_STR_TIME_PERIOD (s.lidarStream l)))

/-- The slice of a time in a sweep, and whether it was clamped to the last (R72). -/
def State.sliceAt (s : State) (l : Nat) (start t : Time) : Nat × Bool :=
  let n := s.sliceCount l
  let k := (t - start) * n / s.sweepPeriod l
  ((clampInt 0 (n - 1 : Nat) k).toNat, decide (((n - 1 : Nat) : Int) < k))

/-- Count a clamped point (R72). -/
def State.countClamped (s : State) (l : Nat) : State := (s.satInc (F.PTS_LIDAR_STAT_CLAMPED l)).raise F.PTS_EVENT_SLICE_CLAMPED

/-- Slice a decoded point, kept or not, at its time (R72): the open part of another slice or of 32,768 records completes, and a part of
the point's slice is open. -/
def State.slicePoint (s : State) (l cycle : Nat) (t : Time) : State :=
  let start := (s.lslot l).start.getD t
  let s := s.updLslot l (fun x => { x with start := some start })
  let k := s.sliceAt l start t
  let s := if k.2 then (s.countClamped l).updTable cycle (fun t => t.lidar l (fun c => { c with clamped := true })) else s
  let s := match (s.lslot l).part with
    | some p => if p.slice ≠ k.1 ∨ 32768 ≤ p.recs.length then s.completePart l else s
    | none => s
  let mid := start + (2 * k.1 + 1) * s.sweepPeriod l / (2 * s.sliceCount l)
  s.updLslot l (fun x => { x with part := some (x.part.getD { cycle, slot := l, slice := k.1, mid }) })

/-- Append a kept point's record to the open part, in the staging area too (R70, R72). -/
def State.keepPoint (s : State) (l cycle : Nat) (r : PointRec) : State :=
  match (s.lslot l).part with
  | none => s
  | some p =>
    let r := { r with slice := p.slice }
    let s := s.writeBytes (s.stageAddr l (s.lslot l).staged) (r.bytes (s.refTime cycle))
    let s := if r.farFrom (s.refTime cycle) then s.raise F.PTS_EVENT_DT_SAT else s
    s.updLslot l (fun x => { x with staged := (x.staged + 1) % 65536, part := some { p with recs := p.recs ++ [r] } })

/-! ## Insertion (R75, R77 to R81) -/

/-- The extrinsic of a lidar slot from its rotation and translation registers: rotation in 2^-14 units, translation in 0.1 mm (R90). -/
def extrinsic (ext : Nat × Nat) : Quat × Vec3 :=
  let r (k : Nat) : Int := toSigned 16 (bitsAt ext.1 (16 * k) 16)
  let t (k : Nat) : Int := toSigned 21 (bitsAt ext.2 (21 * k) 21)
  ((r 0, r 1, r 2, r 3), (t 0, t 1, t 2))

/-- A point compensated (R75): inverse(E(P)) * E(m) * L * x, exact but for the rounding of each coordinate to mm.
(DESIGN CHOICE: log entry 42) -/
def compensated (ep em : Pose) (ext : Nat × Nat) (x : Vec3) : Vec3 :=
  let l := extrinsic ext
  let n := l.1.norm
  let y := ((l.1.turn x).map (· * 10)).zip (fun a b => a + b * n) l.2
  let v := ep.between_apply em y (10 * n)
  v.1.map (fun c => roundFree c v.2)

/-- Insert one record into a table (R77): out of the grid, out of the height band, or into its cell and voxel. -/
def PTable.place (t : PTable) (cell : Nat) (ego : Int × Int) (geom : Nat × Nat) (r : PointRec) : PTable × Bool :=
  let c : Int := max 1 cell
  let cx := r.x / c + ego.1
  let cy := r.y / c + ego.2
  if cx < 0 ∨ 511 < cx ∨ cy < 0 ∨ 511 < cy then ({ t with outGrid := t.outGrid + 1 }, false)
  else if r.z < -2000 ∨ 4000 ≤ r.z then ({ t with outZ := t.outZ + 1 }, false)
  else t.insert (cy.toNat * 512 + cx.toNat) (rangeClass cell ego geom cx cy) ((r.z + 2000) / 750).toNat r

/-- The cell size in mm (09). -/
def State.cellSize (s : State) : Nat := s.get F.GLZ_GRID_CELL_SIZE

/-- Place compensated records one after another; also whether a probe limit was met. -/
def PTable.placeAll (cell : Nat) (ego : Int × Int) (geom : Nat × Nat) : PTable → List PointRec → PTable × Bool
  | t, [] => (t, false)
  | t, r :: rest =>
    let a := t.place cell ego geom r
    let b := PTable.placeAll cell ego geom a.1 rest
    (b.1, a.2 || b.2)

/-- Events that insertion into a table raises (R81, R79). -/
def State.insertEvents (s : State) (before after : PTable) (probe : Bool) : State :=
  let s := if after.refused + after.evicted ≠ before.refused + before.evicted then s.raise F.PTS_EVENT_OVERFLOW_PILLARS else s
  if probe then s.raise F.PTS_EVENT_PROBE_LIMIT else s

/-- Compensate a part and insert its records in the table of its instance (R75); `predicted` is R76's forward prediction. -/
def State.insertPart (s : State) (p : Part) (predicted : Bool) : State :=
  let s := { s with pts := { s.pts with parts := removeFirst (· == p) s.pts.parts } }
  match s.ptable p.cycle, s.ptsWin p.cycle, s.inst p.cycle with
  | some t, some w, some i =>
    let s := (s.usePose p.cycle t.p).usePose p.cycle p.mid
    let ext := w.ext.getD p.slot (0x4000, 0)
    let ep := s.poseAt t.p
    let em := s.poseAt p.mid
    let recs := p.recs.map (fun r =>
      let q := compensated ep em ext (r.x, r.y, r.z)
      { r with x := q.1, y := q.2.1, z := q.2.2 })
    let s := if recs.any (·.farFrom t.p) then s.raise F.PTS_EVENT_DT_SAT else s
    let o := PTable.placeAll s.cellSize i.ego w.geom t recs
    let t' := o.1.lidar p.slot (fun c => { c with parts := c.parts + 1, predicted := c.predicted || predicted })
    let s := if predicted then (s.raise F.PTS_EVENT_POSE_PREDICTED).satInc (F.PTS_LIDAR_STAT_PREDICTED p.slot) else s
    ((s.updTable p.cycle (fun _ => t')).insertEvents t o.1 o.2).emit (.completion 96 p.cycle p.slice)
  | _, _, _ => s

/-! ## Reading items (R69, R74, R84, R88) -/

/-- Flag every table that is still collecting (R84). -/
def State.flagCollecting (s : State) (f : PTable → PTable) : State :=
  { s with pts := { s.pts with tables := s.pts.tables.map (fun t => if t.closed then t else f t) } }

/-- The lidar slot bound to a stream. -/
def State.slotOfStream (s : State) (stream : Nat) : Option Nat :=
  (List.range 16).find? (fun l => s.on (F.PTS_LIDAR_CFG_ENABLE l) && s.lidarStream l == stream)

/-- A gap marker on a lidar queue (R84). -/
def State.pointGap (s : State) (q : Nat) (reset : Bool) (items : Nat) : State :=
  if reset then (s.raise F.PTS_EVENT_ITEM_DISCARD).flagCollecting (fun t => { t with degraded := true })
  else
    let fixed := ((List.range 64).filter (fun i => s.on (F.ING_STR_CFG_ENABLE i) && s.get (F.ING_STR_CFG_KIND i) == 1
      && s.get (F.ING_STR_CFG_QUEUE i) == q)).map (fun i => leAt (s.template (s.get (F.ING_STR_MATCH_TEMPLATE i))) 4 2)
    let per := match fixed with
      | [] => 1
      | p :: r => if p ≠ 0 && r.all (· == p) then p else 1
    (s.raise F.PTS_EVENT_OVERFLOW_POINTS).flagCollecting (fun t =>
      { t with ovfPoints := true, overflow := t.overflow + items * per })

/-- Count a decoded point that is not kept. -/
def PTable.drop (t : PTable) : Decoded → PTable
  | .noReturn => { t with noReturn := t.noReturn + 1 }
  | .outGrid => { t with outGrid := t.outGrid + 1 }
  | .point _ => t

/-- Decode the points of an item for an instance, point by point (R71, R72). -/
def State.decodeItem (s : State) (l cycle : Nat) (tpl payload : List Byte) (stamp : Time) : List Nat → State
  | [] => s
  | j :: r =>
    let d := decodePoint tpl payload stamp l j
    let s := s.updTable cycle (fun t => (t.drop d.2).lidar l (fun c => { c with decoded := c.decoded + 1 }))
    let s := s.slicePoint l cycle d.1
    let s := match d.2 with
      | .point p => s.keepPoint l cycle p
      | _ => s
    s.decodeItem l cycle tpl payload stamp r

/-- The slicing of the golden frame's points of a slot: the sweep's start and the open part's slice (R88). -/
def State.goldSlice (s : State) (l : Nat) : Option (Time × Option Nat) := (s.pts.goldSlices.find? (fun g => g.1 == l)).map (·.2)

def State.setGoldSlice (s : State) (l : Nat) (x : Time × Option Nat) : State :=
  { s with pts := { s.pts with goldSlices := (l, x) :: s.pts.goldSlices.filter (fun g => g.1 != l) } }

/-- A decoded point of the golden frame (R88): sliced like a real one; compensated with the identity pose, by its slot's extrinsic
alone, it goes into the golden table at once. (DEDUCED: log entry 45) -/
def State.goldenPoint (s : State) (l : Nat) (d : Time × Decoded) : State :=
  match s.pts.golden with
  | none => s
  | some g =>
    let st := (s.goldSlice l).getD (d.1, none)
    let k := s.sliceAt l st.1 d.1
    let s := if k.2 then s.countClamped l else s
    let s := if st.2.any (· != k.1) then s.emit (.completion 96 g.cycle (st.2.getD 0)) else s
    let s := s.setGoldSlice l (st.1, some k.1)
    let g := ((g.drop d.2).lidar l (fun c => { c with decoded := c.decoded + 1, clamped := c.clamped || k.2 }))
    match d.2 with
    | .point r =>
      let q := compensated Pose.id Pose.id ((s.reg (F.PTS_LIDAR_ROT_QW l).addr).toNat, (s.reg (F.PTS_LIDAR_TRANS_TX l).addr).toNat)
        (r.x, r.y, r.z)
      let r := { r with x := q.1, y := q.2.1, z := q.2.2, slice := k.1 + 64 }
      let s := if r.farFrom g.p then s.raise F.PTS_EVENT_DT_SAT else s
      let o := PTable.placeAll s.cellSize (256, 256) (s.get F.PTS_GEOM_GUARD_RADIUS, s.get F.PTS_GEOM_CLASS_WIDTH) g [r]
      { (s.insertEvents g o.1 o.2) with pts := { s.pts with golden := some o.1 } }
    | _ => { s with pts := { s.pts with golden := some g } }

/-- A golden lidar item (R88). The golden frame's first packet, and no other, carries SWEEP_START; P is its first point's time.
(DEDUCED: log entry 45) -/
def State.goldenItem (s : State) (l : Nat) (tpl payload : List Byte) (stamp : Time) (first : Bool) : State :=
  if !s.on F.PTS_CTRL_GOLDEN_EN then s
  else
    let ds := (List.range (packetPoints tpl payload.length)).map (fun j => decodePoint tpl payload stamp l j)
    let p := (ds.head?.map (·.1)).getD stamp
    let s := if first || s.pts.golden.isNone then
        { s with pts := { s.pts with golden := some { index := 4, cycle := 0, p }, goldSlices := [] } }
      else s
    let s := if first then s.setGoldSlice l (p, none) else s
    ds.foldl (fun u d => u.goldenPoint l d) s

/-- Where an item belongs (R74). -/
inductive ItemWindow where
  /-- No window: discarded (R10). -/
  | none
  /-- Its window has not opened, or has no table: left in the queue. -/
  | later
  | window (cycle : Nat) (late : Bool)
  deriving DecidableEq, Repr

/-- The window of an item with completing-event arrival A (R10, R74). (DEDUCED: log entry 40) -/
def State.itemWindow (s : State) (a : Time) : ItemWindow :=
  if s.glz.fresh || a < s.glz.openFrom then .none
  else
    let openWin (c : Nat) : Bool := (s.ptsWin c).any (fun w => !w.ended)
    let own := s.glz.insts.find? (fun i => decide (i.winStart ≤ a) && decide (a < i.tov))
    match own with
    | some i =>
      if openWin i.cycle then (if (s.ptable i.cycle).isSome then .window i.cycle false else .later)
      else match s.pts.wins.find? (fun w => !w.ended) with
        | some w => if (s.ptable w.cycle).isSome then .window w.cycle true else .later
        | none => .later
    | none =>
      if s.glz.insts.any (fun i => decide (a < i.winStart)) then
        match s.pts.wins.find? (fun w => !w.ended) with
        | some w => if (s.ptable w.cycle).isSome then .window w.cycle true else .later
        | none => .later
      else .later

/-- Take a real item into its instance's table (R71 to R74). -/
def State.pointItem (s : State) (l : Nat) (header payload : List Byte) (stamp : Time) (cycle : Nat) (late : Bool) : State :=
  let stream := s.lidarStream l
  let tpl := s.template (s.get (F.ING_STR_MATCH_TEMPLATE stream))
  let flags := leAt header 11 1
  let s := if late then (s.raise F.PTS_EVENT_LATE_ITEM).updTable cycle (fun t => t.lidar l (fun c => { c with late := true })) else s
  -- an item of a later window, or with SWEEP_START, completes the open part (R73)
  let s := match (s.lslot l).part with
    | some p => if p.cycle ≠ cycle || bitSet flags 1 then s.completePart l else s
    | none => s
  let s := if bitSet flags 2 then
      (s.raise F.PTS_EVENT_OVERFLOW_POINTS).updTable cycle (fun t => { t with ovfPoints := true })
    else s
  let n := packetPoints tpl payload.length
  let s := if bitSet flags 1 && decide (0 < n) then
      (s.modInc (F.PTS_LIDAR_STAT_SWEEPS l)).updLslot l (fun x => { x with start := some (decodePoint tpl payload stamp l 0).1 })
    else s
  s.decodeItem l cycle tpl payload stamp (List.range n)

/-- POINT_ITEM_READ (R69, R71, R74, R84): PTS reads the next item of the ingest queue of a lidar slot. The operands are the checks that
fail as its last word is delivered: parity on leaving the tail, CRC16 at the consumer port (R61). -/
def execPointItemRead (slot : ItemRead) (s : State) : Host.Outcome State Fault Refusal :=
  .next (s.whenPts (fun s =>
    if 16 ≤ slot.src || !s.on (F.PTS_LIDAR_CFG_ENABLE slot.src) then s
    else
      let q := s.get (F.ING_STR_CFG_QUEUE (s.lidarStream slot.src))
      let c : WordChecks := itemChecks slot
      match s.peekItem q c with
      | .none => s
      | .gap reset items => (s.takeItem q).1.pointGap q reset items
      | .item header payload bad steps =>
        let stream := leAt header 10 1 % 64
        let flags := leAt header 11 1
        let stamp := s.itemStamp header steps
        match s.slotOfStream stream with
        | none => (s.takeItem q c).1
        | some l =>
          let tpl := s.template (s.get (F.ING_STR_MATCH_TEMPLATE stream))
          if bad then
            ((s.takeItem q c).1.raise F.PTS_EVENT_ITEM_DISCARD).flagCollecting (fun t => { t with degraded := true })
          else if bitSet flags 6 then (s.takeItem q c).1
          else if bitSet flags 0 then (s.takeItem q c).1.goldenItem l tpl payload stamp (bitSet flags 1)
          else
            match s.itemWindow (stamp + s.get (F.ING_STR_CFG_LATENCY stream)) with
            | .none => (s.takeItem q c).1
            | .later => s.completePart l
            | .window n late =>
              let excl := (s.inst n).any (fun i => bitSet i.excluded stream)
              if excl then (s.takeItem q c).1 else (s.takeItem q c).1.pointItem l header payload stamp n late))

/-! ## Intake, compensation, close (R74 to R76, R82, R83) -/

/-- Whether PTS has read all it will of a window that waited: on every enabled slot the queue is drained or its next item
is of a later window (R74). -/
def State.drainedTo (s : State) (close : Time) : Bool :=
  (List.range 16).all (fun l =>
    !s.on (F.PTS_LIDAR_CFG_ENABLE l) ||
    match s.peekItem (s.get (F.ING_STR_CFG_QUEUE (s.lidarStream l))) with
    | .item header _ _ steps =>
      decide (close ≤ s.itemStamp header steps + s.get (F.ING_STR_CFG_LATENCY (leAt header 10 1 % 64)))
    | .gap _ _ => false
    | .none => true)

/-- INTAKE_END (R74): the intake of the oldest open window ends at W_c + 50 µs, and for one that waited once it has been
read out; the open parts of it and of older windows complete. -/
def execIntakeEnd (s : State) : Host.Outcome State Fault Refusal :=
  .next (s.whenPts (fun s =>
    match s.pts.wins.find? (fun w => !w.ended) with
    | none => s
    | some w =>
      match s.window w.cycle with
      | none => s
      | some (_, close) =>
        if (s.ptable w.cycle).isNone || decide (s.now < close + 50000) || (w.waited && !s.drainedTo close) then s
        else
          let s := (List.range 16).foldl (fun t l => match (t.lslot l).part with
            | some p => if p.cycle ≤ w.cycle then t.completePart l else t
            | none => t) s
          s.updWin w.cycle (fun w => { w with ended := true })))

/-- PART_COMPENSATE (R75, R76): the oldest completed part of a slot, once the trajectory covers its mid-time. -/
def execPartCompensate (slot : Nat) (s : State) : Host.Outcome State Fault Refusal :=
  .next (s.whenPts (fun s =>
    match s.pts.parts.find? (fun p => p.slot == slot) with
    | none => s
    | some p => if s.trajCovers p.mid then s.insertPart p false else s))

/-- POSE_WAIT_TIMEOUT (R76): POSE_WAIT after a part's completion without cover, it is compensated with the prediction. -/
def execPoseWaitTimeout (slot : Nat) (s : State) : Host.Outcome State Fault Refusal :=
  .next (s.whenPts (fun s =>
    match s.pts.parts.find? (fun p => p.slot == slot) with
    | none => s
    | some p =>
      if !s.trajCovers p.mid && decide (p.doneAt + s.get F.PTS_CTRL_POSE_WAIT * 1000 ≤ s.now) then s.insertPart p true
      else s))

/-- LIDAR_MASK of a pillar (R82). -/
def Pillar.lidarMask (p : Pillar) : Nat := p.recs.foldl (fun m r => setBit m r.2.lidar) 0

/-- The 16 bytes of a pillar header (R82). -/
def Pillar.header (p : Pillar) : List Byte :=
  natLe 3 (p.key + p.cls * 2 ^ 18 + (if p.reserve then 2 ^ 22 else 0))
    ++ natLe 1 (p.recs.foldl (fun m r => setBit m r.1) 0) ++ natLe 2 p.lidarMask ++ natLe 2 p.offered
    ++ natLe 2 (tileOfKey p.key) ++ zeroBytes 6

/-- The memory image of a table at its base: hash slots, headers, voxel records (R79, R82). -/
def State.writeTable (s : State) (t : PTable) (a : Nat) : State :=
  let hashLen := if t.index = 4 then 0x20000 else 0x100000
  let headLen := if t.index = 4 then 0x20000 else 0x100000
  let s := s.zeroFill a (a + hashLen + headLen + (if t.index = 4 then 0x100000 else 0x800000))
  let s := t.hash.foldl (fun u h =>
    let p := t.pillars.find? (fun p => p.hslot == h.1)
    u.writeLe (a + 8 * h.1) 8 (h.2.2 + h.2.1 * 2 ^ 18 + ((p.map (·.idx)).getD 0) * 2 ^ 20 + ((p.map (·.cls)).getD 0) * 2 ^ 36)) s
  t.pillars.foldl (fun u p =>
    let u := u.writeBytes (a + hashLen + 16 * p.idx) p.header
    p.recs.foldl (fun u r => u.writeBytes (a + hashLen + headLen + 128 * p.idx + 16 * r.1) (r.2.bytes t.p)) u) s

/-- The 576-byte instance summary (R83). -/
def PTable.summary (t : PTable) : List Byte :=
  let lid (l : Nat) : List Byte :=
    let ts := (t.kept.filter (fun r => r.lidar == l)).map (·.t)
    let c := (t.lidars.find? (fun c => c.lidar == l)).getD { lidar := l }
    let lo := match ts with
      | [] => 2 ^ 64 - 1
      | x :: r => ofInt 64 (r.foldl min x)
    let hi := match ts with
      | [] => 2 ^ 64 - 1
      | x :: r => ofInt 64 (r.foldl max x)
    natLe 8 lo ++ natLe 8 hi ++ natLe 4 c.decoded ++ natLe 4 ts.length ++ natLe 2 c.parts
      ++ natLe 1 ((if c.predicted then 1 else 0) + (if c.clamped then 2 else 0) + (if c.late then 4 else 0)) ++ zeroBytes 5
  natLe 8 (ofInt 64 t.p) ++ natLe 4 t.pillars.length
    ++ natLe 4 ((if t.ovfPoints then 1 else 0) + (if t.degraded then 2 else 0))
    ++ natLe 32 (t.ovfTiles.foldl setBit 0) ++ zeroBytes 16 ++ (List.range 16).flatMap lid

/-- TABLE_CLOSE (R82, R83, R87): with its intake ended and every part inserted, the oldest such table closes. -/
def execTableClose (s : State) : Host.Outcome State Fault Refusal :=
  .next (s.whenPts (fun s =>
    match s.pts.tables.find? (fun t => !t.closed && (s.ptsWin t.cycle).any (·.ended)
        && !s.pts.parts.any (fun p => p.cycle == t.cycle) && s.mayRun t.cycle) with
    | none => s
    | some t =>
      let s := s.updTable t.cycle (fun t => { t with closed := true })
      let s := (s.endBudget 2 t.cycle).startBudget 3 t.cycle t.cycle
      let s := (s.writeTable t (s.base (F.PTS_TABLE_BASE t.index))).unitDone 96 false t.cycle 0
      let s := { s with pts := { s.pts with summary := t.summary } }
      let s := ((s.put F.PTS_LAST_POINTS_IN (satNat 24 ((t.lidars.map (·.decoded)).foldl (· + ·) 0))).put
        F.PTS_LAST_POINTS_KEPT (satNat 24 t.kept.length)).put F.PTS_LAST_POINTS_OVERFLOW (satNat 16 t.overflow)
      let s := (((s.put F.PTS_LAST_DROPS_NO_RETURN (satNat 16 t.noReturn)).put F.PTS_LAST_DROPS_OUTSIDE_GRID
        (satNat 16 t.outGrid)).put F.PTS_LAST_DROPS_OUTSIDE_Z (satNat 16 t.outZ)).put F.PTS_LAST_DROPS_SUPERSEDED
        (satNat 16 t.superseded)
      (((s.put F.PTS_LAST_PILLARS_PILLARS t.pillars.length).put F.PTS_LAST_PILLARS_GUARD
        (t.pillars.countP (fun p => p.cls == 0))).put F.PTS_LAST_PILLARS_REFUSED (satNat 16 t.refused)).put
        F.PTS_LAST_PILLARS_EVICTED (satNat 14 t.evicted)))

/-- TABLE_FREE (R82): the oldest table that sparse convolution has consumed and the checker has read. A checker that is
disabled reads no table. (DEDUCED: log entry 44) -/
def execTableFree (s : State) : Host.Outcome State Fault Refusal :=
  .next (s.whenPts (fun s =>
    match s.pts.tables.find? (fun t => t.consumed && (t.read || !s.on F.CHK_CTRL_ENABLE || s.gated wCHK)) with
    | none => s
    | some t => s.freeTable t.cycle))

/-- A change in stream quarantine reaches the head's open table (R85): the table is cleared, the lidar queues rewound to
the head's mark, the slicing state restored, and the table rebuilt without the excluded stream. (DEDUCED: log entry 36) -/
def State.rebuildTable (s : State) (cycle : Nat) : State :=
  match s.ptable cycle, s.ptsWin cycle with
  | some t, some w =>
    if t.closed then s
    else
      let s := s.raise F.PTS_EVENT_REBUILD
      let qs := ((List.range 16).filter (fun l => s.on (F.PTS_LIDAR_CFG_ENABLE l))).map (fun l =>
        s.get (F.ING_STR_CFG_QUEUE (s.lidarStream l)))
      let s := qs.eraseDups.foldl (fun u q => u.queueRewind q (slotOf cycle)) s
      let s := { s with pts := { s.pts with slots := w.saved, parts := [] } }
      (s.updTable cycle (fun t => { index := t.index, cycle := t.cycle, p := t.p })).updWin cycle (fun w => { w with ended := false })
  | _, _ => s

/-- The instance summary's OLDEST of each lidar that kept a record, by its stream (R83, R139). -/
def State.oldestOf (s : State) (t : PTable) : List (Nat × Time) :=
  (List.range 16).filterMap (fun l =>
    match (t.kept.filter (fun r => r.lidar == l)).map (·.t) with
    | [] => none
    | x :: r => some (s.lidarStream l, r.foldl min x))

/-- PTS_STATUS as computed (05). -/
def State.ptsStatus (s : State) : BitVec 64 :=
  if !s.on F.PTS_CTRL_ENABLE then 0
  else
    let busy := s.pts.tables.foldl (fun m t => setBit m t.index) 0
    let c := s.pts.tables.find? (fun t => !t.closed)
    BitVec.ofNat 64 (s.get F.PTS_CTRL_TABLES % 8 + busy * 8 + (c.map (fun t => slotOf t.cycle)).getD 0 * 2 ^ 7
      + (if c.isSome then 2 ^ 9 else 0) + (if s.waitingWin.isSome then 2 ^ 10 else 0)
      + (c.map (fun t => t.pillars.length)).getD 0 * 2 ^ 11)

end Sys2Proof.Machine
end

