-- ==== Sys2Proof/Machine/BringUp.lean ====
section
/-! DEFINITION. Service levels (R2, R3), stream bring-up (R51) and the report of the level (R301 step 12). -/

namespace Sys2Proof.Machine

/-- Whether a required unit is failed, fenced or lost (R3). -/
def State.isLost (s : State) (u : ReqUnit) : Bool := s.boot.lost.contains u

/-- A unit of a window is present: its clock is enabled, its ENABLE field set where it has one, and it is not lost. -/
def State.unitIn (s : State) (w : Nat) (en : Bool) (u : ReqUnit) : Bool :=
  s.clockOn w && en && !s.isLost u && !s.isLost (.enabled w)

/-- The Alive units remain (R2): without one of them the device reports no level. (DEDUCED: log entry 156) -/
def State.aliveOk (s : State) : Bool :=
  !([ReqUnit.toffee, .rootOfTrust, .pralineCores, .nougatBank0, .hostPorts, .refclk].any s.isLost)
    && !bitSet (s.get F.NGT_FAIL_MASK) 0

/-- A failed Nougat bank in the activations partition leaves Alive at most (R216). -/
def State.actBanksOk (s : State) : Bool := s.get F.NGT_FAIL_MASK % 2 ^ s.get F.NGT_CTRL_ACT_BANKS == 0

/-- The units of Ego, beyond Alive (R2). -/
def State.egoOk (s : State) : Bool :=
  s.actBanksOk && s.unitIn wSLV (s.on F.SLV_CTRL_ENABLE) .solver && s.unitIn wTIM true .timeEngine
    && s.unitIn wING (s.on F.ING_CTRL_SPI_EN || s.on F.ING_CTRL_ENC_EN) .imuWheel

/-- The units of Guard, beyond Ego (R2). -/
def State.guardOk (s : State) : Bool :=
  s.unitIn wPTS (s.on F.PTS_CTRL_ENABLE) .pointEngine && s.unitIn wING (s.on F.ING_CTRL_ETH_EN) .lidarPath
    && s.unitIn wCHK (s.on F.CHK_CTRL_ENABLE) .checker

/-- The units of Full, beyond Guard: every unit the image enables, at least 32 array tiles, no failed Nougat bank
(R2, R216). -/
def State.fullOk (s : State) : Bool :=
  (List.range 25).all (fun w => !s.clockOn w || !s.isLost (.enabled w)) && !s.isLost .arrayTiles
    && decide (32 ≤ popCount 64 (s.get F.ARR_PRESENT_MASK)) && s.get F.NGT_FAIL_MASK == 0

/-- The highest level whose every required unit is present; none without an Alive unit (R2). -/
def State.levelNow (s : State) : Option Nat :=
  if !s.aliveOk then none
  else if s.boot.step = .noImage || !s.egoOk then some 0
  else if !s.guardOk then some 1
  else if !s.fullOk then some 2
  else some 3

/-- Bring up the enabled streams (R51): CHECK = 0 to ADMITTED, else WAITING. -/
def State.bringUpStreams (s : State) : State :=
  (List.range 64).foldl (fun t i =>
    if t.on (F.ING_STR_CFG_ENABLE i) then
      let t := t.put (F.ING_STR_STAT_STATE i) (if t.get (F.ING_STR_CFG_CHECK i) = 0 then 2 else 1)
      { t with ing := { t.ing with lastRx := (i, t.now) :: t.ing.lastRx.filter (fun x => x.1 != i) } }
    else t) s

/-- What the safety state needs to leave Safe with cause START (R286): the level reported and, with the profile, the
latent-fault tests and one passed golden frame of each enabled entry. -/
def State.startTransition (s : State) : State :=
  if s.safety = stSafe && s.get F.SAF_STATE_CAUSE == cSTART && s.boot.level.isSome && !s.sec.tampered
      && (!s.on F.SAF_CTRL_PROFILE_EN
        || (s.saf.latentOk && ((List.range 16).filter s.goldenEnabled).all (fun e => bitSet s.saf.passed e))) then
    let s := s.returnTo stNormal
    { s with saf := { s.saf with hbStart := some (s.pwr.refclk + 25000000 * s.get F.SAF_TIMING_HB_GRACE) } }
  else s

/-- Completion of a reset other than POWER_ON appends a tick (R368). -/
def State.resetComplete (s : State) : State := if s.boot.running = some 1 then s else s.eventTick

/-- The level to report (R2): after a reset without self-test at most the level that held before it (R3). -/
def State.cappedLevel (s : State) : Option Nat :=
  match s.levelNow, s.boot.cap with
  | some l, some c => some (min l c)
  | l, _ => l

/-- Streams come up and the level is reported (R301 step 12), once acquisition has ended (R18, R19). -/
def State.reportLevel (s : State) : State :=
  if s.boot.step ≠ .acquiring then s
  else
    let s := s.resetComplete.bringUpStreams
    let lv := s.cappedLevel
    let us := (s.pwr.refclk - s.boot.releasedAt) / 25
    let s := { s with
      tim := { s.tim with streamsUp := true, acqStart := none }
      slv := { s.slv with param := s.readBytes (s.base F.SLV_PARAM_BASE_BASE) 256 }
      boot := { s.boot with step := .up, running := none, level := lv, held := lv.isNone
                            start := { s.boot.start with level := lv.getD 0, levelAt := satNat 32 us } } }
    if lv.isNone then s else s.startTransition

/-- A unit joins those lost. -/
def State.addLost (s : State) (u : ReqUnit) : State :=
  if s.isLost u then s else { s with boot := { s.boot with lost := u :: s.boot.lost } }

end Sys2Proof.Machine
end

