-- ==== Sys2Proof/Machine/Sparse.lean ====
section
/-! DEFINITION. Sparse convolution over pillars (spec/06_sparse_convolution.md): the site set, dilation, staging blocks
and output blocks, for instances and for the golden pass. -/

namespace Sys2Proof.Machine

def State.spcOf (s : State) (golden : Bool) : Option Spc := if golden then s.spcGold else s.spc

def State.setSpc (s : State) (golden : Bool) (x : Option Spc) : State :=
  if golden then { s with spcGold := x } else { s with spc := x }

/-! ## Layers and sites (R92, R93) -/

/-- KERNEL 3 × 3, SUPPRESS, C_IN, C_OUT of a layer (R93). -/
def State.layer (s : State) (l : Nat) : Bool × Bool × Nat × Nat :=
  let d := s.readBytes (s.base F.PTS_LAYER_BASE_BASE + 8 * l) 8
  (bitSet (leAt d 0 1) 0, bitSet (leAt d 0 1) 1, leAt d 1 1, leAt d 2 1)

def State.layers (s : State) : Nat := s.get F.PTS_SPC_CTRL_LAYERS

/-- The largest C_OUT of the image, in groups. -/
def State.maxOut (s : State) : Nat := ((List.range s.layers).map (fun l => (s.layer l).2.2.2)).foldl max 1

/-- Buckets, base of the site table and of its list, and the site limit (R92, R102, R104). (DEDUCED: log entry 47) -/
def State.siteArea (s : State) (golden : Bool) : Nat × Nat × Nat × Nat :=
  if golden then
    let a := s.base F.PTS_GOLDEN_SITE_BASE_BASE
    (8192, a, a + 0x40000, 16384)
  else
    let a := s.base F.PTS_SITE_BASE_BASE
    (131072, a, a + 0x400000, s.get F.PTS_SPC_CTRL_SITE_LIMIT)

/-- Feature buffer 0 or 1 (R98, R102). -/
def State.featBase (s : State) (golden : Bool) (b : Nat) : Nat :=
  if golden then s.base F.PTS_GOLDEN_SITE_BASE_BASE + 0x50000 + b * 16384 * 64 * s.maxOut
  else if b = 0 then s.base F.PTS_FEAT_BASE0_BASE else s.base F.PTS_FEAT_BASE1_BASE

/-- The probe of the site table (R92). -/
def State.siteProbe (s : State) (golden : Bool) (x : Spc) (key : Nat) : ProbeResult :=
  let n := (s.siteArea golden).1
  probeFrom x.hash key (hashKey key 15 n) n 256 0 none

/-- Insert a site at a slot, in the set and in the memory image of the site table and list (R92); SITE_FULL is set when the count
reaches SITE_LIMIT (R96). -/
def State.addSite (s : State) (golden : Bool) (x : Spc) (key cls slot : Nat) : State × Spc :=
  let ar := s.siteArea golden
  let i := x.sites.length
  let s := s.writeLe (ar.2.1 + 8 * slot) 8 (key + 2 ^ 18 + i * 2 ^ 20 + cls * 2 ^ 38 + x.layer * 2 ^ 42)
  let s := s.writeLe (ar.2.2.1 + 4 * i) 4 (key + cls * 2 ^ 18)
  let s := if i + 1 = ar.2.2.2 then s.raise F.PTS_SPC_EVENT_SITE_FULL else s
  (s, { x with sites := x.sites ++ [(key, cls)], hash := (slot, 1, key) :: x.hash })

/-- A refused candidate site (R96). -/
def Spc.refuse (x : Spc) (key : Nat) : Spc :=
  let tile := tileOfKey key
  { x with refused := x.refused + 1, fullAt := x.fullAt.or (some x.layer)
           ovfTiles := if x.ovfTiles.contains tile then x.ovfTiles else tile :: x.ovfTiles }

/-- Offer a cell as a new site (R95, R96): refused at the limit, and where the probe finds no free slot. -/
def State.offerSite (s : State) (golden : Bool) (x : Spc) (key cls : Nat) : State × Spc :=
  match s.siteProbe golden x key with
  | .found _ => (s, x)
  | .absent none => (s.raise F.PTS_SPC_EVENT_PROBE_LIMIT_S, x.refuse key)
  | .absent (some slot) =>
    if (s.siteArea golden).2.2.2 ≤ x.sites.length then (s, x.refuse key) else s.addSite golden x key cls slot

/-- Offer several cells one after another. -/
def State.offerSites (s : State) (golden : Bool) (x : Spc) : List (Nat × Nat) → State × Spc
  | [] => (s, x)
  | c :: r =>
    let o := s.offerSite golden x c.1 c.2
    o.1.offerSites golden o.2 r

/-- The neighbours of a cell in the order of R95, within the grid. -/
def neighbours (key : Nat) : List Nat :=
  ([(-1, -1), (0, -1), (1, -1), (-1, 0), (1, 0), (-1, 1), (0, 1), (1, 1)] : List (Int × Int)).filterMap (fun d =>
    let cx : Int := (key % 512 : Nat) + d.1
    let cy : Int := (key / 512 : Nat) + d.2
    if cx < 0 ∨ 511 < cx ∨ cy < 0 ∨ 511 < cy then none else some (cy.toNat * 512 + cx.toNat))

/-! ## Commands -/

/-- SPARSE_CONV_START (R91): the oldest instance whose table has closed, after the previous one has emitted its last
block; the sites are its pillars in emission order. The golden pass takes the golden table (R102). (DEDUCED: log entry 47) -/
def execSparseConvStart (golden : Bool) (s : State) : Host.Outcome State Fault Refusal :=
  .next (s.whenPts (fun s =>
    let go (s : State) (t : PTable) (ego : Int × Int) (geom : Nat × Nat) : State :=
      let ar := s.siteArea golden
      let s := s.zeroFill ar.2.1 (ar.2.2.1 + ar.2.2.2 * 4)
      let x : Spc := { table := t, ego, cell := s.cellSize, geom }
      let o := s.offerSites golden x (t.emission.map (fun p => (p.key, p.cls)))
      o.1.setSpc golden (some { o.2 with nIn := o.2.sites.length, sitesIn := o.2.sites.length })
    if (s.spcOf golden).isSome then s
    else if golden then
      match s.pts.golden with
      | some t =>
        let s := s.writeTable t (s.base F.PTS_GOLDEN_BASE_BASE)
        let s := { s with pts := { s.pts with goldBlocks := [] } }
        go s t (256, 256) (s.get F.PTS_GEOM_GUARD_RADIUS, s.get F.PTS_GEOM_CLASS_WIDTH)
      | none => s
    else
      -- one instance at a time, in instance order
      match s.glz.insts.find? (fun i => !i.pillarDone) with
      | none => s
      | some i =>
        match s.ptable i.cycle, s.ptsWin i.cycle with
        | some t, some w => if t.closed && !t.consumed && s.mayRun i.cycle then go s t i.ego w.geom else s
        | _, _ => s))

/-- DILATE (R95): before a dilating layer the site set grows, near to far. -/
def execDilate (golden : Bool) (s : State) : Host.Outcome State Fault Refusal :=
  .next (s.whenPts (fun s =>
    match s.spcOf golden with
    | none => s
    | some x =>
      if x.dilated || s.layers ≤ x.layer then s
      else
        let s := s.unitDone 96 golden x.table.cycle x.layer
        let l := s.layer x.layer
        let x := { x with nIn := x.sites.length, dilated := true }
        if !l.1 || l.2.1 then s.setSpc golden (some x)
        else
          let parents := (List.range 16).flatMap (fun k => x.sites.filter (fun c => c.2 == k))
          let cand := (parents.flatMap (fun c => neighbours c.1)).map (fun key =>
            (key, rangeClass x.cell x.ego x.geom (key % 512 : Nat) (key / 512 : Nat)))
          let o := s.offerSites golden x cand
          o.1.setSpc golden (some o.2)))

/-- An encoder-row channel: rounded to nearest, ties away from zero, clamped to ±127 (R94). -/
def encChannel (num : Int) (den : Nat) : Byte := BitVec.ofInt 8 (clampInt (-127) 127 (divRound num den))

/-- The encoder row of a pillar (R94); the channels of a voxel whose word is lost are zero (R101). -/
def encoderRow (t : PTable) (cell : Nat) (ego : Int × Int) (lost : Nat → Bool) (p : Pillar) : List Byte :=
  let c : Int := cell
  let cx : Int := (p.key % 512 : Nat)
  let cy : Int := (p.key / 512 : Nat)
  (List.range 8).flatMap (fun v =>
    match p.recs.find? (fun r => r.1 == v && !lost v) with
    | none => zeroBytes 8
    | some (_, r) =>
      [127, encChannel (127 * (2 * r.x - (2 * (cx - ego.1) + 1) * c)) (max 1 cell),
       encChannel (127 * (2 * r.y - (2 * (cy - ego.2) + 1) * c)) (max 1 cell),
       encChannel (127 * (r.z - (-1625 + 750 * v))) 375, encChannel (r.intensity - 128) 1,
       encChannel (clampInt (-(2 ^ 31 - 1)) (2 ^ 31 - 1) (r.t - t.p)) 131072, encChannel (8 * r.lidar) 1, encChannel (16 * r.ret) 1])

/-- The site at a kernel offset of a site, when its row is present (R97). -/
def Spc.neighbour (x : Spc) (j o : Nat) : Option Nat :=
  let key := (x.sites.getD j (0, 0)).1
  let cx : Int := (key % 512 : Nat) + ((o % 3 : Nat) : Int) - 1
  let cy : Int := (key / 512 : Nat) + ((o / 3 : Nat) : Int) - 1
  let i := if o = 4 then some j
    else if cx < 0 ∨ 511 < cx ∨ cy < 0 ∨ 511 < cy then none
    else x.sites.findIdx? (fun c => c.1 == cy.toNat * 512 + cx.toNat)
  i.filter (fun i => decide (i < x.nIn))

/-- SLOT of a pass's headers: the instance slot, or 0xFF for the golden pass (R98, R99). -/
def slotByte (golden : Bool) (cycle : Nat) : Nat := if golden then 0xFF else slotOf cycle

/-- The address of a pillar's voxel records in the table's memory (R79, R82, R88). -/
def State.pillarAddr (s : State) (t : PTable) (idx : Nat) : Nat :=
  if t.index = 4 then s.base F.PTS_GOLDEN_BASE_BASE + 0x40000 + 128 * idx else s.base (F.PTS_TABLE_BASE t.index) + 0x200000 + 128 * idx

/-- The next layer, once the current one has been staged, or at once where it has no site; layer 0 staged, the table is consumed. The
layer's completion token follows (R91, R100). -/
def State.layerDone (s : State) (golden : Bool) (x : Spc) : State :=
  let s := if x.layer = 0 && !golden then s.updTable x.table.cycle (fun t => { t with consumed := true }) else s
  (s.setSpc golden (some { x with layer := x.layer + 1, block := 0, dilated := false })).unitDone 96 golden x.table.cycle x.layer

/-- STAGING_BLOCK (R98, R100, R101): the next block of 64 output sites with its present offsets, written into the staging
ring of 8 slots of 192 KiB. (DESIGN CHOICE: log entries 46, 48; DEDUCED: log entry 47) -/
def execStagingBlock (golden : Bool) (s : State) : Host.Outcome State Fault Refusal :=
  .next (s.whenPts (fun s =>
    match s.spcOf golden with
    | none => s
    | some x =>
      -- the golden pass goes before real staging at block boundaries (R102)
      if s.layers ≤ x.layer || !x.dilated || (!golden && s.spcGold.any (fun g => decide (g.layer < s.layers))) then s
      else if x.sites.isEmpty then s.layerDone golden x
      else
        let l := s.layer x.layer
        let first := 64 * x.block
        let rows := min 64 (x.sites.length - first)
        let offs := if l.1 then List.range 9 else [4]
        let len := l.2.2.1 * 64
        let inBase := s.featBase golden ((x.layer + 1) % 2)
        let present := offs.filter (fun o => (List.range rows).any (fun r => (x.neighbour (first + r) o).isSome))
        let pillar (j : Nat) : Option Pillar := x.table.pillars.find? (fun p => p.key == (x.sites.getD j (0, 0)).1)
        -- the memory that the block reads: pillar records for layer 0, feature rows after it
        let from_ (j : Nat) : Nat × Nat :=
          if x.layer = 0 then (match pillar j with
            | some p => (s.pillarAddr x.table p.idx, 128)
            | none => (0, 0))
          else (inBase + j * len, len)
        let reads := present.flatMap (fun o => (List.range rows).filterMap (fun r => x.neighbour (first + r) o))
        let bad := reads.any (fun j => s.poisoned (from_ j).1 (from_ j).2)
        let row (o r : Nat) : List Byte :=
          match x.neighbour (first + r) o with
          | none => zeroBytes len
          | some j =>
            if x.layer = 0 then
              (match pillar j with
              | some p => padTo len (encoderRow x.table x.cell x.ego (fun v => s.poisoned ((from_ j).1 + 16 * v) 16) p)
              | none => zeroBytes len)
            else s.readZeroed (inBase + j * len) len
        let body := present.flatMap (fun o => (List.range 64).flatMap (fun r => if r < rows then row o r else zeroBytes len))
        let mask := present.foldl setBit 0
        let head := withCrc (natLe 4 first ++ natLe 2 rows ++ natLe 2 mask ++ natLe 1 x.layer
          ++ natLe 1 (slotByte golden x.table.cycle) ++ zeroBytes 50)
        let s := if bad then
            (reads.foldl (fun u j => u.reportBad (from_ j).1 (from_ j).2) s).raise F.PTS_SPC_EVENT_DEGRADED
          else s
        let ring := (x.staged + (if golden then (s.spc.map (·.staged)).getD 0 else (s.spcGold.map (·.staged)).getD 0)) % 8
        let s := s.writeBytes (s.base F.PTS_CONV_STAGE_BASE_BASE + ring * 196608) (head ++ body)
        let x := { x with block := x.block + 1, staged := x.staged + 1, degraded := x.degraded || bad }
        if 64 * x.block < x.sites.length then s.setSpc golden (some x) else s.layerDone golden x))

/-! ## Output blocks (R99 to R101) -/

/-- The 64-byte header of an output block (R99). -/
def outHeader (b : Block) (slot : Nat) (p : Time) : List Byte :=
  withCrc (natLe 2 b.tile ++ natLe 2 b.sites
    ++ natLe 1 ((if b.empty then 1 else 0) + (if b.overflow then 2 else 0) + (if b.degraded then 4 else 0)) ++ natLe 1 slot ++ zeroBytes 2
    ++ natLe 8 (ofInt 64 p) ++ zeroBytes 44)

/-- The address of a tile-ring buffer. -/
def State.tileBuf (s : State) (b : Nat) : Nat := s.base F.PTS_TILE_BUF_BASE_BASE + b * 327680

/-- The blocks of a pass that turned out degraded: each carries DEGRADED, those already written too (R101). -/
def State.degradeBlocks (s : State) (golden : Bool) (x : Spc) : State × List Block :=
  if !x.degraded then (s, x.blocks)
  else
    let bs := x.blocks.map (fun b =>
      let b := { b with degraded := true }
      { b with header := outHeader b (slotByte golden x.table.cycle) x.table.p })
    (bs.foldl (fun u b => if b.empty then u else u.writeBytes (u.tileBuf b.buffer) b.header) s, bs)

/-- The tile-ring buffers held: of the settled value, of pending values, of the blocks emitted, and of the golden pass (R99, R102).
(DEDUCED: log entry 183) -/
def State.heldBuffers (s : State) : List Nat :=
  let of (c : Contribution) : List Nat := if c.stream.isNone then (c.blocks.filter (fun b => !b.empty)).map (·.buffer) else []
  s.glz.settled.flatMap of ++ s.glz.insts.flatMap (fun i => i.pending.flatMap of)
    ++ ((s.spc.toList ++ s.spcGold.toList).flatMap (·.blocks) ++ s.pts.goldBlocks).filterMap (fun b => if b.empty then none else some b.buffer)

/-- The end of a pass: an instance's pillar output becomes a pending value (R99, R139), and PTS_SPC_LAST shows it; the golden pass's
blocks stay until the next golden pass (R102). -/
def State.spcDone (s : State) (golden : Bool) (x : Spc) : State :=
  let s := (s.setSpc golden none).unitDone 96 golden x.table.cycle s.layers
  let (s, blocks) := s.degradeBlocks golden x
  if golden then { s with pts := { s.pts with golden := none, goldBlocks := blocks } }
  else
    let c : Contribution := { stream := none, time := x.table.p, blocks, ego := x.ego, oldest := s.oldestOf x.table
                              ovfPoints := x.table.ovfPoints, degraded := x.table.degraded, ovfTiles := x.table.ovfTiles }
    let s := (s.updInst x.table.cycle (fun i => { i.addPending c with pillarDone := true })).poseForValue x.table.cycle x.table.p
    let s := s.endBudget 3 x.table.cycle
    (((s.put F.PTS_SPC_LAST_SITES_IN x.sitesIn).put F.PTS_SPC_LAST_SITES_OUT x.sites.length).put
      F.PTS_SPC_LAST_REFUSED (satNat 16 x.refused)).put F.PTS_SPC_LAST_FULL_LAYER (x.fullAt.getD 0)

/-- OUTPUT_BLOCK (R99, R100): after the last layer, the next tile's output block goes into a free buffer of the tile ring;
a tile with no site emits its header alone. The golden pass's blocks go the same way (R102). -/
def execOutputBlock (golden : Bool) (s : State) : Host.Outcome State Fault Refusal :=
  .next (s.whenPts (fun s =>
    match s.spcOf golden with
    | none => s
    | some x =>
      if x.layer < s.layers then s
      else
        let mine := x.sites.zipIdx.filter (fun c => tileOfKey c.1.1 == x.tile)
        let ovf := x.ovfTiles.contains x.tile
        let next (s : State) (b : Block) : State :=
          let b := { b with header := outHeader b (slotByte golden x.table.cycle) x.table.p }
          let s := if b.empty then s else s.writeBytes (s.tileBuf b.buffer) b.header
          let x := { x with tile := x.tile + 1, blocks := x.blocks ++ [b], degraded := x.degraded || b.degraded }
          if x.tile = 256 then s.spcDone golden x else s.setSpc golden (some x)
        if mine.isEmpty then next s { tile := x.tile, buffer := 0, empty := true, degraded := x.degraded, overflow := ovf }
        else
          let held := s.heldBuffers
          match (List.range (s.get F.PTS_SPC_CTRL_TILE_BUFS)).find? (fun b => !held.contains b) with
          | none => s
          | some b =>
            let len := (s.layer (s.layers - 1)).2.2.2 * 64
            let fb := s.featBase golden ((s.layers - 1) % 2)
            let bad := mine.any (fun c => s.poisoned (fb + c.2 * len) len)
            let rows := (List.range 1024).flatMap (fun r =>
              match mine.find? (fun c => c.1.1 / 512 % 32 * 32 + c.1.1 % 32 == r) with
              | some c => s.readZeroed (fb + c.2 * len) len
              | none => zeroBytes len)
            let s := if bad then
                (mine.foldl (fun u c => u.reportBad (fb + c.2 * len) len) s).raise F.PTS_SPC_EVENT_DEGRADED
              else s
            let s := s.writeBytes (s.tileBuf b + 64) rows
            next s { tile := x.tile, buffer := b, sites := mine.length, degraded := x.degraded || bad, overflow := ovf }))

end Sys2Proof.Machine
end

