-- ==== Sys2Proof/Machine/Fusion.lean ====
section
/-! DEFINITION. The fusion aligner's commands (spec/09_fusion_alignment.md, spec/01_one_fusion_cycle.md) and the
checker's comparison (R276, R277, spec/17_safety.md): opening, the ego-warp, ages and flags, composition, issue,
amendment, reuse. -/

namespace Sys2Proof.Machine

/-- Do something while GLZ is enabled and not gated. -/
def State.whenGlz (s : State) (f : State → State) : State :=
  if s.on F.GLZ_CTRL_ENABLE && s.runs wGLZ && !s.pwr.refLost then f s else s

/-! ## The ego-warp (R141, R389, R390) -/

/-- A warp: cosine and sine of dyaw, dx and dy, as binary32 values. -/
structure Warp where
  c  : Nat
  sn : Nat
  dx : Nat
  dy : Nat
  deriving DecidableEq, Repr

/-- cos or sin of an angle as a binary32 number, from a number proportional to it and the squared norm of the two: a neighbour of the exact
value. (DESIGN CHOICE: log entry 42) -/
def f32OfRoot (c : Int) (n : Nat) : Nat :=
  if n = 0 then f32OfInt (Config.noQuotient c)
  else
    let q := c.natAbs * c.natAbs * 2 ^ 128
    let r := isqrt (q / n)
    if r * r * n = q then f32Free (if c < 0 then -(r : Int) else r) (2 ^ 64)
    else f32Free (if c < 0 then -(2 * r + 1 : Nat) else (2 * r + 1 : Nat)) (2 ^ 65)

/-- The warp between two poses (R141): the planar part of inverse(a) * b, roll, pitch and dz dropped. Each number is exact but for its
rounding to binary32. (DESIGN CHOICE: log entry 42) -/
def warpBetween (a b : Pose) : Warp :=
  let q := a.q.conj.mul b.q
  let c := q.1 * q.1 + q.2.1 * q.2.1 - q.2.2.1 * q.2.2.1 - q.2.2.2 * q.2.2.2
  let sn := 2 * (q.2.1 * q.2.2.1 + q.1 * q.2.2.2)
  let n := (c * c + sn * sn).toNat
  let d := a.between_apply b (0, 0, 0) 1
  { c := f32OfRoot c n, sn := f32OfRoot sn n, dx := f32Free d.1.1 (1000 * d.2), dy := f32Free d.1.2.1 (1000 * d.2) }

/-- The warp from a contribution's time to a ToV (R141, R390). -/
def State.warpOf (s : State) (tc tov : Time) : Warp := warpBetween (s.poseAt tc) (s.poseAt tov)

/-- The source cell (sx, sy) of an output cell, or none outside the grid (R141). -/
def Warp.source (w : Warp) (cell : Nat) (ego egoC : Int × Int) (cx cy : Int) : Option (Nat × Nat) :=
  let c := f32Div (f32OfInt cell) (f32OfInt 1000)
  let half := 0x3F000000
  let x := f32Mul (f32Add (f32OfInt (cx - ego.1)) half) c
  let y := f32Mul (f32Add (f32OfInt (cy - ego.2)) half) c
  let xs := f32Add (f32Sub (f32Mul w.c x) (f32Mul w.sn y)) w.dx
  let ys := f32Add (f32Add (f32Mul w.sn x) (f32Mul w.c y)) w.dy
  let sx := f32Floor (f32Div xs c) + egoC.1
  let sy := f32Floor (f32Div ys c) + egoC.2
  if sx < 0 ∨ 511 < sx ∨ sy < 0 ∨ 511 < sy then none else some (sx.toNat, sy.toNat)

/-- The source cells of a tile's 1,024 cells, in row order. -/
def Warp.sources (w : Warp) (cell : Nat) (ego egoC : Int × Int) (tile : Nat) : List (Option (Nat × Nat)) :=
  (List.range 1024).map (fun k =>
    w.source cell ego egoC ((tile % 16 * 32 + k % 32 : Nat) : Int) ((tile / 16 * 32 + k / 32 : Nat) : Int))

/-- The blocks of a contribution that a tile's warp reads (R389): every lifted block, and an output block without EMPTY. -/
def State.blocksRead (s : State) (i : Inst) (c : Contribution) (tile : Nat) : List Block :=
  let src := ((s.warpOf c.time i.tov).sources s.cellSize i.ego c.ego tile).filterMap (fun o => o.map (fun p => tileOfCell p.1 p.2))
  c.blocks.filter (fun b => !b.empty && src.contains b.tile)

/-- Whether a contribution enters a tile (R389). -/
def State.enters (s : State) (i : Inst) (c : Contribution) (tile : Nat) : Bool := !(s.blocksRead i c tile).isEmpty

/-- Whether a contribution's warp time lies before the oldest estimate of the ring (R141). -/
def State.stale (s : State) (t : Time) : Bool :=
  match s.glz.traj.getLast? with
  | none => false
  | some e => decide (t < e.1)

/-! ## Values and ages (R139, R140, R143) -/

/-- The value an instance uses for a camera: an amending frame taken directly, or the latest value (R139, R150). -/
def State.cameraValue (s : State) (i : Inst) (stream : Nat) : Option Contribution :=
  (i.amendVals.find? (fun c => c.stream == some stream)).or (s.valueOf i.cycle (some stream))

/-- The latest-value time of a lidar for an instance (R139). -/
def State.lidarValueTime (s : State) (i : Inst) (stream : Nat) : Option Time :=
  lidarIn s.glz.lidarTime stream (s.downToHead i.cycle)

/-- The used camera values of an instance. -/
def State.usedCameras (s : State) (i : Inst) : List Contribution :=
  (List.range 64).filterMap (fun k =>
    if bitSet i.included k && s.get (F.ING_STR_CFG_KIND k) == 0 then s.cameraValue i k else none)

/-- The contribution times that count in a tile's age (R143). (DEDUCED: log entry 60) -/
def State.ageTimes (s : State) (i : Inst) (tile : Nat) : List Time :=
  ((s.usedCameras i).filter (fun c => s.enters i c tile)).map (·.time)
    ++ (List.range 64).filterMap (fun k =>
      if bitSet i.included k && s.get (F.ING_STR_CFG_KIND k) == 1 then s.lidarValueTime i k else none)

/-- age_us (R143): none when nothing contributes. (DEDUCED: log entry 60) -/
def ageOf (tov : Time) : List Time → Option Nat
  | [] => none
  | t :: r =>
    let a := tov - r.foldl min t
    some (min ((max a 0) / 1000).toNat 0xFFFFFF)

/-- A flag word from its conditions. -/
def flagBits (l : List (Nat × Bool)) : Nat := l.foldl (fun m f => if f.2 then setBit m f.1 else m) 0

/-! ## The head input (R142) -/

/-- LFT's output ring: bytes per lifted row, and the address of a buffer (R112). -/
def State.cLift (s : State) : Nat := s.get F.LFT_CTRL_C_LIFT + 1
def State.liftBuf (s : State) (b : Nat) : Nat := s.base F.LFT_OUT_BASE_BASE + b * (64 + 65536 * s.cLift)

/-- Bytes of an output row of sparse convolution: C_OUT of the last layer (R99). -/
def State.outRow (s : State) : Nat := (s.layer (s.layers - 1)).2.2.2 * 64

/-- The row of a value that a cell's source names, of `len` bytes in the buffer at `base` of its block; none where the source is empty
(R141). -/
def State.warpedRow (s : State) (addr : Nat → Nat) (len : Nat) (blocks : List Block) (src : Option (Nat × Nat)) : Option (List Byte) :=
  src.bind (fun p => (blocks.find? (fun b => !b.empty && b.tile == tileOfCell p.1 p.2)).map (fun b =>
    s.readZeroed (addr b.buffer + 64 + (p.2 % 32 * 32 + p.1 % 32) * len) len))

/-- The camera plane of a tile (R142): per cell and channel the exact sum of the warped rows of all used cameras, clamped. -/
def State.cameraPlane (s : State) (i : Inst) (tile : Nat) : List Byte :=
  let len := 64 * s.cLift
  let cams := (s.usedCameras i).map (fun c => (c.blocks, (s.warpOf c.time i.tov).sources s.cellSize i.ego c.ego tile))
  (List.range 1024).flatMap (fun k =>
    let rows := cams.filterMap (fun c => s.warpedRow s.liftBuf len c.1 ((c.2.getD k none)))
    (List.range len).map (fun ch =>
      BitVec.ofInt 8 (clampInt (-127) 127 (rows.foldl (fun a r => a + toSigned 8 (leAt r ch 1)) 0))))

/-- The pillar plane of a tile (R142): the warped pillar rows. -/
def State.pillarPlane (s : State) (i : Inst) (tile : Nat) : List Byte :=
  let len := s.outRow
  match s.valueOf i.cycle none with
  | none => zeroBytes (1024 * len)
  | some c =>
    ((s.warpOf c.time i.tov).sources s.cellSize i.ego c.ego tile).flatMap (fun src =>
      (s.warpedRow s.tileBuf len c.blocks src).getD (zeroBytes len))

/-- Memory that a tile's head input reads: the blocks of the used values, address and length. -/
def State.inputAreas (s : State) (i : Inst) (tile : Nat) : List (Nat × Nat) :=
  (s.usedCameras i).flatMap (fun c => (s.blocksRead i c tile).map (fun b => (s.liftBuf b.buffer, 64 + 65536 * s.cLift)))
    ++ ((s.valueOf i.cycle none).toList.flatMap (fun c =>
      (s.blocksRead i c tile).map (fun b => (s.tileBuf b.buffer, 64 + 1024 * s.outRow))))

/-- GLZ composes the head input of a tile (R142); poisoned words of it are reported, and whether it met one (R147).
(DEDUCED: log entry 63) -/
def State.composeInput (s : State) (i : Inst) (tile : Nat) : State × Bool :=
  let areas := s.inputAreas i tile
  let bad := areas.any (fun a => s.poisoned a.1 a.2)
  let h : HeadInput := { cycle := i.cycle, tile, camera := s.cameraPlane i tile, pillar := s.pillarPlane i tile }
  let s := if bad then areas.foldl (fun u a => u.reportBad a.1 a.2) s else s
  ({ s with glz := { s.glz with headIn := some h } }, bad)

/-- An ERROR has reached GLZ's entries of an instance, on an input or from an entry fired with one (R159). -/
def State.glzError (s : State) (cycle : Nat) : Bool :=
  s.tgs.firing.any (fun f => f.unit == 99 && !f.run.golden && f.run.cycle == cycle && f.error)
    || s.tgs.tokens.any (fun k => !k.golden && k.cycle == cycle && k.dst.2.1 == 99 && k.kind == 3)

/-! ## Composition (R143, R145, R147) -/

/-- Compose a computed tile (R143, R145, R147) with the cells the heads gave. SEQ, DOMAIN and the flags of the issue
instant are set at issue. -/
def State.composeTile (s : State) (i : Inst) (tile : Nat) (cells : List (BitVec 64)) (poisoned : Bool) : Tile :=
  let age := ageOf i.tov (s.ageTimes i tile)
  let cams := (s.usedCameras i).map (fun c => (c, s.blocksRead i c tile))
  let own := i.pending.find? (fun c => c.stream.isNone)
  let pil := match s.valueOf i.cycle none with
    | some c => [(c, s.blocksRead i c tile)]
    | none => []
  let used := (cams ++ pil).filter (fun x => !x.2.isEmpty)
  let degraded := own.any (·.degraded) || used.any (fun x => x.2.any (·.degraded) || s.stale x.1.time) || poisoned
    || i.poseDeg || age.isNone
  let flags := flagBits [(fVALID, age.isSome), (fOVF_POINTS, own.any (·.ovfPoints)),
    (fOVF_PILLARS, own.any (fun c => c.ovfTiles.contains tile) || pil.any (fun x => x.2.any (·.overflow))),
    (fDEGRADED, degraded), (fEXCLUDED, i.excluded != 0), (fFALLBACK, i.fallback.contains tile),
    (fSOLVER, i.solverDeg), (fWARM, i.warmDisc)]
  { index := tile, seq := 0, tov := i.tov, age := age.getD 0xFFFFFF, domain := 0, included := i.included
    excluded := i.excluded, flags, amend := 0, cycle := i.cycle
    cells := ((cells ++ List.replicate 1024 0).take 1024).map (· &&& 0x0000FFFFFFFFFFFF) }

/-- Events of a composition: a stale pose, no contributing stream, a poisoned input (09, GLZ_EVENT). -/
def State.composeEvents (s : State) (t : Tile) (poisoned stale : Bool) : State :=
  let s := if stale then s.raise F.GLZ_EVENT_STALE_POSE else s
  let s := if t.age = 0xFFFFFF && !bitSet t.flags fVALID then s.raise F.GLZ_EVENT_NO_SOURCE else s
  if poisoned then s.raise F.GLZ_EVENT_INPUT_ERR else s

/-- Whether a value that a tile reads has a stale warp time. -/
def State.readsStale (s : State) (i : Inst) (tile : Nat) : Bool :=
  (s.usedCameras i).any (fun c => s.stale c.time && s.enters i c tile)
    || (match s.valueOf i.cycle none with
      | some c => s.stale c.time && s.enters i c tile
      | none => false)

/-! ## The comparison (R276, R277) -/

/-- The checker can compare: enabled and not gated. -/
def State.chkOn (s : State) : Bool := s.on F.CHK_CTRL_ENABLE && s.runs wCHK

/-- The sentinel output of an instance, once complete. -/
def State.sentinel (s : State) (cycle : Nat) : Option Sentinel := s.chk.sentinels.find? (fun x => x.cycle == cycle)

/-- One byte of a fused cell (R146). -/
def cellByte (c : BitVec 64) (k : Nat) : Nat := bitsAt c.toNat (8 * k) 8

/-- occ_main of a sentinel cell: the maximum over known cells; none when unknown (R276). -/
def occMain (cells : List (BitVec 64)) : Option Nat :=
  match (cells.map (cellByte · 0)).filter (· != 255) with
  | [] => none
  | x :: r => some (r.foldl max x)

/-- eg_main of a sentinel cell; none when unknown (R276). -/
def egMain (confMin : Nat) (cells : List (BitVec 64)) : Option Bool :=
  let eg := cells.map (fun c => (cellByte c 1 % 16, cellByte c 1 / 16))
  if eg.any (fun e => decide (1 ≤ e.1) && decide (e.1 ≤ 7) && decide (confMin ≤ e.2)) then some true
  else if eg.all (fun e => e.1 == 15) then none else some false

/-- occ_diff and eg_diff of a tile against the sentinel output (R276). -/
def compareTile (t : Tile) (sent : List SentCell) (margin confMin : Nat) : Nat × Nat :=
  let res := (List.range 64).map (fun k =>
    let kx := k % 8
    let ky := k / 8
    let cells := (List.range 16).map (fun j => t.cells.getD ((4 * ky + j / 4) * 32 + 4 * kx + j % 4) 0)
    let sc := sent.getD ((t.index / 16 * 8 + ky) * 128 + t.index % 16 * 8 + kx) { occ := 255, eg := 0, egConf := 0 }
    let occ := match occMain cells with
      | some m => sc.occ != 255 && decide (margin < ((m : Int) - sc.occ).natAbs)
      | none => false
    let egS := sc.eg == 1 && decide (confMin ≤ sc.egConf)
    let eg := match egMain confMin cells with
      | some m => m != egS
      | none => false
    (occ, eg))
  (res.countP (·.1), res.countP (·.2))

/-- Whether a tile has a cell in range class 0 (R276, R78). -/
def State.tileNear (s : State) (i : Inst) (tile : Nat) : Bool :=
  (List.range 1024).any (fun k => rangeClass s.cellSize i.ego (s.get F.PTS_GEOM_GUARD_RADIUS, s.get F.PTS_GEOM_CLASS_WIDTH)
    ((tile % 16 * 32 + k % 32 : Nat) : Int) ((tile / 16 * 32 + k / 32 : Nat) : Int) == 0)

/-- A comparison that ends with the result UNCHECKED (R277). -/
def State.unchecked (s : State) (tile : Nat) : State :=
  ((s.raise F.CHK_EVENT_UNCHECKED).satInc F.CHK_COUNTS_UNCHECKED).detect cUNCHECKED 103 tile

/-- Pair A's comparison of a tile (R276): its counts and CHK_LAST, and the report of a disagreement to SAF. Answers whether the checker
disagreed. -/
def State.compare (s : State) (i : Inst) (t : Tile) (sent : Sentinel) : State × Bool :=
  let near := s.tileNear i t.index
  let f (a b : Fld) : Nat := if near then s.get a else s.get b
  let d := compareTile t sent.cells (f F.CHK_TOL_NEAR_OCC_MARGIN F.CHK_TOL_FAR_OCC_MARGIN)
    (f F.CHK_TOL_NEAR_EG_CONF_MIN F.CHK_TOL_FAR_EG_CONF_MIN)
  let dis := decide (f F.CHK_TOL_NEAR_OCC_CELLS F.CHK_TOL_FAR_OCC_CELLS < d.1)
    || decide (f F.CHK_TOL_NEAR_EG_CELLS F.CHK_TOL_FAR_EG_CELLS < d.2)
  let s := s.modInc F.CHK_COUNTS_COMPARES
  if dis then
    let s := (((s.put F.CHK_LAST_TILE t.index).put F.CHK_LAST_OCC_DIFF d.1).put F.CHK_LAST_EG_DIFF d.2).put
      F.CHK_LAST_CYCLE t.cycle
    let s := ((s.raise F.CHK_EVENT_DISAGREE).satInc F.CHK_COUNTS_DISAGREES).life 704
    (s.detect cDISAGREE 103 t.index, true)
  else (s, false)

/-- A budget's key for a tile of a cycle. (DEDUCED: log entry 67) -/
def tileKey (cycle tile : Nat) : Nat := cycle * 256 + tile

/-- A comparison of a first issue has ended (R12, R148): the tile issues at once in the head, and is held in run-ahead. -/
def State.compared (s : State) (cycle tile : Nat) (bad : Bool) : State :=
  let s := s.endBudget 6 (tileKey cycle tile)
  match s.inst cycle with
  | none => s
  | some i =>
    if (i.tile tile).phase ≠ .comparing then s
    else
      let s := s.updInst cycle (fun i =>
        { i.updTile tile (fun x => { x with phase := .held, bad := bad }) with heldOrder := i.heldOrder ++ [tile] })
      if s.isHead cycle then s.issueTile cycle tile else s

/-- Re-issue an amended tile in place (R150): same SEQ, AMEND 1, AMENDED, fresh AGE, DOMAIN and CRCs. -/
def State.reissue (s : State) (cycle tile : Nat) (bad : Bool) : State :=
  let s := s.endBudget 6 (tileKey cycle tile)
  match s.inst cycle with
  | none => s
  | some i =>
    match (i.tile tile).tile with
    | none => s
    | some t =>
      if (i.tile tile).phase ≠ .recomparing || s.safety = stHalted then s
      else
        let dis := i.disagreed || bad
        let t := { t with domain := s.get F.TIM_STATUS_ACTIVE_DOMAIN, amend := 1
                          flags := setBit (issueFlags t.flags s.safety dis) fAMENDED }
        let s := s.updInst cycle (fun i =>
          { i.updTile tile (fun x => { x with phase := .amended, tile := some t }) with
            disagreed := dis
            late := i.late.map (fun l => (l.1, l.2 || i.amendVals.any (fun c => c.stream == some l.1 && s.enters i c tile))) })
        let s := s.writeBytes (s.storeAddr cycle tile) t.bytes
        let s := ((s.raise F.GLZ_EVENT_AMEND).satInc F.GLZ_COUNTS_AMENDED).count 7 2 1
        let s := if bitSet t.flags fSAFE_INVALID then s.raise F.GLZ_EVENT_SAFE_ISSUE else s
        (s.queueWrite (s.get F.GLZ_CTRL_ISSUE_Q) t.header).deliverTile cycle tile true

/-! ## Opening an instance (R10, R137, R162, R169, R280) -/

/-- The check of due golden frames at a ToV (R169). -/
def State.goldenMissCheck (s : State) (tov : Time) : State :=
  let late (g : Golden) : Bool := match g.due with
    | some d => decide (d.1 < tov)
    | none => false
  if !s.saf.golden.any late then s.put F.TGS_GOLDEN_MISS_RUN 0
  else
    let run := s.get F.TGS_GOLDEN_MISS_RUN + 1
    let fresh := s.saf.golden.countP (fun g => late g && !g.deferred)
    let s := ((s.put F.TGS_GOLDEN_MISS_RUN run).raise F.TGS_EVENT_GOLDEN_DEFER).satAdd F.TGS_GOLDEN_DEFERRED fresh
    let s := { s with saf := { s.saf with golden := s.saf.golden.map (fun g => { g with deferred := g.deferred || late g }) } }
    if run < 2 then s
    else
      let gone := s.saf.golden.filter (·.due.isSome)
      let s := ((s.raise F.TGS_EVENT_GOLDEN_TIMING).satAdd F.TGS_GOLDEN_ABANDONED gone.length).goldenLeave gone
      s.detect cGOLDEN_TIMING 9 run

/-- The ToV of the latest instance has come and has not yet had its effects. None comes once Halted or a return from a low-power state
has forgotten the instance. -/
def State.tovDue (s : State) : Bool :=
  !s.glz.fresh && !s.glz.tovDone && decide (s.glz.prevTov ≤ s.now) && s.safety != stHalted && !s.glz.insts.isEmpty

/-- What happens at every ToV beside the opening (R168 to R170, R280), whether or not an instance opens at it: the budgets of the instance
whose ToV it is start, the golden pool is refilled, due frames are checked and golden frames armed. -/
def State.atTov (s : State) : State :=
  match s.glz.insts.getLast? with
  | none => s
  | some p =>
    if !s.tovDue then s
    else
      let s := { s with glz := { s.glz with tovDone := true } }
      let s := ((s.startBudget 2 p.cycle p.cycle).startBudget 5 p.cycle p.cycle).startBudget 8 p.cycle p.cycle
      let s := ({ s with arr := { s.arr with pool := 0 } }.put F.TGS_GOLDEN_POOL_USED 0).goldenMissCheck s.glz.prevTov
      if s.on F.ING_CTRL_GOLDEN_EN then s.armAtTov (s.get F.SAF_CTRL_GOLDEN_PER_CYCLE) else s

/-- The queues in which consumers mark an instance's start: every queue it consumes (R63, R162), which are the ingest queues of camera and
lidar streams (R10) and those that carry the data of the edges of graph 0 (R155). -/
def State.markQueues (s : State) : List Nat :=
  (((List.range 64).filter (fun i => s.on (F.ING_STR_CFG_ENABLE i) && decide (s.get (F.ING_STR_CFG_KIND i) < 2))).map (fun i =>
    s.get (F.ING_STR_CFG_QUEUE i)) ++ (if s.tgsRuns then (List.range 104).flatMap (s.inputQueues 0) else [])).eraseDups

/-- The ego cell (R153). -/
def State.egoCell (s : State) : Int × Int :=
  (256 + s.getI F.GLZ_GRID_OFFSET_X, 256 + s.getI F.GLZ_GRID_OFFSET_Y)

/-- A subscriber's tile mask, 256 bits. -/
def State.subMask (s : State) (k : Nat) : Nat :=
  (List.range 4).foldl (fun m j => m + s.get (F.HST_SUB_MASK_TILES k j) * 2 ^ (64 * j)) 0

/-- The subscriber settings in force for a cycle (R342). -/
def State.subsNow (s : State) : List (Bool × Nat × Nat) :=
  (List.range 8).map (fun k => (s.on (F.HST_SUB_CFG_ENABLE k), s.get (F.HST_SUB_CFG_LAUNCH_OFFSET k), s.subMask k))

/-- Open the next instance (R137, R138): its number, ToV and deadline, window, streams and settings; consumers mark. -/
def State.openInstance (s : State) : State :=
  let first := s.glz.fresh
  let t := s.chooseTov first s.glz.prevTov s.glz.prevBudget
  let n := s.glz.nextCycle
  let start := if first then s.now else s.glz.prevTov
  let i : Inst := { cycle := n, tov := t.1, deadline := t.2.1, budget := t.2.2, winStart := start, openedAt := s.now
                    first, prevTov := s.glz.prevTov, prevB := s.glz.prevBudget
                    included := s.includedNow, excluded := s.excludedNow, ego := s.egoCell
                    amendWin := s.get F.GLZ_AMEND_WINDOW_WINDOW * 1000, subs := s.subsNow
                    emptied := s.glz.emptyNext
                    banks := (List.range 16).map (fun c => s.get (F.LFT_CAM_STAT_ACTIVE_BANK c)) }
  let s := { s with glz := { s.glz with
    insts := s.glz.insts ++ [i], nextCycle := (n + 1) % 2 ^ 32, fresh := false, tovDone := false, emptyNext := []
    openFrom := if first then s.now else s.glz.openFrom, prevTov := t.1, prevBudget := t.2.2 } }
  let s := s.markQueues.foldl (fun u q => if s.on (F.SQ_QCFG_ENABLE q) then u.queueMark q (slotOf n) else u) s
  let s := (s.openPtsWindow n).openLayout (slotOf n)
  -- a slot that opens anew has no part in a squash of its last instance
  let s := { s with tgs := { s.tgs with squash := s.tgs.squash.map (fun (x : Nat × Nat × Time) => (clearBit x.1 (slotOf n), x.2)) } }
  s.syncHead.syncOps

/-- Whether an instance is due to open: at the ToV of the previous one, or at once under the n = 0 rule. None opens below Full,
in Halted (R148), on the way to a low-power state (R349), or while four are in flight (R162). -/
def State.openDue (s : State) : Bool :=
  (s.glz.fresh || decide (s.glz.prevTov ≤ s.now)) && decide (s.glz.insts.length < 4) && s.boot.level == some 3
    && s.safety != stHalted && s.pwr.goingTo.isNone

/-- Open the instance that is due, with what happens at the ToV of the one before it (R137). -/
def State.openDueInstance (s : State) : State :=
  s.whenGlz (fun s =>
    let s := s.atTov
    if s.openDue then s.openInstance.followOpenings else s)

/-! ## Warping and composing (R142, R146) -/

/-- Whether every front-end operation of an instance has delivered (R10, R152): its sparse convolution, and the backbone and lift of its
every frame. (DEDUCED: log entry 63) -/
def State.frontDone (s : State) (i : Inst) : Bool :=
  (i.pillarDone || !s.on F.PTS_CTRL_ENABLE || s.gated wPTS)
    && !(s.lft.frames ++ (s.lft.lifting.map (·.frame)).toList).any (fun f =>
      !f.golden && f.cycle == i.cycle && (f.phase == .waiting || f.phase == .columns))

/-- Whether the heads take a tile now (R148): no tile before it in the table at GLZ_ORDER_BASE waits. A tile that the table does not name
is free. (DEDUCED: log entry 192) -/
def State.inOrder (s : State) (i : Inst) (tile : Nat) : Bool :=
  let order := (s.readBytes (s.base F.GLZ_ORDER_BASE_BASE) 256).map (·.toNat)
  !order.contains tile || (order.takeWhile (· != tile)).all (fun t => t == tile || (i.tile t).phase != .waiting)

/-- WARP_START (R142): once E(ToV) is available, GLZ warps the oldest instance whose ToV has come; the instance uses the
poses of its ToV and of its contributions' warp times (R123). -/
def execWarpStart (s : State) : Host.Outcome State Fault Refusal :=
  .next (s.whenGlz (fun s =>
    match s.glz.insts.find? (fun i => !i.warped && s.mayRun i.cycle) with
    | none => s
    | some i =>
      if decide (i.tov ≤ s.now) && (s.trajCovers i.tov || decide (i.tov + s.get F.SLV_TIMING_EGO_DEADLINE * 1000 ≤ s.now)) then
        let ts := i.tov :: ((s.usedCameras i).map (·.time) ++ ((s.valueOf i.cycle none).map (·.time)).toList)
        let s := ts.foldl (fun u t => u.usePose i.cycle t) s
        s.updInst i.cycle (fun i => { i with warped := true })
      else s))

/-- TILE_HEADS_DONE (R146, R276, R277): a tile's heads complete with its cells; its comparison starts. With the checker
disabled or gated the comparison ends UNCHECKED at once. The heads take the tiles in the order of GLZ_ORDER_BASE (R148), after every
front-end operation of the instance (R10). `poisoned` is a poisoned input that the history tokens or the heads met, beside what the
model finds in the blocks read and in ERROR tokens (R147, R159). (DEDUCED: log entries 63, 192) -/
def execTileHeadsDone (cycle tile : Nat) (cells : List (BitVec 64)) (poisoned : Bool) (s : State) :
    Host.Outcome State Fault Refusal :=
  .next (s.whenGlz (fun s =>
    match s.inst cycle with
    | none => s
    | some i =>
      if 256 ≤ tile || !i.warped || (i.tile tile).phase ≠ .waiting || (i.reuseDone && s.isHead cycle) || !s.frontDone i
          || !s.inOrder i tile || !s.mayRun cycle then s
      else
        let poisoned := poisoned || s.glzError cycle
        let (s, bad) := s.composeInput i tile
        let poisoned := poisoned || bad
        let t := s.composeTile i tile cells poisoned
        let s := s.composeEvents t poisoned (s.readsStale i tile)
        let s := s.updInst cycle (fun i =>
          { i.updTile tile (fun x => { x with phase := .comparing, tile := some t, fired := some s.now }) with
            lastDone := some s.now })
        if s.chkOn then s.startBudget 6 (tileKey cycle tile) cycle
        else ((s.unchecked tile).compared cycle tile true).tryFinal))

/-- COMPARE_DONE (R12, R276, R164): with the sentinel output complete, a tile's comparison ends; the tile becomes issuable, or
an amended tile is re-issued. A disagreement then squashes what is run-ahead once the issue has had its effect. -/
def execCompareDone (cycle tile : Nat) (s : State) : Host.Outcome State Fault Refusal :=
  .next (s.whenGlz (fun s =>
    match s.inst cycle, s.sentinel cycle with
    | some i, some sent =>
      match (i.tile tile).phase, (i.tile tile).tile with
      | .comparing, some t =>
        if !s.chkOn then s
        else
          let r := s.compare i t sent
          let s := (r.1.compared cycle tile r.2).tryFinal
          if r.2 then s.squash sqDisagree else s
      | .recomparing, some t =>
        if !s.chkOn then s
        else
          let r := s.compare i t sent
          let s := (r.1.reissue cycle tile r.2).tryFinal
          if r.2 then s.squash sqDisagree else s
      | _, _ => s
    | _, _ => s))

/-! ## Amendment (R150) -/

/-- A contribution of a stream that an instance excludes. -/
def State.excludedFrom (_s : State) (i : Inst) (c : Contribution) : Bool :=
  match c.stream with
  | some k => bitSet i.excluded k
  | none => false

/-- A camera frame is ready (R139, R150): it becomes a pending value of its instance; late for the cycle before, it amends
or is used directly by that cycle's tiles, or counts in LATE. A frame lifted `again` after a squash has had its part in the cycle
before. -/
def State.frameReady (s : State) (cycle : Nat) (c : Contribution) (again : Bool) : State :=
  let s := (s.updInst cycle (fun i => i.addPending c)).poseForValue cycle c.time
  if again then s
  else
    let prev := (cycle + 2 ^ 32 - 1) % 2 ^ 32
    let late (s : State) : State := (s.raise F.GLZ_EVENT_LATE).satInc F.GLZ_COUNTS_LATE
    match s.inst prev with
    | none =>
      match s.glz.past.find? (fun r => r.cycle == prev) with
      | some r => if c.time ≤ r.tov then late s else s
      | none => s
    | some i =>
      if i.tov < c.time then s
      else if i.tov ≤ c.arrival && c.arrival ≤ i.tov + i.amendWin && !i.reuseDone && !s.excludedFrom i c then
        let fired := (List.range 256).filter (fun t => (i.tile t).phase != .waiting && (i.tile t).phase != .amended
          && (i.tile t).phase != .recomparing && s.enters i c t)
        let f := fun (i : Inst) =>
          let i := if i.amendVals.any (fun x => x.stream == c.stream && decide (c.time ≤ x.time)) then i
            else { i with amendVals := c :: i.amendVals.filter (fun x => x.stream != c.stream) }
          let i := if fired.isEmpty then i else { i with late := i.late ++ c.stream.toList.map (fun k => (k, false)) }
          fired.foldl (fun i t => i.updTile t (fun x => { x with pendingAmend := true })) i
        let s := (s.updInst prev f).poseForValue prev c.time
        if fired.isEmpty then late s else s
      else late s

/-- AMEND_WINDOW_CLOSE (R150, R11): the amend window of each instance closes at its ToV + AMEND_WINDOW. -/
def execAmendWindowClose (s : State) : Host.Outcome State Fault Refusal :=
  .next (s.whenGlz (fun s =>
    if s.glz.insts.any (fun i => !i.amendClosed && decide (i.tov + i.amendWin ≤ s.now)) then s.tryFinal else s))

/-- AMEND_RECOMPUTE (R150): with the window closed and every amending frame ready, an amended tile is recomputed once with
all of them, and its comparison starts again. -/
def execAmendRecompute (tile : Nat) (cells : HeadCells) (s : State) : Host.Outcome State Fault Refusal :=
  .next (s.whenGlz (fun s =>
    match s.head with
    | none => s
    | some i =>
      match (i.tile tile).tile with
      | none => s
      | some old =>
        if !i.amendClosed || i.reuseDone || !(i.tile tile).pendingAmend || (i.tile tile).phase ≠ .issued
            || s.amendOutstanding i then s
        else
          let poisoned := cells.poisoned || s.glzError i.cycle
          let (s, bad) := s.composeInput i tile
          let poisoned := poisoned || bad
          let t := { s.composeTile i tile cells.cells poisoned with seq := old.seq }
          let s := s.composeEvents t poisoned (s.readsStale i tile)
          let s := s.updInst i.cycle (fun i => i.updTile tile (fun x =>
            { x with phase := .recomparing, tile := some t, pendingAmend := false }))
          if s.chkOn then s.startBudget 6 (tileKey i.cycle tile) i.cycle
          else ((s.unchecked tile).reissue i.cycle tile true).tryFinal))

/-! ## Reuse (R144, R151) -/

/-- The unknown cell (R146). -/
def unknownCell : BitVec 64 := 0x00008080FFFF0FFF

/-- Rotate a copied cell's velocity by -dyaw, rounded to nearest and saturated; unknown if either component is (R151). -/
def rotateCell (w : Warp) (c : BitVec 64) : BitVec 64 :=
  let vx := toSigned 8 (cellByte c 4)
  let vy := toSigned 8 (cellByte c 5)
  let rest := BitVec.ofNat 64 (bitsAt c.toNat 0 32 + bitsAt c.toNat 48 16 * 2 ^ 48)
  if vx = -128 ∨ vy = -128 then rest ||| 0x0000808000000000
  else
    let fx := f32OfInt vx
    let fy := f32OfInt vy
    let x := clampInt (-127) 127 (roundUnit (f32Add (f32Mul w.c fx) (f32Mul w.sn fy)) 1)
    let y := clampInt (-127) 127 (roundUnit (f32Sub (f32Mul w.c fy) (f32Mul w.sn fx)) 1)
    rest ||| BitVec.ofNat 64 (ofInt 8 x * 2 ^ 32 + ofInt 8 y * 2 ^ 40)

/-- A reused tile (R144, R151): from the tile store of the cycle before, cell by cell. -/
def State.reusedTile (s : State) (i : Inst) (tile : Nat) : Tile :=
  let blank : Tile := { index := tile, seq := 0, tov := i.tov, age := 0xFFFFFF, domain := 0, included := 0, excluded := 0
                        flags := flagBits [(fREUSED, true), (fDEGRADED, true), (fSOLVER, i.solverDeg), (fWARM, i.warmDisc)], amend := 0, cycle := i.cycle
                        cells := List.replicate 1024 unknownCell }
  match s.glz.past.find? (fun r => r.cycle == (i.cycle + 2 ^ 32 - 1) % 2 ^ 32) with
  | none => blank
  | some r =>
    let w := s.warpOf r.tov i.tov
    let ok (t : Nat) : Bool := s.storeHolds r.cycle t && !s.poisoned (s.storeAddr r.cycle t) 8256
    let src := w.sources s.cellSize i.ego r.ego tile
    let tiles := (src.filterMap (fun o => o.map (fun p => tileOfCell p.1 p.2))).eraseDups
    let held := tiles.filter ok
    if held.isEmpty then blank
    else
      let cell (o : Option (Nat × Nat)) : BitVec 64 := match o with
        | none => unknownCell
        | some p =>
          let t := tileOfCell p.1 p.2
          if held.contains t then
            rotateCell w (BitVec.ofNat 64 (s.readLe (s.storeAddr r.cycle t + 64 + (p.2 % 32 * 32 + p.1 % 32) * 8) 8))
          else unknownCell
      let hd (t off k : Nat) : Nat := s.readLe (s.storeAddr r.cycle t + off) k
      let age := (held.map (fun t => hd t 16 3)).foldl max 0
      let or_ (off k : Nat) : Nat := (held.map (fun t => hd t off k)).foldl (· ||| ·) 0
      let fl := or_ 36 4 &&& 0xE78
      let missing := tiles.any (fun t => !ok t) || s.stale r.tov || i.poseDeg
      let fl := flagBits [(fVALID, true), (fREUSED, true), (fDEGRADED, missing), (fSOLVER, i.solverDeg), (fWARM, i.warmDisc)] ||| fl
      { blank with age := min (age + ((i.tov - r.tov) / 1000).toNat) 0xFFFFFF, included := or_ 20 8, excluded := or_ 28 8
                   flags := fl, cells := src.map cell }

/-- A missed tile of the head becomes a reused tile, and its comparison starts (R151). -/
def State.reuseTile (s : State) (cycle tile : Nat) : State :=
  match s.inst cycle with
  | none => s
  | some i =>
    let t := s.reusedTile i tile
    let src := s.glz.past.find? (fun r => r.cycle == (cycle + 2 ^ 32 - 1) % 2 ^ 32)
    let s := s.composeEvents t false (src.any (fun r => s.stale r.tov))
    let s := s.updInst cycle (fun i =>
      { i.updTile tile (fun x => { x with phase := .comparing, tile := some t }) with reused := true })
    s.startBudget 6 (tileKey cycle tile) cycle

/-- REUSE_DEADLINE (R150, R151, R277): at deadline - REUSE_LEAD the head's pending amendments are abandoned, its missed
tiles are reused, and without a sentinel output every pending comparison ends UNCHECKED. -/
def execReuseDeadline (s : State) : Host.Outcome State Fault Refusal :=
  .next (s.whenGlz (fun s =>
    match s.head with
    | none => s
    | some i =>
      if i.reuseDone || s.now < i.deadline - s.get F.GLZ_DEADLINE_REUSE_LEAD * 1000 || s.safety = stHalted then s
      else
        let c := i.cycle
        let lost := i.tiles.countP (fun t => t.pendingAmend || t.phase == .recomparing)
        let s := if lost = 0 then s else (s.raise F.GLZ_EVENT_AMEND_LOST).satAdd F.GLZ_COUNTS_AMEND_LOST lost
        let s := s.updInst c (fun i => { i with
          reuseDone := true, amendClosed := true
          tiles := i.tiles.map (fun t => { t with pendingAmend := false
                                                  phase := if t.phase = .recomparing then .issued else t.phase }) })
        let s := (s.satAdd F.GLZ_COUNTS_LATE (i.late.countP (fun l => !l.2))) |> fun u =>
          if i.late.any (fun l => !l.2) then u.raise F.GLZ_EVENT_LATE else u
        let missed := (List.range 256).filter (fun t => (i.tile t).phase == .waiting)
        -- the poses that the reuse reads (R123, R390)
        let src := s.glz.past.find? (fun r => r.cycle == (c + 2 ^ 32 - 1) % 2 ^ 32)
        let s := if missed.isEmpty then s
          else (i.tov :: (src.map (·.tov)).toList).foldl (fun u t => u.usePose c t) s
        let s := missed.foldl (fun u t => u.reuseTile c t) s
        let s := if s.chkOn && (s.sentinel c).isSome then s
          else
            let open_ := match s.inst c with
              | some j => (List.range 256).filter (fun t => (j.tile t).phase == TilePhase.comparing)
              | none => []
            open_.foldl (fun u t => (u.unchecked t).compared c t true) s
        s.tryFinal))

end Sys2Proof.Machine
end

