-- ==== Sys2Proof/Machine/SafetyOps.lean ====
section
/-! DEFINITION. The commands of the safety supervisor and the checker (spec/17_safety.md): the sentinel network, golden
comparison and span, guard tiles, the heartbeat and watchdog timers, detections from monitors, and the repeated notice. -/

namespace Sys2Proof.Machine

/-- Do something while SAF runs: the device is out of reset, in Active or Idle, with REFCLK present (R348, R354). -/
def State.whenSaf (s : State) (f : State → State) : State :=
  if s.boot.step != .inReset && !s.pwr.refLost && decide (s.power ≤ 1) then f s else s

/-- Do something while the checker runs in Active (R277, R354). (DEDUCED: log entry 118) -/
def State.whenChk (s : State) (f : State → State) : State := if s.chkOn && s.power == 0 then s.whenSaf f else s

/-! ## The sentinel network (R275) -/

/-- SENTINEL_RUN (R275): the table of an instance has closed; CHK reads it. -/
def execSentinelRun (cycle : Nat) (s : State) : Host.Outcome State Fault Refusal :=
  .next (s.whenChk (fun s =>
    match s.ptable cycle with
    | none => s
    | some t =>
      if !t.closed || t.read then s
      else
        let s := s.updTable cycle (fun t => { t with read := true })
        { s with chk := { s.chk with running := s.chk.running.filter (· != cycle) ++ [cycle] } }))

/-- What a sentinel run met in the checker's SRAM (R274): 1 a corrected error, counted in the lifetime record (R366: CHK_CORR), 2 an
uncorrectable one, a contained fault (R273, R285). (DEDUCED: log entry 197) -/
def State.sentMet (s : State) (cycle fault : Nat) : State :=
  if fault = 1 then ((s.raise F.CHK_EVENT_ECC_CORR).count 6 0 1 (some 103)).life 696
  else if fault = 2 then
    ((((s.raise F.CHK_EVENT_ECC_UNCORR).count 6 1 1 (some 103)).life 700).log wCHK 6 1 103 cycle).detect cCONTAINED 103 cycle
  else s

/-- SENTINEL_DONE (R275): the sentinel output of an instance is complete, warped to its ToV. One that met an uncorrectable error has no
output, and its comparisons end UNCHECKED (R277). (DEDUCED: log entry 197) -/
def execSentinelDone (cycle : Nat) (cells : SentOut) (s : State) : Host.Outcome State Fault Refusal :=
  .next (s.whenChk (fun s =>
    if !s.chk.running.contains cycle || (s.inst cycle).isNone then s
    else if cells.fault = 2 then
      ({ s with chk := { s.chk with running := s.chk.running.filter (· != cycle) } }).sentMet cycle 2
    else
      let s := { s with chk := { s.chk with
        running := s.chk.running.filter (· != cycle)
        sentinels := s.chk.sentinels.filter (fun (x : Sentinel) => x.cycle != cycle) ++ [({ cycle, cells := cells.cells } : Sentinel)] } }
      ((s.sentMet cycle cells.fault).put F.CHK_STATUS_SENT_CYCLE cycle).endBudget 5 cycle))

/-! ## Golden frames (R281, R282, R286, R287) -/

/-- v ≤ w in exact arithmetic; false for a NaN (R281). -/
def FV.le : FV → FV → Bool
  | .nan, _ => false
  | _, .nan => false
  | .inf true, _ => true
  | _, .inf false => true
  | .inf false, _ => false
  | _, .inf true => false
  | .fin a, .fin b => dyLe a b

/-- Element `k` of a golden output region at an address, in a format (R175, R176, R281). -/
def State.goldenElem (s : State) (fmt a k : Nat) : FV :=
  if fmt = 3 then
    let u := s.readBytes (a + k / 64 * 34) 34
    match bs4Scale u with
    | none => .nan
    | some d => .fin (dyMul ⟨bs4Elem u (k % 64), -1⟩ d)
  else
    let n := if fmt = 4 then 2 else if fmt = 5 || fmt = 6 then 4 else 1
    if fmt ≤ 6 then fvOf fmt (s.readLe (a + k * n) n) else .nan

/-- The first failing element from entry `e` of a range table on; `base` elements came before it (R281). -/
def State.goldenScan (s : State) (ranges out : Nat) : Nat → Nat → Nat → Option Nat
  | 0, _, _ => none
  | n + 1, e, base =>
    let r := s.readBytes (ranges + 16 * e) 16
    let lo := fvOf 6 (leAt r 8 4)
    let hi := fvOf 6 (leAt r 12 4)
    let bad (k : Nat) : Bool :=
      let v := s.goldenElem (leAt r 4 1) (out + leAt r 0 4) k
      !(FV.le lo v && FV.le v hi)
    match (List.range (leAt r 6 2)).find? bad with
    | some k => some (base + k)
    | none => s.goldenScan ranges out n (e + 1) (base + leAt r 6 2)

/-- Fields of a golden entry (R279). -/
def State.goldenField (s : State) (e off n : Nat) : Nat := s.readLe (s.goldenEntryAt e + off) n

/-- A golden frame fails by its entry or content (R281): the entry's CRC, or poison in its content or range table.
(DEDUCED: log entry 117) -/
def State.goldenEntryBad (s : State) (e : Nat) : Bool :=
  !crcOk (s.readBytes (s.goldenEntryAt e) 64)
    || s.poisoned (s.goldenField e 8 8) (s.goldenField e 4 2 * s.goldenField e 6 2)
    || s.poisoned (s.goldenField e 16 8) (16 * s.goldenField e 24 4)

/-- A golden frame has finished: its span is measured from the due instant of the frame before it, and reported when it
exceeds GOLDEN_SPAN_MAX (R282). (DEDUCED: log entry 112) -/
def State.goldenSpan (s : State) (g : Golden) : State :=
  let s := { s with saf := { s.saf with dueAt := s.saf.dueAt.map (fun d => (d.1, true)) } }
  match g.prevDue with
  | none => s
  | some d =>
    let cycles := s.pwr.refclk - d
    let us := satNat 16 (cycles / 25)
    let s := (s.put F.SAF_GOLDEN_LAST_SPAN us).put F.SAF_GOLDEN_MAX_SPAN (max us (s.get F.SAF_GOLDEN_MAX_SPAN))
    if 25 * s.get F.SAF_TIMING_GOLDEN_SPAN_MAX < cycles then
      (s.raise F.SAF_EVENT_GOLDEN_SPAN).detect cGOLDEN_SPAN 9 us
    else s

/-- A golden frame has failed (R281, R286): GOLDEN_FAIL; a failing extra frame enters Safe from Suspect in any cycle.
(DEDUCED: log entry 116) -/
def State.goldenFailed (s : State) (g : Golden) : State :=
  let s := ((s.raise F.CHK_EVENT_GOLDEN_FAIL).satInc F.SAF_GOLDEN_FAILED).life 712
  let s := if g.extra && s.safety == stSuspect then { s with saf := { s.saf with suspectCyc := s.headCycle + 1 } } else s
  s.detect cGOLDEN_FAIL 103 g.entry

/-- A golden frame has passed (R286, R287). -/
def State.goldenPassed (s : State) (g : Golden) : State :=
  let s := { s with saf := { s.saf with passed := setBit s.saf.passed g.entry } }
  let s := if g.extra && s.safety == stSuspect then s.raise F.SAF_STATE_EXTRA_PASSED else s
  let s := if s.safety = stSuspect && s.get F.SAF_STATE_CLEAN == 3 && s.on F.SAF_STATE_EXTRA_PASSED
    then s.returnTo s.saf.returnState else s
  s.startTransition

/-- GOLDEN_COMPARE_DONE (R281): pair B has checked the outputs of a golden frame; `error` is that a golden token arrived as
ERROR. (DEDUCED: log entry 114) -/
def execGoldenCompareDone (num : Nat) (error : Bool) (s : State) : Host.Outcome State Fault Refusal :=
  .next (s.whenChk (fun s =>
    match s.saf.golden.find? (fun g => g.num == num && g.due.isSome) with
    | none => s
    | some g =>
      let e := g.entry
      let first := s.goldenScan (s.goldenField e 16 8) (s.goldenField e 28 8) (s.goldenField e 24 4) 0 0
      let fail := error || s.goldenEntryBad e || first.isSome
      let ff := first.getD (Config.noElement s.free)
      let s := if first.isSome then s else s.fresh
      let s := ((((s.put F.CHK_GOLDEN_LAST_ENTRY e).flag F.CHK_GOLDEN_LAST_FAILED fail).flag F.CHK_GOLDEN_LAST_EXTRA
        g.extra).put F.CHK_GOLDEN_LAST_FIRST_FAIL ff).put F.CHK_GOLDEN_LAST_FRAME num
      let s := (s.goldenLeave [g]).goldenSpan g
      if fail then s.goldenFailed g else s.goldenPassed g))

/-- GOLDEN_SPAN (R282): no frame has finished by GOLDEN_SPAN_MAX after the latest due instant. -/
def execGoldenSpan (s : State) : Host.Outcome State Fault Refusal :=
  .next (s.whenSaf (fun s =>
    match s.saf.dueAt with
    | some (d, false) =>
      if s.power = 0 && decide (d + 25 * s.get F.SAF_TIMING_GOLDEN_SPAN_MAX < s.pwr.refclk) then
        let s := { s with saf := { s.saf with dueAt := some (d, true) } }
        (s.raise F.SAF_EVENT_GOLDEN_SPAN).detect cGOLDEN_SPAN 9 ((s.pwr.refclk - d) / 25)
      else s
    | _ => s))

/-! ## Guard tiles (R278) -/

/-- A fused cell of a guard tile (R146, R278): OCC, EG and EG_CONF of its sentinel cell; the rest unknown. -/
def guardCell (c : SentCell) : BitVec 64 :=
  BitVec.ofNat 64 (c.occ % 256 + (c.eg % 2) * 2 ^ 8 + (c.egConf % 16) * 2 ^ 12 + 0xFF * 2 ^ 16 + 0xFF * 2 ^ 24
    + 0x80 * 2 ^ 32 + 0x80 * 2 ^ 40)

/-- The 1,024 cells of guard tile `tile`, in row order. -/
def guardCells (cells : List SentCell) (tile : Nat) : List (BitVec 64) :=
  (List.range 1024).map (fun k =>
    let y := tile / 16 * 32 + k / 32
    let x := tile % 16 * 32 + k % 32
    guardCell (cells.getD (y / 4 * 128 + x / 4) { occ := 255, eg := 0, egConf := 0 }))

/-- Issue one guard tile (R278, R149): into the tile store, with its notice on GUARD_Q, and to its subscribers.
(DESIGN CHOICE: log entry 61; DEDUCED: log entry 113) -/
def State.guardIssue (s : State) (cycle : Nat) (tov : Time) (cells : List SentCell) (tile : Nat) : State :=
  let incl := s.includedNow
  let times := (s.glz.lidarTime.filter (fun l => bitSet incl l.1)).map (·.2)
  let age := ageOf tov times
  let excl := s.excludedNow
  let fl := flagBits [(fVALID, age.isSome), (fDEGRADED, true), (fEXCLUDED, excl != 0)]
  let t : Tile := { index := tile, seq := s.glz.seq, tov, age := age.getD 0xFFFFFF, domain := s.get F.TIM_STATUS_ACTIVE_DOMAIN
                    included := incl, excluded := excl, flags := issueFlags fl s.safety false, amend := 0, cycle
                    cells := guardCells cells tile }
  let s := { s with glz := { s.glz with seq := (s.glz.seq + 1) % 2 ^ 32 } }
  let s := s.writeBytes (s.storeAddr cycle tile) t.bytes
  let s := (s.put F.GLZ_SEQ_LAST_SEQ t.seq).put F.GLZ_SEQ_LAST_CYCLE cycle
  let s := if bitSet t.flags fVALID then { s with saf := { s.saf with lastValid := t.seq } } else s
  let s := if bitSet t.flags fSAFE_INVALID then s.raise F.GLZ_EVENT_SAFE_ISSUE else s
  let s := (s.count 7 0 1).queueWrite (s.get F.CHK_CTRL_GUARD_Q) t.header
  s.deliverTile cycle tile false

/-- The latest schedule point of GLZ_TOV at or before the present. -/
def State.schedNow (s : State) : Option Time :=
  let per : Int := max 1 (s.get F.GLZ_TOV_PERIOD)
  let ph : Int := s.get F.GLZ_TOV_PHASE
  if s.now < ph then none else some (ph + (s.now - ph) / per * per)

/-- GUARD_TILE_ISSUE (R278): at Guard with GUARD_OUT = 1, 256 guard tiles at each schedule point, from the sentinel output
`cells`. In Halted nothing issues (R288). (DEDUCED: log entry 113) -/
def execGuardTileIssue (cells : List SentCell) (s : State) : Host.Outcome State Fault Refusal :=
  .next (s.whenChk (fun s =>
    match s.schedNow with
    | none => s
    | some t =>
      let due := match s.chk.guardLast with
        | none => true
        | some l => decide (l < t)
      if s.boot.level == some 2 && s.on F.CHK_CTRL_GUARD_OUT && due && s.safety != stHalted then
        let n := s.glz.nextCycle
        let r : CycleRec := { cycle := n, tov := t, ego := s.egoCell, issueOrder := List.range 256, subs := s.subsNow }
        let s := { s with
          chk := { s.chk with guardLast := some t }
          glz := { s.glz with nextCycle := (n + 1) % 2 ^ 32, past := (r :: s.glz.past).take 8 } }
        (List.range 256).foldl (fun u k => u.guardIssue n t cells k) s
      else s))

/-! ## Timers (R283, R284) -/

/-- The REFCLK count from which the heartbeat timer runs, once it has started. (DEDUCED: log entry 115) -/
def State.hbFrom (s : State) : Option Nat :=
  match s.saf.hbStart with
  | none => none
  | some t => if t ≤ s.pwr.refclk then some (max t (s.saf.hbLast.getD 0)) else none

/-- HEARTBEAT_TIMEOUT (R283). -/
def execHeartbeatTimeout (s : State) : Host.Outcome State Fault Refusal :=
  .next (s.whenSaf (fun s =>
    match s.hbFrom with
    | none => s
    | some t =>
      if !s.saf.hbExpired && decide (t + 25000 * s.get F.SAF_TIMING_HB_TIMEOUT ≤ s.pwr.refclk) then
        let s := { s with saf := { s.saf with hbExpired := true } }
        ((s.raise F.SAF_EVENT_HB_LOST).satInc F.SAF_HEARTBEAT_MISSES).detect cHEARTBEAT
      else s))

/-- WATCHDOG_SERVICE (R283): once every 10 ms, while the firmware runs. -/
def execWatchdogService (s : State) : Host.Outcome State Fault Refusal :=
  .next (s.whenSaf (fun s =>
    if (s.boot.step = .acquiring ∨ s.boot.step = .up) ∧ s.saf.wdtLast + 250000 ≤ s.pwr.refclk then
      { s with saf := { s.saf with wdtLast := s.pwr.refclk } }
    else s))

/-! ## Detections (R285, R288, R376) -/

/-- LOCKSTEP (R285): a mismatch at the comparator of a checker pair. (DEDUCED: log entry 114) -/
def execLockstep (pairB : Bool) (s : State) : Host.Outcome State Fault Refusal :=
  .next (if s.chkOn then s.whenSaf (fun s =>
    let s := s.raise (if pairB then F.CHK_EVENT_LOCKSTEP_B else F.CHK_EVENT_LOCKSTEP_A)
    let m := if pairB then (s.chk.mismatch.1, true) else (true, s.chk.mismatch.2)
    ({ s with chk := { s.chk with mismatch := m } }).detect cLOCKSTEP 103 (if pairB then 1 else 0)) else s)

/-- SAF_SELF (R285): a mismatch of SAF's duplicated state. -/
def execSafSelf (s : State) : Host.Outcome State Fault Refusal := .next (s.whenSaf (fun s => s.detect cSAF_SELF))

/-- SAFE_PATH (R288): the level at the SAFE_N ball differs from the requested level. -/
def execSafePath (s : State) : Host.Outcome State Fault Refusal := .next (s.whenSaf (fun s => s.detect cSAFE_PATH))

/-- ENV (R376): a voltage or temperature monitor trips. -/
def execEnv (source : Nat) (s : State) : Host.Outcome State Fault Refusal :=
  .next (s.whenSaf (fun s => s.detect cENV 0xFF source))

/-- NOTICE_REPEAT (R289): in Safe and Halted the latest notice is sent again every NOTICE_REPEAT. -/
def execNoticeRepeat (s : State) : Host.Outcome State Fault Refusal :=
  .next (s.whenSaf (fun s =>
    match s.saf.notice with
    | none => s
    | some n =>
      if 3 ≤ s.safety ∧ s.saf.noticeAt + 25000 * s.get F.SAF_TIMING_NOTICE_REPEAT ≤ s.pwr.refclk then
        let s := { s with saf := { s.saf with noticeAt := s.pwr.refclk } }
        (s.noticeOn 0 n).noticeOn 1 n
      else s))

end Sys2Proof.Machine
end

