-- ==== Sys2Proof/Machine/Resets.lean ====
section
/-! DEFINITION. Resets (spec/21_clocks_power_reset.md, R355 to R358): what a reset keeps, which trigger takes effect, and
the commands that start one. -/

namespace Sys2Proof.Machine

/-! ## Reset codes (RST_CAUSE.LAST) -/

abbrev rcPOWER_ON := 1
abbrev rcRESET_N := 2
abbrev rcWATCHDOG := 3
abbrev rcSAFETY := 4
abbrev rcWARM := 5
abbrev rcLINK := 6
abbrev rcSTANDBY_WAKE := 7

/-- A warm or a link reset, which leaves the Toffee island, SEC, the clocks and every BIST result (R356). -/
def isWarm (code : Nat) : Bool := code == rcWARM || code == rcLINK

/-- Whether a reset of a code keeps a whole register (R356, R357): Toffee retention through all but POWER_ON; the window
of SEC, the clock sources and BIST results through a warm one; the identity key's public half where keys are kept.
(DEDUCED: log entry 148) -/
def keptReg (code a : Nat) : Bool :=
  let toffee := [F.RST_CAUSE_LAST.addr, F.RST_COUNTS_PIN.addr, F.SEC_TAMPER_TAMPERS.addr, F.OBS_LOG_NEXT.addr,
    F.OBS_LOG_COUNTS_DROPPED.addr, F.OBS_RING_SECTOR.addr]
  let bist := [F.CLK_SRC_PLL_EN.addr, F.CLK_STATUS_READY.addr, F.DDR_STATUS_TRAINED.addr, F.ARR_PRESENT_MASK.addr,
    F.NGT_FAIL_MASK.addr, F.NGT_STATUS_BANKS_OK.addr]
  let rws : Bool := match regRow a with
    | some r => r.rws != 0#64
    | none => false
  (code != rcPOWER_ON && toffee.contains a)
    || (isWarm code && (windowOf a == some wSEC || bist.contains a || rws))
    || ((code == rcWATCHDOG || code == rcSAFETY)
      && decide ((F.SEC_DEVID_PK_PK 0).addr ≤ a) && decide (a < (F.SEC_DEVID_PK_PK 6).addr))

/-- BIST results that share a register with counts (R185, R219, R261), kept by a warm reset; and the links of the host
ports, which a link reset retrains (the table of resets, 21). (DEDUCED: log entry 148) -/
def warmFields (code : Nat) : List Fld :=
  (List.range 64).flatMap (fun t => [F.ARR_TILE_STAT_BIST t, F.ARR_TILE_STAT_FENCED t])
    ++ (List.range 8).map F.DDR_CHAN_TRAIN_FAILED
    ++ F.BML_STATUS_FENCED :: (List.range 6).map F.BML_PORT_STAT_REASON
    ++ (if code = rcWARM then [F.HST_STATUS_LINK_A, F.HST_STATUS_LINK_B] else [])

/-- SEC after a reset (R356, R357, R321): fuses always; keys as the table of resets says; the debug lockout until
power-on (R317); a tamper restart until POWER_ON, RESET_N or a standby wake (R321). (DEDUCED: log entry 133) -/
def State.secAfter (s : State) (code : Nat) (tamper : Bool) : Sec :=
  let x := s.sec
  let kept : Sec := { fuses := x.fuses, refusals := x.refusals, lockout := x.lockout }
  if code = rcPOWER_ON then { fuses := x.fuses }
  else if code = rcRESET_N || code = rcSTANDBY_WAKE then kept
  else if tamper then { kept with tampered := true }
  else if isWarm code then
    { x with signing := none, waiting := none, challenge := none, response := none
             mka := if code = rcLINK then [{}, {}] else x.mka }
  else { kept with kek := x.kek, seed := x.seed, cak := x.cak, tampered := x.tampered }

/-- Start-up state after a reset (R356, R357): the flash always; BIST results, losses and the loaded slot's manifest
through a warm one, with the level that held as the highest it may report (R3). (DEDUCED: log entry 148) -/
def State.bootAfter (s : State) (code : Nat) : Boot :=
  let b : Boot := { flash := s.boot.flash, running := some code }
  if isWarm code then
    { b with lost := s.boot.lost, cores := s.boot.cores, accepted := s.boot.accepted, manifestAt := s.boot.manifestAt
             cap := s.boot.level.or s.boot.cap, start := { slot := s.boot.start.slot } }
  else b

/-- Memory after a reset (R356, R357): contents and poison stay through a warm one, and are lost otherwise.
(DEDUCED: log entry 148) -/
def State.memAfter (s : State) (code : Nat) : Mem :=
  if isWarm code then { bytes := s.mem.bytes, poison := s.mem.poison } else {}

/-- Count a reset (RST_COUNTS, R366): the word of its code in the lifetime record; POWER_ON is counted once the record
is restored. -/
def State.countReset (s : State) (code : Nat) : State :=
  let s := match code with
    | 2 | 7 => s.satInc F.RST_COUNTS_PIN
    | 3 => s.satInc F.RST_COUNTS_WATCHDOG
    | 4 => s.satInc F.RST_COUNTS_SAFETY
    | 5 | 6 => s.satInc F.RST_COUNTS_WARM
    | _ => s
  if code = rcPOWER_ON then s else s.life (752 + 4 * (code - 1))

/-- Every block in reset (R356, R357): what a reset of a code keeps, and each other field at its reset value. -/
def State.blocksReset (s : State) (code : Nat) (tamper : Bool) : State :=
  let t : State :=
    { pending := s.pending, out := s.out, free := s.free
      regs := s.regs.filter (fun r => keptReg code r.1)
      boot := s.bootAfter code
      sec := s.secAfter code tamper
      mem := s.memAfter code
      obs := if code = rcPOWER_ON then {} else s.obs
      pwr := { refLost := s.pwr.refLost, refclk := if isWarm code then s.pwr.refclk else 0
               pllStart := if isWarm code then s.pwr.pllStart else [none, none, none, none]
               vid := if code = rcPOWER_ON || code = rcSTANDBY_WAKE then 16 else s.pwr.vid } }
  if isWarm code then (warmFields code).foldl (fun u f => if s.on f then u.put f (s.get f) else u) t else t

/-- What SEC and SAF show after a reset of a code (R321, R356): the debug scopes, TAMPERED, IDENTITY, the MACsec ports, ENV. -/
def State.showAfter (t : State) (code : Nat) : State :=
  let t := ((t.put F.SEC_STATUS_DEBUG_SCOPES 0).flag F.SEC_STATUS_TAMPERED t.sec.tampered).flag F.SEC_STATUS_IDENTITY
    (t.sec.kek.isSome)
  let t := if code = rcLINK then (t.put F.SEC_STATUS_MKA_A 0).put F.SEC_STATUS_MKA_B 0 else t
  if t.sec.tampered then t.put F.SAF_STATE_CAUSE cENV else t

/-- A reset takes effect (R355 to R357). `src` is SAFETY_SRC of a safety reset: 0 REFCLK, 1 tamper; `seen` the codes
recorded with it. SAFE_N is asserted, the state is Safe with cause START (ENV after a tamper trip), time is 0 in FREE.
(DEDUCED: log entries 147, 149) -/
def State.doReset (s : State) (code src seen : Nat) : State :=
  let t := s.blocksReset code (code == rcSAFETY && src == 1)
  let t := ((t.put F.RST_CAUSE_LAST code).put F.RST_CAUSE_SEEN seen).put F.RST_CAUSE_SAFETY_SRC (if code = rcSAFETY then src else 0)
  (t.showAfter code).countReset code

/-- The device is held in reset for want of an Alive unit (R2): every block as RESET_N leaves it, no level, no sequence, until
POWER_ON, RESET_N or a standby wake. No cause is recorded, since no reset source acted. (DEDUCED: log entry 156) -/
def State.holdDown (s : State) : State :=
  let t := (s.blocksReset rcRESET_N false).showAfter rcRESET_N
  { t with boot := { t.boot with running := none, held := true, lost := s.boot.lost } }

/-- Loss of a required unit in operation (R3): the level falls at once to the highest whose units remain, and never
rises; a lower level is reported to SAF as UNIT_LOST (R285). Without an Alive unit the device is held in reset (R2). -/
def State.loseUnit (s : State) (u : ReqUnit) : State :=
  let s := s.addLost u
  match s.boot.level, s.levelNow with
  | some old, some new =>
    if new < old then { s with boot := { s.boot with level := some new } }.detect cUNIT_LOST 0xFF new else s
  | _, none => s.holdDown
  | none, some _ => s

/-- Record a trigger that takes no effect (R355). -/
def State.resetSeen (s : State) (code : Nat) : State :=
  s.put F.RST_CAUSE_SEEN (setBit (s.get F.RST_CAUSE_SEEN) (code - 1))

/-- A reset trigger (R355, R358): while a sequence runs, only a lower code restarts it, but for the safety reset of a
tamper trip or of a REFCLK recovery, which always does (R321, R358). A device held for want of an Alive unit leaves reset
only by POWER_ON, RESET_N or a standby wake (R2). A warm reset ends open host requests with ABORTED (R325).
(DEDUCED: log entry 147) -/
def State.resetTrigger (s : State) (code src : Nat) : State :=
  if s.pwr.off then s
  else if s.boot.held && code != rcPOWER_ON && code != rcRESET_N && code != rcSTANDBY_WAKE then s.resetSeen code
  else match s.boot.running with
    | none => (if code = rcWARM then s.abortOpen else s).doReset code src 0
    | some r => if code < r || code = rcSAFETY then s.doReset code src (2 ^ (r - 1)) else s.resetSeen code

/-! ## Commands -/

/-- POWER_ON_RESET (R378, R355): VDD_AON rises through its threshold. -/
def execPowerOnReset (s : State) : Host.Outcome State Fault Refusal := .next (s.doReset rcPOWER_ON 0 0)

/-- VDD_AON_FALL (R378): the power-on reset is asserted; the device is Off. Fuses and the flash alone remain. -/
def execVddAonFall (s : State) : Host.Outcome State Fault Refusal :=
  .next { (s.doReset rcPOWER_ON 0 0) with
    boot := { flash := s.boot.flash, running := none }
    pwr := { mainEn := false, off := true } }

/-- RESET_N (R355): low for at least 1 µs. -/
def execResetN (s : State) : Host.Outcome State Fault Refusal := .next (s.resetTrigger rcRESET_N 0)

/-- PWR_GOOD_LOW (R379): it resets as RESET_N does while MAIN_EN is high, and is ignored while it is low. -/
def execPwrGoodLow (s : State) : Host.Outcome State Fault Refusal :=
  .next (if s.pwr.mainEn then s.resetTrigger rcRESET_N 0 else s)

/-- WARM (R356): firmware writes RST_CTRL with WARM = 1 and KEY = 0xA5 in one write. -/
def execWarm (s : State) : Host.Outcome State Fault Refusal := .next (s.resetTrigger rcWARM 0)

/-- WATCHDOG_EXPIRY (R283): WDT_TIMEOUT after the latest service SAFE_N is asserted and a watchdog reset forced. The
watchdog runs while the firmware runs, in Active and Idle (R354). (DEDUCED: log entry 115) -/
def execWatchdogExpiry (s : State) : Host.Outcome State Fault Refusal :=
  .next (s.whenSaf (fun s =>
    if (s.boot.step = .acquiring ∨ s.boot.step = .up)
        ∧ s.saf.wdtLast + 25000 * s.get F.SAF_TIMING_WDT_TIMEOUT ≤ s.pwr.refclk then
      s.resetTrigger rcWATCHDOG 0
    else s))

end Sys2Proof.Machine
end

