-- ==== Sys2Proof/Machine/Clocks.lean ====
section
/-! DEFINITION. Clock sources (spec/21_clocks_power_reset.md, R343 to R348) and the VID code (spec/23, R377). -/

namespace Sys2Proof.Machine

/-! ## PLLs and domains (R344, R345) -/

/-- Enable PLLs: each newly enabled one counts 8,192 REFCLK cycles from here (R344). -/
def State.startPlls (s : State) (mask : Nat) : State :=
  let old := s.get F.CLK_SRC_PLL_EN
  let s := s.put F.CLK_SRC_PLL_EN (old ||| mask)
  { s with pwr := { s.pwr with pllStart := (List.range 4).map (fun p =>
      if bitSet mask p && !bitSet old p then some s.pwr.refclk else s.pwr.pllStart.getD p none) } }

/-- Disable the PLLs of a mask: READY clears at once (R344). -/
def State.stopPlls (s : State) (mask : Nat) : State :=
  let off (x : Nat) : Nat := (List.range 4).foldl (fun m k => if bitSet mask k then clearBit m k else m) x
  let s := (s.put F.CLK_SRC_PLL_EN (off (s.get F.CLK_SRC_PLL_EN))).put F.CLK_STATUS_READY (off (s.get F.CLK_STATUS_READY))
  { s with pwr := { s.pwr with pllStart := (List.range 4).map (fun p =>
      if bitSet mask p then none else s.pwr.pllStart.getD p none) } }

/-- Put every domain of a mask on its own PLL, and the others on REFCLK (R345). -/
def State.selectSources (s : State) (sel : Nat) : State := (s.put F.CLK_SRC_SEL sel).put F.CLK_STATUS_ACTIVE sel

/-- New fields of CLK_SRC (R345): refused as a whole when it selects a PLL that is not READY or disables one that a domain
runs on; each refusal sets its event and writes an error-log entry. (DEDUCED: log entry 150) -/
def State.setSources (s : State) (en sel : Nat) : State :=
  let ready := s.get F.CLK_STATUS_READY
  let active := s.get F.CLK_STATUS_ACTIVE
  let early := (List.range 4).any (fun k => bitSet sel k && !bitSet ready k)
  let inUse := (List.range 4).any (fun k => bitSet active k && !bitSet en k)
  let s := if early then (s.raise F.CLK_EVENT_SWITCH_ERR).log wCLK 0 2 0xFF sel else s
  let s := if inUse then (s.raise F.CLK_EVENT_PLL_OFF_ERR).log wCLK 1 2 0xFF en else s
  if early || inUse then s
  else
    let s := (s.startPlls en).stopPlls ((List.range 4).foldl (fun m k => if bitSet en k then m else m + 2 ^ k) 0)
    s.selectSources sel

/-- A write to CLK_SRC (R345): after the lock it is discarded with LOCK_ERR (R7). (DEDUCED: log entry 11) -/
def State.writeClkSrc (s : State) (addr value : Nat) (half : Bool) : State :=
  if s.boot.locked || addr / 8 * 8 + 4 = addr then s.writeReg addr value half
  else s.setSources (bitsAt value 0 4) (bitsAt value 8 4)

/-- CLK_SRC_WRITE (R345): a 64-bit write of CLK_SRC. -/
def execClkSrcWrite (value : Nat) (s : State) : Host.Outcome State Fault Refusal :=
  .next (s.writeClkSrc F.CLK_SRC_SEL.addr value false)

/-- PLL_READY (R344): 8,192 REFCLK cycles after the enable. The ROM, during start-up, and the power controller, during a
wake, switch the domain to its PLL at once (21, Domains and source switching; R352). (DEDUCED: log entry 150) -/
def execPllReady (pll : Nat) (s : State) : Host.Outcome State Fault Refusal :=
  .next (match s.pwr.pllStart.getD pll none with
    | none => s
    | some t =>
      if t + 8192 ≤ s.pwr.refclk ∧ !s.pwr.refLost then
        let s := s.put F.CLK_STATUS_READY (setBit (s.get F.CLK_STATUS_READY) pll)
        let s := { s with pwr := { s.pwr with pllStart := modifyAt (fun _ => none) pll s.pwr.pllStart } }
        if (s.boot.step ≠ .up && !s.on F.PWR_STATUS_TRANSITION) || (s.on F.PWR_STATUS_TRANSITION && bitSet s.pwr.dozeSel pll) then
          s.selectSources (setBit (s.get F.CLK_SRC_SEL) pll)
        else s
      else s)

/-! ## Loss of REFCLK (R348) -/

/-- REFCLK_LOSS (R348): the forced levels; DDR4 loses CKE without self-refresh (R221); pulses end at the inactive level. -/
def execRefclkLoss (s : State) : Host.Outcome State Fault Refusal :=
  .next (if s.pwr.off then s
    else
      { s with
        pwr := { s.pwr with refLost := true, safeN := true }
        tim := { s.tim with pulse := s.tim.pulse.map (fun _ => none) } })

/-- REFCLK_RECOVERY (R348): after 8,192 clean cycles the levels are released and a safety reset with source REFCLK starts.
`lossUs` is the length of the loss on the detector's own oscillator. -/
def execRefclkRecovery (lossUs : Nat) (s : State) : Host.Outcome State Fault Refusal :=
  .next (if !s.pwr.refLost then s
    else
      let s := { s with pwr := { s.pwr with refLost := false } }
      let s := (s.put F.RST_CAUSE_LOSS_US (satNat 32 lossUs)).life 744
      s.resetTrigger rcSAFETY 0)

/-! ## The VDD_CORE set point (R377) -/

/-- VID_STEP (R377): once the loader has ended, at most one step per 10 ms, within the codes 0 to 16. -/
def execVidStep (up : Bool) (s : State) : Host.Outcome State Fault Refusal :=
  .next (if (s.boot.step = .acquiring ∨ s.boot.step = .up) ∧ s.power ≤ 1 ∧ !s.pwr.refLost ∧ s.pwr.vidAt + 250000 ≤ s.pwr.refclk then
      { s with pwr := { s.pwr with vidAt := s.pwr.refclk, vid := if up then min 16 (s.pwr.vid + 1) else s.pwr.vid - 1 } }
    else s)

end Sys2Proof.Machine
end

