-- ==== Sys2Proof/Machine/Lift.lean ====
section
/-! DEFINITION. The lift engine's commands (spec/07_camera_lift.md): the pixel front-end, frame slots, feature columns,
depth-bin tables and the lift. -/

namespace Sys2Proof.Machine

/-- Do something while LFT is enabled and not gated. -/
def State.whenLft (s : State) (f : State → State) : State :=
  if s.on F.LFT_CTRL_ENABLE && s.runs wLFT && !s.pwr.refLost then f s else s

/-! ## The pixel front-end (R106, R107) -/

/-- The 16-bit samples of a line of a data type (R106, R38): RAW10, RAW12, RAW16, YUV422 8-bit (as Y bytes with their U
and V kept apart by the caller). (PRESUMED: log entry 49) -/
def rawSamples (dt : Nat) (l : List Byte) : List Nat :=
  if dt = 0x2B then
    (chunks 5 l).flatMap (fun g => if g.length < 5 then [] else
      (List.range 4).map (fun k => (leAt g k 1 * 4 + bitsAt (leAt g 4 1) (2 * k) 2) * 64))
  else if dt = 0x2C then
    (chunks 3 l).flatMap (fun g => if g.length < 3 then [] else
      [(leAt g 0 1 * 16 + leAt g 2 1 % 16) * 16, (leAt g 1 1 * 16 + leAt g 2 1 / 16) * 16])
  else if dt = 0x2E then (chunks 2 l).map leNat
  else (chunks 2 l).map (fun g => leAt g 1 1 * 256)

/-- Pixels of a line of a data type. -/
def linePixels (dt : Nat) (l : List Byte) : Nat := (rawSamples dt l).length

/-- The four channels of quad `q` from its two rows' samples (R106). `uv` holds the chroma bytes of the two rows. -/
def quadChannels (cfa q : Nat) (r0 r1 : List Nat) (c0 c1 : List Byte) : List Nat :=
  let a := r0.getD (2 * q) 0
  let b := r0.getD (2 * q + 1) 0
  let c := r1.getD (2 * q) 0
  let d := r1.getD (2 * q + 1) 0
  let mean (x y : Nat) : Nat := (x + y + 1) / 2
  match cfa with
  | 0 => [a, b, c, d]
  | 1 => [b, a, d, c]
  | 2 => [c, d, a, b]
  | 3 => [d, c, b, a]
  | 4 => [a, b, c, d]
  | _ => [mean a b, mean c d, mean (leAt c0 (4 * q) 1 * 256) (leAt c1 (4 * q) 1 * 256),
          mean (leAt c0 (4 * q + 2) 1 * 256) (leAt c1 (4 * q + 2) 1 * 256)]

/-- Normalise a channel value (R106). -/
def normChannel (x black gain : Nat) : Byte :=
  BitVec.ofInt 8 (clampInt (-128) 127 ((((x - black) * gain + 32768) / 65536 : Nat) - 128))

/-- Write the quads of a line pair into a slot (R107): row pair `y` (0, 2, 4, …) of a frame of `width8` patches. A patch is one 64-byte
word, written whole with each of its four row pairs. -/
def State.writeQuads (s : State) (base width8 y dt cfa norm gain : Nat) (l0 l1 : List Byte) : State :=
  let r0 := rawSamples dt l0
  let r1 := rawSamples dt l1
  let quad (q : Nat) : List Byte :=
    (quadChannels cfa q r0 r1 l0 l1).zipIdx.map (fun c => normChannel c.1 (bitsAt norm (16 * c.2) 16) (bitsAt gain (16 * c.2) 16))
  (List.range ((r0.length / 2 + 3) / 4)).foldl (fun u p =>
    let a := base + (y / 8 * width8 + p) * 64
    let old := if y % 8 = 0 then zeroBytes 64 else u.readBytes a 64
    let row := padTo 16 ((List.range (min 4 (r0.length / 2 - 4 * p))).flatMap (fun k => quad (4 * p + k)))
    u.writeBytes a (old.take (y % 8 * 8) ++ row ++ old.drop (y % 8 * 8 + 16))) s

/-! ## Camera slots and frames (R105, R108) -/

def State.camStream (s : State) (c : Nat) : Nat := s.get (F.LFT_CAM_CFG_STREAM c)

/-- The camera slot bound to a stream. -/
def State.camOfStream (s : State) (stream : Nat) : Option Nat :=
  (List.range 16).find? (fun c => s.on (F.LFT_CAM_CFG_ENABLE c) && s.camStream c == stream)

/-- The size of a frame slot: the largest frame, in 64 KiB (R115). -/
def State.frameSlotSize (s : State) : Nat :=
  ((List.range 16).map (fun c => if s.on (F.LFT_CAM_CFG_ENABLE c) then
    s.get (F.LFT_CAM_CFG_WIDTH8 c) * s.get (F.LFT_CAM_CFG_HEIGHT8 c) * 64 else 0)).foldl max 0

/-- The address of a frame slot. -/
def State.frameSlotAddr (s : State) (k : Nat) : Nat := s.base F.LFT_SLOT_BASE_BASE + k * s.frameSlotSize

/-- A frame holds its slot until its columns are written (R108). -/
def LftFrame.holdsSlot (f : LftFrame) : Bool := f.phase == .reading || f.phase == .waiting

/-- The frame of a camera whose lines are arriving. -/
def State.readingFrame (s : State) (c : Nat) : Option LftFrame := s.lft.frames.find? (fun f => f.cam == c && f.phase == .reading)

def State.setFrames (s : State) (l : List LftFrame) : State := { s with lft := { s.lft with frames := l } }

def State.updFrame (s : State) (c : Nat) (f : LftFrame → LftFrame) : State :=
  s.setFrames (updateFirst (fun x => x.cam == c && x.phase == .reading) f s.lft.frames)

/-- Drop the frame of a camera whose lines were arriving. -/
def State.dropReading (s : State) (c : Nat) : State :=
  s.setFrames (s.lft.frames.filter (fun f => !(f.cam == c && f.phase == .reading)))

/-- An item of a camera slot is new, not one that a rewound queue delivers again: its SEQ follows those taken (R114). -/
def State.newItem (s : State) (c seq : Nat) : Bool :=
  match s.lft.seqs.lookup c with
  | none => true
  | some last => decide (0 < (seq + 2 ^ 32 - last) % 2 ^ 32) && decide ((seq + 2 ^ 32 - last) % 2 ^ 32 < 2 ^ 31)

/-- An item of a camera slot is taken. -/
def State.noteSeq (s : State) (c seq : Nat) : State :=
  { s with lft := { s.lft with seqs := (c, seq) :: s.lft.seqs.filter (fun x => x.1 != c) } }

/-- A FRAME_START item (R108): it takes a free frame slot with the BLACK and GAIN in force, or the frame is skipped. -/
def State.frameStartItem (s : State) (c seq : Nat) (stamp : Time) : State :=
  let s := s.dropReading c
  let busy := (s.lft.frames.filter (fun f => f.holdsSlot && !f.golden)).map (·.slot)
  match (List.range (s.get F.LFT_CTRL_FRAME_SLOTS)).find? (fun k => !busy.contains k) with
  | none => (s.raise F.LFT_EVENT_SLOT_SKIP).satInc F.LFT_COUNTS_SKIPPED
  | some k =>
    let f : LftFrame := { cam := c, slot := k, stream := s.camStream c, startSeq := seq, stamp
                          norm := (s.reg (F.LFT_CAM_NORM_BLACK0 c).addr).toNat, gain := (s.reg (F.LFT_CAM_GAIN_GAIN0 c).addr).toNat }
    s.setFrames (s.lft.frames ++ [f])

/-- The data type of a camera stream (R33). -/
def State.streamType (s : State) (stream : Nat) : Nat := bitsAt (s.get (F.ING_STR_MATCH_SEL_A stream)) 2 6

/-- A line item of a frame (R106 to R108). -/
def State.lineItem (s : State) (c : Nat) (payload : List Byte) : State :=
  match s.readingFrame c with
  | none => s
  | some f =>
    let n := leAt payload 0 2
    let data := payload.drop 2
    let dt := s.streamType f.stream
    let w8 := s.get (F.LFT_CAM_CFG_WIDTH8 c)
    let ok := linePixels dt data == 8 * w8
    let s := s.updFrame c (fun f => { f with
      seen := if f.nextLine ≤ n then f.seen + 1 else f.seen, nextLine := max f.nextLine (n + 1)
      prev := if n % 2 = 0 then data else f.prev, shapeOk := f.shapeOk && ok })
    if n % 2 = 1 && ok && decide (n < 8 * s.get (F.LFT_CAM_CFG_HEIGHT8 c)) then
      s.writeQuads (s.frameSlotAddr f.slot) w8 (n - 1) dt (s.get (F.LFT_CAM_CFG_CFA c)) f.norm f.gain f.prev data
    else s

/-- A golden line (R114): normalised into the golden slot. (DEDUCED: log entry 50) -/
def State.goldenLine (s : State) (c : Nat) (stamp : Time) (payload : List Byte) : State :=
  if !s.on F.LFT_CTRL_GOLDEN_EN then s
  else
    let n := leAt payload 0 2
    let data := payload.drop 2
    let dt := s.streamType (s.camStream c)
    let s := if n = 0 then { s with lft := { s.lft with goldCam := c, goldStamp := stamp } } else s
    if n % 2 = 0 then { s with lft := { s.lft with goldPrev := data } }
    else s.writeQuads (s.base F.LFT_GOLDEN_BASE_BASE) (linePixels dt data / 8) (n - 1) dt (s.get (F.LFT_CAM_CFG_CFA c))
      (s.reg (F.LFT_CAM_NORM_BLACK0 c).addr).toNat (s.reg (F.LFT_CAM_GAIN_GAIN0 c).addr).toNat s.lft.goldPrev data

/-- The instance of a camera frame (R10): none if it belongs to none, or its instance is final. -/
def State.frameCycle (s : State) (arrival : Time) : Option Nat :=
  (s.glz.insts.find? (fun i => decide (i.winStart ≤ arrival) && decide (arrival < i.tov))).map (·.cycle)

/-- A FRAME_END item (R105, R108, R109): the frame is discarded, or admitted with its frame token, which carries the frame slot, the
camera slot with its backbone, and the instance. (DEDUCED: log entry 184) -/
def State.frameEndItem (s : State) (c flags seq : Nat) (arrival : Time) : State :=
  match s.readingFrame c with
  | none => s
  | some f =>
    let inc := bitSet flags 5
    let wh := bitSet flags 6
    if inc || wh then
      let s := (s.raise F.LFT_EVENT_FRAME_DISCARD).dropReading c
      let s := if wh then s.satInc F.LFT_COUNTS_WITHHELD else s
      if inc then s.satInc F.LFT_COUNTS_INCOMPLETE else s
    else if !f.shapeOk || f.seen ≠ 8 * s.get (F.LFT_CAM_CFG_HEIGHT8 c) then
      ((s.raise F.LFT_EVENT_SHAPE_ERR).satInc F.LFT_COUNTS_SHAPE).dropReading c
    else match s.frameCycle arrival with
      | none => s.dropReading c
      | some n =>
        if (s.inst n).any (fun i => bitSet i.excluded f.stream) then s.dropReading c
        else
          let s := s.updFrame c (fun f => { f with phase := .waiting, cycle := n, arrival, endSeq := seq })
          (s.startBudget 0 (n * 64 + f.stream) n).unitDone 97 false n (f.slot + 256 * c + 65536 * s.get (F.LFT_CAM_CFG_BACKBONE c))

/-- LFT_ITEM_READ (R105 to R109): LFT reads the next item of the ingest queue of a camera slot. A FRAME_END item whose
window has not opened yet stays in the queue. A gap marker is passed: what it says of a frame stands in its FRAME_END item, or in its line
count (R56, R105, R108). The operands are the checks that fail as the item's last word is delivered (R61).
(DEDUCED: log entry 51) -/
def execLftItemRead (cam : ItemRead) (s : State) : Host.Outcome State Fault Refusal :=
  .next (s.whenLft (fun s =>
    if 16 ≤ cam.src || !s.on (F.LFT_CAM_CFG_ENABLE cam.src) then s
    else
      let q := s.get (F.ING_STR_CFG_QUEUE (s.camStream cam.src))
      let k : WordChecks := itemChecks cam
      match s.peekItem q k with
      | .none => s
      | .gap _ _ => (s.takeItem q k).1
      | .item header payload bad steps =>
        let t := (s.takeItem q k).1
        let flags := leAt header 11 1
        let seq := leAt header 12 4
        let stamp := s.itemStamp header steps
        match s.camOfStream (leAt header 10 1 % 64) with
        | none => t
        | some c =>
          if bad || !s.newItem c seq then t
          else if bitSet flags 0 then (t.noteSeq c seq).goldenLine c stamp payload
          else if bitSet flags 3 then (t.noteSeq c seq).frameStartItem c seq stamp
          else if bitSet flags 4 then
            let arrival : Time := toSigned 64 (leAt payload 0 8) + (s.tim.steps - steps)
            if !s.glz.fresh && s.glz.openFrom ≤ arrival && s.glz.prevTov ≤ arrival && s.glz.insts.all (fun i => decide (i.tov ≤ arrival)) then s
            else (t.noteSeq c seq).frameEndItem c flags seq arrival
          else (t.noteSeq c seq).lineItem c payload))

/-! ## Backbone and lift (R109 to R114) -/

/-- Bytes of a feature-column record (R109). -/
def State.recordBytes (s : State) : Nat := (s.get F.LFT_CTRL_C_LIFT + 1) * 64 + 64

/-- The stream queue that carries feature-column records to the lift unit: that of an edge that the lift unit consumes (R109, R155).
(DEDUCED: log entry 184) -/
def State.liftQueue (s : State) : Option Nat :=
  (s.inputQueues 0 98).find? (fun q => s.on (F.SQ_QCFG_ENABLE q))

/-- The frame that a backbone has finished (R109): of slot `slot`, the oldest FRAME_END first among the frames of one backbone; 255 is
the golden slot. -/
def State.backboneFrame (s : State) (slot : Nat) : Option LftFrame :=
  let wait := s.lft.frames.filter (fun f => f.phase == .waiting && !f.golden)
  wait.find? (fun f => f.slot == slot && wait.all (fun g =>
    s.get (F.LFT_CAM_CFG_BACKBONE g.cam) != s.get (F.LFT_CAM_CFG_BACKBONE f.cam) || decide (f.arrival ≤ g.arrival)))

/-- The golden frame whose lines are all in the golden slot (R114, R280): a camera frame that is due. -/
def State.goldenFrame (s : State) : Option LftFrame :=
  (s.saf.golden.find? (fun g => g.kind == 0 && g.due.isSome && !s.lft.frames.any (fun f => f.golden && f.cycle == g.num))).map (fun g =>
    { cam := s.lft.goldCam, slot := 255, stream := s.camStream s.lft.goldCam, startSeq := 0, stamp := s.lft.goldStamp
      norm := 0, gain := 0, golden := true, cycle := g.num })

/-- Bytes that a frame's backbone reads: its slot, from its base. -/
def State.frameArea (s : State) (f : LftFrame) : Nat × Nat :=
  (if f.golden then s.base F.LFT_GOLDEN_BASE_BASE else s.frameSlotAddr f.slot,
    s.get (F.LFT_CAM_CFG_WIDTH8 f.cam) * s.get (F.LFT_CAM_CFG_HEIGHT8 f.cam) * 64)

/-- BACKBONE_DONE (R109, R114): the backbone of the frame in slot `slot`, or in the golden slot (255), writes its last feature-column
record; `records` are its outputs, which go to the lift unit through its stream queue, once that has room. The slot is released and the
frame waits for the lift. (DEDUCED: log entries 50, 184) -/
def execBackboneDone (slot : Nat) (records : List (List Byte)) (s : State) : Host.Outcome State Fault Refusal :=
  .next (s.whenLft (fun s =>
    match if slot = 255 then s.goldenFrame else s.backboneFrame slot with
    | none => s
    | some f =>
      if !f.golden && !s.mayRun f.cycle then s
      else
        let recs := (records.map (padTo s.recordBytes)).take (s.get (F.LFT_CAM_CFG_U_COLS f.cam))
        let q := if f.golden then none else s.liftQueue
        if q.any (fun q => !s.accepts q (recs.length * s.recordBytes)) then s
        else
          let ar := s.frameArea f
          let bad := s.poisoned ar.1 ar.2
          let s := if bad then (s.raise F.LFT_EVENT_DEGRADED).reportBad ar.1 ar.2 else s
          let pos := q.map (fun q => ((s.queue q).wr, (s.queue q).packing.length))
          let s := match q with
            | some q => recs.foldl (fun (u : State) (r : List Byte) => u.queueWrite q r) s
            | none => s
          let g := { f with phase := LftPhase.columns, records := recs, degraded := f.degraded || bad, order := s.lft.doneNext, pos }
          let s := { s with lft := { s.lft with doneNext := s.lft.doneNext + 1
                                                frames := s.lft.frames.filter (fun (x : LftFrame) => !(x.phase == .waiting && x == f)) ++ [g] } }
          if f.golden then s
          else (s.endBudget 0 (f.cycle * 64 + f.stream)).startBudget 1 (f.cycle * 64 + f.stream) f.cycle))

/-- The base of a depth-bin table bank; of the golden table for bank 2, whose place in the image is not stated (R114).
(DESIGN CHOICE: log entry 186) -/
def State.tableBase (s : State) (cam bank : Nat) : Nat := if bank = 2 then Config.goldenTable else s.base (F.LFT_TAB_BASE_BASE cam bank)

/-- RUNS, ENTRIES and CAL_GEN of a table (R110); a poisoned word of the header reads as zero (R114). -/
def State.tableHeader (s : State) (a : Nat) : Nat × Nat × Nat :=
  let h := s.readZeroed a 16
  (leAt h 0 2, leAt h 2 4, leAt h 6 1)

/-- The records of a frame as the lift unit gets them (R109, R114): from the stream queue, a poisoned word being zero; or, without one,
as they were written. None while the queue does not hold them all. -/
def State.takeRecords (s : State) (f : LftFrame) : State × Option (List (List Byte) × Bool) :=
  match s.liftQueue, f.pos with
  | some q, some p =>
    let n := f.records.length * s.recordBytes
    -- a rewound queue is read on from the frame's own records
    let x := s.queue q
    let t := if x.base ≤ p.1 then s.setQueue q { x with rdWord := p.1, rdByte := p.2, again := true } else s
    let bs := readableBytes ((t.storedWords q).map (fun w => if w.bad {} then { w with data := zeroBytes 64 } else w)) p.2
    match t.takeBytes q n with
    | (u, some (_, bad)) => (u, some (chunks s.recordBytes (bs.take n), bad))
    | (_, none) => (s, none)
  | _, _ => (s, some (f.records, false))

/-- The frame that the lift unit takes next: the golden one, else the one whose backbone completed first (R111). -/
def State.nextLift (s : State) : Option LftFrame :=
  let w := s.lft.frames.filter (fun f => f.phase == .columns)
  (w.find? (·.golden)).or (w.find? (fun f => w.all (fun g => decide (f.order ≤ g.order))))

/-- LIFT (R111, R113, R114): the lift unit, when free, takes the next frame in order of backbone completion, with the bank that
was active for its instance, or with the golden table. (DEDUCED: log entry 50) -/
def execLift (s : State) : Host.Outcome State Fault Refusal :=
  .next (s.whenLft (fun s =>
    match s.lft.lifting, s.nextLift with
    | none, some f =>
      if !f.golden && !s.mayRun f.cycle then s
      else
        let bank := if f.golden then 2 else match s.inst f.cycle with
          | some i => i.banks.getD f.cam 0
          | none => s.get (F.LFT_CAM_STAT_ACTIVE_BANK f.cam)
        match s.takeRecords f with
        | (_, none) => s
        | (s, some (records, bad)) =>
          let s := if bad then s.raise F.LFT_EVENT_DEGRADED else s
          let a := s.tableBase f.cam bank
          let lost := s.poisoned a 16
          let s := if lost then (s.raise F.LFT_EVENT_DEGRADED).reportBad a 16 else s
          { s with lft := { s.lft with
              frames := removeFirst (· == f) s.lft.frames
              lifting := some { frame := { f with records, degraded := f.degraded || bad || lost }, bank }
              goldBlocks := if f.golden then [] else s.lft.goldBlocks } }
    | _, _ => s))

/-- The buffers of the output ring held by values, by the lift in progress and by the golden lift (R112). -/
def State.liftBuffers (s : State) : List Nat :=
  let of (c : Contribution) : List Nat := if c.stream.isSome then (c.blocks.filter (fun b => !b.empty)).map (·.buffer) else []
  s.glz.settled.flatMap of ++ s.glz.insts.flatMap (fun i => i.pending.flatMap of ++ i.amendVals.flatMap of)
    ++ ((s.lft.lifting.toList.flatMap (·.blocks) ++ s.lft.goldBlocks).filter (fun b => !b.empty)).map (·.buffer)

/-- The lifted rows of a run (R111): exact sums, requantised to nearest with ties away from zero, clamped. -/
def liftRows (cLift shift : Nat) (records : List (List Byte)) (entries : List (Nat × Nat × Nat)) : List Byte :=
  (List.range 1024).flatMap (fun cell =>
    let es := entries.filter (fun e => e.1 == cell)
    (List.range (64 * cLift)).map (fun ch =>
      let acc : Int := es.foldl (fun a e =>
        let r := records.getD e.2.1 []
        a + (leAt r (64 * cLift + e.2.2) 1 : Int) * toSigned 8 (leAt r ch 1)) 0
      BitVec.ofInt 8 (clampInt (-127) 127 (divRound acc (2 ^ shift)))))

/-- The 64-byte header of a lifted block (R112). -/
def liftHeader (f : LftFrame) (tile cells calGen : Nat) (last degraded : Bool) : List Byte :=
  withCrc (natLe 2 tile ++ natLe 1 f.stream
    ++ natLe 1 ((if last then 1 else 0) + (if f.golden then 2 else 0) + (if degraded then 4 else 0))
    ++ natLe 1 calGen ++ natLe 1 (slotByte f.golden f.cycle) ++ natLe 2 cells ++ natLe 8 (ofInt 64 f.stamp)
    ++ natLe 4 f.endSeq ++ zeroBytes 40)

/-- A run has been emitted, or passed. -/
def Lifting.advance (l : Lifting) (bs : List Block) (bad : Bool) : Lifting :=
  { l with run := l.run + 1, blocks := l.blocks ++ bs, frame := { l.frame with degraded := l.frame.degraded || bad } }

/-- Runs and entries of the table that a lift reads: what its header says, within what a bank can hold (R110, R113). -/
def State.liftTable (s : State) (l : Lifting) : Nat × Nat × Nat :=
  let h := s.tableHeader (s.tableBase l.frame.cam l.bank)
  (min 256 h.1, min (s.get (F.LFT_CAM_CFG_U_COLS l.frame.cam) * s.get (F.LFT_CAM_CFG_D_BINS l.frame.cam)) h.2.1, h.2.2)

/-- LIFT_BLOCK_EMIT (R111 to R114): the next run's block, once a ring buffer is free. An invalid run emits no block; a table with no run
emits a header with TILE 0xFFFF and LAST. A poisoned word of the table reads as zero. (DESIGN CHOICE: log entry 48) -/
def execLiftBlockEmit (s : State) : Host.Outcome State Fault Refusal :=
  .next (s.whenLft (fun s =>
    match s.lft.lifting with
    | none => s
    | some l =>
      let f := l.frame
      let a := s.tableBase f.cam l.bank
      let h := s.liftTable l
      let go (s : State) (l : Lifting) : State := { s with lft := { s.lft with lifting := some l } }
      if h.1 = 0 ∧ l.run = 0 then
        go s (l.advance [{ tile := 0xFFFF, buffer := 0, empty := true, header := liftHeader f 0xFFFF 0 h.2.2 true f.degraded }] false)
      else if h.1 ≤ l.run then s
      else
        let d := s.readZeroed (a + 16 + 8 * l.run) 8
        let tile := leAt d 0 2
        let count := leAt d 2 2
        let first := leAt d 4 4
        let ea := a + 16 + 8 * h.1 + 4 * first
        let valid := decide (tile ≤ 255) && decide (first + count ≤ h.2.1)
        let bad := s.poisoned (a + 16 + 8 * l.run) 8 || (valid && s.poisoned ea (4 * count))
        let t := if bad then
            let u := s.reportBad (a + 16 + 8 * l.run) 8
            (if valid then u.reportBad ea (4 * count) else u).raise F.LFT_EVENT_DEGRADED
          else s
        if !valid then go t (l.advance [] bad)
        else
          let held := s.liftBuffers
          match (List.range (s.get F.LFT_CTRL_LIFT_BUFS)).find? (fun b => !held.contains b) with
          | none => s
          | some b =>
            let u := s.get (F.LFT_CAM_CFG_U_COLS f.cam)
            let nd := s.get (F.LFT_CAM_CFG_D_BINS f.cam)
            let es := (List.range count).filterMap (fun k =>
              let e := leNat (s.readZeroed (ea + 4 * k) 4)
              let col := bitsAt e 10 9
              let bin := bitsAt e 19 6
              if col < u ∧ bin < nd then some (e % 1024, col, bin) else none)
            let rows := liftRows s.cLift (s.get F.LFT_CTRL_LIFT_SHIFT) f.records es
            let deg := f.degraded || bad
            let cells := (es.map (·.1)).eraseDups.length
            let head := liftHeader f tile cells h.2.2 (l.run + 1 == h.1) deg
            let s := t.writeBytes (s.liftBuf b) (head ++ rows)
            go s (l.advance [{ tile, buffer := b, degraded := deg, sites := cells, header := head }] bad)))

/-- The blocks of a frame that turned out degraded: each carries DEGRADED, those already written too (R114). -/
def State.degradeLift (s : State) (l : Lifting) : State × List Block :=
  if !l.frame.degraded then (s, l.blocks)
  else
    let calGen := (s.liftTable l).2.2
    let bs := l.blocks.map (fun b =>
      { b with degraded := true, header := liftHeader l.frame b.tile b.sites calGen (bitSet (leAt b.header 3 1) 0) true })
    (bs.foldl (fun u b => if b.empty then u else u.writeBytes (u.liftBuf b.buffer) b.header) s, bs)

/-- LIFT_DONE (R111, R139, R150): with every run emitted the lift ends with its completion token; the frame is ready and becomes its
camera's pending value. The golden lift's blocks stay until the next golden lift. -/
def execLiftDone (s : State) : Host.Outcome State Fault Refusal :=
  .next (s.whenLft (fun s =>
    match s.lft.lifting with
    | none => s
    | some l =>
      let f := l.frame
      let h := s.liftTable l
      if l.run < max 1 h.1 then s
      else
        let (s, blocks) := s.degradeLift l
        let s := { s with lft := { s.lft with lifting := none } }
        let s := s.unitDone 98 f.golden f.cycle f.cam
        if f.golden then { s with lft := { s.lft with goldBlocks := blocks } }
        else
          let c : Contribution := { stream := some f.stream, time := f.stamp, calGen := h.2.2, arrival := f.arrival, blocks }
          let s := { s with lft := { s.lft with frames := s.lft.frames ++ [{ f with phase := .lifted }] } }
          let s := (s.modInc (F.LFT_CAM_STAT_FRAMES f.cam)).endBudget 1 (f.cycle * 64 + f.stream)
          (s.frameReady f.cycle c f.again).tryFinal))

/-! ## Registers computed from the frames -/

/-- Whether a camera's shadow bank may be written (R113): no instance in flight can still lift with it. A frame still being read, or
still in its ingest queue, may be the head's. (DEDUCED: log entry 185) -/
def State.shadowFree (s : State) (c : Nat) : Bool :=
  let shadow := 1 - s.get (F.LFT_CAM_STAT_ACTIVE_BANK c)
  !s.glz.insts.any (fun i => i.banks.getD c 0 == shadow &&
    (decide (s.now < i.tov) || !s.isHead i.cycle
      || s.lft.frames.any (fun f => f.cam == c && !f.golden && (if f.phase = .reading then decide (f.stamp < i.tov)
        else f.cycle == i.cycle && f.phase != .lifted))
      || decide ((s.queue (s.get (F.ING_STR_CFG_QUEUE (s.camStream c)))).rdWord < (s.queue (s.get (F.ING_STR_CFG_QUEUE (s.camStream c)))).wr)
      || s.lft.lifting.any (fun l => l.frame.cam == c && !l.frame.golden && l.frame.cycle == i.cycle)))

/-- LFT_STATUS and LFT_CAM_STATc as computed (07). -/
def State.lftStatus (s : State) : BitVec 64 :=
  if !s.on F.LFT_CTRL_ENABLE then 0
  else BitVec.ofNat 64 (s.get F.LFT_CTRL_FRAME_SLOTS + s.lft.frames.countP (fun f => f.holdsSlot && !f.golden) * 64
    + (s.get F.LFT_CTRL_LIFT_BUFS - s.liftBuffers.eraseDups.length) * 4096 + (if s.lft.lifting.isSome then 2 ^ 22 else 0))

def State.camStat (s : State) (c : Nat) : BitVec 64 :=
  let f := F.LFT_CAM_STAT_SHADOW_FREE c
  f.into (s.reg f.addr) (if s.shadowFree c then 1 else 0)

end Sys2Proof.Machine
end

