-- ==== Sys2Proof/Machine/Solver.lean ====
section
/-! DEFINITION. The least-squares solver (spec/08_solver.md): intake and nodes, the signature, assembly, the pivot rule,
publication of estimates, and bundle adjustment. -/

namespace Sys2Proof.Machine

/-! ## Estimates (R120, R122) -/

/-- FLAGS of an estimate (R120). -/
abbrev eDEGRADED := 0
abbrev eREUSED := 1
abbrev eOVERFLOW := 2
abbrev eSAT := 3
abbrev ePIVOT_REG := 4
abbrev eWARM := 5
abbrev eCOLD := 6
abbrev ePREDICTED := 7
abbrev eFALLBACK := 8
abbrev eNO_IMU := 9
abbrev eNO_WHEEL := 10
abbrev eLATE := 11

/-- The 64 bytes of an estimate (R120). -/
def Est.bytes (e : Est) : List Byte :=
  withCrc (natLe 8 (ofInt 64 e.time) ++ natLe 4 (ofInt 32 e.p.1) ++ natLe 4 (ofInt 32 e.p.2.1) ++ natLe 4 (ofInt 32 e.p.2.2)
    ++ natLe 4 (satSigned 32 e.q.1) ++ natLe 4 (satSigned 32 e.q.2.1) ++ natLe 4 (satSigned 32 e.q.2.2.1)
    ++ natLe 4 (satSigned 32 e.q.2.2.2)
    ++ natLe 2 (satSigned 16 e.v.1) ++ natLe 2 (satSigned 16 e.v.2.1) ++ natLe 2 (satSigned 16 e.v.2.2)
    ++ natLe 2 (satSigned 16 e.w.1) ++ natLe 2 (satSigned 16 e.w.2.1) ++ natLe 2 (satSigned 16 e.w.2.2)
    ++ natLe 2 e.flags ++ natLe 1 e.iters ++ natLe 1 (satNat 8 e.pivots) ++ natLe 4 e.seq ++ zeroBytes 4)

/-- predict(e, t) (R122): `pmax` is PREDICT_MAX in ns. -/
def Est.predict (e : Est) (t : Time) (pmax : Int) : Est :=
  let dt := t - e.time
  let f := setBit e.flags ePREDICTED
  { e with
    time := t
    p := (toSigned 32 (ofInt 32 (e.p.1 + moved e.v.1 dt)), toSigned 32 (ofInt 32 (e.p.2.1 + moved e.v.2.1 dt)),
      toSigned 32 (ofInt 32 (e.p.2.2 + moved e.v.2.2 dt)))
    q := (predictTurn e.q e.w dt).unit30
    flags := if pmax < dt then setBit f eDEGRADED else f }

/-- A dyadic number over `den` as an integer, rounded down or up. (DESIGN CHOICE: log entry 42) -/
def Dy.toInt (d : Dy) (den : Nat) : Int := roundFree (d.m * 2 ^ d.e.toNat) (den * 2 ^ (-d.e).toNat)

/-- A list's first three numbers. -/
def vec3 (l : List Int) : Vec3 := (l.getD 0 0, l.getD 1 0, l.getD 2 0)

/-- The numbers of a state, for the evaluation of factors. -/
def EgoState.numbers (x : EgoState) : List Int :=
  [x.q.1, x.q.2.1, x.q.2.2.1, x.q.2.2.2] ++ (x.p ++ x.v ++ x.bg ++ x.ba).flatMap (fun d => [d.m, d.e])

/-- The estimate of a state (R120): position in mm, velocity in 2 mm/s; the angular rate corrected by the gyro bias comes from the node's
samples, `facts`. (DESIGN CHOICE: log entry 53) -/
def EgoState.estimate (x : EgoState) (time : Time) (param : List Byte) (facts : List Int) : Est :=
  { time, p := vec3 (x.p.map (fun d => toSigned 32 (ofInt 32 (d.toInt 1)))), q := x.q, v := vec3 (x.v.map (fun d => d.toInt 2))
    w := vec3 (Config.angularRate param facts x.numbers) }

/-- The cold prior of a node: an estimate's pose and velocity, with the biases of a state held (R129). -/
def Est.state (e : Est) (biases : EgoState) : EgoState :=
  { biases with p := [e.p.1, e.p.2.1, e.p.2.2].map Dy.ofInt, q := e.q, v := [e.v.1, e.v.2.1, e.v.2.2].map (fun v => Dy.ofInt (2 * v)) }

/-- The prior state of the first solve after reset, which fixes the odometry frame: its origin is the position there, and its heading is
the vehicle's, so the rotation is a pitch and a roll alone (R117). (DESIGN CHOICE: log entry 53; DEDUCED: log entry 187) -/
def priorState (param : List Byte) (facts : List Int) : EgoState :=
  let n (i : Nat) : List Dy := (List.range 3).map (fun j => ⟨Config.priorPart param facts (3 * i + j), -40⟩)
  let roll := Config.priorTilt param facts true
  let pitch := Config.priorTilt param facts false
  { p := List.replicate 3 (Dy.ofInt 0)
    q := Quat.unit30 (roll.1 * pitch.1, roll.2 * pitch.1, roll.1 * pitch.2, -(roll.2 * pitch.2))
    v := n 0, bg := n 1, ba := n 2 }

/-! ## Settings and parameters -/

/-- The ego kind runs. -/
def State.egoOn (s : State) : Bool := s.on F.SLV_CTRL_ENABLE && s.on F.SLV_CTRL_EGO_EN && s.runs wSLV && s.boot.step == .up

/-- Do something while the ego kind runs. -/
def State.whenEgo (s : State) (f : State → State) : State := if s.egoOn then f s else s

/-- The parameter block, 256 bytes, fixed after start (R119). -/
def State.slvParam (s : State) : List Byte := s.slv.param

/-- The scale table, 32 signed bytes (R126). -/
def State.slvScale (s : State) : List Byte := s.readBytes (s.base F.SLV_SCALE_BASE_BASE) 32

/-- A byte of the scale table as an exponent (R126). -/
def scaleAt (t : List Byte) (i : Nat) : Int := toSigned 8 (leAt t i 1)

/-- The stream of an enabled IMU slot, of an enabled encoder slot (R119). -/
def imuStream (p : List Byte) (i : Nat) : Option Nat :=
  let b := leAt p (64 * i) 1
  if bitSet b 7 then some (bitsAt b 0 6) else none
def encStream (p : List Byte) (e : Nat) : Option Nat :=
  let b := leAt p (128 + 8 * e) 1
  if bitSet b 7 then some (bitsAt b 0 6) else none

/-- Three raw fields of an IMU sample from an offset (R119). -/
def rawFields (flags : Nat) (payload : List Byte) (off : Nat) : List Int :=
  let w := if bitSet flags 1 then 4 else 2
  (List.range 3).map (fun j =>
    let o := off + w * j
    toSigned (8 * w) (if bitSet flags 0 then beAt payload o w else leAt payload o w))

/-- The sample of an item, for SLV (R118, R119): none when no slot takes it. -/
def egoItemOf (p : List Byte) (kind stream : Nat) (stamp : Time) (payload : List Byte) (shift : Int) : Option EgoItem :=
  if kind = 2 then some (.can stamp)
  else match [0, 1].find? (fun i => kind == 3 && imuStream p i == some stream) with
    | some i =>
      let fl := leAt p (64 * i + 1) 1
      some (.imu i stamp (rawFields fl payload (leAt p (64 * i + 2) 1)) (rawFields fl payload (leAt p (64 * i + 3) 1)))
    | none =>
      match (List.range 8).find? (fun e => kind == 4 && encStream p e == some stream) with
      | none => none
      | some e =>
        let idle := bitSet (leAt payload 4 4) 0
        some (.wheel e stamp (if idle then 0 else toSigned 32 (leAt payload 0 4))
          (stamp - (toSigned 64 (leAt payload 8 8) + shift)))

def EgoItem.stamp : EgoItem → Time
  | .imu _ t _ _ => t
  | .wheel _ t _ _ => t
  | .can t => t

/-- A sample as numbers, for the evaluation of factors. -/
def EgoItem.numbers : EgoItem → List Int
  | .imu i t g a => [0, (i : Int), t] ++ g ++ a
  | .wheel e t c d => [1, (e : Int), t, c, d]
  | .can t => [2, t]

/-! ## Intake (R118) -/

/-- EGO_SAMPLE_READ (R118): the next item of an IMU, encoder or CAN FD queue joins the node of its interval; a sample of
an interval whose intake has closed is dropped and counted; withheld, golden and poisoned items are not used (R50, R61). The operands are
the checks that fail as its last word is delivered (R61). -/
def execEgoSampleRead (queue : ItemRead) (s : State) : Host.Outcome State Fault Refusal :=
  .next (s.whenEgo (fun s =>
    if !(List.range 64).any (fun i => s.on (F.ING_STR_CFG_ENABLE i) && s.get (F.ING_STR_CFG_QUEUE i) == queue.src
        && decide (2 ≤ s.get (F.ING_STR_CFG_KIND i))) then s
    else
      let (s, it) := s.takeItem queue.src (itemChecks queue)
      match it with
      | .none | .gap _ _ => s
      | .item h payload bad steps =>
        let flags := leAt h 11 1
        let stream := bitsAt (leAt h 10 1) 0 6
        let kind := s.get (F.ING_STR_CFG_KIND stream)
        let stamp := s.itemStamp h steps
        let err : Bool := kind == 4 && bitSet (leAt payload 4 4) 1
        if bad || bitSet flags 6 || bitSet flags 0 then s
        else if err then { s with slv := { s.slv with encErrs := s.slv.encErrs + 1 } }
        else match egoItemOf s.slvParam kind stream stamp payload (s.tim.steps - steps) with
          | none => s
          | some x =>
            let late := match s.slv.closed with
              | some c => decide (x.stamp < c)
              | none => false
            if late then
              { (s.raise F.SLV_EVENT_LATE_MEAS) with slv := { s.slv with late := true, lateCount := s.slv.lateCount + 1 } }
            else { s with slv := { s.slv with items := s.slv.items ++ [x] } }))

/-- A record dropped (R118, R125). (DEDUCED: log entry 57) -/
def State.regDrop (s : State) : State :=
  { (s.raise F.SLV_EVENT_REG_DROP) with slv := { s.slv with dropped := s.slv.dropped + 1 } }

/-- TIME of a registration record. -/
def regTime (r : List Byte) : Time := toSigned 64 (leAt r 0 8)

/-- REGISTRATION_RECORD (R118, R119): the record joins the node whose interval contains its TIME, in the window or to
come; one older than the window, or whose CRC fails, is dropped and counted. (DEDUCED: log entry 57) -/
def execRegistrationRecord (s : State) : Host.Outcome State Fault Refusal :=
  .next (s.whenEgo (fun s =>
    let (s, r) := s.takeBytes (s.get F.SLV_QUEUES_REG_Q) 64
    match r with
    | none => s
    | some (b, bad) =>
      let t := regTime b
      let add (n : SlvNode) : SlvNode := if n.prev ≤ t ∧ t < n.time then { n with regs := n.regs ++ [b] } else n
      if bad || !crcOk b then s.regDrop
      else if s.slv.nodes.any (fun n => decide (n.prev ≤ t) && decide (t < n.time)) then
        -- a solve of the window takes it from its next assembly on
        { s with slv := { s.slv with nodes := s.slv.nodes.map add
                                     solve := s.slv.solve.map (fun x => { x with nodes := x.nodes.map add }) } }
      else match s.slv.closed with
        | some c => if t < c then s.regDrop else { s with slv := { s.slv with regs := s.slv.regs ++ [b] } }
        | none => { s with slv := { s.slv with regs := s.slv.regs ++ [b] } }))

/-! ## Nodes (R117, R135) -/

/-- The slot of the next node in the resident structure: k mod 64, and one on from the node before it across a step of device time (R124,
R135). (DESIGN CHOICE: log entry 189) -/
def State.nextSlot (s : State) (t : Time) : Nat :=
  match s.slv.nodes.getLast? with
  | some n => (n.slot + 1) % 64
  | none => ofInt 6 (t / s.nodePeriod)

/-- The mantissas of bytes, 4 each. -/
def mantissas (l : List Byte) : List Int := (chunks 4 l).map (fun c => toSigned 32 (leNat c))

/-- UPDATE_RECORD (R125): with ASM_EN = 0 a record of UPD_Q is read, to be applied at the next intake close. One whose slots
lie outside the window, or whose CRC fails, is dropped and counted. (DEDUCED: log entries 57, 58) -/
def execUpdateRecord (s : State) : Host.Outcome State Fault Refusal :=
  .next (s.whenEgo (fun s =>
    if s.on F.SLV_CTRL_ASM_EN then s
    else
      let q := s.get F.SLV_QUEUES_UPD_Q
      let kind := leAt (s.peekBytes q 64) 10 1
      let (s, r) := s.takeBytes q (64 + if kind = 0 then 900 else 60)
      match r with
      | none => s
      | some (b, bad) =>
        let body := b.drop 64
        let slots := (List.range (s.slvSetAt s.nextNode).window).map (fun (i : Nat) => (s.nextSlot s.nextNode + 64 - i) % 64)
        let inWin := slots.contains (leAt b 8 1) && (kind != 0 || slots.contains (leAt b 9 1))
        let crc := crc32c (b.take 60 ++ body) == leAt b 60 4
        if bad || !crc || !inWin then s.regDrop
        else { s with slv := { s.slv with updates := s.slv.updates ++ [(b.take 64, mantissas body)] } }))

/-! ## Fixed point (R126, R128) -/

/-- The bound of a mantissa. -/
abbrev mantMax : Int := 2147483647

/-- A mantissa saturated to its bound, and whether it was (R126). -/
def satMant (m : Int) : Int × Nat := (clampInt (-mantMax) mantMax m, if m < -mantMax ∨ mantMax < m then 1 else 0)

/-- A list of mantissas saturated, and how many were. -/
def satAll (l : List Int) : List Int × Nat := (l.map (fun m => (satMant m).1), (l.map (fun m => (satMant m).2)).foldl (· + ·) 0)

/-- An exact dyadic value, over a positive divisor mantissa at exponent `de`, as a mantissa at exponent `e`: nearest, ties
away from zero, before saturation (R126). -/
def storeQuot (a : Dy) (d : Nat) (de e : Int) : Int :=
  let x := a.e - de - e
  if 0 ≤ x then divRound (a.m * 2 ^ x.toNat) (max 1 d) else divRound a.m (max 1 d * 2 ^ (-x).toNat)

/-- An exact value as a mantissa at exponent `e` (R126). -/
def storeAt (a : Dy) (e : Int) : Int := storeQuot a 1 0 e

/-- A factorisation in progress: the rows of L and the pivots D so far (first row first), regularised pivots,
saturations, and whether a pivot failed (R128). -/
structure Fact where
  l    : List (List Int) := []
  d    : List Int := []
  regs : Nat := 0
  sats : Nat := 0
  fail : Bool := false
  deriving DecidableEq, Repr

/-- The exponents of a factorisation: of a diagonal block's entries, of the others', of L, of D (R126). -/
structure FactExp where
  diag : Int
  off  : Int
  l    : Int
  d    : Int
  deriving DecidableEq, Repr

/-- The sum over j of l[i][j] * l[k][j] * d[j], from row lists (R128). -/
def bandSum (e : FactExp) (li lk d : List Int) : Dy :=
  ((li.zip lk).zip d).foldl (fun acc x => dyAdd acc ⟨x.1.1 * x.1.2 * x.2, e.l + e.l + e.d⟩) (Dy.ofInt 0)

/-- Row `i` of L up to column `k` (R128): each entry divided by its pivot and stored at L's exponent. -/
def factRow (e : FactExp) (a : Nat → Int) (blk i : Nat) (f : Fact) : Nat → Nat → List Int × Nat → List Int × Nat
  | 0, _, r => r
  | n + 1, k, r =>
    let ea := if i / blk = k / blk then e.diag else e.off
    let v := dySub ⟨a k, ea⟩ (bandSum e r.1 (f.l.getD k []) f.d)
    let m := satMant (storeQuot v ((f.d.getD k 1).toNat) e.d e.l)
    factRow e a blk i f n (k + 1) (r.1 ++ [m.1], r.2 + m.2)

/-- Pivot `i` (R128): regularised by LAMBDA when below PIVOT_MIN; the solve fails when it still is. -/
def factStep (e : FactExp) (blk pmin lam : Nat) (a : Nat → Nat → Int) (f : Fact) (i : Nat) : Fact :=
  if f.fail then f
  else
    let r := factRow e (a i) blk i f i 0 ([], 0)
    let d := satMant (storeAt (dySub ⟨a i i, e.diag⟩ (bandSum e r.1 r.1 f.d)) e.d)
    let reg := decide (d.1 < pmin)
    let d2 := if reg then satMant (d.1 + lam) else (d.1, 0)
    { l := f.l ++ [r.1], d := f.d ++ [d2.1], regs := f.regs + (if reg then 1 else 0)
      sats := f.sats + r.2 + d.2 + d2.2, fail := decide (d2.1 < pmin) }

/-- The factorisation of an n × n system of blocks of `blk` (R128). Entries outside the band are 0 and stay 0.
(DESIGN CHOICE: log entry 53) -/
def factorise (e : FactExp) (blk pmin lam n : Nat) (a : Nat → Nat → Int) : Fact :=
  (List.range n).foldl (factStep e blk pmin lam a) {}

/-! ## Signature and start of a solve (R129) -/

/-- Bits as bytes, bit j in byte j div 8 at bit j mod 8 (R129). -/
def packBits (l : List Bool) : List Byte :=
  (List.range ((l.length + 7) / 8)).map (fun i => BitVec.ofNat 8
    ((List.range 8).foldl (fun n j => if l.getD (8 * i + j) false then n + 2 ^ j else n) 0))

/-- The signature of a structure: kind, block size, block count, and the lower-triangle occupancy, row-major (R129). -/
def signature (kind size n : Nat) (occ : Nat → Nat → Bool) : Nat :=
  let bits := (List.range n).flatMap (fun i => (List.range (i + 1)).map (fun j => i == j || occ i j))
  crc32c (natLe 1 kind ++ natLe 1 size ++ natLe 2 n ++ packBits bits)

/-- The signature of the ego problem: node i is coupled to the node before it by its IMU factor (R129). -/
def egoSignature (nodes : List SlvNode) : Nat :=
  signature 0 15 nodes.length (fun i j => j + 1 == i && (nodes.map (fun n => !n.imus.isEmpty)).getD i false)

/-- The mean forward velocity over the encoder records of an interval, a fraction in m/s (R118): each is its count times M_PER_COUNT over
the time since the record before it; an idle record gives 0. (DEDUCED: log entry 188) -/
def wheelSpeed (param : List Byte) (items : List EgoItem) : Int × Nat :=
  let vs : List (Int × Nat) := items.filterMap (fun x => match x with
    | .wheel e _ c d =>
      let m := f32Val (leAt param (132 + 8 * e) 4)
      let num := c * m.m * 2 ^ m.e.toNat * 1000000000
      if 0 < d then some (num, d.toNat * 2 ^ (-m.e).toNat)
      else if c = 0 then some (0, 1) else some (Config.noQuotient num, 1)
    | _ => none)
  let sum := vs.foldl (fun (a : Int × Nat) v => (a.1 * v.2 + v.1 * a.2, a.2 * v.2)) (0, 1)
  (sum.1, sum.2 * max 1 vs.length)

/-- What the factors of a node are formed from, as numbers (R118): its interval, which IMU slots give it a factor, the mean wheel speed,
the samples held into it and its own, and its registration records. -/
def SlvNode.facts (param : List Byte) (n : SlvNode) : List Int :=
  let w := wheelSpeed param n.items
  [n.time, n.prev, if n.imus.contains 0 then 1 else 0, if n.imus.contains 1 then 1 else 0, if n.wheel then 1 else 0, w.1, w.2]
    ++ (n.before ++ n.items).flatMap EgoItem.numbers ++ n.regs.flatMap (fun r => r.map (fun b => (b.toNat : Int)))

/-- The latest IMU sample of a slot among samples. -/
def latestImu (l : List EgoItem) (slot : Nat) : Option EgoItem :=
  (l.filter (fun x => match x with
    | .imu i _ _ _ => i == slot
    | _ => false)).foldl (fun (m : Option EgoItem) x => match m with
      | some y => if y.stamp ≤ x.stamp then some x else m
      | none => some x) none

/-- Form the node that closes at `t`, with its factors (R118): of the samples gathered, those of its interval; an older one serves as the
sample held into it. -/
def State.formNode (s : State) (t prev : Time) : State × SlvNode :=
  let p := s.slvParam
  let mine := s.slv.items.filter (fun x => decide (prev ≤ x.stamp) && decide (x.stamp < t))
  let older := s.slv.lastImu ++ s.slv.items.filter (fun x => decide (x.stamp < prev))
  let both (l : List EgoItem) : List EgoItem := [0, 1].filterMap (latestImu l)
  let last := both (older ++ mine)
  let fresh (i : Nat) : Bool := match imuStream p i, latestImu last i with
    | some st, some x => decide (t - x.stamp ≤ 4 * s.get (F.ING_STR_TIME_PERIOD st))
    | _, _ => false
  let n : SlvNode := {
    time := t, prev, slot := s.nextSlot t, items := mine, before := both older
    regs := s.slv.regs.filter (fun r => decide (prev ≤ regTime r) && decide (regTime r < t))
    imus := [0, 1].filter fresh
    wheel := mine.any (fun x => match x with
      | .wheel _ _ _ _ => true
      | _ => false) }
  ({ s with slv := { s.slv with
      items := s.slv.items.filter (fun x => decide (t ≤ x.stamp))
      regs := s.slv.regs.filter (fun r => decide (t ≤ regTime r))
      lastImu := last } }, n)

/-- The prior at a cold start: the prior state of the oldest node with the PRIOR_SIGMA values (R118). -/
def coldPrior (param : List Byte) (nodes : List SlvNode) : List Int :=
  0 :: ((nodes.head?.map (fun (n : SlvNode) => n.state)).getD {}).numbers ++ (slice param 204 20).map (fun b => (b.toNat : Int))

/-- The window of the solve: node added, oldest dropped into the prior; a window not yet full is filled at its old end with
nodes at the prior state (R117). (DEDUCED: log entry 54) -/
def slideWindow (param : List Byte) (period : Int) (w : Nat) (nodes : List SlvNode) (prior : List Int) (n : SlvNode) :
    List SlvNode × List Int :=
  let start := priorState param (n.facts param)
  let prevState := match nodes.getLast? with
    | some x => x.state
    | none => start
  let all := nodes ++ [{ n with state := prevState }]
  if all.length < w then
    let first : SlvNode := all.head?.getD n
    let k := w - all.length
    let fill := (List.range k).map (fun (i : Nat) =>
      ({ time := first.prev - ((k - 1 - i : Nat) : Int) * period, prev := first.prev - ((k - i : Nat) : Int) * period
         slot := (first.slot + 64 - (k - i)) % 64, state := start } : SlvNode))
    (fill ++ all, if nodes.isEmpty then coldPrior param (fill ++ all) else prior)
  else
    let gone := all.take (all.length - w)
    let kept := all.drop (all.length - w)
    let next : SlvNode := kept.head?.getD n
    (kept, gone.foldl (fun p g =>
      1 :: Config.marginal p (g.facts param ++ g.state.numbers) (next.facts param ++ next.state.numbers)) prior)

/-! ## The resident structure (R124, R125) -/

/-- The place of a block of the resident structure in the work area, of which each slot takes 8 KiB: the diagonal block of H, the block
that couples the slot with the one before it, and the segment of g, at rows of 64 bytes. (DESIGN CHOICE: log entry 189) -/
def State.blockAt (s : State) (slot part : Nat) : Nat := s.base F.SLV_WORK_BASE_BASE + 8192 * slot + 1024 * part

/-- The length of a part. -/
def partLen (part : Nat) : Nat := if part < 2 then 960 else 64

/-- The mantissas of a part as held, 15 a row. -/
def State.blockHeld (s : State) (slot part : Nat) : List Int :=
  (chunks 64 (s.readBytes (s.blockAt slot part) (partLen part))).flatMap (fun r => mantissas (r.take 60))

/-- Store a part, replacing or adding, with saturation (R125, R126); also the saturations. An addition to a poisoned word leaves it
(R135). (DEDUCED: log entry 58) -/
def State.storeBlock (s : State) (slot part : Nat) (add : Bool) (v : List Int) : State × Nat :=
  let a := s.blockAt slot part
  if add && s.poisoned a (partLen part) then (s, 0)
  else
    let old := if add then s.blockHeld slot part else []
    let n := if part < 2 then 225 else 15
    let r := satAll ((List.range n).map (fun i => v.getD i 0 + old.getD i 0))
    let rows := (List.range (n / 15)).flatMap (fun i =>
      (List.range 15).flatMap (fun j => natLe 4 (ofInt 32 (r.1.getD (15 * i + j) 0))) ++ zeroBytes 4)
    (s.writeBytes a rows, r.2)

/-- Where an H block of a row and a column slot is held, and whether its transpose is: the lower triangle of a block-tridiagonal matrix
(R116); none outside it. -/
def blockPlace (row col : Nat) : Option (Nat × Nat × Bool) :=
  if row = col then some (row, 0, false)
  else if (col + 1) % 64 = row then some (row, 1, false)
  else if (row + 1) % 64 = col then some (col, 1, true)
  else none

/-- A 15 × 15 block, transposed. -/
def transposed (v : List Int) : List Int :=
  (List.range 225).map (fun k => v.getD (k % 15 * 15 + k / 15) 0)

/-- Count saturations (R126). -/
def State.slvSats (s : State) (n : Nat) : State :=
  if n = 0 then s else (s.raise F.SLV_EVENT_SAT).satAdd F.SLV_COUNTS_SATS n

/-- Apply the update records read by the intake close (R125). Also whether an addition saturated. (DEDUCED: log entry 58) -/
def State.applyUpdates (s : State) : State × Bool :=
  let r := s.slv.updates.foldl (fun (acc : State × Nat) u =>
    let h := u.1
    let add := leAt h 11 1 == 1
    let put (slot part : Nat) (v : List Int) : State × Nat :=
      let b := acc.1.storeBlock slot part add v
      (b.1, acc.2 + b.2)
    if leAt h 10 1 = 0 then
      match blockPlace (leAt h 8 1) (leAt h 9 1) with
      | some (slot, part, turn) => put slot part (if turn then transposed u.2 else u.2)
      | none => acc
    else put (leAt h 8 1) 2 u.2) (s, 0)
  (({ r.1 with slv := { r.1.slv with updates := [] } } : State).slvSats r.2, r.2 != 0)

/-- EGO_INTAKE_CLOSE (R118, R129, R134): at t_k + EGO_INTAKE the node is formed, the window slides, the signature is compared,
and the solve starts, warm or cold; a running bundle-adjustment step is pre-empted. A cold start discards the previous solution: every node
stands at the prediction from the previous published estimate, the prior at PRIOR_SIGMA. (DEDUCED: log entry 54) -/
def execEgoIntakeClose (s : State) : Host.Outcome State Fault Refusal :=
  .next (s.whenEgo (fun s =>
    let t := s.nextNode
    if s.now < t + s.egoIntake || s.slv.solve.isSome then s
    else
      let set := s.slvSetAt t
      let prev := s.slv.closed.getD (t - s.nodePeriod)
      let (s, n) := s.formNode t prev
      let (s, sat) := if s.on F.SLV_CTRL_ASM_EN then (s, false) else s.applyUpdates
      let (nodes, prior) := slideWindow s.slvParam s.nodePeriod set.window s.slv.nodes s.slv.prior n
      let sig := egoSignature nodes
      let cold := s.slv.sig != some sig
      let discarded := cold && s.slv.sig.isSome
      let at_ (e : Est) (x : SlvNode) : SlvNode :=
        { x with state := (e.predict x.time (set.predictMax * 1000000)).state (s.slv.held.getD x.state) }
      let nodes := match s.slv.last with
        | some e => if cold || s.slv.fromPublished then nodes.map (at_ e) else nodes
        | none => nodes
      let prior := if cold then coldPrior s.slvParam nodes else prior
      let asm := s.on F.SLV_CTRL_ASM_EN
      let fl := flagBits [(eCOLD, cold), (eWARM, discarded), (eNO_IMU, n.imus.isEmpty), (eNO_WHEEL, !n.wheel),
        (eDEGRADED, (n.imus.isEmpty && !n.wheel) || sat), (eFALLBACK, !asm), (eSAT, sat)]
      let sv : EgoSolve := { time := t, set, nodes, prior, sig, flags := fl, start := s.now }
      let s := { s with slv := { s.slv with
        closed := some t, after := some t, passed := none, solve := some sv, nodes, prior, held := none
        heldSets := s.slv.heldSets.filter (fun h => decide (t < h.1))
        fromPublished := false, ba := s.slv.ba.map (fun (b : BaStep) => { b with paused := true }) } }
      ((s.put F.SLV_STATUS_NODES set.window).raise F.SLV_STATUS_EGO_BUSY).flag F.SLV_STATUS_RESIDENT (!asm)))

/-- ASM_BUDGET_EXPIRY (R124): ASM_BUDGET after the intake closed the front stage stops, with `done` nodes of the iteration
assembled, newest first. -/
def execAsmBudgetExpiry (done : Nat) (s : State) : Host.Outcome State Fault Refusal :=
  .next (s.whenEgo (fun s =>
    match s.slv.solve with
    | none => s
    | some x =>
      if x.finished || x.cut.isSome || s.now < x.start + x.set.asmBudget * 1000 || !s.on F.SLV_CTRL_ASM_EN then s
      else { s with slv := { s.slv with solve := some { x with cut := some done, flags := setBit x.flags eFALLBACK } } }))

/-- Assemble the blocks of the `count` newest nodes into the resident structure (R124); also the saturations. -/
def State.assemble (s : State) (nodes : List SlvNode) (prior : List Int) (count : Nat) : State × Nat :=
  let w := nodes.length
  let facts := nodes.map (SlvNode.facts s.slvParam)
  let states := nodes.map (·.state.numbers)
  (List.range (min count w)).foldl (fun (acc : State × Nat) k =>
    let i := w - 1 - k
    let slot := (nodes.map (·.slot)).getD i 0
    let put (acc : State × Nat) (part : Nat) (v : List Int) : State × Nat :=
      let b := acc.1.storeBlock slot part false v
      (b.1, acc.2 + b.2)
    let acc := put acc 0 (Config.assembleH s.slvParam s.slvScale facts states prior i i)
    let acc := if i = 0 then acc else put acc 1 (Config.assembleH s.slvParam s.slvScale facts states prior i (i - 1))
    put acc 2 (Config.assembleG s.slvParam s.slvScale facts states prior i)) (s, 0)

/-- The parts of the resident structure that a window's system is read from: of the oldest node no coupling block. -/
def windowParts (nodes : List SlvNode) : List (Nat × Nat) :=
  nodes.zipIdx.flatMap (fun n => (if n.2 = 0 then [0, 2] else [0, 1, 2]).map (fun p => (n.1.slot, p)))

/-- An entry of the lower triangle of a window's H: row and column of the system, 0 outside the band. -/
def bandEntry (diag off : List (List Int)) (i j : Nat) : Int :=
  let at_ (l : List (List Int)) : Int := (l.getD (i / 15) []).getD (i % 15 * 15 + j % 15) 0
  if i / 15 = j / 15 then at_ diag else if j / 15 + 1 = i / 15 then at_ off else 0

/-- The step of a state: its 15 solution mantissas at the DX exponents (R126), positions and velocities in metres; how the orientation
error turns the rotation is not stated. (DESIGN CHOICE: log entry 53) -/
def EgoState.step (x : EgoState) (scale : List Byte) (delta : List Int) : EgoState :=
  let d (k j by_ : Nat) : Dy := ⟨delta.getD (3 * k + j) 0 * by_, scaleAt scale (5 + k)⟩
  let add (l : List Dy) (k by_ : Nat) : List Dy := (List.range 3).map (fun j => dyAdd (l.getD j (Dy.ofInt 0)) (d k j by_))
  { p := add x.p 0 1000
    q := Config.turnState x.q ((List.range 3).flatMap (fun j => let y := d 1 j 1; [y.m, y.e]))
    v := add x.v 2 1000, bg := add x.bg 3 1, ba := add x.ba 4 1 }

/-- EGO_ITERATION_DONE (R124, R126 to R128): one assembly, factorisation and substitution. The solve ends when it has made
its iterations, when every mantissa of the solution is at most EGO_CONV, after the factorisation that follows an assembly
cut short, and on an overflow, a failed pivot or a poisoned word of the resident structure (R135). -/
def execEgoIterationDone (s : State) : Host.Outcome State Fault Refusal :=
  .next (s.whenEgo (fun s =>
    match s.slv.solve with
    | none => s
    | some x =>
      if x.finished then s
      else
        let w := x.nodes.length
        let scale := s.slvScale
        let (s, sats) := if s.on F.SLV_CTRL_ASM_EN then s.assemble x.nodes x.prior (x.cut.getD w) else (s, 0)
        let iters := x.iters + 1
        let lost := (windowParts x.nodes).filter (fun p => s.poisoned (s.blockAt p.1 p.2) (partLen p.2))
        if !lost.isEmpty then
          let s := lost.foldl (fun (u : State) p => u.reportBad (u.blockAt p.1 p.2) (partLen p.2)) s
          ({ s with slv := { s.slv with solve := some { x with iters, finished := true, failed := true, nougat := true } } } : State).slvSats sats
        else
          let part (p : Nat) : List (List Int) := x.nodes.map (fun n => s.blockHeld n.slot p)
          let e : FactExp := { diag := scaleAt scale 0, off := scaleAt scale 1, l := scaleAt scale 3, d := scaleAt scale 4 }
          let f := factorise e 15 x.set.pivotMin x.set.lambda (15 * w) (bandEntry (part 0) (part 1))
          let delta := if f.fail then [] else Config.substitute f.l f.d (part 2).flatten scale
          let dsat := (satAll delta).2
          let delta := (satAll delta).1
          let upd := x.nodes.zipIdx.map (fun n => (n.1, (delta.drop (15 * n.2)).take 15))
          let ssat := upd.any (fun u => Config.stateSaturates u.1.state.numbers u.2)
          let fail := f.fail || dsat != 0 || ssat
          let conv := delta.all (fun m => decide (m.natAbs ≤ x.set.egoConv))
          let sats := sats + f.sats
          let fl := if sats = 0 then x.flags else setBit (setBit x.flags eSAT) eDEGRADED
          let fl := if f.regs = 0 then fl else setBit fl ePIVOT_REG
          let y := { x with
            nodes := if fail then x.nodes else upd.map (fun u => { u.1 with state := u.1.state.step scale u.2 })
            iters, pivots := x.pivots + f.regs, flags := fl, failed := fail
            finished := fail || conv || x.cut.isSome || decide (x.set.iters ≤ iters) }
          let s := ({ s with slv := { s.slv with solve := some y } } : State).slvSats (sats + dsat)
          if f.regs = 0 then s else (s.raise F.SLV_EVENT_PIVOT_REG).satAdd F.SLV_COUNTS_PIVOT_REGS f.regs))

/-- EGO_SOLVE_DONE (R117, R127, R129, R135): the result is kept, or discarded on an overflow, a failed pivot, or an
uncorrectable Nougat error in the resident structure (`nougat`). -/
def execEgoSolveDone (nougat : Bool) (s : State) : Host.Outcome State Fault Refusal :=
  .next (s.whenEgo (fun s =>
    match s.slv.solve with
    | none => s
    | some x =>
      if x.ended || !(x.finished || nougat) then s
      else
        let nougat := nougat || x.nougat
        let fail := x.failed || nougat
        let x := { x with ended := true, failed := fail, dur := satNat 16 ((s.now - x.start).toNat / 100) }
        let s := (s.put F.SLV_SIG_EGO_SIG x.sig).egoIdle
        let s := if nougat then (s.raise F.SLV_EVENT_NGT_ERR).detect cCONTAINED 0xFF (s.base F.SLV_WORK_BASE_BASE) else s
        let s := if bitSet x.flags eWARM then (s.raise F.SLV_EVENT_WARM_DISCARDED).satInc F.SLV_COUNTS_WARM_DISCARDS else s
        let s := if fail then (s.raise F.SLV_EVENT_OVERFLOW).log wSLV 2 1 0xFF (ofInt 64 x.time) else s
        -- after a Nougat error nothing of the resident structure is used again (R135)
        let s := if nougat then s.zeroFill (s.base F.SLV_WORK_BASE_BASE) (s.base F.SLV_WORK_BASE_BASE + 524288) else s
        { s with slv := { s.slv with
          solve := some x, sig := some x.sig
          nodes := if fail then s.slv.nodes else x.nodes
          fromPublished := s.slv.fromPublished || nougat } }))

/-- The estimate of a solve at its publication (R120, R127, R130). -/
def State.egoResult (s : State) (x : EgoSolve) : Est :=
  let pmax : Int := x.set.predictMax * 1000000
  let base : Est := s.slv.last.getD { time := x.time }
  -- a solve that an assembly cut short or firmware's updates fed carries FALLBACK however it ends (R124, R125)
  let fb (f : Nat) : Nat := if bitSet x.flags eFALLBACK then setBit f eFALLBACK else f
  if !x.ended then
    let from_ := if s.slv.missed then s.slv.solved.getD base else base
    let e := from_.predict x.time pmax
    { e with flags := fb (setBit (setBit e.flags eREUSED) eDEGRADED), iters := x.iters }
  else if x.failed then
    let e := base.predict x.time pmax
    { e with flags := fb (setBit (setBit e.flags eOVERFLOW) eDEGRADED), iters := x.iters, pivots := x.pivots }
  else
    match x.nodes.getLast? with
    | some n => { n.state.estimate x.time s.slvParam (n.facts s.slvParam) with flags := x.flags, iters := x.iters, pivots := x.pivots }
    | none => base

/-- Put an estimate in the ring at GLZ_TRAJ_BASE (R141) and on the enabled queues of SLV_QUEUES (R120). -/
def State.publish (s : State) (e : Est) : State :=
  let a := s.base F.GLZ_TRAJ_BASE_BASE + s.glz.trajNext % 65536 * 64
  let s := s.writeBytes a e.bytes
  let s := { s with glz := { s.glz with
    traj := ((e.time, a) :: s.glz.traj.filter (fun x => x.2 != a)).take 65536, trajNext := s.glz.trajNext + 1 } }
  [(0, F.SLV_QUEUES_EGO_Q0), (1, F.SLV_QUEUES_EGO_Q1), (2, F.SLV_QUEUES_EGO_Q2), (3, F.SLV_QUEUES_EGO_Q3)].foldl
    (fun t j => if bitSet (t.get F.SLV_QUEUES_EGO_Q_EN) j.1 then t.queueWrite (t.get j.2) e.bytes else t) s

/-- EGO_PUBLISH (R120, R121, R130): at t_k + EGO_DEADLINE, never earlier, the node's estimate is published. A solve not ended
is abandoned: a predicted estimate with REUSED is published, and the miss is counted and reported to SAF, as EGO_SPAN once
consecutive misses span more than PREDICT_MAX (R285). (DEDUCED: log entries 55, 56) -/
def execEgoPublish (s : State) : Host.Outcome State Fault Refusal :=
  .next (s.whenEgo (fun s =>
    match s.slv.solve with
    | none => s
    | some x =>
      if s.now < x.time + s.egoDeadline then s
      else
        let miss := !x.ended
        let e := s.egoResult x
        let fl := if s.slv.late then setBit e.flags eLATE else e.flags
        let fl := if s.on F.SLV_CTRL_ASM_EN then fl else setBit fl eFALLBACK
        let e := { e with flags := fl, seq := s.slv.seq }
        let s := s.publish e
        let s := if bitSet fl eDEGRADED then s.raise F.SLV_EVENT_DEGRADED else s
        let s := if bitSet fl eFALLBACK then s.raise F.SLV_EVENT_FALLBACK else s
        let s := ((s.put F.SLV_EGO_LAST_SEQ e.seq).put F.SLV_EGO_LAST_FLAGS fl).put F.SLV_EGO_LAST_DURATION
          (if miss then satNat 16 ((s.now - x.start).toNat / 100) else x.dur)
        let again := s.slv.missed
        let since := match s.slv.solved with
          | some y => x.time - y.time
          | none => 0
        let s := { s with slv := { s.slv with
          solve := none, late := false, last := some e, missed := miss
          solved := if x.ended && !x.failed then some e else s.slv.solved
          seq := (s.slv.seq + 1) % 2 ^ 32 } }
        if !miss then s
        else
          let s := ((s.egoIdle).raise F.SLV_EVENT_MISSED).satInc F.SLV_COUNTS_MISSES
          if again && decide ((x.set.predictMax : Int) * 1000000 < since) then s.detect cEGO_SPAN 4 (ofInt 64 x.time)
          else s.detect cCONTAINED 4 (ofInt 64 x.time)))

/-! ## Bundle adjustment (R131 to R134) -/

/-- An observation record of the area (R132). -/
def State.observation (s : State) (i : Nat) : List Byte := s.readBytes (s.base F.SLV_BA_BASE_BASE + 0xA040 + 144 * i) 144

def obsCamera (r : List Byte) : Nat := bitsAt (leAt r 0 4) 0 4
def obsKeyframe (r : List Byte) : Nat := bitsAt (leAt r 0 4) 4 10
def obsLandmark (r : List Byte) : Nat := bitsAt (leAt r 0 4) 14 12

/-- Whether an observation is accepted: its CRC passes and its indices lie within the counts (R132). -/
def obsOk (c k l : Nat) (r : List Byte) : Bool :=
  crcOk r && decide (obsCamera r < c) && (obsKeyframe r == 0x3FF || decide (obsKeyframe r < k)) && decide (obsLandmark r < l)

/-- The accepted observations of a step (R132); one in a poisoned word fails its check. -/
def State.observations (s : State) (c k l o : Nat) : List (List Byte) :=
  (((List.range o).filter (fun i => !s.poisoned (s.base F.SLV_BA_BASE_BASE + 0xA040 + 144 * i) 144)).map s.observation).filter (obsOk c k l)

/-- The blocks an observation touches: its camera, then its keyframe (R129). -/
def obsBlocks (c : Nat) (r : List Byte) : List Nat :=
  obsCamera r :: if obsKeyframe r = 0x3FF then [] else [c + obsKeyframe r]

/-- The signature of a bundle-adjustment problem: two blocks share a landmark (R129). -/
def baSignature (c k : Nat) (obs : List (List Byte)) : Nat :=
  signature 1 6 (c + k) (fun i j => obs.any (fun a => (obsBlocks c a).contains i &&
    obs.any (fun b => obsLandmark b == obsLandmark a && (obsBlocks c b).contains j)))

/-- START of SLV_BA_CMD (R116, R131, R133). -/
def State.baStart (s : State) : State :=
  let c := s.get F.SLV_BA_CMD_CAMERAS
  let k := s.get F.SLV_BA_CMD_KEYFRAMES
  let l := s.get F.SLV_BA_CMD_LANDMARKS
  let o := s.get F.SLV_BA_CMD_OBSERVATIONS
  if !s.on F.SLV_CTRL_ENABLE || !s.on F.SLV_CTRL_BA_EN || s.slv.ba.isSome || c = 0 || l = 0 || o = 0 || 12 < c || 2048 < l
      || 131072 < o || 4096 < 6 * c + 6 * k then s.raise F.SLV_EVENT_BA_REJECT
  else
    let sig := baSignature c k (s.observations c k l o)
    let want := s.on F.SLV_BA_CMD_WARM
    let same := s.slv.baSig == some sig
    let b : BaStep := { cams := c, kfs := k, lms := l, obs := o, warm := want && same
                        discarded := want && !same && s.slv.baSig.isSome, sig, set := s.slvSetAt s.now, start := s.now
                        paused := s.on F.SLV_STATUS_EGO_BUSY }
    { (s.raise F.SLV_STATUS_BA_BUSY) with slv := { s.slv with ba := some b } }

/-- The end of a step: its result header and SLV_BA_STAT (R132). `x` is X as written, when the step changed it. -/
def State.baEnd (s : State) (b : BaStep) (result skipped maxStep : Nat) (sat reg : Bool) : State :=
  let a := s.base F.SLV_BA_BASE_BASE
  let runs := (s.get F.SLV_BA_STAT_RUNS + 1) % 2 ^ 32
  let fl := flagBits [(0, sat), (1, reg), (2, b.discarded)]
  let hd := withCrc (natLe 4 runs ++ natLe 1 result ++ natLe 1 fl ++ natLe 4 b.sig ++ natLe 4 maxStep ++ zeroBytes 46)
  let s := s.writeBytes a hd
  let s := (((s.put F.SLV_BA_STAT_RESULT result).flag F.SLV_BA_STAT_WARM_DISCARDED b.discarded).flag F.SLV_BA_STAT_PIVOT_REG reg)
  let s := ((s.flag F.SLV_BA_STAT_SAT sat).put F.SLV_BA_STAT_SKIPPED skipped).put F.SLV_BA_STAT_RUNS runs
  let s := if b.discarded then (s.raise F.SLV_EVENT_WARM_DISCARDED).satInc F.SLV_COUNTS_WARM_DISCARDS else s
  let s := ((s.put F.SLV_SIG_BA_SIG b.sig).put F.SLV_STATUS_BA_BUSY 0).raise F.SLV_EVENT_BA_DONE
  { s with slv := { s.slv with ba := none, baSig := some b.sig } }

/-- A running step is abandoned with RESULT = 3 and BA_TIMEOUT (R133). -/
def State.baAbort (s : State) : State :=
  match s.slv.ba with
  | none => s
  | some b => (s.baEnd b 3 0 0 false false).raise F.SLV_EVENT_BA_TIMEOUT

/-! ### The normal equations (R131, R132) -/

/-- A value of an observation record (R132). -/
def obsVal (r : List Byte) (off i : Nat) : Dy := f32Val (leAt r (off + 4 * i) 4)

/-- Row `row` of an observation's Jacobian at entry `i` of a block, of its camera or keyframe; of its landmark. -/
def obsJ (c : Nat) (r : List Byte) (row b i : Nat) : Dy :=
  if b = obsCamera r then obsVal r 16 (6 * row + i) else if b = c + obsKeyframe r then obsVal r 64 (6 * row + i) else Dy.ofInt 0
def obsJL (r : List Byte) (row i : Nat) : Dy := obsVal r 112 (3 * row + i)

/-- The sum over records and their two rows of WEIGHT × x × y, exact (R126, R131). -/
def obsSum (obs : List (List Byte)) (x y : List Byte → Nat → Dy) : Dy :=
  obs.foldl (fun acc r => [0, 1].foldl (fun a row => dyAdd a (dyMul (obsVal r 4 0) (dyMul (x r row) (y r row)))) acc) (Dy.ofInt 0)

/-- The residual with the sign of the step's right-hand side: g = -J^T W r (R131). (DESIGN CHOICE: log entry 190) -/
def obsRes (r : List Byte) (row : Nat) : Dy := let v := obsVal r 8 row; ⟨-v.m, v.e⟩

/-- A bundle-adjustment system as accumulated and reduced (R131): the landmarks' factors, with their coupling rows and right-hand sides,
the reduced matrix and right-hand side, and the saturations. -/
structure BaSystem where
  lms  : List (Fact × List (List Int) × List Int)
  red  : List (List Int)
  rhs  : List Int
  sats : Nat
  deriving DecidableEq, Repr

/-- Step 1, accumulation, and step 2, the elimination of every landmark with the pivot rule in its 3 × 3 block (R131). The exact sums are
stored at their block exponents (R126); how the elimination term of a landmark is rounded is not stated.
(DESIGN CHOICE: log entry 53) -/
def baSystem (c k l : Nat) (obs : List (List Byte)) (scale : List Byte) (pmin lam : Nat) : BaSystem :=
  let n := 6 * (c + k)
  let e (i : Nat) : Int := scaleAt scale (16 + i)
  let j (u : Nat) (r : List Byte) (row : Nat) : Dy := obsJ c r row (u / 6) (u % 6)
  let store (a : Dy) (i : Nat) : Int × Nat := satMant (storeAt a (e i))
  let row (l : List (Int × Nat)) : List Int × Nat := (l.map (·.1), (l.map (·.2)).foldl (· + ·) 0)
  let s0 := (List.range n).map (fun u => row ((List.range (u + 1)).map (fun v => store (obsSum obs (j u) (j v)) 0)))
  let g0 := row ((List.range n).map (fun u => store (obsSum obs (j u) obsRes) 1))
  let lm (m : Nat) : (Fact × List (List Int) × List Int) × Nat :=
    let mine := obs.filter (fun r => obsLandmark r == m)
    let jl (i : Nat) (r : List Byte) (row : Nat) : Dy := obsJL r row i
    let h := (List.range 3).map (fun i => row ((List.range 3).map (fun i2 => store (obsSum mine (jl i) (jl i2)) 2)))
    let cl := (List.range n).map (fun u => row ((List.range 3).map (fun i => store (obsSum mine (j u) (jl i)) 3)))
    let gl := row ((List.range 3).map (fun i => store (obsSum mine (jl i) obsRes) 1))
    let f := factorise { diag := e 2, off := e 2, l := e 4, d := e 5 } 3 pmin lam 3 (fun i i2 => ((h.map (·.1)).getD i []).getD i2 0)
    ((f, cl.map (·.1), gl.1), f.sats + gl.2 + ((h ++ cl).map (·.2)).foldl (· + ·) 0)
  let lms := (List.range l).map lm
  let less (v : Int) (terms : List Int) : Int × Nat := satMant (terms.foldl (· - ·) v)
  let red := s0.zipIdx.map (fun r => row (r.1.1.zipIdx.map (fun v =>
    less v.1 (lms.map (fun x => Config.schurTerm x.1.1.l x.1.1.d (x.1.2.1.getD r.2 []) (x.1.2.1.getD v.2 []) scale false)))))
  let rhs := row (g0.1.zipIdx.map (fun v =>
    less v.1 (lms.map (fun x => Config.schurTerm x.1.1.l x.1.1.d (x.1.2.1.getD v.2 []) x.1.2.2 scale true))))
  { lms := lms.map (·.1), red := red.map (·.1), rhs := rhs.1
    sats := ((s0 ++ [g0, rhs] ++ red).map (·.2)).foldl (· + ·) 0 + (lms.map (·.2)).foldl (· + ·) 0 }

/-- The reduced-system workspace, after the last observation at a 64 KiB boundary: the blocks of the lower triangle row by row, each of
64 × 64 mantissas (R132). (DESIGN CHOICE: log entry 190) -/
def State.writeReduced (s : State) (b : BaStep) (red : List (List Int)) : State :=
  let a := s.base F.SLV_BA_BASE_BASE + (0xA040 + 144 * b.obs + 65535) / 65536 * 65536
  let nb := (red.length + 63) / 64
  (List.range nb).foldl (fun (s : State) i => (List.range (i + 1)).foldl (fun (s : State) j =>
    s.writeBytes (a + 16384 * (i * (i + 1) / 2 + j)) ((List.range 64).flatMap (fun r => (List.range 64).flatMap (fun q =>
      natLe 4 (ofInt 32 ((red.getD (64 * i + r) []).getD (64 * j + q) 0)))))) s) s

/-- A landmark step's value as binary32. (DESIGN CHOICE: log entry 42) -/
def dyToF32 (d : Dy) : List Byte := natLe 4 (f32Free (d.m * 2 ^ d.e.toNat) (2 ^ (-d.e).toNat))

/-- BA_STEP_DONE (R131, R132, R133): one Gauss-Newton step ends: the records are accumulated, the landmarks eliminated, the reduced system
factorised and the landmarks back-substituted; X, the landmark steps and the result header are written. Overflow or a failed pivot leaves X
unchanged. A step that an ego solve has pre-empted does not end (R134). (DEDUCED: log entry 59) -/
def execBaStepDone (s : State) : Host.Outcome State Fault Refusal :=
  .next (
    match s.slv.ba with
    | none => s
    | some b =>
      if b.paused || !s.runs wSLV then s
      else
        let a := s.base F.SLV_BA_BASE_BASE
        let obs := s.observations b.cams b.kfs b.lms b.obs
        let skipped := b.obs - obs.length
        let scale := s.slvScale
        let sy := baSystem b.cams b.kfs b.lms obs scale b.set.pivotMin b.set.lambda
        let e (i : Nat) : Int := scaleAt scale (16 + i)
        let f := factorise { diag := e 0, off := e 0, l := e 4, d := e 5 } 6 b.set.pivotMin b.set.lambda sy.rhs.length
          (fun i j => (sy.red.getD i []).getD j 0)
        let regs := f.regs + (sy.lms.map (·.1.regs)).foldl (· + ·) 0
        let lost := f.fail || sy.lms.any (·.1.fail)
        let x := if b.warm then s.readBytes (a + 0x40) 16384 else zeroBytes 16384
        let d := satAll (if lost then [] else Config.baSubstitute f.l f.d sy.rhs scale)
        let dl := satAll (if lost then [] else sy.lms.flatMap (fun m => Config.baBack m.1.l m.1.d m.2.1 m.2.2 d.1 scale))
        let sats := f.sats + sy.sats + d.2 + dl.2
        let s := ((s.reportBad (a + 0xA040) (144 * b.obs)).slvSats sats).writeReduced b sy.red
        let s := if regs = 0 then s else (s.raise F.SLV_EVENT_PIVOT_REG).satAdd F.SLV_COUNTS_PIVOT_REGS regs
        if lost || d.2 + dl.2 != 0 then s.baEnd b 3 skipped 0 (sats != 0) (regs != 0)
        else
          let conv := (d.1 ++ dl.1).all (fun m => decide (m.natAbs ≤ b.set.baConv))
          let s := s.writeBytes (a + 0x40) (padTo 16384 (Config.baApply x d.1 scale))
          let s := s.writeBytes (a + 0x4040) (padTo 24576 (dl.1.flatMap (fun m => dyToF32 ⟨m, scaleAt scale 25⟩)))
          s.baEnd b (if conv then 1 else 2) skipped (Config.baMaxStep (d.1 ++ dl.1)) (sats != 0) (regs != 0))

/-- BA_TIMEOUT (R133): a step not ended BA_TIMEOUT after START is abandoned. -/
def execBaTimeout (s : State) : Host.Outcome State Fault Refusal :=
  .next (
    match s.slv.ba with
    | none => s
    | some b =>
      if s.now < b.start + b.set.baTimeout * 1000000 || !s.runs wSLV then s
      else (s.baEnd b 3 0 0 false false).raise F.SLV_EVENT_BA_TIMEOUT)

end Sys2Proof.Machine
end

