-- ==== Sys2Proof/Machine/Checks.lean ====
section
/-! DEFINITION. The block rules that the start-up loader and every staged commit check (R298 step 4, R305 step 4): one
test per block, over the settings as they stand in a state, and the reason code of the first rule broken. -/

namespace Sys2Proof.Machine

/-! ## Enabled blocks (R385) -/

/-- A block is enabled: its CLK_EN bit is 1, and its ENABLE field where it has one (R385). -/
def State.blockOn (s : State) (w : Nat) : Bool :=
  s.clockOn w && match w with
    | 0 => s.on F.ARR_CTRL_ENABLE
    | 4 => s.on F.CHK_CTRL_ENABLE
    | 5 => s.on F.PTS_CTRL_ENABLE
    | 6 => s.on F.LFT_CTRL_ENABLE
    | 7 => s.on F.GLZ_CTRL_ENABLE
    | 8 => s.on F.SLV_CTRL_ENABLE
    | 9 => s.on F.LAY_CTRL_ENABLE
    | 10 => s.on F.ATN_CTRL_ENABLE
    | 11 => s.on F.KVC_CTRL_ENABLE
    | 15 => s.on F.TGS_CTRL_ENABLE
    | 16 => s.on F.BML_CTRL_ENABLE
    | _ => true

/-- A queue is enabled; a stream is enabled, of a kind. -/
def State.queueOn (s : State) (q : Nat) : Bool := s.on (F.SQ_QCFG_ENABLE q)
def State.streamOn (s : State) (i kind : Nat) : Bool := s.on (F.ING_STR_CFG_ENABLE i) && s.get (F.ING_STR_CFG_KIND i) == kind

/-! ## Regions of memory that settings place -/

/-- A region: the block that places it, its first address and its length. -/
structure Region where
  owner : Nat
  base  : Nat
  len   : Nat
  deriving DecidableEq, Repr

/-- Two regions share a byte. -/
def Region.meets (a b : Region) : Bool := decide (a.base < b.base + b.len) && decide (b.base < a.base + a.len)

/-- A region lies in the activations-and-queue-spill partition (R212). -/
def State.inAct (s : State) (r : Region) : Bool := decide (r.base + r.len ≤ s.get F.NGT_CTRL_ACT_BANKS * 0x400000)

/-- A region lies in the DDR4 that the settings enable (R217, R218; whether it trains is no rule of the settings, R219).
(DEDUCED: log entry 119) -/
def State.inDdr (s : State) (r : Region) : Bool :=
  decide (ddrBase ≤ r.base) &&
    decide (r.base + r.len ≤ ddrBase + popCount 8 (s.get F.DDR_CTRL_CH_EN) * (2 ^ 30 * 2 ^ s.get F.DDR_CTRL_CAPACITY))

/-- No two regions of a list meet. -/
def apart : List Region → Bool
  | [] => true
  | r :: l => !l.any r.meets && apart l

/-- No region of one list meets one of another. -/
def apartFrom (a b : List Region) : Bool := a.all (fun r => !b.any r.meets)

/-- Spill regions of the enabled queues (R58). -/
def State.spillRegions (s : State) : List Region :=
  (List.range 1024).filterMap (fun q =>
    if s.queueOn q ∧ 16 < s.get (F.SQ_QCFG_SIZE q) then
      some ⟨wSQ, s.get (F.SQ_QSPILL_SPILL_BASE q) * 64, (s.get (F.SQ_QCFG_SIZE q) - 16) * 64⟩ else none)

/-- Tables, golden table and staging area of PTS (R90). -/
def State.ptsRegions (s : State) : List Region :=
  (List.range (s.get F.PTS_CTRL_TABLES)).map (fun j => ⟨wPTS, s.base (F.PTS_TABLE_BASE j), 10 * 2 ^ 20⟩)
    ++ [⟨wPTS, s.base F.PTS_GOLDEN_BASE_BASE, 5 * 2 ^ 18⟩, ⟨wPTS, s.base F.PTS_STAGE_BASE_BASE, ((List.range 16).countP (fun k => s.on (F.PTS_LIDAR_CFG_ENABLE k))) * 2 ^ 20⟩]

/-- Areas of sparse convolution (R104), but for the tile ring. -/
def State.spcRegions (s : State) : List Region :=
  let feat := s.get F.PTS_SPC_CTRL_SITE_LIMIT * 64 * s.maxOut
  [⟨wPTS, s.base F.PTS_SITE_BASE_BASE, 5 * 2 ^ 20⟩, ⟨wPTS, s.base F.PTS_FEAT_BASE0_BASE, feat⟩,
    ⟨wPTS, s.base F.PTS_FEAT_BASE1_BASE, feat⟩, ⟨wPTS, s.base F.PTS_CONV_STAGE_BASE_BASE, 8 * 192 * 1024⟩,
    ⟨wPTS, s.base F.PTS_GOLDEN_SITE_BASE_BASE, 320 * 1024 + 2 * 16384 * 64 * s.maxOut⟩]

def State.tileRing (s : State) : Region :=
  ⟨wPTS, s.base F.PTS_TILE_BUF_BASE_BASE, s.get F.PTS_SPC_CTRL_TILE_BUFS * 320 * 1024⟩

/-- Frame slots, output buffers, golden slot and table banks of LFT (R115). A bank is as long as its largest table (R110).
(DEDUCED: log entry 52) -/
def State.lftRegions (s : State) : List Region :=
  [⟨wLFT, s.base F.LFT_SLOT_BASE_BASE, s.get F.LFT_CTRL_FRAME_SLOTS * s.frameSlotSize⟩,
    ⟨wLFT, s.base F.LFT_OUT_BASE_BASE, s.get F.LFT_CTRL_LIFT_BUFS * (64 + 65536 * s.cLift)⟩,
    ⟨wLFT, s.base F.LFT_GOLDEN_BASE_BASE, s.frameSlotSize⟩]
    ++ (List.range 16).flatMap (fun c =>
      if s.on (F.LFT_CAM_CFG_ENABLE c) then
        let n := 16 + 8 * 256 + 4 * s.get (F.LFT_CAM_CFG_U_COLS c) * s.get (F.LFT_CAM_CFG_D_BINS c)
        [⟨wLFT, s.tableBase c 0, n⟩, ⟨wLFT, s.tableBase c 1, n⟩]
      else [])

/-- Work area and bundle-adjustment area of SLV (R132, R136); the latter at the limits of R116: 131,072 observations, then 2,080 blocks of
the reduced system from the next 64 KiB boundary. (DEDUCED: log entry 98) -/
def State.slvWork (s : State) : Region := ⟨wSLV, s.base F.SLV_WORK_BASE_BASE, 512 * 1024⟩
def State.slvBaArea (s : State) : Region :=
  ⟨wSLV, s.base F.SLV_BA_BASE_BASE, (0xA040 + 131072 * 144 + 65535) / 65536 * 65536 + 2080 * 16384⟩

/-- The parameter block and the scale table of SLV (R119, R126). -/
def State.slvTables (s : State) : List Region :=
  [⟨wSLV, s.base F.SLV_PARAM_BASE_BASE, 256⟩, ⟨wSLV, s.base F.SLV_SCALE_BASE_BASE, 32⟩]

/-- Directories, lists and edge table of TGS (R154, R155): the lists as far as a directory reaches, the edge table as far as an entry lists
an edge. (DEDUCED: log entry 195) -/
def State.tgsRegions (s : State) : List Region :=
  let dirs := (List.range s.graphs).flatMap (fun g => (List.range 128).map (s.unitDir g))
  let last := (dirs.map (fun d => if d.2 = 0 then 0 else d.1 + d.2)).foldl max 0
  [⟨wTGS, s.base F.TGS_DIR_BASE_BASE, 2048 * s.graphs⟩, ⟨wTGS, s.base F.TGS_LIST_BASE_BASE, 32 * last⟩,
    ⟨wTGS, s.base F.TGS_EDGE_BASE_BASE, 8 * s.edgesHeld⟩]

/-- Tile store, trajectory ring and order table (R153). -/
def State.glzRegions (s : State) : List Region :=
  [⟨wGLZ, s.base F.GLZ_STORE_BASE_BASE, s.get F.GLZ_CTRL_STORE_CYCLES * 2113536⟩,
    ⟨wGLZ, s.base F.GLZ_TRAJ_BASE_BASE, 2 ^ 22⟩, ⟨wGLZ, s.base F.GLZ_ORDER_BASE_BASE, 256⟩]

/-- The valid maps of the store groups in use (R199, R209). -/
def State.groupListed (s : State) : List Nat :=
  (List.range 255).filterMap (fun g => if (s.groupEntry (g + 1)).any (fun b => b != 0) then some (g + 1) else none)

/-- The store-group table (R199). -/
def State.layTables (s : State) : List Region := [⟨wLAY, s.base F.LAY_GROUP_BASE_BASE, 8192⟩]

def State.layRegions (s : State) : List Region :=
  s.groupListed.map (fun g =>
    let e := s.groupEntry g
    ⟨wLAY, leAt e 16 8, 5 * ((leAt e 8 4 + 511) / 512 * 64)⟩)

/-- Score region and golden slots (R241). -/
def State.atnRegions (s : State) : List Region :=
  let slot := (s.get F.ATN_CTRL_SLOT_SIZE + 1) * 65536
  ⟨wATN, s.base F.ATN_SCORE_BASE_BASE, s.get F.ATN_CTRL_SCORE_SLOTS * slot⟩
    :: [⟨wATN, s.base F.ATN_GOLDEN_BASE_BASE, 2 * slot⟩]

/-- Directory banks, list pool and golden table (R256). The length of the golden table is not stated: its first 64 KiB.
(DEDUCED: log entry 98) -/
def State.kvcRegions (s : State) : List Region :=
  [⟨wKVC, s.base F.KVC_DIR_BASE_BASE, 6 * s.seqs * 8⟩, ⟨wKVC, s.base F.KVC_LIST_BASE_BASE, s.get F.KVC_SIZES_LIST_UNITS * 65536⟩,
    ⟨wKVC, s.base F.KVC_GOLDEN_BASE_BASE, 65536⟩]

def State.spillRegion (s : State) : List Region :=
  if s.on F.KVC_CTRL_SPILL_EN then [⟨wKVC, s.base F.KVC_SPILL_BASE_BASE, s.get F.KVC_SIZES_SPILL_UNITS * 2 ^ 26⟩] else []

/-- Expert maps and buffers (R264, R271). The length of the buffers is not stated: their first 64 KiB.
(DEDUCED: log entry 98) -/
def State.bmlRegions (s : State) : List Region :=
  [⟨wBML, s.base F.BML_MAP_BASE_BASE, (s.get F.BML_EXPERT_LAYERS + 1) * 4096⟩, ⟨wBML, s.base F.BML_BUF_BASE_BASE, 65536⟩]

/-- Save area, and the DDR4 save region where it is required (R351, R359). -/
def State.saveArea (s : State) : Region := ⟨wPWR, s.base F.PWR_SAVE_BASE_BASE, 2 ^ 20⟩
def State.ddrSave (s : State) : List Region :=
  if s.on F.NGT_CTRL_RETAIN_WEIGHT ∧ s.on F.NGT_CTRL_RETAIN_HIST then []
  else [⟨wPWR, s.base F.PWR_DDR_SAVE_BASE_BASE, s.get F.NGT_CTRL_WEIGHT_BANKS * 0x400000 + 2 ^ 24⟩]

/-- Every region that the settings of enabled blocks place. (DEDUCED: log entry 98) -/
def State.regions (s : State) : List Region :=
  let when_ (w : Nat) (l : List Region) : List Region := if s.blockOn w then l else []
  when_ wSQ s.spillRegions ++ when_ wPTS (s.ptsRegions ++ s.spcRegions ++ [s.tileRing]) ++ when_ wLFT s.lftRegions
    ++ when_ wSLV (s.slvWork :: s.slvBaArea :: s.slvTables) ++ when_ wGLZ s.glzRegions ++ when_ wTGS s.tgsRegions
    ++ when_ wLAY (s.layRegions ++ s.layTables) ++ when_ wATN s.atnRegions
    ++ when_ wKVC (s.kvcRegions ++ s.spillRegion) ++ when_ wBML s.bmlRegions ++ (s.saveArea :: s.ddrSave)

/-- Regions of one block overlap neither each other nor any other region. -/
def State.alone (s : State) (mine : List Region) : Bool :=
  match mine with
  | [] => true
  | m :: _ => apart mine && apartFrom mine (s.regions.filter (fun r => r.owner != m.owner))

/-! ## ING (R35) -/

/-- A lidar template is valid (R42). -/
def templateOk (t : List Byte) : Bool :=
  let stride := leAt t 2 2
  let flags := leAt t 6 1
  let fld (j : Nat) : Bool × Bool :=
    let d := slice t (16 + 8 * j) 8
    (bitSet (leAt d 2 1) 3, decide (leAt d 0 2 + leAt d 2 1 % 4 + 1 ≤ stride))
  (List.range 3).all (fun j => (fld j).1) && (List.range 6).all (fun j => !(fld j).1 || (fld j).2)
    && decide (leAt t 0 2 + stride ≤ 1472)
    && (bitSet flags 2 || bitSet flags 0)
    && (!bitSet flags 2 || decide (leAt t 12 2 + leAt t 14 1 % 4 + 1 ≤ leAt t 0 2))

/-- The source of a stream is in range and enabled in ING_CTRL (R33, R35). -/
def State.sourceOn (s : State) (kind src : Nat) : Bool :=
  match kind with
  | 0 => decide (src < 12) && bitSet (s.get F.ING_CTRL_CSI_EN) src
  | 1 => decide (src < 6) && bitSet (s.get F.ING_CTRL_ETH_EN) src
  | 2 => decide (src < 4) && bitSet (s.get F.ING_CTRL_CAN_EN) src
  | 3 => decide (src < 4) && bitSet (s.get F.ING_CTRL_SPI_EN) src
  | 4 => decide (src < 8) && bitSet (s.get F.ING_CTRL_ENC_EN) src
  | _ => false

/-- The selector of a stream, as its kind reads SEL_A and SEL_B (R33). -/
def State.selector (s : State) (i : Nat) : Nat × Nat :=
  let a := s.get (F.ING_STR_MATCH_SEL_A i)
  match s.get (F.ING_STR_CFG_KIND i) with
  | 0 => (a % 256, 0)
  | 1 => (a, s.get (F.ING_STR_MATCH_SEL_B i))
  | 2 => (a % 32, 0)
  | _ => (0, 0)

/-- The rules of R35 on one enabled stream. -/
def State.streamOk (s : State) (i : Nat) : Bool :=
  let kind := s.get (F.ING_STR_CFG_KIND i)
  let check := s.get (F.ING_STR_CFG_CHECK i)
  let period := s.get (F.ING_STR_TIME_PERIOD i)
  let bound := s.get (F.ING_STR_TIME_DRIFT_BOUND i) * 1000
  let q := s.get (F.ING_STR_CFG_QUEUE i)
  let tpl := s.template (s.get (F.ING_STR_MATCH_TEMPLATE i))
  s.sourceOn kind (s.get (F.ING_STR_CFG_SOURCE i))
    && decide (125000 ≤ period) && decide (period ≤ 1000000000)
    && decide (check ≤ 2)
    && (check != 1 || (kind == 0 && decide (s.get (F.ING_STR_CFG_TRIG i) < 12)
          && s.on (F.TIM_TRIG_CTL_ENABLE (s.get (F.ING_STR_CFG_TRIG i))) && decide (2 * bound < period)))
    && (check != 2 || (kind == 0 && decide (bitsAt (s.get (F.ING_STR_MATCH_SEL_B i)) 16 2 ≤ 2))
      || (kind == 1 && bitSet (leAt tpl 6 1) 3))
    && (!s.on (F.ING_STR_CFG_STAMP_SRC i) || check == 2)
    && decide (bound ≤ period)
    && (kind != 1 || templateOk tpl)
    && s.queueOn q && s.on (F.SQ_QCFG_PACKING q)

/-- ING settings (R35). -/
def State.ingOk (s : State) : Bool :=
  let on := (List.range 64).filter (fun i => s.on (F.ING_STR_CFG_ENABLE i))
  let key (i : Nat) : Nat × Nat × Nat × Nat := (s.get (F.ING_STR_CFG_KIND i), s.get (F.ING_STR_CFG_SOURCE i), s.selector i)
  on.all s.streamOk && (on.map key).eraseDups.length == on.length
    && (List.range 4).all (fun k => !bitSet (s.get F.ING_CTRL_SPI_EN) k
      || (decide (1 ≤ s.get (F.ING_SPI_CS_READ_LEN k)) && decide (s.get (F.ING_SPI_CS_READ_LEN k) ≤ 32)
        && decide (s.get (F.ING_SPI_CS_CMD_LEN k) ≤ 4) && decide (24 ≤ s.get (F.ING_SPI_CS_CLK_DIV k))))
    && (List.range 12).all (fun r => !bitSet (s.get F.ING_CTRL_CSI_EN) r
      || (decide (1 ≤ s.get (F.ING_CSI_CFG_LANES r)) && decide (s.get (F.ING_CSI_CFG_LANES r) ≤ 4)))

/-! ## TIM (R32) -/

/-- The trigger setting of an enabled output (R32). -/
def State.triggerOk (s : State) (i : Nat) : Bool :=
  let num := s.get (F.TIM_TRIG_TIME_NUM i)
  let den := s.get (F.TIM_TRIG_TIME_DEN i)
  decide (1 ≤ den) && decide (1000000 * den ≤ num) && decide (num ≤ 1000000000 * den)
    && decide (s.get (F.TIM_TRIG_CTL_PHASE i) * den < num)
    && decide (100 ≤ s.get (F.TIM_TRIG_CTL_WIDTH i)) && decide (s.get (F.TIM_TRIG_CTL_WIDTH i) * den < num)

def State.timOk (s : State) : Bool :=
  (List.range 12).all (fun i => !s.on (F.TIM_TRIG_CTL_ENABLE i) || s.triggerOk i)
    && (!(s.on F.TIM_CTRL_DOM0_EN && s.on F.TIM_CTRL_DOM1_EN)
      || s.get F.TIM_DOM_CFG0_DOMAIN_NUMBER != s.get F.TIM_DOM_CFG1_DOMAIN_NUMBER)
    && decide (1000 ≤ s.get F.TIM_DISC_THRESHOLD_THRESHOLD) && decide (s.get F.TIM_DISC_THRESHOLD_THRESHOLD ≤ 1000000000)
    && s.on F.TIM_SERVO_GAIN_KP

/-! ## SQ (R58) -/

def State.sqOk (s : State) : Bool :=
  let ingest := (List.range 64).filterMap (fun i =>
    if s.on (F.ING_STR_CFG_ENABLE i) then some (s.get (F.ING_STR_CFG_QUEUE i)) else none)
  (List.range 1024).all (fun q => !s.queueOn q
      || (decide (2 ≤ s.get (F.SQ_QCFG_SIZE q)) && decide (s.get (F.SQ_QCFG_SIZE q) ≤ 262160)
        && s.on (F.SQ_QCFG_PACKING q) == ingest.contains q))
    && s.spillRegions.all s.inAct && apart s.spillRegions

/-! ## PTS and sparse convolution (R90, R104) -/

def State.ptsOk (s : State) : Bool :=
  let slots := (List.range 16).filter (fun k => s.on (F.PTS_LIDAR_CFG_ENABLE k))
  let unit (k : Nat) : Bool :=
    let sq (f : Fld) : Nat := (s.getI f).natAbs ^ 2
    let n := sq (F.PTS_LIDAR_ROT_QW k) + sq (F.PTS_LIDAR_ROT_QX k) + sq (F.PTS_LIDAR_ROT_QY k) + sq (F.PTS_LIDAR_ROT_QZ k)
    decide (2 ^ 28 - 2 ^ 18 ≤ n) && decide (n ≤ 2 ^ 28 + 2 ^ 18)
  slots.all (fun k => s.streamOn (s.lidarStream k) 1)
    && (List.range 64).all (fun i => !s.streamOn i 1 || (slots.filter (fun k => s.lidarStream k == i)).length == 1)
    && slots.all (fun k => decide (1 ≤ s.get (F.PTS_LIDAR_CFG_SLICES k)) && decide (s.get (F.PTS_LIDAR_CFG_SLICES k) ≤ 64))
    && decide (2 ≤ s.get F.PTS_CTRL_TABLES) && decide (s.get F.PTS_CTRL_TABLES ≤ 4)
    && decide (100 ≤ s.get F.PTS_CTRL_POSE_WAIT) && decide (s.get F.PTS_CTRL_POSE_WAIT ≤ 10000)
    && decide (1000 ≤ s.get F.PTS_GEOM_GUARD_RADIUS) && decide (s.get F.PTS_GEOM_GUARD_RADIUS ≤ 25600)
    && decide (500 ≤ s.get F.PTS_GEOM_CLASS_WIDTH) && decide (s.get F.PTS_GEOM_CLASS_WIDTH ≤ 16000)
    && slots.all unit
    && s.ptsRegions.all s.inAct && apart s.ptsRegions && apartFrom s.ptsRegions s.spillRegions

/-- A layer's settings follow from the one before it (R104). -/
def layersChain : Nat → List (Bool × Bool × Nat × Nat) → Bool
  | _, [] => true
  | c, l :: r => l.2.2.1 == c && layersChain l.2.2.2 r

def State.spcOk (s : State) : Bool :=
  let n := s.layers
  let limit := s.get F.PTS_SPC_CTRL_SITE_LIMIT
  let bufs := s.get F.PTS_SPC_CTRL_TILE_BUFS
  let before := s.ptsRegions ++ s.spillRegions
  decide (1 ≤ n) && decide (n ≤ 32) && !(s.layer 0).1
    && layersChain 1 ((List.range n).map s.layer)
    && limit % 64 == 0 && decide (64 ≤ limit) && decide (limit ≤ 262144)
    && decide (512 ≤ bufs) && decide (bufs ≤ 1280)
    && s.spcRegions.all s.inAct && apart s.spcRegions && apartFrom s.spcRegions before
    && (s.inAct s.tileRing || s.inDdr s.tileRing)
    && apartFrom [s.tileRing] (before ++ s.spcRegions ++ s.regions.filter (fun r => r.owner != wPTS))

/-! ## LFT (R115) and depth-bin tables (R110, R113) -/

def State.lftOk (s : State) : Bool :=
  let slots := (List.range 16).filter (fun c => s.on (F.LFT_CAM_CFG_ENABLE c))
  let rng (lo hi n : Nat) : Bool := decide (lo ≤ n) && decide (n ≤ hi)
  slots.all (fun c => s.streamOn (s.camStream c) 0) && (slots.map s.camStream).eraseDups.length == slots.length
    && slots.all (fun c =>
      let w := s.get (F.LFT_CAM_CFG_WIDTH8 c)
      let u := s.get (F.LFT_CAM_CFG_U_COLS c)
      rng 1 480 w && rng 1 270 (s.get (F.LFT_CAM_CFG_HEIGHT8 c)) && rng 1 480 u && w * 8 % u == 0
        && rng 1 64 (s.get (F.LFT_CAM_CFG_D_BINS c)))
    && rng 2 32 (s.get F.LFT_CTRL_FRAME_SLOTS) && rng 16 1023 (s.get F.LFT_CTRL_LIFT_BUFS) && rng 0 24 (s.get F.LFT_CTRL_LIFT_SHIFT)
    && s.lftRegions.all (fun r => s.inAct r || s.inDdr r) && s.alone s.lftRegions

/-- The runs of a table: tiles strictly ascending, counts in range, each run where the previous one ends (R110). -/
def State.runsOk (s : State) (a entries : Nat) : Nat → Nat → Nat → Bool
  | 0, first, _ => first == entries
  | k + 1, first, tile =>
    let t := s.readLe a 2
    let n := s.readLe (a + 2) 2
    decide (tile ≤ t) && decide (t ≤ 255) && decide (1 ≤ n) && decide (n ≤ 16384) && s.readLe (a + 4) 4 == first
      && decide (first + n ≤ entries) && s.runsOk (a + 8) entries k (first + n) (t + 1)

/-- No pair of column and bin is assigned twice (R110). -/
def pairsOnce : List Nat → Bool
  | [] => true
  | p :: r => !r.contains p && pairsOnce r

/-- The table of a bank passes its CRC and the rules of R110. -/
def State.depthTableOk (s : State) (cam bank : Nat) : Bool :=
  let a := s.tableBase cam bank
  let (runs, entries, _) := s.tableHeader a
  let u := s.get (F.LFT_CAM_CFG_U_COLS cam)
  let nd := s.get (F.LFT_CAM_CFG_D_BINS cam)
  let ea := a + 16 + 8 * runs
  decide (runs ≤ 256) && decide (entries ≤ u * nd) && s.readLe (a + 7) 5 == 0
    && crc32c (s.readBytes (a + 16) (8 * runs + 4 * entries)) == s.readLe (a + 12) 4
    && s.runsOk (a + 16) entries runs 0 0
    && (List.range entries).all (fun k =>
      let e := s.readLe (ea + 4 * k) 4
      decide (bitsAt e 10 9 < u) && decide (bitsAt e 19 6 < nd) && bitsAt e 25 7 == 0)
    && pairsOnce ((List.range entries).map (fun k => bitsAt (s.readLe (ea + 4 * k) 4) 10 15))

/-- What a calibration commit finds in the shadow bank (R113): LFT_BUSY, LFT_TABLE, or no fault. -/
def State.bankFault (s : State) (cam calGen : Nat) : Option Nat :=
  let shadow := 1 - s.get (F.LFT_CAM_STAT_ACTIVE_BANK cam)
  let gen := (s.tableHeader (s.tableBase cam shadow)).2.2
  if !s.shadowFree cam then some 0x15
  else if s.depthTableOk cam shadow && gen == (s.get (F.LFT_CAM_STAT_CAL_GEN cam) + 1) % 256 && gen == calGen then none
  else some 0x14

/-! ## SLV (R136) -/

def State.slvOk (s : State) : Bool :=
  let period := s.get F.SLV_TIMING_NODE_PERIOD
  let intake := s.get F.SLV_TIMING_EGO_INTAKE * 1000
  let deadline := s.get F.SLV_TIMING_EGO_DEADLINE * 1000
  let p := s.readBytes (s.base F.SLV_PARAM_BASE_BASE) 256
  let slots : List (Nat × Nat) := [(0, 3), (64, 3)] ++ (List.range 8).map (fun e => (128 + 8 * e, 4))
  let used := slots.filter (fun x => bitSet (leAt p x.1 1) 7)
  let ego := s.on F.SLV_CTRL_EGO_EN
  let qs : List (Bool × Fld) :=
    [(bitSet (s.get F.SLV_QUEUES_EGO_Q_EN) 0, F.SLV_QUEUES_EGO_Q0), (bitSet (s.get F.SLV_QUEUES_EGO_Q_EN) 1, F.SLV_QUEUES_EGO_Q1),
     (bitSet (s.get F.SLV_QUEUES_EGO_Q_EN) 2, F.SLV_QUEUES_EGO_Q2), (bitSet (s.get F.SLV_QUEUES_EGO_Q_EN) 3, F.SLV_QUEUES_EGO_Q3),
     (ego, F.SLV_QUEUES_REG_Q), (ego && !s.on F.SLV_CTRL_ASM_EN, F.SLV_QUEUES_UPD_Q)]
  decide (250000 ≤ period) && decide (period ≤ 100000000)
    && decide (intake < deadline) && decide (deadline < period) && decide (s.get F.SLV_CTRL_ASM_BUDGET * 1000 < deadline - intake)
    && decide (1 ≤ s.get F.SLV_CTRL_ITERS) && decide (s.get F.SLV_CTRL_ITERS ≤ 8)
    && decide (2 ≤ s.get F.SLV_CTRL_WINDOW) && decide (s.get F.SLV_CTRL_WINDOW ≤ 64)
    && decide (1 ≤ s.get F.SLV_PIVOT_PIVOT_MIN) && decide (2 * s.get F.SLV_PIVOT_PIVOT_MIN ≤ s.get F.SLV_PIVOT_LAMBDA)
    && (!ego || !used.isEmpty) && used.all (fun x => s.streamOn (leAt p x.1 1 % 64) x.2)
    && qs.all (fun q => !q.1 || s.queueOn (s.get q.2))
    && s.inAct s.slvWork && (s.inAct s.slvBaArea || s.inDdr s.slvBaArea) && s.alone [s.slvWork, s.slvBaArea]
    && apartFrom [s.slvWork, s.slvBaArea] s.slvTables

/-! ## GLZ (R153) -/

/-- The order table is a permutation of 0 to 255. -/
def State.orderOk (s : State) : Bool :=
  let o := (s.readBytes (s.base F.GLZ_ORDER_BASE_BASE) 256).map BitVec.toNat
  (List.range 256).all o.contains

def State.glzOk (s : State) : Bool :=
  let period := s.get F.GLZ_TOV_PERIOD
  let dl := s.get F.GLZ_DEADLINE_DEADLINE
  let lead := s.get F.GLZ_DEADLINE_REUSE_LEAD
  let bmin := s.get F.GLZ_LATEST_B_MIN
  let bmax := s.get F.GLZ_LATEST_B_MAX
  let amend := s.get F.GLZ_AMEND_WINDOW_WINDOW
  let cell := s.get F.GLZ_GRID_CELL_SIZE
  let off (f : Fld) : Bool := decide (-192 ≤ s.getI f) && decide (s.getI f ≤ 192)
  let latest := s.on F.GLZ_CTRL_MODE
  decide (5000000 ≤ period) && decide (period ≤ 1000000000) && decide (s.get F.GLZ_TOV_PHASE < period)
    && decide (1000 ≤ dl) && decide (dl * 1000 ≤ 3 * period) && decide (100 ≤ lead) && decide (lead ≤ 2000) && decide (lead < dl)
    && (!latest || (decide (1000 ≤ bmin) && decide (bmin ≤ bmax) && decide (bmax * 1000 ≤ 3 * period) && decide (lead < bmin)
          && decide (s.get F.GLZ_LATEST_MARGIN ≤ bmax) && decide (amend < bmin - lead)))
    && decide (50 ≤ cell) && decide (cell ≤ 800) && off F.GLZ_GRID_OFFSET_X && off F.GLZ_GRID_OFFSET_Y
    && decide (amend ≤ 5000) && decide (amend < dl - lead)
    && decide (2 ≤ s.get F.GLZ_CTRL_STORE_CYCLES) && decide (s.get F.GLZ_CTRL_STORE_CYCLES ≤ 8)
    && s.queueOn (s.get F.GLZ_CTRL_ISSUE_Q)
    && s.glzRegions.all s.inAct && s.alone s.glzRegions && s.orderOk

/-! ## TGS (R171) -/

/-- Fire the first entry of every list whose inputs have all been produced; `fuel` bounds the rounds. The graph is acyclic,
with list orders that agree with one topological order, exactly when every list empties (R171). -/
def drainLists : Nat → List (List ListEntry) → List Nat → Bool
  | 0, ls, _ => ls.all (·.isEmpty)
  | f + 1, ls, made =>
    let ready (l : List ListEntry) : Bool := match l with
      | e :: _ => e.ins.all made.contains
      | [] => false
    let out := ls.flatMap (fun l => if ready l then (match l with | e :: _ => e.outs | [] => []) else [])
    if !ls.any ready then ls.all (·.isEmpty)
    else drainLists f (ls.map (fun l => if ready l then l.drop 1 else l)) (out ++ made)

/-- NIN and NOUT of an entry match its listed edges: at most four each, and no edge listed beyond them (R155, R171). -/
def State.edgeCountsOk (s : State) (g u i : Nat) : Bool :=
  let b := s.readBytes (s.base F.TGS_LIST_BASE_BASE + 32 * ((s.unitDir g u).1 + i)) 32
  let ok (n off : Nat) : Bool := decide (n ≤ 4) && (List.range 4).all (fun k => decide (k < n) || leAt b (off + 2 * k) 2 == 0)
  ok (leAt b 9 1) 12 && ok (leAt b 10 1) 20

def State.graphOk (s : State) (g : Nat) : Bool :=
  let ls := s.graphLists g
  let total := (ls.map (fun l => l.2.length)).foldl (· + ·) 0
  ls.all (fun l => (List.range l.2.length).all (s.edgeCountsOk g l.1))
    && drainLists total (ls.map (·.2)) []

/-- The rules of R171. (DEDUCED: log entries 120, 195) -/
def State.tgsOk (s : State) : Bool :=
  let gs := List.range s.graphs
  let entries : List (Nat × Nat × ListEntry) := gs.flatMap (fun g => (s.graphLists g).flatMap (fun l => l.2.map (fun e => (g, l.1, e))))
  let prods : List (Nat × Nat × Nat) := entries.flatMap (fun e => e.2.2.outs.map (fun x => (x, e.1, e.2.1)))
  let conss : List (Nat × Nat × Nat) := entries.flatMap (fun e => e.2.2.ins.map (fun x => (x, e.1, e.2.1)))
  let edges := (prods ++ conss).map (·.1)
  edges.all (fun x => (prods.filter (fun p => p.1 == x)).length == 1 && (conss.filter (fun p => p.1 == x)).length == 1
      && decide (2 ≤ s.edgeCredits x))
    -- a row of the table that is not all 0 is an edge, and some entry lists it
    && (List.range s.edgesHeld).all (fun x => s.edgeWord x == 0 || edges.contains x)
    && prods.all (fun p => conss.any (fun c => c.1 == p.1 && c.2.1 == p.2.1 && c.2.2 == s.edgeConsumer p.1)
      && bitsAt (s.edgeWord p.1) 0 7 == p.2.2)
    && gs.all s.graphOk
    && decide (8192 ≤ s.get F.TGS_CTRL_HEAD_MIN) && decide (s.get F.TGS_CTRL_HEAD_MIN ≤ 65536)
    && (!s.on F.SAF_CTRL_PROFILE_EN || [0, 1, 2, 3, 5, 6, 7].all (fun c => s.on (F.TGS_BUDGET_EN c)))

/-! ## LAY (R209) -/

/-- A page of `size` bytes: aligned, and wholly in Nougat or in DDR4. -/
def State.pageOk (s : State) (e size : Nat) : Bool :=
  let p := tePage e
  let r : Region := ⟨wLAY, p, size⟩
  p % size == 0 && (decide (p + size ≤ 0x10000000) || s.inDdr r)

/-- The reserved bits of a table entry are 0 (R205). -/
def entryBitsOk (e : Nat) : Bool :=
  bitsAt e 4 4 == 0 && bitsAt e 40 24 == 0 && (teType e != 1 || bitsAt e 24 16 == 0)

/-- The entries reachable from an enabled context are legal for their levels (R209). -/
def State.contextOk (s : State) (root : Nat) : Bool :=
  let l3 (t : Nat) : Bool := (List.range 32).all (fun i =>
    let e := s.tableEntry (t + i)
    entryBitsOk e && (teType e == 0 || (teType e == 2 && s.pageOk e 0x10000)))
  let l2 (t : Nat) : Bool := (List.range 2048).all (fun i =>
    let e := s.tableEntry (t + i)
    entryBitsOk e && (teType e == 0 || (teType e == 2 && s.pageOk e 0x200000)
      || (teType e == 1 && decide (teNext e + 31 ≤ 65535) && l3 (teNext e))))
  decide (root + 255 ≤ 65535) && (List.range 256).all (fun i =>
    let e := s.tableEntry (root + i)
    entryBitsOk e && (teType e == 0 || (teType e == 1 && decide (teNext e + 2047 ≤ 65535) && l2 (teNext e))))

/-- A store group's region translates with WRITE, page by page (R209). -/
def State.groupOk (s : State) (g : Nat) : Bool :=
  let e := s.groupEntry g
  let lo := leAt e 0 5
  let hi := lo + leAt e 8 4 * (if leAt e 12 1 = 0 then 64 else 34)
  crcOk e && (List.range ((hi + 0xFFFF) / 0x10000 - lo / 0x10000)).all (fun k =>
    match s.translate (leAt e 13 1) (max lo ((lo / 0x10000 + k) * 0x10000)) true with
    | .ok _ => true
    | .error _ => false)

def State.layOk (s : State) : Bool :=
  (List.range 16).all (fun k => !s.on (F.LAY_CTX_CFG_ENABLE k) || s.contextOk (s.get (F.LAY_CTX_CFG_ROOT k)))
    && s.groupListed.all s.groupOk && s.layRegions.all s.inAct && s.alone s.layRegions && apartFrom s.layRegions s.layTables
    -- units 104 to 127 are reserved: the masks of LAY_ALLOW 26 to 31
    && (List.range 6).all (fun k => s.get (F.LAY_ALLOW_MASK0 (26 + k)) == 0 && s.get (F.LAY_ALLOW_MASK1 (26 + k)) == 0
      && s.get (F.LAY_ALLOW_MASK2 (26 + k)) == 0 && s.get (F.LAY_ALLOW_MASK3 (26 + k)) == 0)

/-! ## ATN (R241), KVC (R256), BML (R271) -/

def State.atnOk (s : State) : Bool :=
  let slots := s.get F.ATN_CTRL_SCORE_SLOTS
  decide (2 ≤ slots) && decide (slots ≤ 16)
    && (List.range 32).all (fun c =>
      decide (((List.range 64).countP (fun j => s.on (F.ATN_HEAD_VALID j) && s.get (F.ATN_HEAD_CORE j) == c)) ≤ 2))
    && s.atnRegions.all s.inAct && s.alone s.atnRegions

/-- Generation 0, in directory bank 0, meets R243 and R246, and its pages fit the history partition (R256). -/
def State.generation0Ok (s : State) : Bool :=
  (List.range s.seqs).all (fun q =>
    let d := s.dirEntry 0 q
    !deValid d || (s.listOk (s.seqOf 0 q) && bitsAt d 48 16 == 0
      && decide (64 * (deList d + listUnits (deNent d)) ≤ s.get F.KVC_SIZES_LIST_UNITS * 65536)))
    && s.kvc.pages.all (fun p => p.2.state != .resident || decide (p.2.loc + p.2.granules ≤ s.histGranules))

def State.kvcOk (s : State) : Bool :=
  decide (1 ≤ s.seqs) && decide (s.seqs ≤ 65536)
    && s.kvcRegions.all s.inAct && s.alone (s.kvcRegions ++ s.spillRegion)
    && (!s.on F.KVC_CTRL_SPILL_EN || (decide (1 ≤ s.get F.KVC_SIZES_SPILL_UNITS) && decide (s.get F.KVC_SIZES_SPILL_UNITS ≤ 256)
      && s.base F.KVC_SPILL_BASE_BASE % 2 ^ 26 == 0 && s.spillRegion.all s.inDdr))
    && s.generation0Ok
    && s.queueOn (s.get F.KVC_QUEUES_EDIT_Q) && s.queueOn (s.get F.KVC_QUEUES_PAGE_Q)

/-- A device identifier is in use: its ring and its place are in range (R258). -/
def State.idUsed (s : State) (d : Nat) : Bool :=
  decide (d / 8 ≤ s.get F.BML_CTRL_RINGS) && decide (d % 8 ≤ s.get F.BML_CTRL_RING_SIZE)

def State.expertMapOk (s : State) (layer : Nat) : Bool :=
  let es := (List.range 2048).filterMap (fun e =>
    let w := s.readLe (s.base F.BML_MAP_BASE_BASE + layer * 4096 + 2 * e) 2
    if bitSet w 15 then some (w % 64) else none)
  es.all s.idUsed && (List.range 64).all (fun d => decide (es.count d ≤ 32))

def State.bmlOk (s : State) : Bool :=
  let cap := s.get F.BML_EXPERT_CAPACITY
  let hid := s.get F.BML_EXPERT_HIDDEN64
  let port (f : Fld) : Bool := decide (s.get f ≤ 5) || s.get f == 7
  s.idUsed (s.get F.BML_CTRL_DEVICE_ID)
    && (List.range 64).all (fun d => port (F.BML_ROUTE_PRIMARY d) && port (F.BML_ROUTE_ALT d))
    && [4, 5].all (fun p => !s.on (F.BML_PORT_CFG_ENABLE p)
      || (s.idUsed (s.get (F.BML_PORT_CFG_PEER_ID p)) && s.get (F.BML_PORT_CFG_PEER_ID p) != s.get F.BML_CTRL_DEVICE_ID))
    && decide (1 ≤ cap) && decide (cap ≤ 4096) && decide (1 ≤ hid) && decide (hid ≤ 16)
    && decide (s.get F.BML_TIMING_COLLECT_CLOSE + s.get F.BML_TIMING_RETURN_WAIT
      < s.get F.GLZ_DEADLINE_DEADLINE - s.get F.GLZ_DEADLINE_REUSE_LEAD)
    && (List.range (s.get F.BML_EXPERT_LAYERS + 1)).all s.expertMapOk
    && s.queueOn (s.get F.BML_CTRL_RX_Q)
    && s.bmlRegions.all s.inAct && s.alone s.bmlRegions

/-! ## SAF and CHK (R292) -/

/-- The receivers of a camera golden entry share one backbone (R292). -/
def State.oneBackbone (s : State) (e : Nat) : Bool :=
  let mask := s.readLe (s.goldenEntryAt e + 2) 2
  let bbs := (List.range 16).filterMap (fun c =>
    if s.on (F.LFT_CAM_CFG_ENABLE c) ∧ bitSet mask (s.get (F.ING_STR_CFG_SOURCE (s.camStream c))) then
      some (s.get (F.LFT_CAM_CFG_BACKBONE c)) else none)
  decide (bbs.eraseDups.length ≤ 1)

def State.safOk (s : State) : Bool :=
  let es := (List.range 16).filter s.goldenEnabled
  let profile := s.on F.SAF_CTRL_PROFILE_EN
  let per := s.get F.SAF_CTRL_GOLDEN_PER_CYCLE
  let span := s.get F.SAF_TIMING_GOLDEN_SPAN_MAX
  (!profile || (!es.isEmpty && decide (1 ≤ per)))
    && decide (span ≤ 20000)
    && (per == 0 || decide (s.get F.GLZ_TOV_PERIOD + s.get F.SAF_TIMING_GOLDEN_RUN_MAX * 1000 * per ≤ span * 1000 * per))
    && decide (20 ≤ s.get F.SAF_TIMING_WDT_TIMEOUT)

def State.chkOk (s : State) : Bool :=
  let es := (List.range 16).filter s.goldenEnabled
  es.all (fun e => (s.goldenKind e != 0 || s.oneBackbone e) && crcOk (s.readBytes (s.goldenEntryAt e) 64))
    && [F.CHK_TOL_NEAR_OCC_CELLS, F.CHK_TOL_NEAR_EG_CELLS, F.CHK_TOL_FAR_OCC_CELLS, F.CHK_TOL_FAR_EG_CELLS].all
      (fun f => decide (s.get f ≤ 64))
    && (!s.on F.CHK_CTRL_GUARD_OUT || s.queueOn (s.get F.CHK_CTRL_GUARD_Q))

/-! ## HST (R342), CLK and PWR (R359) (DEDUCED: log entry 120) -/

def State.hstOk (s : State) : Bool :=
  let et := s.get F.HST_CTRL_ETHERTYPE
  let en (p : Nat) : Bool := s.on (if p = 0 then F.HST_CTRL_ENABLE_A else F.HST_CTRL_ENABLE_B)
  decide (0x0600 ≤ et) && !([0x0800, 0x0806, 0x888E, 0x88E5, 0x88F7].contains et)
    && (en 0 || en 1)
    && [0, 1].all (fun p => !s.on (F.HST_PORT_CFG_VLAN_EN p)
      || (decide (1 ≤ s.get (F.HST_PORT_CFG_VLAN_ID p)) && decide (s.get (F.HST_PORT_CFG_VLAN_ID p) ≤ 4094)))
    && (List.range 8).all (fun k => !s.on (F.HST_SUB_CFG_ENABLE k)
      || (s.on (F.HST_SUB_MAC_MAC k)
        && (match s.get (F.HST_SUB_CFG_PORT_MODE k) with
          | 0 => en 0 && en 1
          | 1 => en 0
          | 2 => en 1
          | _ => false)
        && decide (s.get (F.HST_SUB_CFG_LAUNCH_OFFSET k) * 1000 ≤ 3 * s.get F.GLZ_TOV_PERIOD)))

def State.clkOk (s : State) : Bool :=
  [F.CLK_SSC_CORE_DEPTH, F.CLK_SSC_FABRIC_DEPTH].all (fun f => decide (s.get f ≤ 10))
    && [F.CLK_SSC_CORE_RATE, F.CLK_SSC_FABRIC_RATE].all (fun f => decide (30 ≤ s.get f))

/-- PWR settings; `at_` is the apply instant of the AT_TIME commit that sets TARGET, if one does. (DEDUCED: log entry 120) -/
def State.pwrOk (s : State) (at_ : Option Time) : Bool :=
  let t := s.get F.PWR_CTRL_TARGET
  (t != 3 || s.on F.PWR_CTRL_STANDBY_EN)
    && s.inAct s.saveArea
    && s.ddrSave.all (fun r => r.base % 2 ^ 26 == 0 && s.inDdr r)
    && s.alone (s.saveArea :: s.ddrSave)
    && (match at_ with
      | some a => t == 0 || !s.on F.PWR_CTRL_WAKE_ALARM_EN || decide (a + 10000000 ≤ s.getI F.PWR_WAKE_TIME_TIME)
      | none => true)

/-! ## NGT and DDR (R212, R217) -/

def State.ngtOk (s : State) : Bool :=
  let a := s.get F.NGT_CTRL_ACT_BANKS
  let h := s.get F.NGT_CTRL_HIST_BANKS
  let w := s.get F.NGT_CTRL_WEIGHT_BANKS
  decide (16 ≤ a) && decide (h ≤ 16) && decide (w ≤ 32) && a + h + w == 64

/-- 1, 2, 4 or 8 channels are enabled, or DDR4 is not used (R217). (DEDUCED: log entry 120) -/
def State.ddrOk (s : State) : Bool := [0, 1, 2, 4, 8].contains (popCount 8 (s.get F.DDR_CTRL_CH_EN))

/-! ## The set of rules (R298 step 4, R305 step 4) -/

/-- The blocks of R298 step 4 in its order: window, reason code, and whether its settings pass. -/
def State.blockRules (s : State) (at_ : Option Time) : List (Nat × Nat × Bool) :=
  [(wING, 0x10, s.ingOk), (wTIM, 0x11, s.timOk), (wSQ, 0x20, s.sqOk), (wPTS, 0x12, s.ptsOk), (wPTS, 0x12, s.spcOk),
   (wLFT, 0x13, s.lftOk), (wSLV, 0x16, s.slvOk), (wGLZ, 0x17, s.glzOk), (wTGS, 0x18, s.tgsOk), (wLAY, 0x23, s.layOk),
   (wATN, 0x24, s.atnOk), (wKVC, 0x25, s.kvcOk), (wBML, 0x27, s.bmlOk), (wSAF, 0x28, s.safOk), (wCHK, 0x28, s.chkOk),
   (wHST, 0x1B, s.hstOk), (wCLK, 0x19, s.clkOk), (wPWR, 0x1A, s.pwrOk at_)]

/-- The reason code of the first rule broken among the enabled blocks that `p` selects; none when all hold. -/
def State.configFault (s : State) (p : Nat → Bool) (at_ : Option Time) : Option Nat :=
  ((s.blockRules at_).find? (fun r => p r.1 && s.blockOn r.1 && !r.2.2)).map (fun r => r.2.1)

end Sys2Proof.Machine
end

