-- ==== Sys2Proof/Machine/Startup.lean ====
section
/-! DEFINITION. Start-up and the configuration image (spec/18_startup_and_image.md, R293 to R303; spec/19, R310, R311): the
slots, the manifest, the loader, the level, and the commands of the start-up sequence. -/

namespace Sys2Proof.Machine

/-! ## Reason codes of a slot (18) -/

abbrev rsFLASH := 0x30
abbrev rsHEADER := 0x31
abbrev rsFORMAT := 0x32
abbrev rsKEY := 0x33
abbrev rsSIG := 0x34
abbrev rsROLLBACK := 0x35
abbrev rsHASH := 0x36
abbrev rsPLACE := 0x37
abbrev rsTUNABLE_DECL := 0x38

/-! ## Slots, headers and manifests (R294, R295) -/

/-- Where a slot starts in the flash (R294). -/
def slotBase (slot : Nat) : Nat := slot * 0x10000000

/-- The boot header of a slot (R294). -/
def State.bootHeader (s : State) (slot : Nat) : List Byte := s.flashBytes (slotBase slot) 64

/-- The header passes its magic and its CRC (R294). -/
def headerOk (h : List Byte) : Bool := leAt h 0 4 == 0xD5B00001 && crcOk h

/-- The flash offset of a slot's manifest, and its 20,448 bytes (R295). -/
def State.manifestOffset (s : State) (slot : Nat) : Nat := slotBase slot + leAt (s.bootHeader slot) 32 4
def State.manifest (s : State) (slot : Nat) : List Byte := s.flashBytes (s.manifestOffset slot) 20448

/-- Fields of a manifest (R295). -/
def mfSections (m : List Byte) : Nat := leAt m 6 2
def mfSvn (m : List Byte) : Nat := leAt m 8 2
def mfImageSeq (m : List Byte) : Nat := leAt m 12 4
def mfLogRing (m : List Byte) : Nat := leAt m 24 4
def mfOwnerKey (m : List Byte) : List Byte := slice m 64 48
def mfEntry (m : List Byte) (k : Nat) : List Byte := slice m (128 + 64 * k) 64

/-- A section as its table entry gives it (R295): TYPE, place in the slot, LENGTH, LOAD_ADDR, DIGEST. -/
structure Sect where
  type   : Nat
  off    : Nat
  len    : Nat
  load   : Nat
  digest : List Byte
  deriving DecidableEq, Repr

def sectionOf (e : List Byte) : Sect :=
  { type := leAt e 0 1, off := leAt e 8 8, len := leAt e 16 8, load := leAt e 24 8, digest := slice e 32 32 }

/-- The sections in use, in table order. -/
def mfTable (m : List Byte) : List Sect := (List.range (mfSections m)).map (fun k => sectionOf (mfEntry m k))

/-- All bytes of a stretch are zero. -/
def allZero (l : List Byte) : Bool := l.all (· == 0)

/-- MAGIC, FORMAT and the section counts are as R295 has them, and no reserved field or TYPE is set (R296). -/
def manifestFormOk (m : List Byte) : Bool :=
  let n := mfSections m
  let count (t : Nat) : Nat := (mfTable m).countP (fun x => x.type == t)
  leAt m 0 4 == 0x45465649 && leAt m 4 2 == 1 && decide (1 ≤ n) && decide (n ≤ 64) && decide (mfSvn m ≤ 64)
    && allZero (slice m 18 6) && allZero (slice m 28 4) && allZero (slice m 112 16)
    && (List.range 64).all (fun k => if k < n then allZero (slice (mfEntry m k) 1 7) else allZero (mfEntry m k))
    && (mfTable m).all (fun x => decide (1 ≤ x.type) && decide (x.type ≤ 9))
    && [1, 2, 3, 4].all (fun t => count t == 1) && decide (1 ≤ count 5) && [7, 8, 9].all (fun t => decide (count t ≤ 1))

/-- Blown anti-rollback fuses (R309). -/
def State.fuseSvn (s : State) : Nat := popCount 64 s.sec.fuses.rollback

/-- Verification of a slot (R296, R311): the reason it is refused, or none. `prov` substitutes the slot's own key for the
owner's hash (R311); `flashBad` is that its reads do not complete (R302). (DEDUCED: log entry 121) -/
def State.verifySlot (s : State) (slot : Nat) (prov flashBad : Bool) : Option Nat :=
  let m := s.manifest slot
  if s.sec.fuses.lifecycle = 3 || (s.sec.fuses.lifecycle = 0 && !prov) then some rsKEY
  else if flashBad then some rsFLASH
  else if !headerOk (s.bootHeader slot) then some rsHEADER
  else if !manifestFormOk m then some rsFORMAT
  else if !prov && sha256 (mfOwnerKey m) != s.sec.fuses.ownerHash then some rsKEY
  else if !Config.slhVerify (mfOwnerKey m) (m.take 4224) (slice m 4224 16224) then some rsSIG
  else if mfSvn m < s.fuseSvn then some rsROLLBACK
  else none

/-- Record a slot's reason in the start record (R303). -/
def State.slotReason (s : State) (slot reason : Nat) : State :=
  { s with boot := { s.boot with start :=
      if slot = 0 then { s.boot.start with reasonA := reason } else { s.boot.start with reasonB := reason } } }

/-- Accepted slots, best first: the higher SVN, then the higher IMAGE_SEQ, slot A on a tie (R296). -/
def State.acceptedSlots (s : State) (a b : Bool) : List Nat :=
  let key (k : Nat) : Nat := mfSvn (s.manifest k) * 2 ^ 32 + mfImageSeq (s.manifest k)
  match a, b with
  | true, true => if key 0 < key 1 then [1, 0] else [0, 1]
  | true, false => [0]
  | false, true => [1]
  | false, false => []

/-! ## Register records (R297) -/

/-- The 16-byte records of a REGISTERS or SAFETY section. -/
def recordsOf (b : List Byte) : List (List Byte) := chunks 16 b

def recAddr (r : List Byte) : Nat := leAt r 0 5

/-- Whether an address is one that SAFETY records set: the SAF and CHK windows and TGS_BUDGETc. -/
def safetyAddr (a : Nat) : Bool :=
  windowOf a == some wSAF || windowOf a == some wCHK
    || (decide ((F.TGS_BUDGET_EN 0).addr ≤ a) && decide (a < (F.TGS_BUDGET_EN 16).addr))

/-- A record names an aligned register address in a window, on the right side, with its reserved bytes 0 (R297). -/
def recordOk (safety : Bool) (r : List Byte) : Bool :=
  r.length == 16 && recAddr r % 8 == 0 && (windowOf (recAddr r)).isSome && leAt r 5 3 == 0 && safetyAddr (recAddr r) == safety

/-- One write by the loader (R297): a whole register under its access types (R7), whatever its block's clock (R347). -/
def State.loadReg (s : State) (a value : Nat) : State :=
  match regRow a with
  | none => s
  | some r =>
    if a = F.CLK_SRC_SEL.addr then s.setSources (bitsAt value 0 4) (bitsAt value 8 4)
    else
      let v := r.written (s.reg a) (BitVec.ofNat 64 value) (~~~0#64) s.boot.locked
      let v := if a = F.CLK_EN_EN.addr then v ||| 0x017C000E#64 else v
      (s.setReg a v).afterWrite a

/-- Write records in list order, those whose address meets `p`. -/
def State.loadRecords (s : State) (p : Nat → Bool) (l : List (List Byte)) : State :=
  l.foldl (fun t r => if p (recAddr r) then t.loadReg (recAddr r) (leAt r 8 8) else t) s

/-! ## Loading a slot (R298) -/

/-- A section's bytes in the flash. -/
def State.sectionBytes (s : State) (slot : Nat) (x : Sect) : List Byte := s.flashBytes (slotBase slot + x.off) x.len

/-- The first section of a type. -/
def sectOf (m : List Byte) (type : Nat) : Option Sect := (mfTable m).find? (fun x => x.type == type)

/-- The bytes of the section of a type; none in the manifest: empty. -/
def State.sectionOfType (s : State) (slot type : Nat) : List Byte :=
  match sectOf (s.manifest slot) type with
  | some x => s.sectionBytes slot x
  | none => []

/-- Whether a register address lies in the NGT or the DDR window. -/
def earlyAddr (a : Nat) : Bool := windowOf a == some wNGT || windowOf a == some wDDR

/-- Why the REGISTERS section of a slot is refused before its records are written: its digest, then its form (R298). -/
def State.earlyRefusal (s : State) (slot : Nat) : Option Nat :=
  match sectOf (s.manifest slot) 1 with
  | none => some rsFORMAT
  | some x =>
    if sha256 (s.sectionOfType slot 1) != x.digest then some rsHASH
    else if !(recordsOf (s.sectionOfType slot 1)).all (recordOk false) then some rsFORMAT
    else none

/-- The rules on the NGT and DDR settings (R298 step 1). -/
def State.earlyFault (s : State) : Option Nat :=
  if !s.ngtOk then some 0x21 else if !s.ddrOk then some 0x22 else none

/-- Step 1 of R298: the REGISTERS section's digest, its NGT and DDR records, and their rules. (DEDUCED: log entry 121) -/
def State.loadStep1 (s : State) (slot : Nat) : State × Option Nat :=
  (s.earlyRefusal slot).elim
    (let s := s.loadRecords earlyAddr (recordsOf (s.sectionOfType slot 1))
     (s, s.earlyFault))
    (fun r => (s, some r))

/-- The range a section loads into, if it has one. -/
def Sect.range (x : Sect) : Option Region :=
  if (x.type = 5 ∨ x.type = 6) ∧ x.len ≠ 0 then some ⟨0, x.load, x.len⟩ else none

/-- A section's place (R298 step 2): inside Nougat or DDR4; none for a type that takes none. -/
def State.placeOk (s : State) (x : Sect) : Bool :=
  match x.range with
  | some r => decide (r.base + r.len ≤ 0x10000000) || s.inDdr r
  | none => x.type == 5 || x.type == 6 || x.load == 0

/-- Load a section into its destination (R295, R298 step 2). -/
def State.loadSection (s : State) (slot : Nat) (x : Sect) : State :=
  let b := s.sectionBytes slot x
  if x.len = 0 then s
  else match x.type with
    | 5 | 6 => s.writeBytes x.load b
    | 7 =>
      let es : List (BitVec 64) := (chunks 8 b).map (fun c => BitVec.ofNat 64 (leNat c))
      let s := { s with lay := { s.lay with store := es.zipIdx.filterMap (fun e : BitVec 64 × Nat => if e.1 = 0 then none else some (e.2, e.1)) } }
      s.put F.LAY_STATUS_TABLE_ENTRIES (min 65536 es.length)
    | 8 => { s with chk := { s.chk with sram := b } }
    | _ => s

/-- The page records of KVC_PAGES, in index order (R242, R243). -/
def pageRecords (b : List Byte) : List (Nat × PageRec) :=
  ((chunks 16 b).zipIdx.map (fun c =>
    let r := c.1
    let spilled := bitsAt (leAt r 1 1) 4 3 = 2
    (c.2, { size := bitsAt (leAt r 0 1) 0 4, fmt := bitsAt (leAt r 0 1) 4 4, dim := bitsAt (leAt r 1 1) 0 4
            state := match bitsAt (leAt r 1 1) 4 3 with
              | 1 => PageState.resident
              | 2 => .spilled
              | 3 => .moving true
              | 4 => .bad
              | _ => .free
            clean := bitSet (leAt r 1 1) 7, refs := leAt r 2 2
            loc := if spilled then 0 else leAt r 4 4, spill := if spilled then leAt r 4 4 else 0
            newest := toSigned 64 (leAt r 8 8) : PageRec }))).filter (fun p => p.2 != ({} : PageRec))

/-- The stream table (R299). -/
def State.loadStreams (s : State) (b : List Byte) : State :=
  (List.range 64).foldl (fun t i =>
    ((t.loadReg (F.ING_STR_CFG_ENABLE i).addr (leAt b (32 * i) 8)).loadReg (F.ING_STR_TIME_PERIOD i).addr
      (leAt b (32 * i + 8) 8)).loadReg (F.ING_STR_MATCH_SEL_A i).addr (leAt b (32 * i + 16) 8)) s

/-- STREAMS is exactly 2,048 bytes with its reserved bytes 0 (R299). -/
def streamsOk (b : List Byte) : Bool := b.length == 2048 && (List.range 64).all (fun i => leAt b (32 * i + 24) 8 == 0)

/-! ## Tunables (R300, R308) -/

/-- The fields that may be declared tunable (R308, R342, R359). -/
def tunableFields : List Fld :=
  (List.range 64).flatMap (fun i => [F.ING_STR_CFG_LATENCY i, F.ING_STR_TIME_DRIFT_BOUND i])
    ++ [F.TIM_CTRL_DOM0_EN, F.TIM_CTRL_DOM1_EN, F.TIM_CTRL_PREFERRED, F.TIM_CTRL_REVERT,
        F.TIM_DOM_CFG0_DOMAIN_NUMBER, F.TIM_DOM_CFG0_PORTS, F.TIM_DOM_CFG1_DOMAIN_NUMBER, F.TIM_DOM_CFG1_PORTS,
        F.TIM_SERVO_GAIN_KP, F.TIM_SERVO_GAIN_KI, F.TIM_DISC_THRESHOLD_THRESHOLD]
    ++ (List.range 12).flatMap (fun i => [F.TIM_TRIG_TIME_NUM i, F.TIM_TRIG_TIME_DEN i, F.TIM_TRIG_CTL_PHASE i,
        F.TIM_TRIG_CTL_WIDTH i, F.TIM_TRIG_CTL_ENABLE i, F.TIM_TRIG_CTL_POLARITY i])
    ++ [F.PTS_GEOM_GUARD_RADIUS, F.PTS_GEOM_CLASS_WIDTH]
    ++ (List.range 16).flatMap (fun k => [F.PTS_LIDAR_ROT_QW k, F.PTS_LIDAR_ROT_QX k, F.PTS_LIDAR_ROT_QY k,
        F.PTS_LIDAR_ROT_QZ k, F.PTS_LIDAR_TRANS_TX k, F.PTS_LIDAR_TRANS_TY k, F.PTS_LIDAR_TRANS_TZ k])
    ++ (List.range 16).flatMap (fun c => [F.LFT_CAM_NORM_BLACK0 c, F.LFT_CAM_NORM_BLACK1 c, F.LFT_CAM_NORM_BLACK2 c,
        F.LFT_CAM_NORM_BLACK3 c, F.LFT_CAM_GAIN_GAIN0 c, F.LFT_CAM_GAIN_GAIN1 c, F.LFT_CAM_GAIN_GAIN2 c, F.LFT_CAM_GAIN_GAIN3 c])
    ++ [F.SLV_CTRL_ITERS, F.SLV_CTRL_WINDOW, F.SLV_PIVOT_PIVOT_MIN, F.SLV_PIVOT_LAMBDA, F.SLV_CTRL_ASM_BUDGET,
        F.SLV_CONV_EGO_CONV, F.SLV_CONV_BA_CONV, F.SLV_CONV_BA_TIMEOUT, F.SLV_TIMING_PREDICT_MAX,
        F.GLZ_GRID_OFFSET_X, F.GLZ_GRID_OFFSET_Y, F.GLZ_AMEND_WINDOW_WINDOW, F.GLZ_LATEST_MARGIN]
    ++ (List.range 16).map F.TGS_BUDGET_BUDGET
    ++ [F.PWR_CTRL_TARGET, F.PWR_CTRL_WAKE_ALARM_EN, F.PWR_WAKE_TIME_TIME, F.CLK_SSC_CORE_DEPTH, F.CLK_SSC_FABRIC_DEPTH]
    ++ (List.range 8).flatMap (fun k => [F.HST_SUB_CFG_ENABLE k, F.HST_SUB_CFG_LAUNCH_OFFSET k]
        ++ (List.range 4).map (F.HST_SUB_MASK_TILES k))

/-- A tunable entry (R300). -/
def tunableOf (r : List Byte) : Tunable :=
  let fl := leAt r 3 1
  let sg := bitSet fl 0
  let num (off : Nat) : Int := if sg then toSigned 64 (leAt r off 8) else leAt r off 8
  { id := leAt r 0 2, kind := leAt r 2 1, signed := sg, host := bitSet fl 1, fw := bitSet fl 2, lsb := leAt r 4 1
    width := leAt r 5 1, slot := leAt r 6 1, addr := leAt r 8 8, min := num 16, max := num 24 }

/-- The rules on one entry: an allowed field, or an enabled camera slot; MIN not above MAX (R300). -/
def State.tunableOk (s : State) (r : List Byte) : Bool :=
  let t := tunableOf r
  decide (t.id ≤ 0xFFFE) && decide (t.min ≤ t.max) && decide (leAt r 3 1 < 8) && leAt r 7 1 == 0
    && (match t.kind with
      | 0 => tunableFields.contains ⟨t.addr, t.lsb, t.width⟩
      | 1 => decide (t.slot < 16) && s.on (F.LFT_CAM_CFG_ENABLE t.slot)
      | _ => false)

/-- The declaration of a TUNABLES section: its entries, when it keeps the rules of R300. -/
def State.tunablesOf (s : State) (b : List Byte) : Option (List Tunable) :=
  let n := leAt b 0 2
  let es := (List.range n).map (fun k => slice b (16 + 32 * k) 32)
  let ids := es.map (fun r => leAt r 0 2)
  if decide (16 ≤ b.length) && decide (n ≤ 256) && decide (16 + 32 * n ≤ b.length) && es.all s.tunableOk
      && ids.eraseDups.length == n then some (es.map tunableOf)
  else none

/-! ## Measurements (R313) -/

/-- The value in force of a tunable, 64 bits: a field's, sign-extended where it is signed; CAL_GEN of the active bank. -/
def State.tunableValue (s : State) (t : Tunable) : Nat :=
  if t.kind = 0 then
    let v := s.get ⟨t.addr, t.lsb, t.width⟩
    if t.signed then ofInt 64 (toSigned t.width v) else v
  else s.get (F.LFT_CAM_STAT_CAL_GEN t.slot)

/-- Insert a tunable by rising ID. -/
def sortTunables (l : List Tunable) : List Tunable := l.foldl (fun acc t => insertBy (fun x : Tunable => (x.id : Int)) t acc) []

/-- Store a 32-byte measurement in SEC_MEAS from index `k`. -/
def State.setMeas (s : State) (k : Nat) (d : List Byte) : State :=
  (List.range 4).foldl (fun t j => t.put (F.SEC_MEAS_MEAS (k + j)) (leAt d (8 * j) 8)) s

/-- The 32 bytes of a measurement. -/
def State.meas (s : State) (k : Nat) : List Byte := (List.range 4).flatMap (fun j => natLe 8 (s.get (F.SEC_MEAS_MEAS (k + j))))

/-- M_TUNED over the declared tunables (R313). -/
def State.measureTuned (s : State) : State :=
  s.setMeas 12 (sha256 ((sortTunables s.boot.tunables).flatMap (fun t =>
    natLe 2 t.id ++ natLe 1 t.kind ++ zeroBytes 5 ++ natLe 8 (s.tunableValue t))))

/-- The measurements of a loaded slot (R313). -/
def State.measure4 (s : State) (m : List Byte) : State :=
  let ds := ((mfTable m).filter (fun x => x.type != 4)).flatMap (·.digest)
  let sf := match sectOf m 4 with
    | some x => x.digest
    | none => zeroBytes 32
  (((s.setMeas 0 (sha256 m)).setMeas 4 (sha256 ds)).setMeas 8 sf).measureTuned

/-! ## No image (R302), and the choice of the next slot -/

/-- The fields of SEC_STATUS that show fuses (19). -/
def State.showFuses (s : State) : State :=
  let lc := match s.sec.fuses.lifecycle with
    | 0 => 0
    | 3 => 2
    | _ => 1
  let s := ((s.put F.SEC_STATUS_LIFECYCLE lc).put F.SEC_STATUS_FUSE_SVN s.fuseSvn).flag F.SEC_STATUS_DEBUG_DISABLE
    s.sec.fuses.debugDisable
  (s.put (F.HST_MAC_MAC 0) s.sec.fuses.macA).put (F.HST_MAC_MAC 1) s.sec.fuses.macB

/-- No slot loads: Alive until the next reset, in the start state (R302, R301); without an Alive unit, held in reset (R2).
(DEDUCED: log entry 123) -/
def State.noImage (s : State) : State :=
  let s := s.resetComplete
  let s := { s with boot := { s.boot with step := .noImage, accepted := [], level := some 0
                                          start := { s.boot.start with slot := 0xFF, level := 0
                                                                       levelAt := satNat 32 ((s.pwr.refclk - s.boot.releasedAt) / 25) } } }
  let s := { s with boot := { s.boot with running := none } }
  let s := (((s.setMeas 0 (zeroBytes 32)).setMeas 4 (zeroBytes 32)).setMeas 8 (zeroBytes 32)).setMeas 12 (zeroBytes 32)
  let s := s.put F.SEC_STATUS_IMAGE_LOADED 0
  if s.aliveOk then s
  else { s with boot := { s.boot with level := none, held := true, step := .inReset } }

/-- Registers of the NGT and DDR settings at their reset values. -/
def State.clearEarly (s : State) : State :=
  (s.setReg F.NGT_CTRL_ACT_BANKS.addr (regReset F.NGT_CTRL_ACT_BANKS.addr)).setReg F.DDR_CTRL_CH_EN.addr
    (regReset F.DDR_CTRL_CH_EN.addr)

/-- The first of the accepted slots is the chosen one. DDR training is not repeated on a warm reset (R301). -/
def State.choose (s : State) (accepted : List Nat) : State :=
  { s with boot := { s.boot with step := .chosen, accepted, manifestAt := s.manifestOffset (accepted.headD 0)
                                 ddrDone := isWarm (s.boot.running.getD 0) } }

/-- Try accepted slots from step 4 of the start-up table (R301, R302): the first that passes step 1 of R298 is chosen.
(DEDUCED: log entry 122) -/
def State.trySlots (s : State) : List Nat → State
  | [] => s.noImage
  | k :: rest =>
    let t := s.loadStep1 k
    t.2.elim (t.1.choose (k :: rest)) (fun r => ((t.1.clearEarly).slotReason k r).trySlots rest)

/-! ## Reset release (R301 steps 1 to 3, R310, R311, R319, R369) -/

/-- The CAK slot in force: the highest-numbered with VALID set and REVOKED clear (R319). -/
def Fuses.activeCak (f : Fuses) : Option (Nat × CakSlot) :=
  ((f.caks.zipIdx.filter (fun c => c.1.valid && !c.1.revoked)).getLast?).map (fun c => (c.2, c.1))

/-- Unwrap the active CAK under K_KEK (R319). (DEDUCED: log entry 149) -/
def State.takeCak (s : State) : State :=
  match s.sec.kek, s.sec.fuses.activeCak with
  | some k, some (i, c) => { (s.put F.SEC_STATUS_CAK_SLOT i) with sec := { s.sec with cak := some (Config.aesUnwrap k c.wrapped) } }
  | _, _ => { (s.put F.SEC_STATUS_CAK_SLOT 7) with sec := { s.sec with cak := none } }

/-- Derive the identity and K_KEK (R310); in DECOMMISSIONED the device has no identity. -/
def State.deriveKeys (s : State) : State :=
  if s.sec.fuses.lifecycle = 3 then s
  else
    let seed := Config.aesUnwrap (Config.kPuf s.sec.fuses.pufHelper) s.sec.fuses.seedWrapped
    let pk := Config.slhPublicKey (Config.hkdf seed 0 72)
    let s := { s with sec := { s.sec with seed := some seed, kek := some (Config.hkdf seed 1 32) } }
    let s := (List.range 6).foldl (fun t k => t.put (F.SEC_DEVID_PK_PK k) (leAt pk (8 * k) 8)) s
    s.raise F.SEC_STATUS_IDENTITY

/-- A checkpoint of the ring: the first copy that passes its CRC (R369). (DEDUCED: log entry 125) -/
def State.checkpoint (s : State) (lr sector : Nat) : Option (List Byte) :=
  [0, 1].findSome? (fun c =>
    let b := s.flashBytes (lr + sector * 65536 + 2048 * c) 2048
    if crcOk b && leAt b 0 4 == 0xD5AF0001 then some b else none)

/-- Replay a sector's slots in order into the record, stopping at the first erased or CRC-failing slot (R369): record words,
slots read, and whether the stop was an erased slot. `fuel` bounds the slots. -/
def State.replay (s : State) (at_ : Nat) : Nat → List (Nat × Nat) → Nat → Nat → List (Nat × Nat) × Nat × Bool
  | 0, w, n, _ => (w, n, true)
  | f + 1, w, n, events =>
    let b := s.flashBytes (at_ + 10 * n) 10
    if leAt b 8 2 != crc16 (b.take 8) then (w, n, b.all (· == 0xFF))
    else
      let z := fun _ : Nat => 0
      if events = 0 then
        let span := leAt b 7 1
        let w := sparseSet z w 1 (leAt b 0 4)
        let w := if bitSet (leAt b 6 1) 0 then
            let t := 4 + bitsAt (leAt b 4 1) 0 4
            let d := 20 + bitsAt (leAt b 4 1) 4 4
            let w := sparseSet z w t (satNat 32 (sparseGet z w t + span))
            sparseSet z w d (satNat 32 (sparseGet z w d + span))
          else w
        s.replay at_ f w (n + 1) (leAt b 5 1)
      else
        let k := leAt b 0 2 % 512
        let v := leAt b 2 4
        let old := sparseGet z w k
        s.replay at_ f (sparseSet z w k (if k = 196 ∨ k = 197 then old ||| v else satNat 32 (old + v))) (n + 1) (events - 1)

/-- The newest checkpoint of the ring with its sector: the highest sector sequence, the first on a tie (R369). -/
def State.bestCheckpoint (s : State) (lr : Nat) : Option (Nat × List Byte) :=
  ((List.range 64).filterMap (fun k => (s.checkpoint lr k).map (fun b => (k, b)))).foldl
    (fun (acc : Option (Nat × List Byte)) c => match acc with
      | none => some c
      | some a => if leAt a.2 12 4 < leAt c.2 12 4 then some c else acc) none

/-- The words a checkpoint holds, those that are not zero. -/
def checkpointWords (b : List Byte) : List (Nat × Nat) :=
  (List.range 510).filterMap (fun i => let v := leAt b (4 * (i + 1)) 4; if v = 0 then none else some (i + 1, v))

/-- The lifetime record in force. -/
def State.setLife (s : State) (life : List (Nat × Nat)) : State := { s with obs := { s.obs with life, changed := [] } }

/-- Restore the record from sector `k`, whose checkpoint is `b`, and the slots after it (R369). After a stop at a failing slot
the next append begins a new sector. -/
def State.restoreFrom (s : State) (lr k : Nat) (b : List Byte) : State :=
  let r := s.replay (lr + k * 65536 + 4096) 6144 (checkpointWords b) 0 0
  let z := fun _ : Nat => 0
  let life := sparseSet z r.1 2 (setBit (sparseGet z r.1 2) 0)
  ((((s.setLife life).put F.OBS_RING_SECTOR k).put F.OBS_RING_SLOT (if r.2.2 then r.2.1 else 6144)).put F.OBS_RING_SECTOR_SEQ
    (leAt b 12 4)).raise F.OBS_RING_RESTORED |>.put F.SEC_TAMPER_TAMPERS (satNat 16 (sparseGet z life 195))

/-- Restore the lifetime record from the flash ring; with no checkpoint a fresh record begins (R369).
(DEDUCED: log entry 125) -/
def State.restoreLife (s : State) (lr : Nat) : State :=
  (s.bestCheckpoint lr).elim ((s.raise F.OBS_EVENT_FRESH).setLife [(2, 2)]) (fun c => s.restoreFrom lr c.1 c.2)

/-- At POWER_ON, once a slot is chosen, the record is restored, and this start is counted (R369, R366). -/
def State.restoreAtPowerOn (s : State) : State :=
  if s.boot.running ≠ some rcPOWER_ON then s
  else
    let s := match s.boot.accepted with
      | k :: _ => s.restoreLife (mfLogRing (s.manifest k))
      | [] => s
    s.life 752

/-- Owner provisioning of a BLANK device (R311): the first slot that passes with its own key; its hash and OWNED are blown.
(DEDUCED: log entry 124) -/
def State.provision (s : State) (bad : Nat → Option Nat) : State :=
  match [0, 1].find? (fun k => (bad k).isNone) with
  | none => s
  | some k =>
    { s with sec := { s.sec with fuses := { s.sec.fuses with lifecycle := 1, ownerHash := sha256 (mfOwnerKey (s.manifest k)) } }
             boot := { s.boot with accepted := [k] } }.showFuses

/-- Verify both slots and list the accepted ones, best first (R296, R311). -/
def State.chooseSlots (s : State) (flashBad : Nat) : State :=
  let prov := s.sec.fuses.lifecycle == 0 && s.sec.provEn
  let bad (k : Nat) : Option Nat := s.verifySlot k prov (bitSet flashBad k)
  let t := (s.slotReason 0 ((bad 0).getD 0)).slotReason 1 ((bad 1).getD 0)
  if prov then t.provision bad
  else { t with boot := { t.boot with accepted := s.acceptedSlots (bad 0).isNone (bad 1).isNone } }

/-- Held in reset (R2, R374). (DEDUCED: log entry 156) -/
def State.holdInReset (s : State) (until2 : Bool) : State :=
  { s with boot := { s.boot with running := none, held := until2, level := none, step := .inReset } }

/-- Starting the PLLs of the ROM (R301 steps 1 and 4): FABRIC and MEM, then CORE. (DEDUCED: log entry 150) -/
def State.startRomPlls (s : State) : State := s.startPlls 7

/-- The start after a tamper trip, or with a mismatching shield (R321): no key, no image, Alive, in Safe with cause ENV.
(DEDUCED: log entry 133) -/
def State.tamperedStart (s : State) : State :=
  let s := { s with sec := { s.sec with tampered := true, kek := none, seed := none, cak := none } }
  ((s.put F.SAF_STATE_CAUSE cENV).raise F.SEC_STATUS_TAMPERED).noImage

/-- The warm sequence (R356): the loaded slot's manifest must still hash to M_MANIFEST. -/
def State.warmStart (s : State) (flashBad : Nat) : State :=
  let slot := s.boot.start.slot
  let m := s.flashBytes s.boot.manifestAt 20448
  if slot > 1 then s.noImage
  else if bitSet flashBad slot then (s.slotReason slot rsFLASH).trySlots (s.boot.accepted.filter (· != slot))
  else if sha256 m != s.meas 0 then (s.slotReason slot rsHASH).trySlots (s.boot.accepted.filter (· != slot))
  else s.trySlots (slot :: s.boot.accepted.filter (· != slot))

/-- RESET_RELEASE (R301 steps 1 to 3): the inputs PROV_EN and TEST_EN as sampled, whether the shield still mismatches, whether
the PUF or the unwrap fails, and the slots whose flash reads do not complete. (DEDUCED: log entry 124) -/
def execResetRelease (provEn testEn shieldBad pufBad : Bool) (flashBad : Nat) (s : State) : Host.Outcome State Fault Refusal :=
  .next (match s.boot.step, s.boot.running with
    | .inReset, some code =>
      if s.pwr.off || s.pwr.refLost then s
      else
        let s := { s with sec := { s.sec with provEn, testEn }, boot := { s.boot with releasedAt := s.pwr.refclk } }
        if testEn then s.holdInReset false
        else
          let s := s.showFuses.startRomPlls
          if shieldBad || s.sec.tampered then s.tamperedStart
          else
            let keys := code == rcPOWER_ON || code == rcRESET_N || code == rcSTANDBY_WAKE
            if keys && pufBad && s.sec.fuses.lifecycle != 3 then
              { s with boot := { s.boot with lost := [.rootOfTrust] } }.holdInReset true
            else
              let s := (if keys then s.deriveKeys else s).takeCak
              if isWarm code then s.warmStart flashBad
              else
                let s := (s.chooseSlots flashBad).restoreAtPowerOn
                s.trySlots s.boot.accepted
    | _, _ => s)

/-! ## Self-test and training (R303, R185, R216, R219, R261) -/

/-- Fence tiles with a BIST code (R185), and count the start in the lifetime record (R366). (DEDUCED: log entry 127) -/
def State.fenceTiles (s : State) (mask code : Nat) : State :=
  let was := s.get F.ARR_PRESENT_MASK
  let s := (List.range 64).foldl (fun t k =>
    if bitSet mask k then ((t.put (F.ARR_TILE_STAT_BIST k) code).raise (F.ARR_TILE_STAT_FENCED k)).put F.ARR_PRESENT_MASK
      (clearBit (t.get F.ARR_PRESENT_MASK) k)
    else t) s
  let new := (List.range 64).foldl (fun m k => if bitSet mask k && bitSet was k then m + 2 ^ k else m) 0
  if new = 0 then s
  else
    let s := (s.lifeOr 784 (new % 2 ^ 32)).lifeOr 788 (new / 2 ^ 32)
    if was = 2 ^ 64 - 1 then s.life 792 else s

/-- BIST_DONE (R303): the units that fail, and masks of the present Praline cores' failures, of tiles with a memory or a
logic failure, of Nougat banks and of Barmusa ports that fail. (DEDUCED: log entry 123) -/
def execBistDone (failed : List ReqUnit) (cores tilesMem tilesLogic banks ports : Nat) (s : State) :
    Host.Outcome State Fault Refusal :=
  .next (
    if s.boot.step ≠ .chosen || s.boot.bistDone || isWarm (s.boot.running.getD 0) then s
    else
      let present := (List.range 32).foldl (fun m k => if bitSet cores k then m else m + 2 ^ k) 0
      let lost := failed ++ (if present = 0 then [.pralineCores] else [])
      let s := { s with boot := { s.boot with bistDone := true, cores := present, lost := lost } }
      let s := s.put F.ARR_PRESENT_MASK (2 ^ 64 - 1)
      let s := (s.fenceTiles (tilesMem % 2 ^ 64) 1).fenceTiles (tilesLogic % 2 ^ 64) 2
      let s := ((s.put F.NGT_FAIL_MASK banks).put F.NGT_STATUS_BANKS_OK (64 - popCount 64 banks)).raise F.NGT_STATUS_READY
      let s := s.put F.BML_STATUS_FENCED ports
      let s := (List.range 6).foldl (fun t p => if bitSet ports p then t.put (F.BML_PORT_STAT_REASON p) 3 else t) s
      if s.aliveOk then s else s.holdInReset true)

/-- DDR_TRAINING_DONE (R219): `failedChannels` is the mask of enabled channels that fail. -/
def execDdrTrainingDone (failedChannels : Nat) (s : State) : Host.Outcome State Fault Refusal :=
  .next (
    let en := s.get F.DDR_CTRL_CH_EN
    if s.boot.step ≠ .chosen || s.boot.ddrDone || en = 0 then s
    else
      let s := { s with boot := { s.boot with ddrDone := true } }
      let bad := (List.range 8).filter (fun c => bitSet en c && bitSet failedChannels c)
      match bad.getLast? with
      | none =>
        let s := (s.put F.DDR_STATUS_TRAINED en).raise F.DDR_STATUS_INSTALLED
        s.zeroFill ddrBase (ddrBase + s.ddrInstalled)
      | some c =>
        let s := bad.foldl (fun t c => t.raise (F.DDR_CHAN_TRAIN_FAILED c)) (s.raise F.DDR_EVENT_TRAIN_FAIL)
        let s := (((s.put F.DDR_LAST_ERR_CHANNEL c).put F.DDR_LAST_ERR_RANK 0).put F.DDR_LAST_ERR_KIND 2).put F.DDR_LAST_ERR_ADDR 0
        let s := s.put F.DDR_STATUS_TRAINED ((List.range 8).foldl (fun m c =>
          if bitSet en c && !bitSet failedChannels c then m + 2 ^ c else m) 0)
        { s with boot := { s.boot with lost := .enabled wDDR :: s.boot.lost } })

/-! ## The end of loading (R298 steps 2 to 5, R301 steps 5 to 9) -/

/-- Why the sections of a slot are refused before any is loaded: a digest or a place, then two that overlap (R298 step 2). -/
def State.placeRefusal (s : State) (slot : Nat) : Option Nat :=
  let tbl := mfTable (s.manifest slot)
  match tbl.findSome? (fun x =>
    if sha256 (s.sectionBytes slot x) != x.digest then some rsHASH else if !s.placeOk x then some rsPLACE else none) with
  | some r => some r
  | none => if apart (tbl.filterMap Sect.range) then none else some rsPLACE

/-- Every section of a slot in its destination (R298 step 2). -/
def State.loadSections (s : State) (slot : Nat) : State :=
  (mfTable (s.manifest slot)).foldl (fun t x => t.loadSection slot x) s

/-- The records of REGISTERS, SAFETY and STREAMS are well formed (R297, R299). -/
def State.recordsFormOk (s : State) (slot : Nat) : Bool :=
  (recordsOf (s.sectionOfType slot 1)).all (recordOk false) && (recordsOf (s.sectionOfType slot 4)).all (recordOk true)
    && streamsOk (s.sectionOfType slot 2)

/-- The settings of a slot: the remaining REGISTERS records, SAFETY, STREAMS, and the history's pages (R298 step 3). -/
def State.loadSettings (s : State) (slot : Nat) : State :=
  let s := s.loadRecords (fun a => !earlyAddr a) (recordsOf (s.sectionOfType slot 1))
  let s := (s.loadRecords (fun _ => true) (recordsOf (s.sectionOfType slot 4))).loadStreams (s.sectionOfType slot 2)
  s.startHistory (pageRecords (s.sectionOfType slot 9))

/-- The declared tunables in force. -/
def State.setTunables (s : State) (ts : List Tunable) : State := { s with boot := { s.boot with tunables := ts } }

/-- Step 4 of R298: the rules on the settings, then the tunables. -/
def State.checkSettings (s : State) (slot : Nat) : State × Option Nat :=
  match s.configFault (fun _ => true) none with
  | some r => (s, some r)
  | none =>
    match s.tunablesOf (s.sectionOfType slot 3) with
    | none => (s, some rsTUNABLE_DECL)
    | some ts => (s.setTunables ts, none)

/-- Steps 2 to 4 of R298 on the slot under load: the state with everything loaded, and the reason of the first failure. -/
def State.loadRest (s : State) (slot : Nat) : State × Option Nat :=
  (s.placeRefusal slot).elim
    (let s := s.loadSections slot
     if s.recordsFormOk slot then (s.loadSettings slot).checkSettings slot else (s, some rsFORMAT))
    (fun r => (s, some r))

/-- A slot fails after loading began (R302): every location it loaded is zero again, its settings are undone, and the other
accepted slot is tried from step 4. (DEDUCED: log entry 122) -/
def State.failSlot (s : State) (slot reason : Nat) : State :=
  let t := ((mfTable (s.manifest slot)).filterMap Sect.range).foldl (fun (u : State) r => u.zeroFill r.base (r.base + r.len)) s
  ((t.clearEarly).slotReason slot reason).trySlots (s.boot.accepted.filter (· != slot))

/-- Remap the heads whose core failed (R225): each to the present core with the fewest heads, the lowest on a tie. -/
def State.remapHeads (s : State) : State :=
  if !s.blockOn wATN then s
  else
    let step (t : State) (j : Nat) : State :=
      if !t.on (F.ATN_HEAD_VALID j) || bitSet t.boot.cores (t.get (F.ATN_HEAD_CORE j)) then t
      else
        let load (c : Nat) : Nat := (List.range 64).countP (fun i => t.on (F.ATN_HEAD_VALID i) && t.get (F.ATN_HEAD_CORE i) == c)
        let cs := (List.range 32).filter (bitSet t.boot.cores)
        match cs.foldl (fun (b : Option Nat) c => match b with
            | none => some c
            | some d => if load c < load d then some c else b) none with
        | none => t
        | some c =>
          if 2 ≤ load c then
            let t := t.put F.ATN_CTRL_ENABLE 0
            { t with boot := { t.boot with lost := .enabled wATN :: t.boot.lost } }
          else ((t.put (F.ATN_HEAD_CORE j) c).raise (F.ATN_HEAD_REMAPPED j)).raise F.ATN_EVENT_REMAP
    (List.range 64).foldl step s

/-- Effects of BIST on what the image enables: fences by request (R185), heads (R225), ports (R261). -/
def State.applyBist (s : State) : State :=
  let s := (s.fenceTiles (s.get F.ARR_FENCE_REQ_MASK &&& s.get F.ARR_PRESENT_MASK) 3).remapHeads
  if (List.range 6).any (fun p => s.on (F.BML_PORT_CFG_ENABLE p) && bitSet (s.get F.BML_STATUS_FENCED) p) && s.blockOn wBML then
    { s with boot := { s.boot with lost := .enabled wBML :: s.boot.lost } }
  else s

/-- The active depth-bin banks' generations (LFT_CAM_STATc.CAL_GEN, R113). -/
def State.showCalGens (s : State) : State :=
  (List.range 16).foldl (fun t c =>
    if t.on (F.LFT_CAM_CFG_ENABLE c) then
      t.put (F.LFT_CAM_STAT_CAL_GEN c) (t.tableHeader (t.tableBase c (t.get (F.LFT_CAM_STAT_ACTIVE_BANK c)))).2.2
    else t) s

/-- The loader ends (R298 step 5, R301 steps 8 to 10): RWL fields lock, the slot is the loaded one, the Praline cores, the
trimmed VID code and PLL_LINK start; the latent-fault tests have failed where `latent` has a bit (R290); time acquisition
starts. -/
def State.finishLoad (s : State) (slot latent : Nat) : State :=
  let m := s.manifest slot
  let s := (s.applyBist).showCalGens
  let s := { s with
    boot := { s.boot with
      locked := true, step := .acquiring, commitQ := leAt m 10 2, resultQ := leAt m 16 2
      entry := (sectOf m 5).map Sect.load
      start := { s.boot.start with slot := slot, svn := mfSvn m, imageSeq := mfImageSeq m
                                   imageId := slice m 32 32 } }
    obs := { s.obs with logRing := some (mfLogRing m) }
    pwr := { s.pwr with vid := Config.trimmedVid.val, vidAt := s.pwr.refclk }
    saf := { s.saf with wdtLast := s.pwr.refclk, latentOk := latent % 2 ^ 11 == 0 }
    tim := { s.tim with acqStart := some s.now } }
  let s := ((s.measure4 m).raise F.SEC_STATUS_IMAGE_LOADED).put F.SEC_STATUS_SLOT slot
  let s := (s.startPlls 8).put F.SAF_LATENT_FAIL latent
  let s := s.raise F.SAF_LATENT_DONE
  let s := if s.saf.latentOk then s else s.raise F.SAF_EVENT_LATENT_FAIL
  let s := if s.on F.SAF_CTRL_PROFILE_EN && !s.saf.latentOk then s.detect cLATENT 0xFF latent else s
  if s.gated wTIM then s.reportLevel else s

/-- The loader may end: a slot is chosen, BIST is done or the reset is warm, and the DDR channels are trained (R301). -/
def State.loadReady (s : State) : Bool :=
  decide (s.boot.step = .chosen) && (s.boot.bistDone || isWarm (s.boot.running.getD 0))
    && (s.boot.ddrDone || s.get F.DDR_CTRL_CH_EN == 0)

/-- IMAGE_LOAD_DONE (R298): `flashBad` is that a flash read did not complete; `latent` is the mask of failed latent-fault
tests. A slot that fails is replaced by the other accepted one, once (R302). (DEDUCED: log entry 126) -/
def execImageLoadDone (flashBad : Bool) (latent : Nat) (s : State) : Host.Outcome State Fault Refusal :=
  .next (
    if s.loadReady then
      match s.boot.accepted with
      | [] => s.noImage
      | slot :: _ =>
        if flashBad then s.failSlot slot rsFLASH
        else match s.loadRest slot with
          | (_, some r) => s.failSlot slot r
          | (t, none) => t.finishLoad slot latent
    else s)

end Sys2Proof.Machine
end

