-- ==== Sys2Proof/Machine/Transmit.lean ====
section
/-! DEFINITION. The transmitters of the Ethernet ports in time (spec/20_host_interface.md, R329, R333; spec/02_time_base.md, R29): the
tiles of a TILE_READ as their turns come, and the frames in progress as time passes. -/

namespace Sys2Proof.Machine

/-- Whether a tile of a cycle has been issued: the head's by its phase, a run-ahead cycle's never, a past cycle's always, a
future cycle's never. -/
def State.tileIssued (s : State) (cycle tile : Nat) : Bool :=
  match s.inst cycle with
  | some i => s.isHead cycle && (i.tile tile).phase.isIssued
  | none => decide (0 < (s.glz.nextCycle + 2 ^ 32 - cycle % 2 ^ 32) % 2 ^ 32
      ∧ (s.glz.nextCycle + 2 ^ 32 - cycle % 2 ^ 32) % 2 ^ 32 < 2 ^ 31)

/-- The frames of one requested tile (R329): its fragments, or one frame with the status that says why not.
(DEDUCED: log entry 139) -/
def State.readFrames (s : State) (reqId cycle tile : Nat) (last : Bool) : List (List Byte) :=
  if !s.tileIssued cycle tile then
    [frameBytes ftTileData (flReply + if last then flLast else 0) stNotReady reqId 0 1 cycle tile []]
  else s.tileFrames flReply reqId cycle tile last

/-- A port starts the next frame that may start now; a requested tile is first copied whole into frames (R329, R333). An
uncorrectable error met is reported (R214). (DEDUCED: log entry 139) -/
def State.txRun (s : State) (p : Nat) : State :=
  let q := s.txPort p
  if q.cur.isSome || !s.txUp p then s
  else match nextItem q.queue with
    | some x =>
      match x.kind with
      | .tile dst reqId cycle tile last =>
        let items := (s.readFrames reqId cycle tile last).map (fun b => ({ cls := x.cls, kind := .frame dst b } : TxItem))
        let bad := s.tileIssued cycle tile && s.storeHolds cycle tile
        let s := s.updTx p (fun q => { q with queue := items ++ q.queue.erase x })
        let s := if bad then s.reportBad (s.storeAddr cycle tile) 8256 else s
        s.txTake p
      | _ => s.txTake p
    | none => s

/-- 40 ns pass on a port: the frame in progress nears its end, and after it the next one starts (R333). -/
def State.txTick (s : State) (p : Nat) : State :=
  match (s.txPort p).cur with
  | none => if (s.txPort p).queue.isEmpty then s else (s.updTx p (fun q => { q with busy := 0 })).txRun p
  | some _ =>
    let left := (s.txPort p).busy - 400
    if 0 < left then s.updTx p (fun q => { q with busy := left })
    else (s.updTx p (fun q => { q with cur := none, busy := left })).txRun p

/-- Queue the tiles of a TILE_READ in their order; each is copied and sent when its turn comes (R329).
(DEDUCED: log entry 139) -/
def State.sendTiles (s : State) (p src reqId cycle : Nat) (lastToo : Bool) : List Nat → State
  | [] => s
  | t :: r =>
    let x : TxItem := { cls := txReply, kind := .tile src reqId cycle t (lastToo && r.isEmpty) }
    ((s.updTx p (fun q => { q with queue := q.queue ++ [x] })).txRun p).sendTiles p src reqId cycle lastToo r

end Sys2Proof.Machine
end

