-- ==== Sys2Proof/Machine/Time.lean ====
section
/-! DEFINITION. The time engine's commands (spec/02_time_base.md): domain tracking, the servo, the time states, the
sensor network, launches and camera triggers; and the tick of REFCLK by which device time advances. -/

namespace Sys2Proof.Machine

/-- 2^l seconds in nanoseconds, for a message interval's log2 (R22); an interval below 1 ns counts as 0.
(DEDUCED: log entry 17) -/
def logSeconds (l : Int) : Int := if 0 ≤ l then 1000000000 * 2 ^ l.toNat else 1000000000 / (2 ^ (-l).toNat : Nat)

/-! ## Domain slots -/

def State.dom (s : State) (k : Nat) : DomSlot := s.tim.doms.getD k {}

def State.updDom (s : State) (k : Nat) (f : DomSlot → DomSlot) : State :=
  { s with tim := { s.tim with doms := modifyAt f k s.tim.doms } }

def slotEn (k : Nat) : Fld := portFld k F.TIM_CTRL_DOM0_EN F.TIM_CTRL_DOM1_EN
def slotNumber (k : Nat) : Fld := portFld k F.TIM_DOM_CFG0_DOMAIN_NUMBER F.TIM_DOM_CFG1_DOMAIN_NUMBER
def slotPorts (k : Nat) : Fld := portFld k F.TIM_DOM_CFG0_PORTS F.TIM_DOM_CFG1_PORTS
def slotQual (k : Nat) : Fld := portFld k F.TIM_STATUS_DOM0_QUALIFIED F.TIM_STATUS_DOM1_QUALIFIED
def slotOffset (k : Nat) : Fld := portFld k F.TIM_DOM_OFFSET0_VALUE F.TIM_DOM_OFFSET1_VALUE
def slotLost (k : Nat) : Fld := portFld k F.TIM_DOM_STAT0_LOST F.TIM_DOM_STAT1_LOST
def slotHealthy (k : Nat) : Fld := portFld k F.TIM_DOM_STAT0_HEALTHY F.TIM_DOM_STAT1_HEALTHY
def slotClass (k : Nat) : Fld := portFld k F.TIM_DOM_STAT0_GM_CLOCK_CLASS F.TIM_DOM_STAT1_GM_CLOCK_CLASS
def slotGm (k : Nat) : Fld := portFld k F.TIM_DOM_STAT0_GM_ID_LOW F.TIM_DOM_STAT1_GM_ID_LOW
def slotSlave (k : Nat) : Fld := portFld k F.TIM_DOM_STAT0_SLAVE_PORT F.TIM_DOM_STAT1_SLAVE_PORT
def slotCap (k p : Nat) : Fld :=
  portFld k (portFld p F.TIM_DOM_STAT0_ASCAPABLE_A F.TIM_DOM_STAT0_ASCAPABLE_B)
    (portFld p F.TIM_DOM_STAT1_ASCAPABLE_A F.TIM_DOM_STAT1_ASCAPABLE_B)

/-- The slot a message on a host port serves (R386). -/
def State.slotFor (s : State) (port domain : Nat) : Option Nat :=
  [0, 1].find? (fun k => s.on (slotEn k) && s.get (slotNumber k) == domain && bitSet (s.get (slotPorts k)) port
    && decide (port < 2))

/-- Time states. -/
abbrev tmFREE := 0
abbrev tmLOCKED := 1
abbrev tmSLEWING := 2
abbrev tmHOLDOVER := 3

def State.timeState (s : State) : Nat := s.get F.TIM_STATUS_STATE

/-- The slot being followed: the active slot in LOCKED and SLEWING. (DESIGN CHOICE: log entry 167) -/
def State.follows (s : State) (k : Nat) : Bool :=
  (s.timeState == tmLOCKED || s.timeState == tmSLEWING) && s.get F.TIM_STATUS_ACTIVE_SLOT == k

/-! ## Time states (R18 to R24) -/

/-- Follow slot `k` with the remaining slew discarded (R18). -/
def State.followSlot (s : State) (k : Nat) : State :=
  let s := (s.put F.TIM_STATUS_ACTIVE_SLOT k).put F.TIM_STATUS_ACTIVE_DOMAIN (s.get (slotNumber k))
  let s := ((s.putI F.TIM_SLEW_REMAIN_VALUE 0).put F.TIM_FREQ_ADJ_SLEW_ADJ 0).put F.TIM_STATUS_UNTRACEABLE 0
  { s with tim := { s.tim with holdSince := none, slewFrac := 0 } }

/-- The servo starts anew, at a switch and at a discontinuity (R25). -/
def State.clearIntegral (s : State) : State := { s with tim := { s.tim with integral := 0 } }

/-- Slew toward slot `k` by its offset (R24). An offset of 0 leaves nothing to slew. -/
def State.slewTo (s : State) (off : Int) : State :=
  if off = 0 then s.put F.TIM_STATUS_STATE tmLOCKED
  else ((s.put F.TIM_STATUS_STATE tmSLEWING).putI F.TIM_SLEW_REMAIN_VALUE off).putI F.TIM_FREQ_ADJ_SLEW_ADJ
    (if 0 < off then 655360 else -655360)

/-- Slew within the threshold, or step, which is a time discontinuity (R18, R20). The offsets of the followed slot, measured
against the old device time, are forgotten at a step, and those of the other slot stay. (DESIGN CHOICE: log entry 165) -/
def State.slewOrStep (s : State) (k : Nat) : State :=
  let off := s.getI (slotOffset k)
  let s := s.followSlot k
  if off.natAbs ≤ s.get F.TIM_DISC_THRESHOLD_THRESHOLD then s.slewTo off
  else
    let s := ((s.put F.TIM_STATUS_STATE tmLOCKED).stepTime off).clearIntegral
    s.updDom k (fun d => { d with offsets := [] })

/-- Switch the active domain to slot `k` (R18, R23). -/
def State.switchTo (s : State) (k : Nat) : State :=
  ((s.raise F.TIM_EVENT_SWITCH).satInc F.TIM_COUNTS_SWITCH_COUNT).clearIntegral.slewOrStep k

/-- No domain qualifies: HOLDOVER (R18): the remaining slew is discarded, SERVO_ADJ frozen, SLEW_ADJ 0. -/
def State.enterHoldover (s : State) : State :=
  let s := ((s.put F.TIM_STATUS_STATE tmHOLDOVER).putI F.TIM_SLEW_REMAIN_VALUE 0).put F.TIM_FREQ_ADJ_SLEW_ADJ 0
  let s := (s.raise F.TIM_EVENT_HOLDOVER).satInc F.TIM_COUNTS_HOLDOVER_COUNT
  { s with tim := { s.tim with holdSince := some s.now, slewFrac := 0 } }

/-- The slot to take when some slot qualifies: PREFERRED when both do (R18). -/
def State.bestSlot (s : State) : Option Nat :=
  match s.on (slotQual 0), s.on (slotQual 1) with
  | true, true => some (s.get F.TIM_CTRL_PREFERRED)
  | true, false => some 0
  | false, true => some 1
  | false, false => none

/-- The transitions of the time state (R18). (DESIGN CHOICE: log entry 165) -/
def State.evalTime (s : State) : State :=
  match s.timeState with
  | 0 =>
    match s.bestSlot with
    | none => s
    | some k =>
      if !s.tim.streamsUp then
        -- the initial setting is no discontinuity
        let off := s.getI (slotOffset k)
        let s := ((s.followSlot k).put F.TIM_STATUS_STATE tmLOCKED).moveHeld off
        let s := { s with tim := { s.tim with time := s.tim.time + off } }
        (s.updDom k (fun d => { d with offsets := [] })).reportLevel
      else s.slewOrStep k
  | 3 =>
    match s.bestSlot with
    | none => s
    | some k => if k = s.get F.TIM_STATUS_ACTIVE_SLOT then s.slewOrStep k else s.switchTo k
  | _ =>
    let a := s.get F.TIM_STATUS_ACTIVE_SLOT
    if s.on (slotQual a) then s
    else if s.on (slotQual (1 - a)) then s.switchTo (1 - a)
    else s.enterHoldover

/-- The messages that wait in the queue belong to this instant, and one of them is a Sync or a Follow_Up: of two slots that qualify
at one instant the preferred one is taken (R18), so the choice of a slot waits for the last of them.
(DEDUCED: log entry 168) -/
def State.syncWaits (s : State) : Bool :=
  s.pending.any (fun c => match c with
    | .sync p d _ two _ _ _ => !two && (s.slotFor p d).isSome
    | .followUp p d q _ _ => match s.slotFor p d with
      | some k => (s.dom k).twoStep.any (fun x => x.1 == p && x.2.1 == q)
      | none => false
    | _ => false)

/-- Take a slot in FREE and HOLDOVER, once every Sync of the instant has been measured (R18). (DEDUCED: log entry 168) -/
def State.chooseSlot (s : State) : State :=
  if (s.timeState = tmFREE || s.timeState = tmHOLDOVER) && !s.syncWaits then s.evalTime else s

/-- A slot stops qualifying until it collects GOOD_COUNT healthy Sync messages again (R22). -/
def State.unqualify (s : State) (k : Nat) : State :=
  ((s.put (slotQual k) 0).updDom k (fun d => { d with good := 0, qualSince := none })).evalTime

/-! ## Measurement (R387, R25) -/

/-- The mean of a slot's measured offsets, rounded to the nearest ns. (DESIGN CHOICE: log entry 13) -/
def meanOffset (l : List Int) : Int := if l.isEmpty then 0 else divRound (l.foldl (· + ·) 0) l.length

/-- The servo on a Sync of the active domain (R25). -/
def State.servo (s : State) (e : Int) : State :=
  let integral := clampInt (-(2 ^ 40)) (2 ^ 40) (s.tim.integral + e)
  let kp : Int := s.get F.TIM_SERVO_GAIN_KP
  let ki : Int := s.get F.TIM_SERVO_GAIN_KI
  let adj := divRound (-(kp * e + ki * integral)) 65536
  let c := clampInt (-13107200) 13107200 adj
  let s := { s with tim := { s.tim with integral := integral } }
  let s := if c = adj then s else s.raise F.TIM_EVENT_CLAMP
  s.putI F.TIM_FREQ_ADJ_SERVO_ADJ c

/-- Measure slot `k` on a Sync received on a port at `rx` with the given master time, when slews had removed the phase `slewed`
(R387, R22, R23, R25): the remaining slew counts as it stood at the Sync. In HOLDOVER every slot is measured as the other slot.
(DESIGN CHOICE: log entry 167) -/
def State.measure (s : State) (k port : Nat) (rx master : Time) (slewed : Int) : State :=
  let master := master + (s.tim.ports.getD port {}).delay
  let active := s.follows k
  let e := rx - (master - (s.getI F.TIM_SLEW_REMAIN_VALUE + (s.tim.slewed - slewed)))
  let off := master - rx
  let prev := (s.dom k).offsets
  let residual : Nat := if active then e.natAbs
    else if prev.isEmpty then 0 else (off - meanOffset prev).natAbs
  let healthy := s.on (slotCap k port) && (s.dom k).announced
    && decide (s.get (slotClass k) ≤ s.get F.TIM_QUALIFY_CLASS_LIMIT)
    && decide (residual ≤ s.get F.TIM_QUALIFY_RESIDUAL_BOUND)
  let beyond := decide (s.get F.TIM_QUALIFY_RESIDUAL_BOUND < residual)
  let offs := (off :: prev).take 8
  let s := s.flag (slotHealthy k) healthy
  let s := s.putI (slotOffset k) (meanOffset offs)
  let s := s.updDom k (fun d => { d with offsets := offs, good := if healthy then d.good + 1 else 0
                                         bad := if beyond then d.bad + 1 else 0 })
  let s := if active then s.servo e else s
  if s.get F.TIM_QUALIFY_GOOD_COUNT ≤ (s.dom k).good && healthy && !s.on (slotQual k) then
    ((s.raise (slotQual k)).put (slotLost k) 0).updDom k (fun d => { d with qualSince := some s.now })
  else if s.get F.TIM_QUALIFY_BAD_COUNT ≤ (s.dom k).bad && beyond then s.unqualify k
  else s

/-! ## The best master clock (R21) -/

/-- Lexicographic order of priority vectors: the lower is the better (IEEE 802.1AS). -/
def vectorLe : List Nat → List Nat → Bool
  | a :: r, b :: q => decide (a < b) || (a == b && vectorLe r q)
  | [], _ => true
  | _, [] => false

/-- The port of a slot in SlaveState: that of the best Announce, port A of two equals; none while no Announce is held (R21).
(DESIGN CHOICE: log entry 169) -/
def State.slavePort (s : State) (k : Nat) : Option Nat :=
  let mine := (s.dom k).vectors.filter (fun v => bitSet (s.get (slotPorts k)) v.1)
  match mine.find? (fun v => v.1 == 0), mine.find? (fun v => v.1 == 1) with
  | some a, some b => if vectorLe a.2 b.2 then some 0 else some 1
  | some _, none => some 0
  | none, some _ => some 1
  | none, none => none

/-- A port of a slot is in PassiveState: the BMCA has placed the other port in SlaveState (R21).
(DESIGN CHOICE: log entry 169) -/
def State.passive (s : State) (k port : Nat) : Bool := (s.slavePort k).any (· != port)

/-- Show the slave port in TIM_DOM_STATk. -/
def State.showSlave (s : State) (k : Nat) : State :=
  match s.slavePort k with
  | some p => s.put (slotSlave k) p
  | none => s

/-- Do something unless TIM is gated or REFCLK is lost. -/
def State.whenTim (s : State) (f : State → State) : State := if s.gated wTIM || s.pwr.refLost then s else f s

/-- TIM_NOW_LOW_READ (R15; TIM_NOW, 02): the high half is latched for the next read of it. -/
def execTimNowLowRead (s : State) : Host.Outcome State Fault Refusal :=
  .next (s.whenTim (fun s => { s with tim := { s.tim with latch := some (ofInt 64 s.now / 2 ^ 32) } }))

/-- SYNC (R386, R387). A Sync on a port in PassiveState restarts the port's timer and is not measured (R21).
(DESIGN CHOICE: log entry 169) -/
def execSync (port domain seq : Nat) (twoStep : Bool) (origin correction logInterval : Int) (s : State) :
    Host.Outcome State Fault Refusal :=
  .next (s.whenTim (fun s =>
    match s.slotFor port domain with
    | none => s
    | some k =>
      let rx := s.rxStamp port
      let s := s.updDom k (fun d => { d with syncRx := (port, s.now, logInterval) :: d.syncRx.filter (fun x => x.1 != port) })
      if s.passive k port then s.chooseSlot
      else if twoStep then
        s.updDom k (fun d => { d with twoStep := (port, seq, rx, correction, s.tim.slewed) :: d.twoStep.filter (fun x => x.1 != port) })
      else (s.measure k port rx (origin + correction) s.tim.slewed).chooseSlot))

/-- FOLLOW_UP (R386, R21): completes the two-step Sync of its slot and port with the same sequenceId, measured as at its Sync
event (R387). -/
def execFollowUp (port domain seq : Nat) (origin correction : Int) (s : State) : Host.Outcome State Fault Refusal :=
  .next (s.whenTim (fun s =>
    match s.slotFor port domain with
    | none => s
    | some k =>
      match (s.dom k).twoStep.find? (fun x => x.1 == port && x.2.1 == seq) with
      | none => s
      | some (_, _, rx, c, slewed) =>
        let s := s.updDom k (fun d => { d with twoStep := d.twoStep.filter (fun x => x.1 != port) })
        (if s.passive k port then s else s.measure k port rx (origin + correction + c) slewed).chooseSlot))

/-- ANNOUNCE (R386, R22): its contents, its place in the BMCA by priority1, clockClass, clockAccuracy, offsetScaledLogVariance,
priority2, grandmasterIdentity, stepsRemoved and the sender's port identity (R21). (DESIGN CHOICE: log entry 169) -/
def execAnnounce (port domain clockClass : Nat) (gm : Announcer) (utcOffset logInterval : Int) (s : State) : Host.Outcome State Fault Refusal :=
  .next (s.whenTim (fun s =>
    match s.slotFor port domain with
    | none => s
    | some k =>
      let d := s.dom k
      let degraded := decide (s.get F.TIM_QUALIFY_CLASS_LIMIT < clockClass) || (d.announced && d.gmId != gm.id)
      let s := (s.put (slotClass k) clockClass).put (slotGm k) gm.id
      let s := s.updDom k (fun d => { d with
        announced := true, gmId := gm.id, utcOffset
        vectors := (port, [gm.prio1, clockClass, gm.accuracy, gm.variance, gm.prio2, gm.id, gm.steps, gm.sender]) :: d.vectors.filter (fun x => x.1 != port)
        announceRx := (port, s.now, logInterval) :: d.announceRx.filter (fun x => x.1 != port) })
      let s := s.showSlave k
      if degraded then s.unqualify k else s))

/-- The mean link delay of a measurement (R21): ((t4 - t1) - (t3 - t2)) / 2, of the latest measurement alone, rounded down.
(DESIGN CHOICE: log entry 166) -/
def linkDelay (t1 t2 t3 t4 : Time) : Int := ((t4 - t1) - (t3 - t2)) / 2

/-- A Pdelay message on a port: kind 0 request, answered two-step; kind 1 response with its receipt time; kind 2 the
response's follow-up with its transmit time, which completes the measurement. -/
def State.pdelayRx (s : State) (port kind : Nat) (stamp : Time) (done : State → State) : State :=
  let p := s.tim.ports.getD port {}
  let upd (f : PortDelay → PortDelay) : State := { s with tim := { s.tim with ports := modifyAt f port s.tim.ports } }
  match kind with
  | 0 => s.txSend port { cls := txStatus, kind := .ptp 3 [s.rxStamp port] }
  | 1 => match p.t1 with
    | none => s
    | some _ => upd (fun p => { p with resp := some (stamp, s.rxStamp port) })
  | _ => match p.t1, p.resp with
    | some t1, some (t2, t4) =>
      done (upd (fun p => { p with t1 := none, resp := none, delay := linkDelay t1 t2 stamp t4 }))
    | _, _ => s

/-- A host port becomes asCapable for every enabled slot that uses it (R21). -/
def State.hostCapable (s : State) (port : Nat) : State :=
  [0, 1].foldl (fun t k => if t.on (slotEn k) && bitSet (t.get (slotPorts k)) port then t.raise (slotCap k port) else t) s

/-- PDELAY (R21, R386): a completed measurement makes the port asCapable for every slot that uses it.
(DEDUCED: log entry 15) -/
def execPdelay (port kind : Nat) (stamp : Int) (s : State) : Host.Outcome State Fault Refusal :=
  .next (s.whenTim (fun s => if 2 ≤ port then s else s.pdelayRx port kind stamp (fun s => s.hostCapable port)))

/-- SIGNALING (R21): discarded. -/
def execSignaling (_port : Nat) (s : State) : Host.Outcome State Fault Refusal := .next s

/-- Whether a receipt timer has expired: `n` message intervals since the last receipt (R22). (DEDUCED: log entry 14) -/
def State.rxExpired (s : State) (n : Nat) (x : Nat × Time × Int) : Bool :=
  decide (x.2.1 + n * logSeconds x.2.2 ≤ s.now)

/-- A receipt timeout of a slot on a port: the port's Announce ages out of the BMCA (R21), and the domain is lost when the timers
of that kind have expired on every port of the mask on which they run (R22).
(DEDUCED: log entry 14; DESIGN CHOICE: log entry 169) -/
def State.receiptTimeout (s : State) (k n : Nat) (l : List (Nat × Time × Int)) (port : Nat) : State :=
  let mine := l.filter (fun x => bitSet (s.get (slotPorts k)) x.1)
  if mine.any (fun x => x.1 == port && s.rxExpired n x) && s.on (slotEn k) then
    let s := (s.updDom k (fun d => { d with vectors := d.vectors.filter (fun v => v.1 != port) })).showSlave k
    if mine.all (s.rxExpired n) then (s.raise (slotLost k)).unqualify k else s
  else s

/-- SYNC_RECEIPT_TIMEOUT (R22). -/
def execSyncReceiptTimeout (slot port : Nat) (s : State) : Host.Outcome State Fault Refusal :=
  .next (s.whenTim (fun s => if 2 ≤ slot then s
    else s.receiptTimeout slot (s.get F.TIM_QUALIFY_SYNC_TIMEOUT) (s.dom slot).syncRx port))

/-- ANNOUNCE_RECEIPT_TIMEOUT (R22). -/
def execAnnounceReceiptTimeout (slot port : Nat) (s : State) : Host.Outcome State Fault Refusal :=
  .next (s.whenTim (fun s => if 2 ≤ slot then s
    else s.receiptTimeout slot (s.get F.TIM_QUALIFY_ANNOUNCE_TIMEOUT) (s.dom slot).announceRx port))

/-- SLEW_COMPLETE (R24, R18): with the remaining phase 0, SLEWING becomes LOCKED. -/
def execSlewComplete (s : State) : Host.Outcome State Fault Refusal :=
  .next (s.whenTim (fun s =>
    if s.timeState = tmSLEWING && s.getI F.TIM_SLEW_REMAIN_VALUE == 0 then
      (s.put F.TIM_STATUS_STATE tmLOCKED).put F.TIM_FREQ_ADJ_SLEW_ADJ 0
    else s))

/-- ACQ_TIMEOUT (R19): no domain within ACQ_TIMEOUT of the start of acquisition; start-up goes on in FREE. -/
def execAcqTimeout (s : State) : Host.Outcome State Fault Refusal :=
  .next (s.whenTim (fun s =>
    match s.tim.acqStart with
    | none => s
    | some t =>
      if s.timeState = tmFREE && decide (t + s.get F.TIM_CTRL_ACQ_TIMEOUT * 1000000000 ≤ s.now) then
        let s := (s.raise F.TIM_EVENT_ACQ_TIMEOUT)
        { s with tim := { s.tim with acqStart := none } }.reportLevel
      else s))

/-- HOLDOVER_LIMIT (R19): holdover beyond the limit sets UNTRACEABLE. -/
def execHoldoverLimit (s : State) : Host.Outcome State Fault Refusal :=
  .next (s.whenTim (fun s =>
    match s.tim.holdSince with
    | none => s
    | some t =>
      if s.timeState = tmHOLDOVER && decide (t + s.get F.TIM_CTRL_HOLDOVER_LIMIT * 1000000000 ≤ s.now) then
        (s.raise F.TIM_STATUS_UNTRACEABLE).raise F.TIM_EVENT_UNTRACEABLE
      else s))

/-- REVERT (R23): the preferred slot has qualified without a break for REVERT_HOLD and REVERT is set. -/
def execRevert (s : State) : Host.Outcome State Fault Refusal :=
  .next (s.whenTim (fun s =>
    let k := s.get F.TIM_CTRL_PREFERRED
    match (s.dom k).qualSince with
    | none => s
    | some t =>
      if s.on F.TIM_CTRL_REVERT && s.on (slotQual k) && s.follows (1 - k)
          && decide (t + s.get F.TIM_CTRL_REVERT_HOLD * 1000000000 ≤ s.now) then s.switchTo k
      else s))

/-! ## The sensor network (R27, R28) -/

/-- Whether the device is master on a sensor port. -/
def State.sensorMaster (s : State) (port : Nat) : Bool := bitSet (s.get F.TIM_SENSOR_DOM_PORT_EN) port && decide (port < 6)

/-- Whether `ns` have passed since the last transmission with a key, and record this one. -/
def State.txDue (s : State) (key : Nat) (ns : Int) : Bool :=
  match s.tim.lastTx.find? (fun x => x.1 == key) with
  | none => true
  | some x => decide (x.2 + ns ≤ s.now)

def State.noteTx (s : State) (key : Nat) : State :=
  { s with tim := { s.tim with lastTx := (key, s.now) :: s.tim.lastTx.filter (fun x => x.1 != key) } }

/-- SENSOR_PTP_RX (R27): Announce and Sync received on a sensor port are discarded and counted. -/
def execSensorPtpRx (port : Nat) (_isSync : Bool) (s : State) : Host.Outcome State Fault Refusal :=
  .next (s.whenTim (fun s => if 6 ≤ port then s
    else { (s.raise F.TIM_EVENT_FOREIGN_MASTER) with tim := { s.tim with foreign := s.tim.foreign + 1 } }))

/-- SENSOR_ANNOUNCE_TX (R27): PRIORITY1, the active domain's clockClass and currentUtcOffset or clockClass 248, and the
traceable flags, true only in LOCKED and SLEWING. In FREE and HOLDOVER the currentUtcOffset is 0.
(DESIGN CHOICE: log entry 164) -/
def execSensorAnnounceTx (port : Nat) (s : State) : Host.Outcome State Fault Refusal :=
  .next (s.whenTim (fun s =>
    if s.sensorMaster port && s.txDue (10 * port + 1) 1000000000 then
      let k := s.get F.TIM_STATUS_ACTIVE_SLOT
      let tr := s.timeState == tmLOCKED || s.timeState == tmSLEWING
      let f : List Int := [s.get F.TIM_SENSOR_DOM_PRIORITY1, if tr then s.get (slotClass k) else 248,
        if tr then (s.dom k).utcOffset else 0, if tr then 1 else 0, if tr then 1 else 0,
        s.get F.TIM_SENSOR_DOM_DOMAIN_NUMBER]
      (s.txSend (port + 2) { cls := txStatus, kind := .ptp 1 f }).noteTx (10 * port + 1)
    else s))

/-- SENSOR_SYNC_TX (R28): a one-step Sync with its originTimestamp inserted on the fly, sub-nanoseconds in correctionField. -/
def execSensorSyncTx (port : Nat) (s : State) : Host.Outcome State Fault Refusal :=
  .next (s.whenTim (fun s =>
    if s.sensorMaster port && s.txDue (10 * port) (logSeconds (s.getI F.TIM_SENSOR_DOM_SYNC_LOG_INTERVAL)) then
      (s.txSend (port + 2) { cls := txStatus, kind := .ptp 0 [s.get F.TIM_SENSOR_DOM_DOMAIN_NUMBER] }).noteTx (10 * port)
    else s))

/-- Send a Pdelay request on a port, whose transmit timestamp is held at its departure (R21, R27). -/
def State.pdelayTx (s : State) (port key : Nat) (interval : Int) : State :=
  if s.txDue key interval then (s.txSend port { cls := txStatus, kind := .ptp 2 [] }).noteTx key else s

/-- SENSOR_PDELAY_TX (R27). -/
def execSensorPdelayTx (port : Nat) (s : State) : Host.Outcome State Fault Refusal :=
  .next (s.whenTim (fun s =>
    if s.sensorMaster port then
      s.pdelayTx (port + 2) (10 * port + 2) (logSeconds (s.getI F.TIM_SENSOR_DOM_PDELAY_LOG_INTERVAL))
    else s))

/-- SENSOR_PDELAY (R27): answered as responder, or completes the device's own measurement. -/
def execSensorPdelay (port kind : Nat) (stamp : Int) (s : State) : Host.Outcome State Fault Refusal :=
  .next (s.whenTim (fun s =>
    if s.sensorMaster port then
      s.pdelayRx (port + 2) kind stamp (fun s => s.put F.TIM_STATUS_SENSOR_ASCAPABLE
        (setBit (s.get F.TIM_STATUS_SENSOR_ASCAPABLE) port))
    else s))

/-- HOST_PDELAY_TX (R21): at each host-port pdelay interval. -/
def execHostPdelayTx (port : Nat) (s : State) : Host.Outcome State Fault Refusal :=
  .next (s.whenTim (fun s =>
    if decide (port < 2) && s.portUp port then
      s.pdelayTx port (100 + port) (logSeconds (s.getI F.TIM_QUALIFY_PDELAY_LOG_INTERVAL))
    else s))

/-! ## Launch (R29, R30) -/

/-- Entries a port's launch queue holds (R29). -/
def launchDepth (port : Nat) : Nat := if port < 2 then 64 else 16

/-- Queue a launch entry in order of launch time, later arrivals after equal times, or refuse it (R29, R30). -/
def State.queueLaunch (s : State) (port : Nat) (e : Launch) : State :=
  let q := s.tim.launch.getD port []
  if launchDepth port ≤ q.length then
    (s.satInc F.TIM_COUNTS_LATE_LAUNCH_COUNT).raise F.TIM_EVENT_LAUNCH_FULL
  else
    let first := match q with
      | [] => true
      | h :: _ => decide (e.time < h.time)
    let s := { s with tim := { s.tim with launch := modifyAt (insertBy (·.time) e) port s.tim.launch } }
    -- a new head has reached the head of its queue, unless the entry launched before it still leaves
    if first && !s.launching port then s.judgeHead port else s

/-- LAUNCH_REQUEST (R29). -/
def execLaunchRequest (port : Nat) (time : Int) (dropLate : Bool) (dst : Nat) (payload : List Byte) (s : State) :
    Host.Outcome State Fault Refusal :=
  .next (s.whenTim (fun s => if 8 ≤ port then s
    else s.queueLaunch port { time, dropLate, frames := [(dst, payload)] }))

/-- The frames of a launched entry leave in their order, back to back (R29, R30); those of a train are subscriber frames on a host
port (R331). -/
def State.sendLaunch (s : State) (port : Nat) (e : Launch) : State :=
  let item (f : Nat × List Byte) : TxItem :=
    { cls := txTrain, kind := if port < 2 then .frame f.1 f.2 else .raw f.1 f.2, train := e.train }
  let fs := if port < 2 && !s.maySend port then [] else e.frames
  let s := (s.updTx port (fun q => { q with queue := q.queue ++ fs.map item })).txTake port
  if fs.isEmpty then s.judgeHead port else s

/-- LAUNCH (R29, R30): the head of the queue leaves at its launch time; one whose time had passed when it reached the
head is counted late, and leaves or is dropped by its policy bit. The entry before it has left by then.
(DESIGN CHOICE: log entry 16) -/
def execLaunch (port : Nat) (s : State) : Host.Outcome State Fault Refusal :=
  .next (s.whenTim (fun s =>
    match s.tim.launch.getD port [] with
    | [] => s
    | e :: rest =>
      if s.now < e.time || s.launching port then s
      else
        let s := { s with tim := { s.tim with launch := modifyAt (fun _ => rest) port s.tim.launch } }
        let s := s.updTx port (fun q => { q with last := some (e.time, e.late) })
        let s := if e.late then (s.satInc F.TIM_COUNTS_LATE_LAUNCH_COUNT).raise F.TIM_EVENT_LAUNCH_LATE else s
        let s := if e.late && e.train.isSome then s.raise F.HST_EVENT_TRAIN_LATE else s
        if e.late && e.dropLate then
          (if e.train.isSome then s.satInc F.HST_TRAIN_DROPPED else s).judgeHead port
        else
          let s := if e.train.isNone then s
            else (if e.late then s.satInc F.HST_TRAIN_LATE else s).modInc F.HST_TRAIN_TRAINS
          s.sendLaunch port e))

/-! ## Camera triggers (R31, R32) -/

/-- The latest edge t_k of a trigger output at or before a time (R31), if there is one. -/
def State.trigEdgeBefore (s : State) (i : Nat) (t : Time) : Option Time :=
  let num := s.get (F.TIM_TRIG_TIME_NUM i)
  let den := s.get (F.TIM_TRIG_TIME_DEN i)
  let ph : Int := s.get (F.TIM_TRIG_CTL_PHASE i)
  if t < ph || num = 0 then none
  else
    -- floor(k num / den) ≤ d exactly when k num < (d + 1) den
    let d := (t - ph).toNat
    let k := ((d + 1) * den - 1) / num
    some (ph + (k * num / den : Nat))

/-- The edge after the one at a time: the first t_k later than it (R31). -/
def State.trigEdgeAfter (s : State) (i : Nat) (t : Time) : Time :=
  let num := s.get (F.TIM_TRIG_TIME_NUM i)
  let den := max 1 (s.get (F.TIM_TRIG_TIME_DEN i))
  let ph : Int := s.get (F.TIM_TRIG_CTL_PHASE i)
  if t < ph then ph
  else
    let d := (t - ph).toNat
    let k := ((d + 1) * den - 1) / max 1 num + 1
    ph + (k * num / den : Nat)

/-- TRIGGER_EDGE (R31): the leading edge of the pulse at t_k, in the REFCLK period in which t_k falls. An edge of new settings that
lies before their apply instant is none (R32). (DEDUCED: log entry 170) -/
def execTriggerEdge (output : Nat) (s : State) : Host.Outcome State Fault Refusal :=
  .next (s.whenTim (fun s =>
    if 12 ≤ output || !s.on (F.TIM_TRIG_CTL_ENABLE output) then s
    else match s.trigEdgeBefore output s.now with
      | none => s
      | some t =>
        let fresh := match s.tim.lastEdge.getD output none with
          | none => true
          | some l => decide (l < t)
        if fresh && decide (s.now ≤ t + 40) then
          { s with tim := { s.tim with
            lastEdge := modifyAt (fun _ => some t) output s.tim.lastEdge
            pulse := modifyAt (fun _ => some (t + s.get (F.TIM_TRIG_CTL_WIDTH output),
              !s.on (F.TIM_TRIG_CTL_POLARITY output))) output s.tim.pulse } }
        else s))

/-- TRIGGER_PULSE_END (R31): WIDTH ns after its edge the output returns to its inactive level. -/
def execTriggerPulseEnd (output : Nat) (s : State) : Host.Outcome State Fault Refusal :=
  .next (s.whenTim (fun s =>
    match s.tim.pulse.getD output none with
    | none => s
    | some (t, _) =>
      if t ≤ s.now then { s with tim := { s.tim with pulse := modifyAt (fun _ => none) output s.tim.pulse } } else s))

/-! ## The tick (R16, R17, R284) -/

/-- The units of 2^-16 ppm in a rate of one. -/
abbrev rateOne : Int := 65536000000

/-- Advance device time by `ns` of REFCLK at an adjusted rate, with the remainder below 1 ns carried (R16). -/
def State.advanceTime (s : State) (ns adj : Int) : State :=
  let total := ns * (rateOne + adj) + s.tim.frac
  { s with tim := { s.tim with time := s.tim.time + total / rateOne, frac := (total % rateOne).toNat } }

/-- Shrink the remaining slew by what SLEW_ADJ removes in `ns`; in the last step exactly to 0 (R24). -/
def State.shrinkSlew (s : State) (ns : Int) : State :=
  let r := s.getI F.TIM_SLEW_REMAIN_VALUE
  if s.timeState ≠ tmSLEWING || r = 0 then s
  else
    let total := ns * (s.getI F.TIM_FREQ_ADJ_SLEW_ADJ).natAbs + s.tim.slewFrac
    let d : Int := min (total / rateOne) r.natAbs
    let r' := if 0 < r then r - d else r + d
    let s := s.putI F.TIM_SLEW_REMAIN_VALUE r'
    let s := if r' = 0 then s.put F.TIM_FREQ_ADJ_SLEW_ADJ 0 else s
    { s with tim := { s.tim with slewFrac := if r' = 0 then 0 else (total % rateOne).toNat
                                 slewed := s.tim.slewed + (r - r') } }

/-- One REFCLK period of 40 ns: REFCLK and device time count, the slew shrinks, the clock events of OBS count
(R16, R24, R284, R360), and the Ethernet ports send (R333). In Doze and Standby the Toffee island counts device time on the slow clock, in steps of
1,280 ns, one every 32 REFCLK periods, with the servo adjustment held (R17). Without REFCLK, and in Off, nothing moves (R348, R378).
(DESIGN CHOICE: log entry 1) -/
def State.tick (s : State) : State :=
  if s.pwr.refLost || s.pwr.off then s
  else
    let s := { s with pwr := { s.pwr with refclk := s.pwr.refclk + 1 } }
    let servo := s.getI F.TIM_FREQ_ADJ_SERVO_ADJ
    if 2 ≤ s.power then
      (if s.pwr.refclk % 32 = 0 then s.advanceTime 1280 servo else s)
    else
      let s := (s.advanceTime 40 (servo + s.getI F.TIM_FREQ_ADJ_SLEW_ADJ)).shrinkSlew 40
      let s := (List.range 8).foldl State.txTick s
      -- the head-step boundary of an instant is over (R244)
      let s := { s with atn := { s.atn with boundary := false } }
      let s := s.count 0 0 (if bitSet (s.get F.CLK_STATUS_ACTIVE) 0 then 40 else 1)
      let s := s.count 0 1 (if bitSet (s.get F.CLK_STATUS_ACTIVE) 1 then 50 else 1)
      s.count 0 2 1

end Sys2Proof.Machine
end

