-- ==== Sys2Proof/Machine/Commits.lean ====
section
/-! DEFINITION. Staged commits (spec/18_startup_and_image.md, R304 to R307): requests of both channels, the checks, the
apply instant, and what each kind of tunable does when it changes; INSTANCE_OPEN, which coincides with it. -/

namespace Sys2Proof.Machine

/-! ## Items -/

/-- The declared tunable an item names. -/
def State.tunable (s : State) (id : Nat) : Option Tunable := s.boot.tunables.find? (fun t => t.id == id)

/-- The window whose block rules an item's tunable falls under; CAL_BANK falls under LFT. -/
def Tunable.window (t : Tunable) : Nat := if t.kind = 0 then (windowOf t.addr).getD 32 else wLFT

/-- A value lies in MIN to MAX and fits the field (R305); CAL_GEN has 8 bits. -/
def Tunable.inRange (t : Tunable) (v : Nat) : Bool :=
  let x : Int := if t.signed then toSigned 64 v else (v % 2 ^ 64 : Nat)
  let w := if t.kind = 0 then t.width else 8
  let fits := if t.signed then decide (-(2 ^ (w - 1) : Nat) ≤ x) && decide (x < (2 ^ (w - 1) : Nat)) else decide (x < (2 ^ w : Nat))
  decide (t.min ≤ x) && decide (x ≤ t.max) && fits

/-- Put one item into the settings: a field's value, or the swap of a camera's table banks (R113). -/
def State.applyItem (s : State) (it : Nat × Nat) : State :=
  match s.tunable it.1 with
  | none => s
  | some t =>
    if t.kind = 0 then s.put ⟨t.addr, t.lsb, t.width⟩ it.2
    else (s.put (F.LFT_CAM_STAT_ACTIVE_BANK t.slot) (1 - s.get (F.LFT_CAM_STAT_ACTIVE_BANK t.slot))).put
      (F.LFT_CAM_STAT_CAL_GEN t.slot) it.2

def State.applyItems (s : State) (l : List (Nat × Nat)) : State := l.foldl State.applyItem s

/-- Whether a commit sets PWR_CTRL.TARGET, and whether to a state below Active (R349). -/
def State.setsTarget (s : State) (c : Commit) : Bool :=
  c.items.any (fun it => (s.tunable it.1).any (fun t => t.kind == 0 && t.addr == F.PWR_CTRL_TARGET.addr && t.lsb == F.PWR_CTRL_TARGET.lo))
def State.lowersPower (s : State) (c : Commit) : Bool :=
  c.items.any (fun it => decide (0 < it.2 % 4)
    && (s.tunable it.1).any (fun t => t.kind == 0 && t.addr == F.PWR_CTRL_TARGET.addr && t.lsb == F.PWR_CTRL_TARGET.lo))

/-- A low-power request has been accepted: pending, or in force (R327, R340). (DEDUCED: log entry 145) -/
def State.lowPower (s : State) : Bool := s.pwr.goingTo.isSome || s.boot.pending.any s.lowersPower

/-! ## Requests (R304) -/

/-- A channel takes requests: an image is loaded, and the state is not Halted (R302, R307). -/
def State.takesCommits (s : State) : Bool := s.boot.locked && s.safety != stHalted

/-- A request of the host channel empties the shadow, whatever becomes of it (R304, R334). -/
def State.emptyShadow (s : State) (c : Commit) : State :=
  if c.host.isSome then { s with boot := { s.boot with hostShadow := [], stageSeq := 0 } }.syncCommits else s

/-- A commit request consumes its channel's shadow and is checked (R304, R305). -/
def State.requestCommit (s : State) (c : Commit) : State :=
  if !s.takesCommits then s
  else
    let c := if c.host.isSome then { c with items := s.boot.hostShadow } else c
    let s := s.emptyShadow c
    { s with boot := { s.boot with checking := s.boot.checking ++ [c] } }

/-- COMMIT_NEXT_BOUNDARY (R304, R306): `host` gives port, source address and request identifier of the host channel. -/
def execCommitNextBoundary (host : Option (Nat × Nat × Nat)) (id : Nat) (items : List (Nat × Nat)) (crcOk : Bool) (s : State) :
    Host.Outcome State Fault Refusal :=
  .next (s.requestCommit { id, host, atTime := false, items, crcOk })

/-- COMMIT_AT_TIME (R304, R306). -/
def execCommitAtTime (host : Option (Nat × Nat × Nat)) (id : Nat) (time : Int) (items : List (Nat × Nat)) (crcOk : Bool) (s : State) :
    Host.Outcome State Fault Refusal :=
  .next (s.requestCommit { id, host, atTime := true, time, items, crcOk })

/-- Doze entry, or a deeper state, is under way or the level is not yet reported: reason STATE. -/
def State.commitsClosed (s : State) : Bool := s.boot.level.isNone || s.on F.PWR_STATUS_TRANSITION || decide (2 ≤ s.power)

/-- A CANCEL request (R307): the pending commit of its channel with that COMMIT_ID, and every one accepted after it. One
whose apply instant has come is not cancelled. (DEDUCED: log entry 138) -/
def State.requestCancel (s : State) (c : Commit) : State :=
  if !s.takesCommits then s
  else
    let s := s.emptyShadow c
    if !c.crcOk then s.sendResult c true (commitResult c.id 0x0A 0xFF 0 0 0)
    else if s.commitsClosed then s.sendResult c true (commitResult c.id 7 0xFF 0 0 0)
    else
      match s.boot.pending.findIdx? (fun p => p.id == c.id && p.host.isSome == c.host.isSome && decide (s.now < p.applyAt)) with
      | none => s.sendResult c true (commitResult c.id 9 0xFF 0 0 0)
      | some k =>
        let p := s.boot.pending.getD k c
        let s := s.cancelFrom k
        if c.host.isSome then s.sendResult c true (commitResult c.id 9 0xFF 3 p.applyAt p.cycle) else s

/-- COMMIT_CANCEL (R307). -/
def execCommitCancel (host : Option (Nat × Nat × Nat)) (id : Nat) (crcOk : Bool) (s : State) : Host.Outcome State Fault Refusal :=
  .next (s.requestCancel { id, host, atTime := false, items := [], crcOk })

/-! ## Checking (R305) -/

/-- What is wrong with one item: NOT_TUNABLE, RANGE, or nothing. -/
def State.itemFault (s : State) (c : Commit) (it : Nat × Nat) : Option Nat :=
  match s.tunable it.1 with
  | none => some 1
  | some t =>
    if (if c.host.isSome then !t.host else !t.fw) then some 1
    else if t.inRange it.2 then none else some 2

/-- The first item at fault, with its reason. -/
def State.itemsFault (s : State) (c : Commit) : Option (Nat × Nat) :=
  c.items.zipIdx.findSome? (fun it => (s.itemFault c it.1).map (fun r => (r, it.2)))

/-- An ID twice, or already in a pending commit: the index of the item. -/
def State.itemConflict (s : State) (c : Commit) : Option Nat :=
  (List.range c.items.length).find? (fun k =>
    let id := (c.items.getD k (0, 0)).1
    (c.items.take k).any (fun x => x.1 == id) || s.boot.pending.any (fun p => p.items.any (fun x => x.1 == id)))

/-- The settings in force changed by every pending commit in acceptance order (R305). -/
def State.projected (s : State) : State := s.boot.pending.foldl (fun t c => t.applyItems c.items) s

/-- Whether instances open, under the settings in force and pending (R306, R349). -/
def State.opensInstances (s : State) : Bool :=
  s.on F.GLZ_CTRL_ENABLE && s.runs wGLZ && s.boot.level == some 3 && s.safety != stHalted && s.pwr.goingTo.isNone
    && s.projected.get F.PWR_CTRL_TARGET == 0

/-- The first instance that opens at a time or later: how many openings lie before it, and its instant.
(DEDUCED: log entry 144) -/
def State.findOpening (s : State) (t : Time) (first : Bool) (prev : Time) (prevB k : Nat) : Nat → Nat × Time
  | 0 => (k, prev)
  | f + 1 =>
    let o := if first then s.now else max prev s.now
    if t ≤ o then (k, o)
    else
      let n := s.chooseTov first prev prevB
      s.findOpening t false n.1 n.2.2 (k + 1) f

def State.firstOpening (s : State) (t : Time) : Nat × Time :=
  let r := s.findOpening t s.glz.fresh s.glz.prevTov s.glz.prevBudget 0 65536
  ((s.glz.nextCycle + r.1) % 2 ^ 32, r.2)

/-- The apply instant and the first cycle that uses the settings, for a commit whose checking ends now (R306).
(DEDUCED: log entry 144) -/
def State.placed (s : State) (c : Commit) : Commit :=
  let early := s.now + 500000
  let opens := s.opensInstances
  if c.atTime then { c with applyAt := c.time, cycle := if opens then (s.firstOpening c.time).1 else s.glz.nextCycle }
  else if opens then
    let o := s.firstOpening early
    { c with time := early, applyAt := o.2, cycle := o.1, boundary := true }
  else { c with time := early, applyAt := s.schedAfter early, cycle := s.glz.nextCycle }

/-- The index of the first item that touches a block's window. -/
def State.itemTouching (s : State) (c : Commit) (w : Nat) : Nat :=
  (c.items.findIdx? (fun it => (s.tunable it.1).any (fun t => t.window == w))).getD 0xFF

/-- The block rules of every block an item touches, and those of ING in every commit (R35), on the projected settings (R305
step 4): the first rule broken in the order of R298, then the shadow banks of CAL_BANK items (R113).
(DEDUCED: log entry 143) -/
def State.blockFault (s : State) (c : Commit) : Option (Nat × Nat) :=
  let p := s.projected
  let q := p.applyItems c.items
  let ws := c.items.filterMap (fun it => (s.tunable it.1).map Tunable.window)
  let at_ := if c.atTime && s.setsTarget c then some c.applyAt else none
  match (q.blockRules at_).find? (fun r => (ws.contains r.1 || r.1 == wING) && q.blockOn r.1 && !r.2.2) with
  | some r => some (r.2.1, s.itemTouching c r.1)
  | none => c.items.zipIdx.findSome? (fun it =>
      match s.tunable it.1.1 with
      | some t => if t.kind = 0 then none else (p.bankFault t.slot it.1.2).map (fun r => (r, it.2))
      | none => none)

/-- The checks of R305, in their order: reason and item of the first that fails. `c` carries its apply instant.
(DEDUCED: log entry 143) -/
def State.commitFault (s : State) (c : Commit) : Option (Nat × Nat) :=
  if !c.crcOk then some (0x0A, 0xFF)
  else if s.commitsClosed then some (7, 0xFF)
  else
    match s.itemsFault c with
    | some r => some r
    | none =>
      if c.items.isEmpty then some (8, 0xFF)
      else if 4 ≤ s.boot.pending.length || 64 < c.items.length then some (6, 0xFF)
      else
        match s.itemConflict c with
        | some k => some (3, k)
        | none =>
          if s.boot.pending.any (fun p => decide (c.applyAt < p.applyAt)) then some (4, 0xFF)
          else if c.atTime && (decide (c.time < s.now + 500000) || decide (s.now + 60000000000 < c.time)) then some (5, 0xFF)
          else s.blockFault c

/-- COMMIT_CHECK_DONE (R305): the oldest commit under check becomes pending, or is rejected. -/
def execCommitCheckDone (s : State) : Host.Outcome State Fault Refusal :=
  .next (match s.boot.checking with
    | [] => s
    | c :: rest =>
      let s := { s with boot := { s.boot with checking := rest } }
      if !s.takesCommits then s
      else
        let c := s.placed c
        match s.commitFault c with
        | some (reason, item) => s.sendResult c true (commitResult c.id reason item 0 0 0)
        | none =>
          let s := { s with boot := { s.boot with pending := s.boot.pending ++ [c] } }.syncCommits
          s.sendResult c true (commitResult c.id 0 0xFF 1 c.applyAt c.cycle))

/-! ## Effects of a changed setting -/

/-- ING: a changed LATENCY or DRIFT_BOUND clears the stream's runs (R34). (DEDUCED: log entry 18) -/
def State.changeStreams (s old : State) : State :=
  (List.range 64).foldl (fun t i =>
    if t.get (F.ING_STR_CFG_LATENCY i) ≠ old.get (F.ING_STR_CFG_LATENCY i)
        ∨ t.get (F.ING_STR_TIME_DRIFT_BOUND i) ≠ old.get (F.ING_STR_TIME_DRIFT_BOUND i) then
      (t.put (F.ING_STR_STAT_BAD_RUN i) 0).put (F.ING_STR_STAT_GOOD_RUN i) 0
    else t) s

/-- TIM: a slot whose domain, ports or enable changed restarts its qualification; the active one counts as lost (R23).
(DEDUCED: log entry 18) -/
def State.changeSlots (s old : State) : State :=
  let changed := [0, 1].filter (fun k => s.get (slotNumber k) != old.get (slotNumber k) || s.get (slotPorts k) != old.get (slotPorts k)
    || s.get (slotEn k) != old.get (slotEn k))
  if changed.isEmpty then s
  else
    let f (t : State) (k : Nat) : State :=
      let t := (t.put (slotQual k) 0).updDom k (fun d => { d with good := 0, bad := 0, announced := false, syncRx := [], announceRx := []
                                                                  offsets := [], twoStep := [], vectors := [], gmId := 0, utcOffset := 0, qualSince := none })
      let t := ((t.put (slotClass k) 248).put (slotGm k) 0).putI (slotOffset k) 0
      if t.follows k then t.raise (slotLost k) else t
    (changed.foldl f s).evalTime

/-- Outputs whose trigger settings changed: the edges at or after the apply instant follow the new settings, and none before it
(R32). (DEDUCED: log entry 170) -/
def State.changeTriggers (s old : State) : State :=
  let same (i : Nat) : Bool := [F.TIM_TRIG_TIME_NUM i, F.TIM_TRIG_TIME_DEN i, F.TIM_TRIG_CTL_PHASE i, F.TIM_TRIG_CTL_WIDTH i,
    F.TIM_TRIG_CTL_ENABLE i, F.TIM_TRIG_CTL_POLARITY i].all (fun f => s.get f == old.get f)
  { s with tim := { s.tim with
    lastEdge := s.tim.lastEdge.zipIdx.map (fun x => if same x.2 then x.1 else some (s.now - 1)) } }

/-- LFT: CAL_APPLIED when a camera's banks have swapped (R113). -/
def State.changeBanks (s old : State) : State :=
  if (List.range 16).any (fun c => s.get (F.LFT_CAM_STAT_ACTIVE_BANK c) != old.get (F.LFT_CAM_STAT_ACTIVE_BANK c)) then
    s.raise F.LFT_EVENT_CAL_APPLIED
  else s

/-- Return to Active (R349, R350): the next instance opens under the n = 0 rule; SLV starts cold. -/
def State.returnActive (s : State) : State :=
  let s := ((s.put F.PWR_STATUS_STATE 0).put F.PWR_STATUS_TRANSITION 0).raise F.PWR_EVENT_WAKE
  { s with pwr := { s.pwr with goingTo := none, wakeSrc := none }, glz := { s.glz with fresh := true } }.coldSolver

/-- The TARGET in force after a commit that set it (R349): on the way to a lower state, deeper from Idle, or back.
(DEDUCED: log entry 145) -/
def State.takeTarget (s : State) : State :=
  let t := s.get F.PWR_CTRL_TARGET
  let p := s.power
  if t = 0 then (if p = 1 then s.returnActive else { s with pwr := { s.pwr with goingTo := none } })
  else
    let s := { s with pwr := { s.pwr with goingTo := some t } }
    if p = 1 then s.deeper t else s

/-- On the way to Idle every run-ahead instance is discarded and not rerun; its number is used again (R349, R350).
(DEDUCED: log entry 145) -/
def State.dropRunAhead (s : State) : State :=
  let gone := (s.glz.insts.drop 1).map (·.cycle)
  match gone with
  | [] => s
  | c :: _ =>
    let s := gone.foldl (fun t k => (((t.markedQueues (slotOf k)).foldl (fun u q => u.queueRelease q (slotOf k)) t).discardEngines k).dropLift k) s
    let s := { s with glz := { s.glz with insts := s.glz.insts.take 1, nextCycle := c
                                          tovDone := true
                                          prevTov := (s.head.map Inst.tov).getD s.glz.prevTov
                                          prevBudget := (s.head.map Inst.budget).getD s.glz.prevBudget }
                      tgs := { s.tgs with squash := none }, atn := { s.atn with deadSlots := [] } }
    s.syncHead.syncOps

/-! ## The apply instant (R306) -/

/-- Pending commits whose apply instant has come; they lead the list, for no commit precedes an earlier one (ORDER). -/
def State.commitsDue (s : State) : List Commit := s.boot.pending.takeWhile (fun c => decide (c.applyAt ≤ s.now))

/-- Every item of the due commits takes effect in one cycle, in acceptance order; an instance that opens at that instant opens
under the new settings, before the one squash (R164, R167, R306). (DEDUCED: log entries 66, 146) -/
def State.applyDue (s : State) : State :=
  let cs := s.commitsDue
  let old := s
  let items := cs.flatMap (·.items)
  let slv := items.any (fun it => (s.tunable it.1).any (fun t => t.window == wSLV))
  let target := cs.any s.setsTarget
  let s := { s with boot := { s.boot with pending := s.boot.pending.drop cs.length } }.syncCommits
  let s := (if slv then s.holdSolver else s).applyItems items
  let s := (((s.changeStreams old).changeTriggers old).changeSlots old).changeBanks old
  let s := if target then s.takeTarget else s
  let cycle := match s.pwr.goingTo with
    | none => s.glz.nextCycle
    | some _ => ((s.head.map (fun (i : Inst) => i.cycle + 1)).getD s.glz.nextCycle) % 2 ^ 32
  let s := s.openDueInstance
  let s := if old.power = 0 then s.squash sqCommit else s
  let s := if s.pwr.goingTo.isSome && old.power == 0 then s.dropRunAhead.idleIfDue else s
  let s := s.measureTuned
  cs.foldl (fun t c => t.sendResult c false (commitResult c.id 0 0xFF 2 c.applyAt cycle)) s

/-- COMMIT_APPLY (R306): the apply instant of the oldest pending commit has come. Pending commits never apply in Halted
(R307). -/
def execCommitApply (s : State) : Host.Outcome State Fault Refusal :=
  .next (if s.commitsDue.isEmpty || s.safety == stHalted || s.pwr.refLost then s else s.applyDue)

/-- INSTANCE_OPEN (R137, R162): the instance that is due opens; at a ToV where none does, the ToV has its other effects (R169, R170). A
commit whose apply instant is this one applies with the opening (R306). (DEDUCED: log entry 66) -/
def execInstanceOpen (s : State) : Host.Outcome State Fault Refusal :=
  .next (s.whenGlz (fun s =>
    if !s.openDue then s.atTov
    else if s.commitsDue.isEmpty then s.openDueInstance
    else s.applyDue))

end Sys2Proof.Machine
end

