-- ==== Sys2Proof/Machine/HostPort.lean ====
section
/-! DEFINITION. The host ports' commands (spec/20_host_interface.md): which frames are served, the status word, tile reads,
tunables from the host, heartbeats and the link reset, the logs, trains and links. -/

namespace Sys2Proof.Machine

/-! ## Accepting a frame (R322 to R326; R318, 19) -/

/-- A Deruento frame is discarded under REQUIRE (R318): counted in SEC_COUNTS. (DEDUCED: log entry 130) -/
def State.dropUnprotected (s : State) : State := (s.satInc F.SEC_COUNTS_MACSEC_DROPS).raise F.SEC_EVENT_MACSEC_DROP

/-- A frame can arrive on a port: the port is up, and the device is neither in reset nor held there (R2). -/
def State.hostListens (s : State) (p : Nat) : Bool := s.portUp p && s.boot.step != .inReset

/-- A frame that is not protected is discarded on a port: MACsec is in force with REQUIRE (R318). -/
def State.needsMacsec (s : State) (p : Nat) : Bool := s.macsecOn p && s.on F.SEC_MACSEC_REQUIRE

/-- The states in which a frame type is served (R324, R302, R288): `level` is that the level must have been reported. -/
def State.serves (s : State) (always noImage level : Bool) : Bool :=
  (s.boot.step != .noImage || noImage) && (always || s.safety != stHalted) && (!level || (s.boot.level.isSome && s.boot.step == .up))

/-- A frame of a type that is not served is discarded without a reply (R324). -/
def State.dropFrame (s : State) (p : Nat) : State := (s.satInc (F.HST_RX_DROPPED p)).raise F.HST_EVENT_RX_DROP

/-- Take a Deruento frame on a port: discarded unprotected, discarded as not served or with 16 requests open (R326), or accepted
and handled. Without a live
MKA no protected frame can arrive (R318). (DEDUCED: log entries 137, 140) -/
def State.hostFrame (s : State) (p : Nat) (served : Bool) (f : State → State) : State :=
  if !s.hostListens p then s
  else if s.needsMacsec p && !s.mkaLive p then s.dropUnprotected
  else if !served || decide (16 ≤ s.openRequests p) then s.dropFrame p
  else f (s.modInc (F.HST_RX_ACCEPTED p))

/-- MALFORMED_FRAME (R323, R324, R326): a frame of an unknown type or version, or one discarded as not served, not addressed
to the port, or met by a full request queue. -/
def execMalformedFrame (port : Nat) (malformed : Bool) (s : State) : Host.Outcome State Fault Refusal :=
  .next (if !s.hostListens port then s
    else if malformed then (s.satInc (F.HST_RX_MALFORMED port)).raise F.HST_EVENT_MALFORMED
    else s.dropFrame port)

/-! ## The status word (R327, R328) -/

/-- Start-up is not complete. (DEDUCED: log entry 123) -/
def State.starting (s : State) : Bool := s.boot.step != .up && s.boot.step != .noImage

/-- An amendment of the head may still be re-issued (R327). -/
def State.amendOpen (s : State) : Bool :=
  match s.head with
  | none => false
  | some i => decide (i.tov ≤ s.now) && decide (s.now < i.deadline - s.get F.GLZ_DEADLINE_REUSE_LEAD * 1000)
      && !(i.amendClosed && !i.tiles.any (·.pendingAmend) && !s.amendOutstanding i)

/-- The status word as a port replies it (R327). (DEDUCED: log entry 141) -/
def State.statusWord (s : State) (p : Nat) : Nat :=
  let bit (k : Nat) (b : Bool) : Nat := if b then 2 ^ k else 0
  let ts := s.timeState
  s.headCycle % 2 ^ 16 + s.get F.GLZ_STATUS_HEAD_ISSUED * 2 ^ 16
    + (if s.starting then stSafe else s.safety) * 2 ^ 25 + (if s.starting then 0 else s.boot.level.getD 0) * 2 ^ 28
    + s.get F.TIM_STATUS_ACTIVE_DOMAIN * 2 ^ 30 + bit 38 s.starting
    + bit 39 ((ts == tmLOCKED || ts == tmSLEWING) && !s.on F.TIM_STATUS_UNTRACEABLE) + bit 40 (ts == tmSLEWING)
    + bit 41 (s.head.any (fun i => i.excluded != 0)) + bit 42 s.glz.finalReused + bit 43 s.amendOpen
    + bit 44 (!s.boot.pending.isEmpty) + bit 45 (s.hbFrom.isSome && !s.saf.hbExpired)
    + bit 46 (s.macsecOn p && s.mkaLive p) + bit 47 (s.portUp (1 - p))
    + bit 48 (s.get F.OBS_LOG_NEXT != s.get F.OBS_LOG_READ_MARK) + bit 49 s.obs.overwritten + bit 50 s.lowPower

/-- The 64 bytes of the start record (R303). -/
def State.startBytes (s : State) : List Byte :=
  let r := s.boot.start
  withCrc (natLe 1 r.slot ++ natLe 1 r.reasonA ++ natLe 1 r.reasonB ++ natLe 1 r.level ++ natLe 2 r.svn ++ natLe 1 s.fuseSvn
    ++ natLe 1 s.presentTiles ++ natLe 4 r.imageSeq ++ natLe 1 (popCount 32 s.boot.cores) ++ zeroBytes 3 ++ natLe 4 r.levelAt ++ zeroBytes 4
    ++ padTo 32 r.imageId ++ zeroBytes 4)

/-- The 160-byte payload of STATUS_REPLY (R328). -/
def State.statusReply (s : State) (p : Nat) : List Byte :=
  let h := s.head
  let map := match h with
    | none => 0
    | some i => (List.range 256).foldl (fun m t => if (i.tile t).phase.isIssued then m + 2 ^ t else m) 0
  let base := match h with
    | some i => if i.issuedCount = 0 then 0 else i.baseSeq
    | none => 0
  withCrc (natLe 8 (s.statusWord p) ++ natLe 4 s.headCycle ++ natLe 4 base
    ++ natLe 8 (ofInt 64 ((h.map Inst.tov).getD (s.getI F.GLZ_HEAD_TOV_TOV))) ++ natLe 8 (ofInt 64 ((h.map Inst.deadline).getD 0))
    ++ natLe 4 (s.glz.finalCycle.getD 0) ++ natLe 4 (s.get F.GLZ_SEQ_LAST_SEQ) ++ natLe 4 ((s.saf.notice.map Notice.seq).getD 0)
    ++ zeroBytes 4 ++ natLe 32 map ++ natLe 8 (ofInt 64 s.now) ++ s.startBytes ++ zeroBytes 4)

/-- STATUS_READ (R326, R328). -/
def execStatusRead (port src reqId : Nat) (s : State) : Host.Outcome State Fault Refusal :=
  .next (s.hostFrame port (s.serves true true false) (fun s =>
    s.reply port src ftStatusReply stOk reqId 0 0 (s.statusReply port)))

/-! ## Reading tiles (R329, R330) -/

/-- The tiles of a mask in ascending index, or in the cycle's issue order, tiles not issued last (R329).
(DEDUCED: log entry 139) -/
def State.tileOrder (s : State) (cycle mask : Nat) (issueOrder : Bool) : List Nat :=
  let ts := (List.range 256).filter (bitSet mask)
  if !issueOrder then ts
  else
    let o := match s.inst cycle with
      | some i => i.issueOrder
      | none => ((s.glz.past.find? (fun (r : CycleRec) => r.cycle == cycle)).map CycleRec.issueOrder).getD []
    (o.filter ts.contains) ++ ts.filter (fun t => !o.contains t)

/-- TILE_READ (R329, R330): `options` bit 0 WAIT, bit 1 ISSUE_ORDER. (DEDUCED: log entry 139) -/
def execTileRead (port src reqId cycle options mask : Nat) (s : State) : Host.Outcome State Fault Refusal :=
  .next (s.hostFrame port (s.serves false false true) (fun s =>
    let refuse (st : Nat) : State := s.reply port src ftTileData st reqId cycle 0 []
    let mask := mask % 2 ^ 256
    if !bitSet options 0 then
      if mask = 0 then refuse stOk
      else s.sendTiles port src reqId cycle true (s.tileOrder cycle mask (bitSet options 1))
    else if (s.inst cycle).isNone then refuse stRefused
    else if 4 ≤ s.hst.waits.countP (fun (w : WaitRead) => w.port == port) then refuse stBusy
    else if mask = 0 then refuse stOk
    else
      let ts := s.tileOrder cycle mask (bitSet options 1)
      let now := ts.filter (s.tileIssued cycle)
      let later := ts.filter (fun t => !s.tileIssued cycle t)
      let s := s.sendTiles port src reqId cycle later.isEmpty now
      if later.isEmpty then s
      else { s with hst := { s.hst with waits := s.hst.waits ++ [({ port, src, reqId, cycle, tiles := later } : WaitRead)] } }))

/-! ## Tunables from the host (R334, R335) -/

/-- The reply to a TUNE_STAGE: items in the shadow, and the next expected STAGE_SEQ. -/
def State.stageReply (s : State) (p src reqId status : Nat) : State :=
  s.reply p src ftTuneStage status reqId s.boot.hostShadow.length s.boot.stageSeq []

/-- TUNE_STAGE (R334): `flags` bit 0 CLEAR. A CLEAR with another STAGE_SEQ than 0 is refused with the shadow as it was.
(DEDUCED: log entry 137) -/
def execTuneStage (port src reqId stageSeq flags : Nat) (items : List (Nat × Nat)) (s : State) :
    Host.Outcome State Fault Refusal :=
  .next (s.hostFrame port (s.serves false false true) (fun s =>
    let n := items.length
    let clear := bitSet flags 0
    let expect := if clear then 0 else s.boot.stageSeq
    let old := if clear then [] else s.boot.hostShadow
    if n = 0 ∨ 64 < n then s.stageReply port src reqId stMalformed
    else if !clear && decide (0 < s.boot.stageSeq) && stageSeq == s.boot.stageSeq - 1 then s.stageReply port src reqId stOk
    else if stageSeq ≠ expect then s.stageReply port src reqId stSeqErr
    else if 64 < old.length + n then s.stageReply port src reqId stFull
    else
      let s := { s with boot := { s.boot with hostShadow := old ++ items.map (fun (it : Nat × Nat) => (it.1 % 2 ^ 16, it.2 % 2 ^ 64))
                                              stageSeq := expect + 1 } }
      s.syncCommits.stageReply port src reqId stOk))

/-- A shadow item as staged, 16 bytes (R304). -/
def itemBytes (it : Nat × Nat) : List Byte := natLe 2 it.1 ++ zeroBytes 6 ++ natLe 8 it.2

/-- TUNE_COMMIT (R335): the 32-byte request header. A COMMIT_ID whose result is remembered is answered with it; a CANCEL names
such a COMMIT_ID and proceeds. (DEDUCED: log entries 137, 138) -/
def execTuneCommit (port src reqId : Nat) (header : List Byte) (s : State) : Host.Outcome State Fault Refusal :=
  .next (s.hostFrame port (s.serves false false true) (fun s =>
    let id := leAt header 0 4
    let mode := leAt header 4 1
    if header.length ≠ 32 ∨ 2 < mode then s.reply port src ftTuneCommit stMalformed reqId 0 0 []
    else
      let crcOk := leAt header 28 4 == crc32c (header.take 28 ++ s.boot.hostShadow.flatMap itemBytes)
      let host := some (port, src, reqId)
      match if mode = 2 then none else s.hst.remembered.find? (fun r => r.1 == id) with
      | some r => s.reply port src ftTuneCommit stOk reqId 0 0 r.2
      | none =>
        if mode = 2 then s.requestCancel { id, host, atTime := false, items := [], crcOk }
        else s.requestCommit { id, host, atTime := mode == 1, time := toSigned 64 (leAt header 8 8), items := [], crcOk }))

/-! ## Heartbeat and link reset (R336, R337) -/

/-- LAST_GAP at this heartbeat: the microseconds since the last one, saturating; the first leaves it (R283). -/
def State.heartbeatGap (s : State) : Nat :=
  match s.saf.hbRx with
  | some t => satCount 16 ((s.now - t) / 1000)
  | none => s.get F.SAF_HEARTBEAT_LAST_GAP

/-- An accepted HEARTBEAT restarts the timer of R283 and counts. -/
def State.noteHeartbeat (s : State) : State :=
  let t := (s.modInc F.SAF_HEARTBEAT_RECEIVED).put F.SAF_HEARTBEAT_LAST_GAP s.heartbeatGap
  { t with saf := { t.saf with hbLast := some t.pwr.refclk, hbExpired := false, hbRx := some t.now } }

/-- An accepted HEARTBEAT, which also teaches the host address (R336). -/
def State.takeHeartbeat (s : State) (port src : Nat) : State :=
  let s := s.noteHeartbeat
  if s.get (F.HST_HOST_MAC_MAC port) = 0 ∧ s.on (F.HST_PORT_CFG_LEARN_HOST port) then
    { s with hst := { s.hst with learned := modifyAt (fun _ => some src) port s.hst.learned } }
  else s

/-- The 32-byte payload of a HEARTBEAT reply (R336). (DEDUCED: log entry 141) -/
def State.heartbeatReply (s : State) (port src reqId hbSeq nonce : Nat) : State :=
  s.reply port src ftHeartbeat stOk reqId 0 0
    (natLe 4 hbSeq ++ natLe 8 (s.statusWord port) ++ natLe 8 nonce ++ natLe 8 (ofInt 64 s.now) ++ zeroBytes 4)

/-- HEARTBEAT (R336): `flags` bit 0 ECHO. The NONCE of an echo that answers no RESET_REQ is not stated: a free value. -/
def execHeartbeat (port src reqId hbSeq flags : Nat) (s : State) : Host.Outcome State Fault Refusal :=
  .next (s.hostFrame port (s.serves false false false) (fun s =>
    let s := s.takeHeartbeat port src
    if bitSet flags 0 then (s.heartbeatReply port src reqId hbSeq (Config.echoNonce s.free)).fresh else s))

/-- A step of the link reset is permitted: under MACsec with MKA live, and LINK_RESET_EN set (R337). -/
def State.linkResetOpen (s : State) (port : Nat) (prot : Bool) : Bool :=
  prot && s.macsecOn port && s.mkaLive port && s.on F.HST_CTRL_LINK_RESET_EN

def State.heartbeatRefused (s : State) (port src reqId : Nat) : State := s.reply port src ftHeartbeat stRefused reqId 0 0 []

/-- HEARTBEAT_RESET_REQ (R337): answered with a fresh nonce; a second one replaces it. `prot` is that the frame arrived under
MACsec. (DEDUCED: log entry 142) -/
def execHeartbeatResetReq (port src reqId hbSeq : Nat) (prot : Bool) (s : State) : Host.Outcome State Fault Refusal :=
  .next (s.hostFrame port (s.serves false false false) (fun s =>
    let s := s.takeHeartbeat port src
    if !s.linkResetOpen port prot then s.heartbeatRefused port src reqId
    else
      let nonce := leAt (Config.random s.free) 0 8
      let s := { s.fresh with hst := { s.hst with nonce := some (port, nonce, s.now) } }
      (s.raise F.HST_EVENT_LINK_RESET).heartbeatReply port src reqId hbSeq nonce))

/-- HEARTBEAT_RESET_CONFIRM (R337): the nonce on the same port within 1 s starts the link reset at once.
(DEDUCED: log entry 142) -/
def execHeartbeatResetConfirm (port src reqId hbSeq nonce : Nat) (prot : Bool) (s : State) : Host.Outcome State Fault Refusal :=
  .next (s.hostFrame port (s.serves false false false) (fun s =>
    let s := s.takeHeartbeat port src
    let good := match s.hst.nonce with
      | some (p, n, t) => p == port && n == nonce && decide (s.now ≤ t + 1000000000)
      | none => false
    if s.linkResetOpen port prot && good then (s.raise F.HST_EVENT_LINK_RESET).resetTrigger rcLINK 0
    else (hbSeq, s.heartbeatRefused port src reqId).2))

/-! ## Logs (R338, R365) -/

/-- The 32-byte entries in frames of 43, with the index of each frame's first entry in ARG and the oldest held in ARG2. -/
def logFrames (status reqId start oldest : Nat) (es : List LogEntry) : List (List Byte) :=
  let cs := if es.isEmpty then [[]] else chunks 1376 (es.flatMap LogEntry.bytes)
  cs.zipIdx.map (fun c =>
    frameBytes ftLogRead (flReply + if c.2 + 1 = cs.length then flLast else 0) (if c.2 = 0 then status else stOk) reqId c.2 cs.length
      ((start + 43 * c.2) % 2 ^ 32) oldest c.1)

/-- LOG_READ_ERROR_LOG (R338, R365). -/
def execLogReadErrorLog (port src reqId fromIndex count : Nat) (s : State) : Host.Outcome State Fault Refusal :=
  .next (s.hostFrame port (s.serves true true false) (fun s =>
    if count = 0 ∨ 4096 < count then s.reply port src ftLogRead stMalformed reqId 0 0 []
    else
      let next := s.get F.OBS_LOG_NEXT
      let oldest := (s.obs.ring.head?.map LogEntry.index).getD next
      let skip := (fromIndex + 2 ^ 32 - oldest) % 2 ^ 32
      let older := decide (2 ^ 31 ≤ skip)
      let start := if older then oldest else fromIndex % 2 ^ 32
      let es := (s.obs.ring.drop (if older then 0 else skip)).take count
      let s := s.sendFrames port txReply src (logFrames (if older then stNotHeld else stOk) reqId start oldest es)
      let s := match es.getLast? with
        | some e => s.put F.OBS_LOG_READ_MARK (e.index + 1)
        | none => s
      { s with obs := { s.obs with overwritten := false } }))

/-- LOG_READ_START_RECORD (R338, R303). -/
def execLogReadStartRecord (port src reqId : Nat) (s : State) : Host.Outcome State Fault Refusal :=
  .next (s.hostFrame port (s.serves true true false) (fun s => s.reply port src ftLogRead stOk reqId 0 0 s.startBytes))

/-- LOG_READ_LIFETIME (R338, R366). -/
def execLogReadLifetime (port src reqId : Nat) (s : State) : Host.Outcome State Fault Refusal :=
  .next (s.hostFrame port (s.serves true true false) (fun s =>
    s.sendFrames port txReply src (unitFrames ftLogRead flReply stOk reqId 0 0 true s.lifeBytes)))

/-! ## Trains and links (R331, R332, R289) -/

/-- The time of validity of a cycle in flight or past. -/
def State.tovOf (s : State) (cycle : Nat) : Option Time :=
  match s.inst cycle with
  | some i => some i.tov
  | none => (s.glz.past.find? (fun (r : CycleRec) => r.cycle == cycle)).map CycleRec.tov

/-- TRAIN_BUILD (R331): at ToV + LAUNCH_OFFSET − 50 µs the subscribed tiles issued by then become one launch entry, in ascending
index; a tile the store no longer holds is counted (R331). In Halted nothing is built. (DEDUCED: log entry 140) -/
def execTrainBuild (subscriber cycle : Nat) (s : State) : Host.Outcome State Fault Refusal :=
  .next (match s.tovOf cycle, (s.subsOf cycle)[subscriber]? with
    | some tov, some (true, off, mask) =>
      let at_ := tov + off * 1000
      if s.on (F.HST_SUB_CFG_DELIVERY subscriber) || s.hst.trains.contains (subscriber, cycle) || decide (s.now < at_ - 50000)
          || s.safety == stHalted || s.pwr.refLost then s
      else
        let ts := ((List.range 256).filter (bitSet mask)).filter (s.tileIssued cycle)
        let held := ts.filter (s.storeHolds cycle)
        let dst := s.get (F.HST_SUB_MAC_MAC subscriber)
        let e : Launch := { time := at_, dropLate := s.on (F.HST_SUB_CFG_LATE subscriber), train := some (subscriber, cycle)
                            frames := (held.flatMap (fun t => s.tileFrames flUnsolicited 0 cycle t false)).map (fun b => (dst, b)) }
        let ports := s.subPorts subscriber
        let s := ports.foldl (fun u p => u.queueLaunch p e) s
        let lost := ts.length - held.length
        let s := if lost = 0 then s
          else ports.foldl (fun u p => u.satAdd (F.HST_TX_TILES_LOST p) lost) (s.raise F.HST_EVENT_TILES_LOST)
        let sent := held.map (fun t => (subscriber, cycle, t))
        { s with hst := { s.hst with trains := (subscriber, cycle) :: s.hst.trains
                                     sent := sent ++ s.hst.sent.filter (fun x => !sent.contains x) } }
    | _, _ => s)

/-- The tiles of a train of which some fragment has not left a port, in the train's order (R332). -/
def TxPort.unsentTiles (q : TxPort) : List Nat :=
  ((q.cur.toList ++ q.queue).filterMap (fun x => match x.kind, x.train with
    | .frame _ b, some _ => some (beAt b 20 4)
    | _, _ => none)).eraseDups

/-- A train broken by its link (R332): every tile whose fragments have not all left is sent again from fragment 0 on the other
port, when that is enabled and up and the mode names one port. (DEDUCED: log entry 140) -/
def State.failover (s : State) (p : Nat) (q : TxPort) : State :=
  match (q.cur.toList ++ q.queue).findSome? TxItem.train with
  | none => s
  | some (k, cyc) =>
    if s.get (F.HST_SUB_CFG_PORT_MODE k) = 0 || !s.portUp (1 - p) then s
    else q.unsentTiles.foldl (fun t x =>
      t.sendFrames (1 - p) txTrain (s.get (F.HST_SUB_MAC_MAC k)) (t.tileFrames flUnsolicited 0 cyc x false))
        (s.raise F.HST_EVENT_FAILOVER)

/-- HOST_LINK_DOWN (R332, R341): the replies and frames that wait on the port are discarded with its open requests, a train
continues on the other port, and a notice that has not left is owed again. `left` is that the frame on the wire had left
whole. (DESIGN CHOICE: log entry 136) -/
def execHostLinkDown (port : Nat) (left : Bool) (s : State) : Host.Outcome State Fault Refusal :=
  .next (let link := portFld port F.HST_STATUS_LINK_A F.HST_STATUS_LINK_B
    if 2 ≤ port ∨ !s.on link then s
    else
      let q := if left then { s.txPort port with cur := none } else s.txPort port
      let owes := (q.cur.toList ++ q.queue).any (fun x => x.cls == txNotice)
      let s := (s.put link 0).raise F.HST_EVENT_LINK_DOWN
      let s := s.updTx port (fun q => { q with queue := [], cur := none, busy := 0 })
      let s := { s with
        hst := { s.hst with waits := s.hst.waits.filter (fun (w : WaitRead) => w.port != port) }
        saf := { s.saf with owed := if port = 0 then (s.saf.owed.1 || owes, s.saf.owed.2) else (s.saf.owed.1, s.saf.owed.2 || owes) } }
      s.failover port q)

/-- HOST_LINK_UP (R289): the port sends the notice of the latest state that it owes. -/
def execHostLinkUp (port : Nat) (s : State) : Host.Outcome State Fault Refusal :=
  .next (if 2 ≤ port ∨ s.pwr.refLost ∨ s.boot.step = .inReset ∨ 2 ≤ s.power then s
    else
      let s := s.raise (portFld port F.HST_STATUS_LINK_A F.HST_STATUS_LINK_B)
      let s := s.put (portFld port F.HST_STATUS_ASLEEP_A F.HST_STATUS_ASLEEP_B) 0
      match s.saf.notice with
      | some n => if (if port = 0 then s.saf.owed.1 else s.saf.owed.2) then s.noticeOn port n else s
      | none => s)

end Sys2Proof.Machine
end

