-- ==== Sys2Proof/Machine/Ingest.lean ====
section
/-! DEFINITION. Sensor ingest (spec/03_sensor_ingest.md): the sources, the sample check with quarantine and readmission,
the ingest items, and golden injection. -/

namespace Sys2Proof.Machine

/-- Do something while ING runs and streams have come up (R51, R347, R348). (DEDUCED: log entry 19) -/
def State.whenIng (s : State) (f : State → State) : State :=
  if s.runs wING && !s.pwr.refLost && s.tim.streamsUp then f s else s

/-- The value a list of pairs holds for a key, and the list with it set. -/
def setKey {α : Type} (l : List (Nat × α)) (k : Nat) (v : α) : List (Nat × α) := (k, v) :: l.filter (fun x => x.1 != k)

/-! ## Streams (R33, R41) -/

/-- The enabled streams of a kind and source that have come up, in index order. -/
def State.streamsOf (s : State) (kind source : Nat) : List Nat :=
  (List.range 64).filter (fun i => s.on (F.ING_STR_CFG_ENABLE i) && s.get (F.ING_STR_STAT_STATE i) != 0
    && s.get (F.ING_STR_CFG_KIND i) == kind && s.get (F.ING_STR_CFG_SOURCE i) == source)

/-- The camera streams of a receiver and virtual channel (R33, R38). (DEDUCED: log entry 20) -/
def State.camsOf (s : State) (rx vc : Nat) : List Nat :=
  (s.streamsOf 0 rx).filter (fun i => bitsAt (s.get (F.ING_STR_MATCH_SEL_A i)) 0 2 == vc && decide (vc < 4))

/-- The data types of image lines (R38). -/
def lineTypes : List Nat := [0x1E, 0x2B, 0x2C, 0x2E]

/-- The camera stream of a receiver, virtual channel and data type. -/
def State.camOf (s : State) (rx vc dt : Nat) : Option Nat :=
  (s.camsOf rx vc).find? (fun i => bitsAt (s.get (F.ING_STR_MATCH_SEL_A i)) 2 6 == dt && lineTypes.contains dt)

/-- An item discarded as unmatched or malformed, counted in a field of ING_DROPS (R33). -/
def State.ingDrop (s : State) (f : Fld) : State := (s.satInc f).raise F.ING_EVENT_PACKET_DROP

/-! ## Items (R47, R43, R349) -/

/-- FLAGS bits of an item header (R47). -/
abbrev ifGolden := 1
abbrev ifSweepStart := 2
abbrev ifSweepOverflow := 4
abbrev ifFrameStart := 8
abbrev ifFrameEnd := 16
abbrev ifIncomplete := 32
abbrev ifWithheld := 64

/-- The 16-byte header of an ingest item (R47). -/
def itemHeader (stamp : Time) (len stream flags seq : Nat) : List Byte :=
  natLe 8 (ofInt 64 stamp) ++ natLe 2 len ++ natLe 1 stream ++ natLe 1 flags ++ natLe 4 seq

/-- Write an ingest item into its stream's queue (R47). In Idle ING writes no items (R349). (DESIGN CHOICE: log entry 162) -/
def State.putItem (s : State) (i : Nat) (stamp : Time) (flags : Nat) (payload : List Byte) : State :=
  if s.power ≠ 0 then s
  else
    let n := (s.ing.seqs.lookup i).getD 0
    let s := { s with ing := { s.ing with seqs := setKey s.ing.seqs i ((n + 1) % 2 ^ 32) } }
    s.queueWrite (s.get (F.ING_STR_CFG_QUEUE i)) (itemHeader stamp payload.length i flags n ++ payload)

/-- ING's flush strobe after a FRAME_END item and after every lidar item (R60). -/
def State.flushItem (s : State) (i : Nat) : State :=
  if s.power ≠ 0 then s else s.queueFlush (s.get (F.ING_STR_CFG_QUEUE i))

/-! ## The sample check (R50 to R53) -/

/-- The trigger edge nearest to a time, the earlier one of two equally near (R50). -/
def State.nearestEdge (s : State) (output : Nat) (t : Time) : Time :=
  let b := s.trigEdgeAfter output t
  match s.trigEdgeBefore output t with
  | none => b
  | some a => if t - a ≤ b - t then a else b

/-- The residual of a sample, and whether it could be formed (R50). -/
def State.residual (s : State) (i : Nat) (d : Time) (emb : Option Time) : Int × Bool :=
  match s.get (F.ING_STR_CFG_CHECK i) with
  | 0 => (0, true)
  | 1 => (d - s.nearestEdge (s.get (F.ING_STR_CFG_TRIG i)) d, true)
  | _ => match emb with
    | some e => (e - d, true)
    | none => (Config.missingResidual s.free, false)

/-- |r| ≤ B (R50). -/
def State.withinBound (s : State) (i : Nat) (r : Int) : Bool :=
  let db := s.get (F.ING_STR_TIME_DRIFT_BOUND i) * 1000
  let per := s.get (F.ING_STR_TIME_PERIOD i)
  match s.get (F.ING_STR_CFG_CHECK i) with
  | 0 => true
  | 1 => if db = 0 then decide (2 * r.natAbs ≤ per) else decide (r.natAbs ≤ db)
  | _ => decide (r.natAbs ≤ if db = 0 then per else db)

/-- In the grace after a discontinuity (R53). -/
def State.inGrace (s : State) : Bool :=
  match s.ing.graceEnd with
  | none => false
  | some g => decide (s.now < g)

/-- A change in stream quarantine (R51, R52): the event and its entry, the stream sets and values of the instances it
reaches, the squash of run-ahead, and the rebuild of the head's open table when a stream leaves (R85).
(DEDUCED: log entry 36) -/
def State.quarantineChange (s : State) (i : Nat) (arrival : Time) (leaves : Bool) : State :=
  let f := if leaves then F.ING_EVENT_QUARANTINE else F.ING_EVENT_READMIT
  let s := (s.raise f).log wING f.lo 0 0xFF i
  let s := (s.applyQuarantine i arrival leaves).squash sqQuarantine
  match s.head with
  | some h => if leaves && decide (arrival < h.tov) then s.rebuildTable h.cycle else s
  | none => s

/-- What a sample does to its stream's state (R50, R51): the state after, and whether the sample is delivered. -/
def State.sampleState (s : State) (i : Nat) (arrival : Time) (ok : Bool) : State × Bool :=
  let bad := F.ING_STR_STAT_BAD_RUN i
  let good := F.ING_STR_STAT_GOOD_RUN i
  let st := F.ING_STR_STAT_STATE i
  let incl := s.get st == 2 || s.get st == 4
  if !ok then
    let s := s.put good 0
    let s := if s.inGrace then s else s.put bad (min (s.get bad + 1) 15)
    if incl && decide (3 ≤ s.get bad) then ((s.put st 3).quarantineChange i arrival true, false) else (s, false)
  else
    let s := (s.put bad 0).put good (min (s.get good + 1) 31)
    if incl then (s.put st 2, true)
    else if 16 ≤ s.get good then ((s.put st 2).quarantineChange i arrival false, true)
    else (s, false)

/-- A sample of a stream with its arrival timestamp and embedded time (R50): counts, DRIFT_EST, the runs and the state;
whether it is delivered. (DESIGN CHOICE: log entry 25) -/
def State.sampleCheck (s : State) (i : Nat) (arrival : Time) (emb : Option Time) : State × Bool :=
  let r := s.residual i (arrival - s.get (F.ING_STR_CFG_LATENCY i)) emb
  let s := if r.2 then s else s.fresh
  let e := s.getI (F.ING_STR_DRIFT_DRIFT_EST i)
  let s := s.put (F.ING_STR_DRIFT_DRIFT_EST i) (satSigned 32 (e + divRound (r.1 - e) 16))
  let s := s.modInc (F.ING_STR_STAT_SAMPLES i)
  let s := { s with ing := { s.ing with lastRx := setKey s.ing.lastRx i arrival } }
  let o := s.sampleState i arrival (r.2 && s.withinBound i r.1)
  if o.2 then o else (o.1.satInc (F.ING_STR_DRIFT_WITHHELD i), false)

/-- The stamp of a sample (R37). One that lacks the embedded time which STAMP_SRC = 1 asks for is stamped as under STAMP_SRC = 0.
(DESIGN CHOICE: log entry 172) -/
def State.stampOf (s : State) (i : Nat) (arrival : Time) (emb : Option Time) : Time :=
  let d := arrival - s.get (F.ING_STR_CFG_LATENCY i)
  if s.on (F.ING_STR_CFG_STAMP_SRC i) then emb.getD d else d

/-- A sample that is one item: checked, stamped and written with its flags (R47, R50). -/
def State.sampleItem (s : State) (i : Nat) (arrival : Time) (emb : Option Time) (flags : Nat) (payload : List Byte) : State :=
  let o := s.sampleCheck i arrival emb
  o.1.putItem i (o.1.stampOf i arrival emb) (flags + if o.2 then 0 else ifWithheld) payload

/-- An embedded time by TIME_FORMAT (R41); none when the bytes do not reach. (PRESUMED: log entry 29) -/
def embeddedTime (big : Bool) (format off : Nat) (p : List Byte) : Option Time :=
  if p.length < off + 8 then none
  else match format with
    | 1 => some ((payloadField big p off 4 * 1000000000 + payloadField big p (off + 4) 4 : Nat) : Int)
    | 2 => some ((payloadField big p off 8 * 1000 : Nat) : Int)
    | _ => some ((payloadField big p off 8 : Nat) : Int)

/-! ## Cameras (R36 to R39, R56, R388) -/

/-- Do something at an enabled receiver. -/
def State.whenRx (s : State) (rx : Nat) (f : State → State) : State :=
  s.whenIng (fun s => if bitSet (s.get F.ING_CTRL_CSI_EN) rx && decide (rx < 12) then f s else s)

def State.frameOf (s : State) (i : Nat) : Option OpenFrame := s.ing.frames.find? (fun f => f.stream == i)

def State.updOpen (s : State) (i : Nat) (g : OpenFrame → OpenFrame) : State :=
  { s with ing := { s.ing with frames := updateFirst (fun f => f.stream == i) g s.ing.frames } }

/-- Whether a packet is of the golden data type on the golden channel (R48). -/
def State.isGoldenType (s : State) (rx vc dt : Nat) : Bool :=
  vc == s.get (F.ING_CSI_CFG_GOLDEN_VC rx) && dt == s.get (F.ING_CSI_CFG_GOLDEN_DT rx)

/-- An open frame becomes incomplete (R39). (DEDUCED: log entry 23) -/
def State.spoilFrame (s : State) (i : Nat) : State :=
  (s.updOpen i (fun f => { f with incomplete := true })).raise F.ING_EVENT_FRAME_ERR

/-- Whether a stream's queue drops an item with a payload of `n` bytes (R65). -/
def State.itemDropped (s : State) (i n : Nat) : Bool :=
  let q := s.get (F.ING_STR_CFG_QUEUE i)
  s.on (F.SQ_QCFG_ENABLE q) && !(s.storePending q).accepts q (16 + n) && s.power == 0

/-- Write an item of a frame with its stamp; a line that its queue drops leaves the frame incomplete (R56, R65). -/
def State.writeFrameItem (s : State) (f : OpenFrame) (flags : Nat) (payload : List Byte) : State :=
  let lost := s.itemDropped f.stream payload.length && flags == 0
  let s := s.putItem f.stream (s.stampOf f.stream f.arrival f.embedded) flags payload
  if lost then s.spoilFrame f.stream else s

/-- Whether a frame's stamp still waits for its embedded time (R37, R388). -/
def State.awaitsStamp (s : State) (f : OpenFrame) : Bool := s.on (F.ING_STR_CFG_STAMP_SRC f.stream) && !f.embSeen

/-- Write an item of an open frame, or keep it until the frame's stamp is known. (DEDUCED: log entry 22) -/
def State.frameItem (s : State) (f : OpenFrame) (flags : Nat) (payload : List Byte) : State :=
  if s.awaitsStamp f then s.updOpen f.stream (fun f => { f with held := f.held ++ [(flags, payload)] })
  else s.writeFrameItem f flags payload

/-- Write the items kept for the stamp. (DEDUCED: log entry 22) -/
def State.releaseHeld (s : State) (f : OpenFrame) : State :=
  f.held.foldl (fun t x => t.writeFrameItem f x.1 x.2) s

/-- Close a frame (R39): its check, and its FRAME_END item with the arrival of the closing event. (DEDUCED: log entry 21) -/
def State.closeFrame (s : State) (f : OpenFrame) (incomplete : Bool) : State :=
  let i := f.stream
  let rx := s.get (F.ING_STR_CFG_SOURCE i)
  let o := s.sampleCheck i f.arrival f.embedded
  let s := o.1.releaseHeld f
  let inc := incomplete || f.incomplete || (s.frameOf i).any (·.incomplete)
  let s := { s with ing := { s.ing with frames := s.ing.frames.filter (fun g => g.stream != i)
                                        endAt := setKey s.ing.endAt rx s.now } }
  let s := if inc then s.raise F.ING_EVENT_FRAME_ERR else s
  let fl := ifFrameEnd + (if inc then ifIncomplete else 0) + (if o.2 then 0 else ifWithheld)
  (s.putItem i (s.stampOf i f.arrival f.embedded) fl (natLe 8 (ofInt 64 s.now))).flushItem i

/-- A real Frame Start during a golden burst abandons the rest of the burst (R48). -/
def State.abortBurst (s : State) (rx : Nat) : State :=
  if s.ing.bursts.any (fun b => b.rx == rx) then
    { (s.raise F.ING_EVENT_GOLDEN_ABORT) with ing := { s.ing with bursts := s.ing.bursts.filter (fun b => b.rx != rx) } }
  else s

/-- Frames missed between two frame numbers that are not zero, which count from 1 to 65,535 (R38); one count of the device holds
them, for no register does. (DESIGN CHOICE: log entry 173) -/
def missedFrames (last now : Nat) : Nat := if last = 0 ∨ now = 0 then 0 else (now + 65535 - last + 65534) % 65535

/-- A Frame Start of one stream (R36, R39). (DESIGN CHOICE: log entry 173) -/
def State.startFrame (s : State) (i frameNumber : Nat) : State :=
  let s := match s.frameOf i with
    | some f => s.closeFrame f true
    | none => s
  let f : OpenFrame := { stream := i, arrival := s.now }
  let miss := missedFrames ((s.ing.frameNo.lookup i).getD 0) (frameNumber % 65536)
  let s := { s with ing := { s.ing with
    frames := s.ing.frames ++ [f], frameAt := setKey s.ing.frameAt i s.now, missed := s.ing.missed + miss
    frameNo := if frameNumber % 65536 = 0 then s.ing.frameNo else setKey s.ing.frameNo i (frameNumber % 65536)
    lastRx := setKey s.ing.lastRx i s.now } }
  s.frameItem f ifFrameStart []

/-- FRAME_START (R36). (DEDUCED: log entry 20) -/
def execFrameStart (rx vc frameNumber : Nat) (s : State) : Host.Outcome State Fault Refusal :=
  .next (s.whenRx rx (fun s =>
    let s := s.abortBurst rx
    match s.camsOf rx vc with
    | [] => s.ingDrop F.ING_DROPS_CSI_UNMATCHED
    | l => l.foldl (fun t i => t.startFrame i frameNumber) s))

/-- FRAME_END (R39). One without an open frame is unmatched. (DESIGN CHOICE: log entry 174) -/
def execFrameEnd (rx vc _frameNumber : Nat) (s : State) : Host.Outcome State Fault Refusal :=
  .next (s.whenRx rx (fun s =>
    match (s.camsOf rx vc).filterMap s.frameOf with
    | [] => s.ingDrop F.ING_DROPS_CSI_UNMATCHED
    | l => l.foldl (fun t f => t.closeFrame f false) s))

/-- FRAME_END_TIMEOUT (R39): no Frame End within PERIOD of the Frame Start. -/
def execFrameEndTimeout (stream : Nat) (s : State) : Host.Outcome State Fault Refusal :=
  .next (s.whenIng (fun s =>
    match s.frameOf stream with
    | none => s
    | some f => if f.arrival + s.get (F.ING_STR_TIME_PERIOD stream) ≤ s.now then s.closeFrame f true else s))

/-- The receive buffer of a receiver takes a packet of `n` pixels (R56): it drains at 248,832,000 pixel/s and holds 7,680
pixels; false when the packet does not fit. Content in 10^-6 pixels. (DEDUCED: log entry 24) -/
def State.bufferTake (s : State) (rx n : Nat) : State × Bool :=
  let left := match s.ing.buffers.lookup rx with
    | none => 0
    | some b => b.2 - 248832 * (s.now - b.1).toNat
  if left + n * 1000000 > 7680000000 then (s, false)
  else ({ s with ing := { s.ing with buffers := setKey s.ing.buffers rx (s.now, left + n * 1000000) } }, true)

/-- The bytes of 3,840 pixels of a data type (R39). -/
def lineLimit (dt : Nat) : Nat := if dt = 0x2B then 4800 else if dt = 0x2C then 5760 else 7680

/-- An image line of a frame (R38, R39, R56); every line received counts, also one lost to the receive buffer. A line without an
open frame is unmatched. (DEDUCED: log entry 24; DESIGN CHOICE: log entry 174) -/
def State.lineOf (s : State) (rx dt i : Nat) (data : List Byte) (crcOk : Bool) : State :=
  match s.frameOf i with
  | none => s.ingDrop F.ING_DROPS_CSI_UNMATCHED
  | some f =>
    let s := if crcOk then s else s.spoilFrame i
    if 2160 ≤ f.lines then s.spoilFrame i
    else
      let s := s.updOpen i (fun f => { f with lines := f.lines + 1 })
      let s := if lineLimit dt < data.length then s.spoilFrame i else s
      let data := data.take (lineLimit dt)
      let o := s.bufferTake rx (linePixels dt data)
      if !o.2 then o.1.spoilFrame i else o.1.frameItem f 0 (natLe 2 f.lines ++ data)

/-- The embedded packet of a frame (R388): the first after its Frame Start supplies the embedded time, if it reaches.
(PRESUMED: log entry 29) -/
def State.embeddedOf (s : State) (i : Nat) (data : List Byte) : State :=
  match s.frameOf i with
  | none => s
  | some f =>
    if s.get (F.ING_STR_CFG_CHECK i) ≠ 2 || f.embSeen then s
    else
      let sel := s.get (F.ING_STR_MATCH_SEL_B i)
      let f := { f with embedded := embeddedTime false (bitsAt sel 16 2) (bitsAt sel 0 16) data, embSeen := true }
      (s.releaseHeld f).updOpen i (fun _ => { f with held := [] })

/-- An embedded-data packet of a receiver and channel (R38, R388); one whose CRC fails makes the frame incomplete (R39), also
where CHECK is 0 or 1. (DESIGN CHOICE: log entry 175) -/
def State.embeddedPacket (s : State) (rx vc : Nat) (data : List Byte) (crcOk : Bool) : State :=
  match s.camsOf rx vc with
  | [] => s.ingDrop F.ING_DROPS_CSI_UNMATCHED
  | l => l.foldl (fun t i =>
      let t := if crcOk || (t.frameOf i).isNone then t else t.spoilFrame i
      t.embeddedOf i data) s

/-- CSI_LINE (R38, R39): a packet that is no Frame Start or Frame End. One with a multi-bit header error is discarded; Line Start
and Line End (types 0x02, 0x03) are accepted and ignored, generic short packets are unmatched. (DEDUCED: log entry 23) -/
def execCsiLine (rx vc dataType : Nat) (data : List Byte) (headerOk crcOk : Bool) (s : State) :
    Host.Outcome State Fault Refusal :=
  .next (s.whenRx rx (fun s =>
    if !headerOk then
      let s := s.ingDrop F.ING_DROPS_MALFORMED
      let cams := if dataType = 0x12 then s.camsOf rx vc else (s.camOf rx vc dataType).toList
      cams.foldl (fun t i => if (t.frameOf i).isSome then t.spoilFrame i else t) s
    else if (dataType = 0x02 || dataType = 0x03) && decide (vc < 4) then s
    else if s.isGoldenType rx vc dataType then s.raise F.ING_EVENT_FOREIGN_GOLDEN
    else if dataType = 0x12 then s.embeddedPacket rx vc data crcOk
    else match s.camOf rx vc dataType with
      | none => s.ingDrop F.ING_DROPS_CSI_UNMATCHED
      | some i => s.lineOf rx dataType i data crcOk))

/-- EMBEDDED_DATA (R388). -/
def execEmbeddedData (rx vc : Nat) (data : List Byte) (crcOk : Bool) (s : State) : Host.Outcome State Fault Refusal :=
  .next (s.whenRx rx (fun s => s.embeddedPacket rx vc data crcOk))

/-! ## Lidars (R40 to R43) -/

/-- Do something at an enabled sensor port. -/
def State.whenPort (s : State) (port : Nat) (f : State → State) : State :=
  s.whenIng (fun s => if bitSet (s.get F.ING_CTRL_ETH_EN) port && decide (port < 6) then f s else s)

/-- The ones' complement sum of the big-endian 16-bit words of a byte list, padded with a zero byte (R40). -/
def onesSum (l : List Byte) : Nat :=
  let n := (chunks 2 l).foldl (fun a c => a + beNat (padTo 2 c)) 0
  let n := n % 65536 + n / 65536
  n % 65536 + n / 65536

/-- The UDP datagram of a frame that a sensor port accepts (R40): source address, destination port, payload. The frame
stands without its frame check sequence. (DEDUCED: log entry 30) -/
def acceptUdp (mac : Nat) (vlan : Option Nat) (f : List Byte) : Option (Nat × Nat × List Byte) :=
  let tagged := beAt f 12 2 == 0x8100
  let off := if tagged then 18 else 14
  let vlanOk := match vlan with
    | some v => tagged && beAt f 14 2 % 4096 == v
    | none => !tagged
  let ip := f.drop off
  let total := beAt ip 2 2
  let udp := slice ip 20 (total - 20)
  let ulen := beAt udp 4 2
  let pseudo := slice ip 12 8 ++ [0, 17] ++ slice udp 4 2
  let ipOk := beAt f 0 6 == mac && vlanOk && beAt f (off - 2) 2 == 0x0800 && decide (f.length ≤ 1518) && leAt ip 0 1 == 0x45
    && decide (28 ≤ total) && decide (total ≤ ip.length) && leAt ip 9 1 == 17 && beAt ip 6 2 % 0x4000 == 0
    && onesSum (ip.take 20) == 0xFFFF
  let udpOk := decide (8 ≤ ulen) && decide (ulen ≤ udp.length) && decide (ulen ≤ 1480)
    && (beAt udp 6 2 == 0 || onesSum (pseudo ++ udp.take ulen) == 0xFFFF)
  if ipOk && udpOk then some (beAt ip 12 4, beAt udp 2 2, slice udp 8 (ulen - 8)) else none

/-- The lidar stream of a datagram (R41): the entry with the exact address, else the one that matches any. -/
def State.lidarOf (s : State) (port dst ip : Nat) : Option Nat :=
  let l := (s.streamsOf 1 port).filter (fun i => s.get (F.ING_STR_MATCH_SEL_A i) == dst)
  (l.find? (fun i => s.get (F.ING_STR_MATCH_SEL_B i) == ip)).or (l.find? (fun i => s.get (F.ING_STR_MATCH_SEL_B i) == 0))

/-- What a sweep's boundary is told by (R42): the counter, or the first point's azimuth. -/
def sweepKey (tpl p : List Byte) : Nat :=
  if bitSet (leAt tpl 6 1) 2 then payloadField (bitSet (leAt tpl 6 1) 1) p (leAt tpl 12 2) (leAt tpl 14 1 % 4 + 1)
  else (pointField tpl p (leAt tpl 0 2) 1).getD 0

/-- The sweep state with a packet's key taken in, and whether the packet starts a sweep (R42). (DEDUCED: log entry 31) -/
def SweepSt.next (w : SweepSt) (tpl : List Byte) (key : Nat) : SweepSt × Bool :=
  if bitSet (leAt tpl 6 1) 2 then
    let start := match w.counter with
      | none => false
      | some k => k != key
    ({ w with counter := some key }, start)
  else
    let start := match w.azimuth with
      | none => false
      | some k => f32Le key k && !f32Le k key
    ({ w with azimuth := some key }, start)

/-- Take a lidar packet of a stream (R41 to R43, R47, R50). One discarded for sweep overflow still takes the timing check and counts
as a sample. (DEDUCED: log entry 32; DESIGN CHOICE: log entry 176) -/
def State.lidarPacket (s : State) (i : Nat) (arrival : Time) (p : List Byte) : State :=
  let tpl := s.template (s.get (F.ING_STR_MATCH_TEMPLATE i))
  let hdr := leAt tpl 0 2
  let stride := leAt tpl 2 2
  let n := packetPoints tpl p.length
  if p.length < hdr + stride ∨ p.length < hdr + n * stride then s.ingDrop F.ING_DROPS_MALFORMED
  else
    let flags := leAt tpl 6 1
    let emb := if bitSet flags 3 then embeddedTime (bitSet flags 1) (leAt tpl 10 1) (leAt tpl 8 2) p else none
    let w := ((s.ing.sweeps.lookup i).getD {}).next tpl (sweepKey tpl p)
    let start := w.2
    let w := if start then { w.1 with points := 0, exceeded := false } else w.1
    let o := s.sampleCheck i arrival emb
    let s := o.1
    if w.exceeded ∨ 262144 < w.points + n then
      let s := if w.exceeded then s else s.raise F.ING_EVENT_SWEEP_OVERFLOW
      let s := s.satAdd (F.ING_STR_DRIFT_DROPS i) n
      { s with ing := { s.ing with sweeps := setKey s.ing.sweeps i { w with exceeded := true, owed := true } } }
    else
      let fl := (if start then ifSweepStart else 0) + (if w.owed then ifSweepOverflow else 0) + (if o.2 then 0 else ifWithheld)
      let s := { s with ing := { s.ing with sweeps := setKey s.ing.sweeps i { w with points := w.points + n, owed := false } } }
      (s.putItem i (s.stampOf i arrival emb) fl p).flushItem i

/-- LIDAR_DATAGRAM (R40, R41). (DEDUCED: log entry 30) -/
def execLidarDatagram (port : Nat) (frame : List Byte) (s : State) : Host.Outcome State Fault Refusal :=
  .next (s.whenPort port (fun s =>
    let vlan := if s.on (F.ING_ETH_CFG_VLAN_EN port) then some (s.get (F.ING_ETH_CFG_VLAN_ID port)) else none
    match acceptUdp (s.get (F.ING_ETH_MAC_MAC port)) vlan frame with
    | none => s.ingDrop F.ING_DROPS_ETH_UNMATCHED
    | some (ip, dst, p) => match s.lidarOf port dst ip with
      | none => s.ingDrop F.ING_DROPS_ETH_UNMATCHED
      | some i => s.lidarPacket i (s.rxStamp (2 + port)) p))

/-- ARP_REQUEST (R40). -/
def execArpRequest (port senderIp targetIp : Nat) (s : State) : Host.Outcome State Fault Refusal :=
  .next (s.whenPort port (fun s => if targetIp = s.get (F.ING_ETH_CFG_IPV4_ADDR port) then s.txSend (port + 2) { cls := txReply, kind := .arp senderIp } else s))

/-! ## CAN FD (R44) -/

/-- Whether an enabled acceptance filter takes an identifier. -/
def State.filterTakes (s : State) (ctrl f id : Nat) (ide : Bool) : Bool :=
  s.on (F.ING_CAN_FLT_ENABLE ctrl f) && (s.on (F.ING_CAN_FLT_IDE ctrl f) == ide)
    && (s.get (F.ING_CAN_FLT_ID ctrl f) ^^^ id) &&& s.get (F.ING_CAN_FLT_MASK ctrl f) == 0

/-- CAN_FRAME (R44): one sample for every enabled stream whose filter takes the frame. (DEDUCED: log entry 28) -/
def execCanFrame (ctrl id : Nat) (ide fdf brs : Bool) (data : List Byte) (s : State) : Host.Outcome State Fault Refusal :=
  .next (s.whenIng (fun s =>
    if 4 ≤ ctrl || !bitSet (s.get F.ING_CTRL_CAN_EN) ctrl || s.ing.busOff.getD ctrl false then s
    else if (fdf && !s.on (F.ING_CAN_CFG_FD_EN ctrl)) || decide ((if fdf then 64 else 8) < data.length) then
      s.ingDrop F.ING_DROPS_CAN_UNMATCHED
    else
      let id := id % 2 ^ 29
      let mine := (s.streamsOf 2 ctrl).filter (fun i => s.filterTakes ctrl (bitsAt (s.get (F.ING_STR_MATCH_SEL_A i)) 0 5) id ide)
      let word := id + (if ide then 2 ^ 29 else 0) + (if fdf then 2 ^ 30 else 0) + (if brs then 2 ^ 31 else 0)
      if mine.isEmpty then s.ingDrop F.ING_DROPS_CAN_UNMATCHED
      else mine.foldl (fun t i => t.sampleItem i s.now none 0 (natLe 4 word ++ data)) s))

/-- BUS_OFF (R44). -/
def execBusOff (ctrl : Nat) (s : State) : Host.Outcome State Fault Refusal :=
  .next (s.whenIng (fun s =>
    if 4 ≤ ctrl || !bitSet (s.get F.ING_CTRL_CAN_EN) ctrl then s
    else { (s.raise F.ING_EVENT_CAN_ERR) with ing := { s.ing with busOff := modifyAt (fun _ => true) ctrl s.ing.busOff } }))

/-- BUS_OFF_RECOVERY (R44). -/
def execBusOffRecovery (ctrl : Nat) (s : State) : Host.Outcome State Fault Refusal :=
  .next (s.whenIng (fun s => { s with ing := { s.ing with busOff := modifyAt (fun _ => false) ctrl s.ing.busOff } }))

/-! ## IMUs over SPI (R45) -/

/-- The command bytes of a slot, the first sent [31:24] of CMD (R45; ING_SPI_CSk, 03). -/
def State.spiCommand (s : State) (k : Nat) : List Byte := (natBe 4 (s.get (F.ING_SPI_CS_CMD k))).take (s.get (F.ING_SPI_CS_CMD_LEN k))

/-- Start the read of the lowest pending slot of a master that reads nothing: its chip select, command bytes and read (R45). -/
def State.spiServe (s : State) (m : Nat) : State :=
  let pend (k : Nat) : Option Time := s.ing.spiEdge.getD k none
  let busy (k : Nat) : Bool := (s.ing.spiRead.getD k none).isSome
  if busy (2 * m) || busy (2 * m + 1) then s
  else match [2 * m, 2 * m + 1].find? (fun k => (pend k).isSome) with
    | none => s
    | some k =>
      let s := s.emit (.spi m (k % 2) (s.spiCommand k) (s.get (F.ING_SPI_CS_READ_LEN k)))
      { s with ing := { s.ing with spiRead := modifyAt (fun _ => pend k) k s.ing.spiRead
                                   spiEdge := modifyAt (fun _ => none) k s.ing.spiEdge } }

/-- DATA_READY_EDGE (R45): a second edge before the read of the first has started drops the older one. -/
def execDataReadyEdge (slot : Nat) (s : State) : Host.Outcome State Fault Refusal :=
  .next (s.whenIng (fun s =>
    if 4 ≤ slot || !bitSet (s.get F.ING_CTRL_SPI_EN) slot then s
    else
      let s := if (s.ing.spiEdge.getD slot none).isSome then
          let s := s.raise F.ING_EVENT_IMU_OVERRUN
          let s := (s.streamsOf 3 slot).foldl (fun t i => t.satInc (F.ING_STR_DRIFT_DROPS i)) s
          { s with ing := { s.ing with imuOverruns := s.ing.imuOverruns + 1 } }
        else s
      ({ s with ing := { s.ing with spiEdge := modifyAt (fun _ => some s.now) slot s.ing.spiEdge } }).spiServe (slot / 2)))

/-- SPI_READ_DONE (R45): the sample of READ_LEN bytes carries the edge of its read; the master serves its next slot. A sample that
matches no stream raises PACKET_DROP, for ING_DROPS has no field for it. (DESIGN CHOICE: log entry 171) -/
def execSpiReadDone (slot : Nat) (data : List Byte) (s : State) : Host.Outcome State Fault Refusal :=
  .next (s.whenIng (fun s =>
    match s.ing.spiRead.getD slot none with
    | none => s
    | some t =>
      let p := padTo (s.get (F.ING_SPI_CS_READ_LEN slot)) data
      let s := { s with ing := { s.ing with spiRead := modifyAt (fun _ => none) slot s.ing.spiRead } }
      let s := match s.streamsOf 3 slot with
        | [] => s.raise F.ING_EVENT_PACKET_DROP
        | i :: _ => s.sampleItem i t none 0 p
      s.spiServe (slot / 2)))

/-! ## Encoders (R46) -/

/-- Encoder input state. -/
def State.encIn (s : State) (e : Nat) : EncSt := s.ing.enc.getD e {}
def State.updEnc (s : State) (e : Nat) (f : EncSt → EncSt) : State :=
  { s with ing := { s.ing with enc := modifyAt f e s.ing.enc } }

/-- Emit an encoder record at the current device time (R46, R47): the count since the record before it, its flags, and the
stamp of the record before it, which is open in a stream's first record.
(DESIGN CHOICE: log entry 25; DEDUCED: log entry 26) -/
def State.encRecord (s : State) (i e : Nat) (idle : Bool) : State :=
  let x := s.encIn e
  let prev := x.lastRec.getD (Config.firstPrevious s.free)
  let s := if x.lastRec.isNone then s.fresh else s
  let fl := (if idle then 1 else 0) + (if x.err then 2 else 0)
  let p := natLe 4 (ofInt 32 x.count) ++ natLe 4 fl ++ natLe 8 (ofInt 64 prev)
  let t := s.now
  let s := s.sampleItem i t none 0 p
  s.updEnc e (fun x => { x with count := 0, err := false, lastRec := some (s.stampOf i t none) })

/-- The input that counts an edge (R46): an odd input of a quadrature pair counts at the even one. -/
def State.encInput (s : State) (input : Nat) : Nat :=
  if input % 2 = 1 && s.get (F.ING_ENC_CFG_MODE (input - 1)) == 2 then input - 1 else input

/-- The step of a quadrature pair for an edge of its input A (`odd` false) or B, at the level of the other input: A leading B counts
up (R46). (DEDUCED: log entry 177) -/
def quadStep (odd rising other : Bool) : Int :=
  if odd then (if rising == other then 1 else -1) else (if rising == other then -1 else 1)

/-- The step an edge makes at the input that counts it: MODE 0 rising edges, 1 both edges, 2 each edge of the pair (R46).
(DEDUCED: log entry 177) -/
def State.edgeStep (s : State) (input : Nat) (rising : Bool) : Option Int :=
  match s.get (F.ING_ENC_CFG_MODE (s.encInput input)) with
  | 2 => some (quadStep (input % 2 == 1) rising ((s.encIn (if input % 2 = 1 then input - 1 else input + 1)).level.getD false))
  | 1 => some 1
  | _ => if rising then some 1 else none

/-- An illegal quadrature transition: both inputs of a pair change at one instant (R46). (DEDUCED: log entry 177) -/
def State.edgeErr (s : State) (input : Nat) : Bool :=
  s.get (F.ING_ENC_CFG_MODE (s.encInput input)) == 2
    && (s.encIn (if input % 2 = 1 then input - 1 else input + 1)).edgeAt == some s.now

/-- ENCODER_EDGE (R46): an edge of an input, which holds its new level for `held` REFCLK cycles. A pulse shorter than FILTER × 40 ns is
ignored, and so is the edge that ends one; `lost` is that an edge before it was lost at a rate above 5 MHz. The first counted edge after INTERVAL has elapsed emits a record; a record that matches no stream raises PACKET_DROP, for ING_DROPS has no
field for it. (DESIGN CHOICE: log entry 171; DEDUCED: log entry 177) -/
def execEncoderEdge (input : Nat) (rising : Bool) (held : Nat) (lost : Bool) (s : State) : Host.Outcome State Fault Refusal :=
  .next (s.whenIng (fun s =>
    let e := s.encInput input
    if 8 ≤ input || !bitSet (s.get F.ING_CTRL_ENC_EN) e
        || decide (held < s.get (F.ING_ENC_CFG_FILTER input)) || (!lost && (s.encIn input).level == some rising) then s
    else
      let step := s.edgeStep input rising
      let err := lost || s.edgeErr input
      let s := if err then (s.raise F.ING_EVENT_ENC_ERR).updEnc e (fun x => { x with err := true }) else s
      let s := s.updEnc input (fun x => { x with level := some rising, edgeAt := some s.now })
      match step with
      | none => s
      | some d =>
        let s := s.updEnc e (fun x => { x with count := x.count + d, lastIdle := some s.now })
        match s.streamsOf 4 e with
        | [] => s.raise F.ING_EVENT_PACKET_DROP
        | i :: _ =>
          let since := (s.ing.lastRx.lookup i).getD s.now
          if since + s.get (F.ING_ENC_CFG_INTERVAL e) * 1000 ≤ s.now then s.encRecord i e false else s))

/-- ENCODER_IDLE_TIMEOUT (R46): no edge for IDLE_TIMEOUT; repeated every IDLE_TIMEOUT. (DEDUCED: log entry 27) -/
def execEncoderIdleTimeout (stream : Nat) (s : State) : Host.Outcome State Fault Refusal :=
  .next (s.whenIng (fun s =>
    let e := s.get (F.ING_STR_CFG_SOURCE stream)
    if !(s.streamsOf 4 e).contains stream || !bitSet (s.get F.ING_CTRL_ENC_EN) e then s
    else
      let t := s.get (F.ING_ENC_CFG_IDLE_TIMEOUT e) * 1000000
      let since := ((s.encIn e).lastIdle.or (s.ing.lastRx.lookup stream)).getD s.now
      if t ≠ 0 ∧ since + t ≤ s.now then (s.encRecord stream e true).updEnc e (fun x => { x with lastIdle := some s.now }) else s))

/-! ## Absence and grace (R51, R53) -/

/-- ABSENT_TIMEOUT (R51, R55). -/
def execAbsentTimeout (stream : Nat) (s : State) : Host.Outcome State Fault Refusal :=
  .next (s.whenIng (fun s =>
    let n := s.get (F.ING_STR_TIME_ABSENT_PERIODS stream)
    if 64 ≤ stream || s.get (F.ING_STR_STAT_STATE stream) != 2 || n == 0 then s
    else match s.ing.lastRx.lookup stream with
      | none => s
      | some t =>
        if t + n * s.get (F.ING_STR_TIME_PERIOD stream) ≤ s.now then
          (s.put (F.ING_STR_STAT_STATE stream) 4).raise F.ING_EVENT_ABSENT
        else s))

/-- DISC_GRACE_END (R53). -/
def execDiscGraceEnd (s : State) : Host.Outcome State Fault Refusal :=
  .next (if s.inGrace then s else { s with ing := { s.ing with graceEnd := none } })

/-! ## Golden injection (R48, R49, R280) -/

/-- Fields of a golden entry (R279). -/
def State.goldenSource (s : State) (e : Nat) : Nat := s.readLe (s.goldenEntryAt e + 2) 2
def State.goldenUnits (s : State) (e : Nat) : Nat := s.readLe (s.goldenEntryAt e + 4) 2
def State.goldenBytes (s : State) (e : Nat) : Nat := s.readLe (s.goldenEntryAt e + 6) 2
def State.goldenContent (s : State) (e : Nat) : Nat := s.readLe (s.goldenEntryAt e + 8) 8

/-- A golden frame becomes due: its last input item has arrived (R169, R280, R282). -/
def State.goldenDue (s : State) (num : Nat) : State :=
  { s with saf := { s.saf with
      golden := updateFirst (fun g => g.num == num)
        (fun g => { g with due := some (s.now, s.pwr.refclk), prevDue := s.saf.dueAt.map (·.1) }) s.saf.golden
      dueAt := some (s.pwr.refclk, false) } }

/-- One golden item of a stream (R47, R48, R49). (DEDUCED: log entry 33) -/
def State.goldenWrite (s : State) (i flags : Nat) (payload : List Byte) : State :=
  s.putItem i (s.now - s.get (F.ING_STR_CFG_LATENCY i)) (ifGolden + flags) payload

/-- The predicted next Frame Start of a camera stream (R48). -/
def State.predictedStart (s : State) (i : Nat) : Option Time :=
  if s.get (F.ING_STR_CFG_CHECK i) = 1 then
    some (s.trigEdgeAfter (s.get (F.ING_STR_CFG_TRIG i)) s.now + s.get (F.ING_STR_CFG_LATENCY i))
  else (s.ing.frameAt.lookup i).map (· + s.get (F.ING_STR_TIME_PERIOD i))

/-- The time of a golden burst on a receiver, ns, rounded up (R280): the lane rate is the link's, in bit/s.
(DESIGN CHOICE: log entry 34) -/
def State.burstTime (s : State) (rx e : Nat) : Nat :=
  let bits := s.goldenUnits e * (s.goldenBytes e + 6) * 8
  let rate := max 1 (s.get (F.ING_CSI_CFG_LANES rx) * Config.laneRate rx)
  (bits * 1000000000 + rate - 1) / rate

/-- Whether a burst of an entry may begin now on a receiver (R48, R280): in vertical blanking, 2 µs after its Frame End,
with the burst and 20 µs left before the next predicted Frame Start of every stream of the receiver. -/
def State.blankingFits (s : State) (rx e : Nat) : Bool :=
  let cams := s.streamsOf 0 rx
  !cams.isEmpty && cams.all (fun i => (s.frameOf i).isNone)
    && (s.ing.endAt.lookup rx).any (fun t => decide (t + 2000 ≤ s.now))
    && cams.all (fun i => (s.predictedStart i).any (fun p => decide (s.now + s.burstTime rx e + 20000 ≤ p)))

/-- The golden burst that a receiver continues or may begin: number, entry and the next line (R280). -/
def State.burstFor (s : State) (rx : Nat) : Option Burst :=
  (s.ing.bursts.find? (fun b => b.rx == rx)).or
    (match s.saf.golden.find? (fun g => g.kind == 0 && g.due.isNone && !s.ing.bursts.any (fun b => b.num == g.num)
        && bitSet (s.goldenSource g.entry) rx && s.blankingFits rx g.entry) with
      | some g => some { rx, num := g.num, entry := g.entry }
      | none => none)

/-- GOLDEN_LINE_INJECT (R48, R280): the next line of a golden burst; the frame is due with its last line.
(DEDUCED: log entry 35) -/
def execGoldenLineInject (rx : Nat) (s : State) : Host.Outcome State Fault Refusal :=
  .next (s.whenRx rx (fun s =>
    if !s.on F.ING_CTRL_GOLDEN_EN || s.power ≠ 0 then s
    else match s.burstFor rx, s.streamsOf 0 rx with
      | some b, i :: _ =>
        let n := s.goldenBytes b.entry
        let line := s.readBytes (s.goldenContent b.entry + b.next * n) n
        let last := decide (s.goldenUnits b.entry ≤ b.next + 1)
        let s := s.goldenWrite i 0 (natLe 2 b.next ++ line)
        let rest := s.ing.bursts.filter (fun x => x.num != b.num)
        if last then
          ({ s with ing := { s.ing with bursts := rest } }.flushItem i).goldenDue b.num
        else { s with ing := { s.ing with bursts := rest ++ [{ b with next := b.next + 1 }] } }
      | _, _ => s))

/-- The lowest enabled port of a golden lidar entry (R280). (DEDUCED: log entry 33) -/
def State.goldenPort (s : State) (e : Nat) : Option Nat :=
  (List.range 6).find? (fun p => bitSet (s.goldenSource e) p && bitSet (s.get F.ING_CTRL_ETH_EN) p)

/-- Write the packets of a golden lidar frame from packet `j` on; the first carries SWEEP_START. -/
def State.goldenPackets (s : State) (i e : Nat) : Nat → Nat → State
  | 0, _ => s
  | k + 1, j =>
    let n := s.goldenBytes e
    let s := (s.goldenWrite i (if j = 0 then ifSweepStart else 0) (s.readBytes (s.goldenContent e + j * n) n)).flushItem i
    s.goldenPackets i e k (j + 1)

/-- GOLDEN_PACKET_INSERT (R49, R280): all packets of the oldest armed lidar frame of a port; the frame is due with them.
(DEDUCED: log entry 35) -/
def execGoldenPacketInsert (port : Nat) (s : State) : Host.Outcome State Fault Refusal :=
  .next (s.whenPort port (fun s =>
    if !s.on F.ING_CTRL_GOLDEN_EN || s.power ≠ 0 then s
    else match s.saf.golden.find? (fun g => g.kind == 1 && g.due.isNone && s.goldenPort g.entry == some port),
        s.streamsOf 1 port with
      | some g, i :: _ => (s.goldenPackets i g.entry (s.goldenUnits g.entry) 0).goldenDue g.num
      | _, _ => s))

end Sys2Proof.Machine
end

