-- ==== Sys2Proof/Machine/Tokens.lean ====
section
/-! DEFINITION. The operation scheduler fabric's commands (spec/10_operations_and_runahead.md): tokens and credits, firing
and completion, the end of a squash, and task-class budgets. -/

namespace Sys2Proof.Machine

/-! ## Tokens (R156, R159, R165) -/

/-- The fields of the 16 bytes of a token (R156). -/
def tokenOf (b : List Byte) : Token :=
  let c := leAt b 3 1
  { edge := leAt b 0 2, kind := leAt b 2 1, slot := bitsAt c 0 2, epoch := bitsAt c 2 4, golden := bitSet c 6, cycle := leAt b 4 4
    arg := leAt b 8 4 }

/-- Whether two tokens are the same on the wire. -/
def Token.sameWire (a b : Token) : Bool := { a with dst := (0, 0, 0) } == { b with dst := (0, 0, 0) }

/-- A token of a golden frame that has finished or has been abandoned (R169): it is addressed to no entry. -/
def State.goldenGone (s : State) (k : Token) : Bool := k.golden && !s.saf.golden.any (fun g => g.num == k.cycle)

/-- A token is discarded and returns its credit, if it holds one; a stale one is counted (R165). -/
def State.dropToken (s : State) (edge : Nat) (notice stale : Bool) : State :=
  let s := if notice then s else { s with tgs := s.tgs.returnCredit edge }
  if stale then s.satInc F.TGS_DISCARDS_STALE else s

/-- Whether a token of the instance graph is stale: its epoch is not its slot's, or no instance holds the slot.
(DEDUCED: log entry 69) -/
def State.tokenStale (s : State) (k : Token) : Bool :=
  !k.golden && (k.epoch != s.epoch k.slot || !s.glz.insts.any (fun i => slotOf i.cycle == k.slot))

/-- TOKEN_RECEIVE (R156, R159, R161, R165): a token reaches the table entry of its consumer, waits for one, or is discarded as
stale. One that fails its CRC is reported, and counts for its consumer as an ERROR. A NOTICE is no input of an entry.
(DEDUCED: log entry 69) -/
def execTokenReceive (token : List Byte) (s : State) : Host.Outcome State Fault Refusal :=
  .next (
    if !s.tgsRuns then s
    else
      let b := padTo 16 token
      let k := tokenOf b
      let ok := crcOk b
      let s := s.count 3 3 1
      let s := { s with tgs := { s.tgs with sent := removeFirst (fun x => x.sameWire k) s.tgs.sent } }
      let s := if ok then s
        else ((s.raise F.TGS_EVENT_CRC_ERR).log wTGS F.TGS_EVENT_CRC_ERR.lo 1 0xFF k.edge).detect cCONTAINED 0xFF k.edge
      if s.tokenStale k then s.dropToken k.edge (k.kind == 2) true
      else if s.goldenGone k then s.dropToken k.edge (k.kind == 2) false
      else match s.consumerOf k.edge with
        | none => s.dropToken k.edge (k.kind == 2) false
        | some dst =>
          -- a notice has taken no credit
          if k.kind = 2 && ok then s
          else
            let cyc := if k.golden then k.cycle else (s.glz.insts.find? (fun i => slotOf i.cycle == k.slot)).map (·.cycle) |>.getD k.cycle
            let k := { k with dst := dst, kind := if ok then k.kind else 3, cycle := cyc }
            if s.tableRoom k.run dst.2.1 dst.2.2 then
              ({ s with tgs := { s.tgs with tokens := s.tgs.tokens ++ [k] } }).syncOps
            else { s.raise F.TGS_EVENT_OPS_FULL with tgs := { s.tgs with waiting := s.tgs.waiting ++ [k] } })

/-- CREDIT_RETURN (R157): the consumer of an edge has finished with a token's data and returns its credit. -/
def execCreditReturn (edge : Nat) (s : State) : Host.Outcome State Fault Refusal :=
  .next (
    if s.tgsRuns && s.tgs.used.contains edge then
      ({ s with tgs := { s.tgs.returnCredit edge with used := removeFirst (· == edge) s.tgs.used } }).syncOps
    else s)

/-! ## Firing (R157 to R160, R162) -/

/-- Take a credit of an edge. -/
def Tgs.takeCredit (t : Tgs) (edge : Nat) : Tgs :=
  if t.creditOut.any (fun c => c.1 == edge) then
    { t with creditOut := updateFirst (fun c => c.1 == edge) (fun c => (c.1, c.2 + 1)) t.creditOut }
  else { t with creditOut := t.creditOut ++ [(edge, 1)] }

/-- The priority of a run's work, the lowest first (R157, R168): golden while the pool lasts, else with the head; the head;
run-ahead, oldest first. -/
def State.priority (s : State) (run : RunId) : Nat :=
  if run.golden then (if s.poolLeft then 0 else 1)
  else 1 + (s.glz.insts.findIdx? (fun i => i.cycle == run.cycle)).getD 4

/-- Whether a run's next entry on a unit competes with others: it is ready, and the tile can take an array unit's (R157, R186). -/
def State.competes (s : State) (tile unit : Nat) (run : RunId) : Bool :=
  s.ready unit run && (decide (64 ≤ unit)
    || s.tileTakes tile unit run (adAccInit (s.readBytes (s.entryOf run.graph unit (s.tgs.firedCount unit run)).desc 64)))

/-- Whether a run is the one that a unit picks among those ready (R157): in shared mode a tile picks among all the array's lists
(R186). -/
def State.picked (s : State) (tile unit : Nat) (run : RunId) : Bool :=
  (if unit < 64 ∧ s.arrShared then List.range 64 else [unit]).all (fun u =>
    s.runs_.all (fun r => decide (s.priority run ≤ s.priority r) || !s.competes tile u r))

/-- An entry leaves the ready state: its inputs are taken and its output credits held (R157). (DEDUCED: log entry 71) -/
def State.takeInputs (s : State) (unit : Nat) (run : RunId) (i : Nat) (e : ListEntry) : State :=
  let err := !e.ok || e.ins.any (fun x => match s.tgs.input run x with
    | some k => k.kind == 3
    | none => false)
  let t := e.outs.foldl Tgs.takeCredit s.tgs
  let t := t.setFired unit run (i + 1)
  let f : Firing := { unit, run, index := i, error := err }
  { s with tgs := { t with tokens := t.tokens.filter (fun k => !(k.run == run && e.ins.contains k.edge))
                           firing := t.firing ++ [f] } }

/-- What firing starts in the unit (R173, R181, R226): an array tile and ATN take their descriptor at once; other units work
by their own commands. -/
def State.startUnit (s : State) (unit tile : Nat) (run : RunId) (i : Nat) (e : ListEntry) : State :=
  if unit < 64 then s.arrFire tile unit run i e.count (s.readBytes e.desc 64)
  else if unit = 101 then s.atnFire run i (s.readBytes e.desc 128)
  else s

/-- ENTRY_FIRE (R155, R157 to R162): the next entry of a unit for the run of a graph fires, if it is ready and no work that
goes before it on the unit is. `slot` is the instance slot, or the golden frame number; `tile` the array tile that takes
the list of units 0 to 63. An entry with COUNT = 0 completes at once. (DESIGN CHOICE: log entry 48) -/
def execEntryFire (unit graph slot tile : Nat) (s : State) : Host.Outcome State Fault Refusal :=
  .next (
    match s.runOf graph slot with
    | none => s
    | some run =>
      let i := s.tgs.firedCount unit run
      let e := s.entryOf graph unit i
      if !s.tgsRuns || s.graphs ≤ graph || 104 ≤ unit || !s.ready unit run || !s.picked tile unit run then s
      else if !s.tableRoom run unit i then s.raise F.TGS_EVENT_OPS_FULL
      else
        let work := e.ok && e.count != 0 && !e.ins.any (fun x => match s.tgs.input run x with
          | some k => k.kind == 3
          | none => false)
        if unit < 64 && work && !s.tileTakes tile unit run (adAccInit (s.readBytes e.desc 64)) then s
        else
          let s := if e.ok then s
            else ((s.raise F.TGS_EVENT_CRC_ERR).log wTGS F.TGS_EVENT_CRC_ERR.lo 1 unit i).detect cCONTAINED unit i
          let s := (s.takeInputs unit run i e).count 3 0 1 (some unit)
          if work then (s.startUnit unit tile run i e).syncOps
          else if e.count = 0 then
            match s.tgs.firing.find? (fun f => f.unit == unit && f.run == run && f.index == i) with
            | some f => s.completeEntry f e none 0
            | none => s
          else s.syncOps)

/-! ## Completion (R159, R160, R203) -/

/-- A layout copy, COUNT times (R155, R203). -/
def State.copyTimes (u : LayUser) (at_ : Nat) (tableErr : Bool) : Nat → State → State × Option Nat
  | 0, s => (s, none)
  | n + 1, s =>
    let x := s.layCopy u at_ tableErr
    match x.code with
    | some c => (x.s, some c)
    | none => x.s.copyTimes u at_ tableErr n

/-- How a unit's entry ends: the state, its error code if any, and ARG; none while it is not done. (DEDUCED: log entry 79) -/
def State.entryOutcome (s : State) (f : Firing) (e : ListEntry) (error : Bool) (arg : Nat) : Option (State × Option Nat × Nat) :=
  if f.error then some (s, none, 0)
  else if f.unit < 64 then (s.arrEnded f.unit f.run f.index).map (fun x => (x.1, x.2, 0))
  else if f.unit = 100 then
    let u : LayUser := { unit := 100, cycle := f.run.cycle, map := if f.run.golden then 4 else f.run.slot }
    let r := (if arg = 0 then s else s.life 688 arg).copyTimes u e.desc error e.count
    some (r.1, r.2, 0)
  else if f.unit = 101 then
    (s.atn.ended.find? (fun x => x.1 == f.run && x.2.1 == f.index)).map (fun x =>
      ({ s with atn := { s.atn with ended := s.atn.ended.filter (fun y => y != x) } }.endBudget 7 (f.run.stepKey f.index),
        x.2.2.1, x.2.2.2))
  else if f.unit = 102 then
    (s.kvc.ended.find? (fun x => x.1 == f.run && x.2.1 == f.index)).map (fun x =>
      ({ s with kvc := { s.kvc with ended := s.kvc.ended.filter (fun y => y != x) } }, x.2.2, 0))
  else some (s, if error then some arg else none, arg)

/-- ENTRY_COMPLETE (R159, R160): the oldest entry that a unit has fired for a run completes and sends DONE, or ERROR, on every
output edge. Arrays, ATN and KVC end an entry by their own commands; a copy of LAY takes place here (R203), `error` being an
uncorrectable table-store error and `arg` how many single-bit ones were corrected (R206: TABLE_CORR of the lifetime record); of every other unit `error` and `arg` are what it reports.
(DESIGN CHOICE: log entry 48; DEDUCED: log entry 70) -/
def execEntryComplete (unit graph slot : Nat) (error : Bool) (arg : Nat) (s : State) : Host.Outcome State Fault Refusal :=
  .next (
    match s.runOf graph slot with
    | none => s
    | some run =>
      match s.tgs.firing.find? (fun f => f.unit == unit && f.run == run) with
      | none => s
      | some f =>
        let e := s.entryOf graph unit f.index
        if !s.tgsRuns then s
        else match s.entryOutcome f e error (arg % 2 ^ 32) with
          | none => s
          | some (s, code, a) => s.completeEntry f e code a)

/-! ## The end of a squash (R165, R167) -/

/-- Budgets that a rerun starts at SQUASH_DONE: those whose start event has passed (R165, R170). (DEDUCED: log entry 67) -/
def State.restartBudgets (s : State) (i : Inst) : State :=
  let again (t : State) (cls key : Nat) : State :=
    if t.tgs.budgets.any (fun b => b.cls == cls && b.key == key) then t else t.startBudget cls key i.cycle
  let s := if i.tov ≤ s.now then again (again (again s 2 i.cycle) 5 i.cycle) 8 i.cycle else s
  (s.lft.frames.filter (fun f => f.cycle == i.cycle)).foldl (fun t f =>
    let key := i.cycle * 64 + f.stream
    match f.phase with
    | .waiting => again t 0 key
    | .columns => again t 1 key
    | _ => t) s

/-- SQUASH_DONE (R165, R167): the squashed instances start again; LAY has cleared their valid maps (R199), ATN's slots are
free (R240), and the supervision timers whose start has passed start. -/
def execSquashDone (s : State) : Host.Outcome State Fault Refusal :=
  .next (
    match s.tgs.squash with
    | none => s
    | some (slots, _, t) =>
      let s := { s with tgs := { s.tgs with squash := none }, atn := { s.atn with deadSlots := [] } }
      let mine := s.glz.insts.filter (fun i => bitSet slots (slotOf i.cycle))
      let s := mine.foldl (fun u i => (u.clearMaps (slotOf i.cycle)).restartBudgets i) s
      (s.put F.TGS_LAST_SQUASH_DURATION (satNat 14 ((s.now - t).toNat / 10))).syncHead.syncOps)

/-! ## Budgets (R170) -/

/-- The length of a running budget in REFCLK cycles, if its class is supervised (R170). (DEDUCED: log entry 67) -/
def State.budgetLimit (s : State) (b : Budget) : Option Nat :=
  if b.cls = 8 then
    match s.inst b.cycle with
    | some i => some ((i.deadline - i.tov).toNat / 40)
    | none => none
  else if [0, 1, 2, 3, 5, 6, 7].contains b.cls && s.on (F.TGS_BUDGET_EN b.cls) then some (25 * s.get (F.TGS_BUDGET_BUDGET b.cls))
  else none

/-- BUDGET_OVERRUN (R170): the end event of supervised work has not occurred at start + BUDGET. An overrun of FUSION is
reported as such. (DEDUCED: log entry 111) -/
def execBudgetOverrun (cls key : Nat) (s : State) : Host.Outcome State Fault Refusal :=
  .next (
    match s.tgs.budgets.find? (fun b => b.cls == cls && b.key == key && !b.reported) with
    | none => s
    | some b =>
      match s.budgetLimit b with
      | none => s
      | some n =>
        if !s.tgsRuns || s.pwr.refclk < b.start + n then s
        else
          let s := { s with tgs := { s.tgs with budgets := s.tgs.budgets.map (fun x => if x = b then { x with reported := true } else x) } }
          let s := (s.satInc (F.TGS_BUDGET_OVERRUNS cls)).raise F.TGS_EVENT_BUDGET_OVERRUN
          (s.log wTGS F.TGS_EVENT_BUDGET_OVERRUN.lo 2 0xFF cls).detect (if cls = 8 then cFUSION else cBUDGET) cls key)

end Sys2Proof.Machine
end

