-- ==== Sys2Proof/Machine/Links.lean ====
section
/-! DEFINITION. The Barmusa links (spec/16_multi_device.md): link states, flits and replay, routing of packets, experts
and their combine buffers, and remote copies. -/

namespace Sys2Proof.Machine

/-! ## Link states (R257, R258, R261) -/

abbrev lkDOWN := 0
abbrev lkTRAINING := 1
abbrev lkUP := 2
abbrev lkRETRAIN := 3
abbrev lkFAILED := 4

/-- BML runs: enabled, not gated, and REFCLK present (R348). -/
def State.bmlRuns (s : State) : Bool := s.on F.BML_CTRL_ENABLE && s.runs wBML && !s.pwr.refLost

def State.lport (s : State) (p : Nat) : LinkPort := s.bml.ports.getD p {}
def State.updPort (s : State) (p : Nat) (f : LinkPort → LinkPort) : State :=
  { s with bml := { s.bml with ports := modifyAt f p s.bml.ports } }

def State.linkState (s : State) (p : Nat) : Nat := s.get (F.BML_PORT_STAT_STATE p)
def State.portIsUp (s : State) (p : Nat) : Bool := decide (p < 6) && s.linkState p == lkUP

/-- This device's identifier, ring and position; the sizes (R258). -/
def State.deviceId (s : State) : Nat := s.get F.BML_CTRL_DEVICE_ID
def State.rings (s : State) : Nat := s.get F.BML_CTRL_RINGS + 1
def State.ringSize (s : State) : Nat := s.get F.BML_CTRL_RING_SIZE + 1

/-- The peer expected on a port (R257). -/
def State.expectedPeer (s : State) (p : Nat) : Nat :=
  let r := s.deviceId / 8
  let x := s.deviceId % 8
  match p with
  | 0 => r * 8 + (x + 1) % s.ringSize
  | 1 => r * 8 + (x + s.ringSize - 1) % s.ringSize
  | 2 => (r + 1) % s.rings * 8 + x
  | 3 => (r + s.rings - 1) % s.rings * 8 + x
  | _ => s.get (F.BML_PORT_CFG_PEER_ID p)

/-- A change of link state (R261): the register, the error log, and when the port leaves UP its event. -/
def State.setLink (s : State) (p st : Nat) : State :=
  let old := s.linkState p
  let s := s.put (F.BML_PORT_STAT_STATE p) st
  let s := s.flag ⟨F.BML_STATUS_PORTS_UP.addr, F.BML_STATUS_PORTS_UP.lo + p, 1⟩ (st == lkUP)
  let s := s.updPort p (fun x => { x with since := s.pwr.refclk })
  let s := if old = lkUP then s.raise F.BML_EVENT_LINK_DOWN else s
  s.log wBML (if st = lkFAILED then 2 else if st = lkRETRAIN then 1 else 0) 0 0xFF (p + 256 * st)

/-- A link goes DOWN or FAILED: what it had in flight is dropped (R270), and it starts afresh. (DEDUCED: log entry 102) -/
def State.dropLink (s : State) (p st : Nat) : State :=
  (s.setLink p st).updPort p (fun x => { x with txSeq := 0, rxSeq := 4095, credits := [64, 64], replay := [], txq := [], replays := 0, rx := [[], []] })

/-- Whether the image enables a port: a dimension of size 1 leaves its two ports disabled (R258). -/
def State.portEnabled (s : State) (p : Nat) : Bool :=
  decide (p < 6) && s.on (F.BML_PORT_CFG_ENABLE p)
    && (if p < 2 then decide (2 ≤ s.ringSize) else if p < 4 then decide (2 ≤ s.rings) else true)

/-- The system profile (R260). (DESIGN CHOICE: log entry 196) -/
def State.systemProfile (s : State) : Nat :=
  crc32c (Config.profileBytes
    [s.rings, s.ringSize, s.get F.GLZ_TOV_PERIOD, s.get F.GLZ_TOV_PHASE, s.get F.GLZ_CTRL_MODE,
      s.get F.BML_EXPERT_HIDDEN64 * 64, s.get F.BML_EXPERT_TOPK + 1]
    (s.readBytes (s.base F.BML_MAP_BASE_BASE) ((s.get F.BML_EXPERT_LAYERS + 1) * 4096)))

/-- A training begins: its handshake says who this side is (R260). (DESIGN CHOICE: log entry 196) -/
def State.handshake (s : State) (p : Nat) : State := s.emit (.handshake p s.deviceId s.systemProfile)

/-- Entry into RETRAIN (R260, R261): counted, also in the lifetime record (R366). (DEDUCED: log entry 102) -/
def State.retrain (s : State) (p : Nat) : State :=
  let s := ((s.setLink p lkRETRAIN).raise F.BML_EVENT_RETRAIN).satInc (F.BML_PORT_STAT_RETRAINS p)
  ((s.updPort p (fun x => { x with replays := 0 })).life (720 + 4 * p)).handshake p

/-- TRAINING_START (R261): an enabled port at start-up, or one that has spent 1 s in DOWN. A fenced port stays DOWN. -/
def execTrainingStart (port : Nat) (s : State) : Host.Outcome State Fault Refusal :=
  .next (
    if s.bmlRuns && s.portEnabled port && !bitSet (s.get F.BML_STATUS_FENCED) port
        && s.linkState port == lkDOWN && (!(s.lport port).tried || decide ((s.lport port).since + 25000000 ≤ s.pwr.refclk)) then
      ((s.setLink port lkTRAINING).updPort port (fun x => { x with tried := true })).handshake port
    else s)

/-- TRAINING_TIMEOUT (R261): 50 ms in TRAINING or RETRAIN. -/
def execTrainingTimeout (port : Nat) (s : State) : Host.Outcome State Fault Refusal :=
  .next (
    let st := s.linkState port
    if decide (port < 6) && s.bmlRuns && (st == lkTRAINING || st == lkRETRAIN)
        && decide ((s.lport port).since + 1250000 ≤ s.pwr.refclk) then s.dropLink port lkDOWN
    else s)

/-- LINK_TIMEOUT (R261): no flit received for LINK_TIMEOUT. (DEDUCED: log entry 99) -/
def execLinkTimeout (port : Nat) (s : State) : Host.Outcome State Fault Refusal :=
  .next (
    if s.bmlRuns && s.portIsUp port && decide ((s.lport port).lastRx + 25 * s.get F.BML_TIMING_LINK_TIMEOUT ≤ s.pwr.refclk) then
      s.dropLink port lkDOWN
    else s)

/-- LANE_LOCK_LOSS (R261). -/
def execLaneLockLoss (port : Nat) (s : State) : Host.Outcome State Fault Refusal :=
  .next (if s.bmlRuns && s.portIsUp port then s.retrain port else s)

/-! ## Flits (R259, R260) -/

/-- The 72 bytes of a flit (R259). -/
def flitBytes (payload : List Byte) (lseq vc type ack : Nat) : List Byte :=
  withCrc (padTo 64 payload ++ natLe 2 (lseq % 4096 + 4096 * (vc % 2) + 8192 * type) ++ natLe 2 (ack % 4096))

/-- Put a flit on a port. (DEDUCED: log entry 100) -/
def State.sendFlit (s : State) (p : Nat) (payload : List Byte) (lseq vc type : Nat) : State :=
  let s := s.emit (.link p (flitBytes payload lseq vc type (s.lport p).rxSeq))
  s.updPort p (fun x => { x with lastTx := s.pwr.refclk })

/-- Send the queued data flits that have a credit and room in the replay buffer, each virtual channel in order (R260); `fuel`
bounds them. -/
def State.pump (p : Nat) : Nat → State → State
  | 0, s => s
  | f + 1, s =>
    let x := s.lport p
    if !s.portIsUp p || 256 ≤ x.replay.length then s
    else match x.txq.find? (fun q => decide (0 < x.credits.getD q.1 0)) with
      | none => s
      | some q =>
        let s := s.sendFlit p q.2 x.txSeq q.1 1
        (s.updPort p (fun y => { y with
          txSeq := (x.txSeq + 1) % 4096
          credits := modifyAt (· - 1) q.1 y.credits
          replay := y.replay ++ [(x.txSeq, q.1, q.2)]
          txq := removeFirst (fun z => z == q) y.txq })).pump p f

def State.pumpAll (s : State) (p : Nat) : State := s.pump p (s.lport p).txq.length

/-- TRAINING_DONE (R261): lanes locked and the handshake ended within 50 ms: with the expected peer and profile the port goes
UP and sends what waits, else it is FAILED. -/
def execTrainingDone (port peer : Nat) (profileOk : Bool) (s : State) : Host.Outcome State Fault Refusal :=
  .next (
    let st := s.linkState port
    if !decide (port < 6) || !s.bmlRuns || (st != lkTRAINING && st != lkRETRAIN)
        || decide ((s.lport port).since + 1250000 < s.pwr.refclk) then s
    else
      let s := s.put (F.BML_PORT_STAT_PEER port) peer
      let bad := if peer % 64 ≠ s.expectedPeer port then 1 else if !profileOk then 2 else 0
      if bad ≠ 0 then
        ((s.dropLink port lkFAILED).put (F.BML_PORT_STAT_REASON port) bad).raise F.BML_EVENT_LINK_FAILED
      else ((s.setLink port lkUP).updPort port (fun x => { x with lastRx := s.pwr.refclk, lastTx := s.pwr.refclk })).pumpAll port)

/-- ACK of a received flit (R260): the flits up to it leave the replay buffer. -/
def State.ackFlits (s : State) (p ack : Nat) : State :=
  let x := s.lport p
  match x.replay.findIdx? (fun r => r.1 == ack) with
  | none => s
  | some i => s.updPort p (fun y => { y with replay := y.replay.drop (i + 1), replays := 0 })

/-! ## Packets and routing (R262, R263) -/

def pkKind (b : List Byte) : Nat := bitsAt (leAt b 0 1) 0 3
def pkSlot (b : List Byte) : Nat := bitsAt (leAt b 0 1) 3 5
def pkDest (b : List Byte) : Nat := bitsAt (leAt b 1 1) 0 6
def pkSrc (b : List Byte) : Nat := bitsAt (leAt b 2 1) 0 6
def pkLayer (b : List Byte) : Nat := bitsAt (leAt b 3 1) 0 3
def pkK (b : List Byte) : Nat := bitsAt (leAt b 3 1) 3 1
def pkReason (b : List Byte) : Nat := bitsAt (leAt b 3 1) 4 4
def pkToken (b : List Byte) : Nat := leAt b 4 2
def pkLen (b : List Byte) : Nat := leAt b 6 2
def pkTov (b : List Byte) : Nat := leAt b 8 8
def pkPayload (b : List Byte) : List Byte := slice b 16 (pkLen b)

/-- A packet (R263). -/
def packet (kind slot dest src layer k reason token tov : Nat) (payload : List Byte) : List Byte :=
  withCrc (natLe 1 (kind + 8 * slot) ++ natLe 1 dest ++ natLe 1 src ++ natLe 1 (layer + 8 * k + 16 * reason) ++ natLe 2 token
    ++ natLe 2 payload.length ++ natLe 8 tov ++ payload)

/-- The port on which a packet for a device leaves (R262): the primary, else the alternate, if UP. -/
def State.routePort (s : State) (d : Nat) : Option Nat :=
  [s.get (F.BML_ROUTE_PRIMARY d), s.get (F.BML_ROUTE_ALT d)].find? s.portIsUp

/-- The virtual channel on the next link (R262): 1 on and after a wrap-around link of a dimension, 0 at a turn.
(DEDUCED: log entry 101) -/
def State.nextVc (s : State) (inPort : Option Nat) (vc out : Nat) : Nat :=
  let x := s.deviceId % 8
  let r := s.deviceId / 8
  let wraps := (out == 0 && x + 1 == s.ringSize) || (out == 1 && x == 0) || (out == 2 && r + 1 == s.rings) || (out == 3 && r == 0)
  let same := match inPort with
    | some i => decide (i / 2 = out / 2)
    | none => false
  if wraps then 1 else if same then vc else 0

/-- A packet arrives at its destination (R263): a failing end-to-end CRC discards it; a reserved KIND is discarded. -/
def State.deliver (s : State) (b : List Byte) : State :=
  let b := b.take (20 + pkLen b)
  if !crcOk b then (s.raise F.BML_EVENT_E2E_ERR).satInc F.BML_COUNTS_E2E_ERR
  else if 5 < pkKind b then s
  else { s with bml := { s.bml with inbox := s.bml.inbox ++ [b] } }

/-- Send or forward a packet (R262): delivered here, queued on its route, or discarded as unreachable. -/
def State.routePacket (s : State) (b : List Byte) (inPort : Option Nat) (vc : Nat) : State :=
  if pkDest b = s.deviceId then s.deliver b
  else match s.routePort (pkDest b) with
    | none => s.raise F.BML_EVENT_UNREACHABLE
    | some p =>
      let v := s.nextVc inPort vc p
      (s.updPort p (fun x => { x with txq := x.txq ++ (chunks 64 b).map (fun c => (v, padTo 64 c)) })).pumpAll p

/-- A data flit in order: its payload joins the packet of its channel, which goes on once it is whole; the buffer space is free
again, and a credit flit says so (R260). -/
def State.acceptFlit (s : State) (p vc : Nat) (payload : List Byte) : State :=
  let b := (s.lport p).rx.getD vc [] ++ payload
  let whole := decide (20 + pkLen b ≤ b.length)
  let s := s.updPort p (fun x => { x with rx := modifyAt (fun _ => if whole then [] else b) vc x.rx })
  let s := s.sendFlit p (Config.creditPayload vc 1) (s.lport p).txSeq vc 2
  if whole then s.routePacket b (some p) vc else s

/-- FLIT (R259, R260): a flit is received. One whose CRC fails is discarded with a nack; a data flit out of order is discarded;
one in order is delivered. (DEDUCED: log entry 100) -/
def execFlit (port : Nat) (flit : List Byte) (s : State) : Host.Outcome State Fault Refusal :=
  .next (
    if !s.bmlRuns || !s.portIsUp port then s
    else
      let b := padTo 72 flit
      let s := s.updPort port (fun x => { x with lastRx := s.pwr.refclk })
      if !crcOk b then
        (s.satInc (F.BML_PORT_STAT_CRC_ERR port)).sendFlit port [] (s.lport port).txSeq 0 4
      else
        let w := leAt b 64 2
        let lseq := bitsAt w 0 12
        let s := s.ackFlits port (bitsAt (leAt b 66 2) 0 12)
        if bitsAt w 13 3 ≠ 1 || lseq ≠ ((s.lport port).rxSeq + 1) % 4096 then s.pumpAll port
        else
          let s := s.updPort port (fun x => { x with rxSeq := lseq })
          (s.acceptFlit port (bitsAt w 12 1) (b.take 64)).pumpAll port)

/-- NACK_FLIT (R260): the sender replays every flit from the one after ACK; 16 replays in a row without ACK advancing send the
link to RETRAIN. -/
def execNackFlit (port ack : Nat) (s : State) : Host.Outcome State Fault Refusal :=
  .next (
    if !s.bmlRuns || !s.portIsUp port then s
    else
      let s := s.updPort port (fun x => { x with lastRx := s.pwr.refclk })
      let s := (s.ackFlits port ack).satInc (F.BML_PORT_STAT_REPLAYS port)
      let s := s.updPort port (fun x => { x with replays := x.replays + 1 })
      if 16 ≤ (s.lport port).replays then s.retrain port
      else (s.lport port).replay.foldl (fun t r => t.sendFlit port r.2.2 r.1 r.2.1 1) s)

/-- CREDIT_FLIT (R260): credits of a virtual channel come back. -/
def execCreditFlit (port vc count ack : Nat) (s : State) : Host.Outcome State Fault Refusal :=
  .next (
    if !s.bmlRuns || !s.portIsUp port then s
    else
      let s := s.updPort port (fun x => { x with lastRx := s.pwr.refclk, credits := modifyAt (fun c => min 64 (c + count)) vc x.credits })
      (s.ackFlits port ack).pumpAll port)

/-- KEEPALIVE (R269): the peer's time at departure and the round trip measured with it give the link delay and the peer's
offset. -/
def execKeepalive (port ack : Nat) (peerTime roundTrip : Int) (s : State) : Host.Outcome State Fault Refusal :=
  .next (
    if !s.bmlRuns || !s.portIsUp port then s
    else
      let s := s.updPort port (fun x => { x with lastRx := s.pwr.refclk })
      let s := (s.ackFlits port ack).pumpAll port
      let off := peerTime + roundTrip / 2 - s.now
      let s := s.putI (F.BML_NBR_OFFSET_OFFSET port) off
      if s.get F.BML_TIMING_SKEW_LIMIT < off.natAbs then s.raise F.BML_EVENT_TIME_SKEW else s)

/-- KEEPALIVE_TX (R260, R269): a port that has sent nothing for 10 µs sends a keepalive with the device time. -/
def execKeepaliveTx (port : Nat) (s : State) : Host.Outcome State Fault Refusal :=
  .next (
    if s.bmlRuns && s.portIsUp port && decide ((s.lport port).lastTx + 250 ≤ s.pwr.refclk) then
      s.sendFlit port (Config.keepalivePayload s.now) (s.lport port).txSeq 0 3
    else s)

/-! ## Experts (R264 to R267) -/

/-- The entry of global expert `e` in the map of a layer (R264): device and slot, if valid. (DEDUCED: log entry 103) -/
def State.expertEntry (s : State) (layer e : Nat) : Option (Nat × Nat) :=
  let w := s.readLe (s.base F.BML_MAP_BASE_BASE + layer * 4096 + 2 * e) 2
  if bitSet w 15 then some (bitsAt w 0 6, bitsAt w 6 5) else none

/-- Whether the map places an expert of a layer in a slot of this device. -/
def State.slotMapped (s : State) (layer slot : Nat) : Bool :=
  decide (layer ≤ s.get F.BML_EXPERT_LAYERS) && (List.range 2048).any (fun e => s.expertEntry layer e == some (s.deviceId, slot))

/-- HIDDEN and TOPK. -/
def State.hidden (s : State) : Nat := s.get F.BML_EXPERT_HIDDEN64 * 64
def State.topk (s : State) : Nat := s.get F.BML_EXPERT_TOPK + 1

def State.updCombine (s : State) (layer stamp : Nat) (f : Combine → Combine) : State :=
  { s with bml := { s.bml with combine := updateFirst (fun c => c.layer == layer && c.stamp == stamp && !c.closed) f s.bml.combine } }

/-- Set a slot of a combine buffer. -/
def Combine.set (c : Combine) (token k : Nat) (f : CombSlot → CombSlot) : Combine :=
  { c with slots := modifyAt (fun l => modifyAt f k l) token c.slots }

/-- Send the packet of one choice of a token (R265), or mark its slot where the expert has no reachable place (R262, R267).
(DEDUCED: log entry 103) -/
def State.dispatchChoice (s : State) (layer stamp token k e : Nat) (row : List Byte) : State :=
  let mark (s : State) : State := s.updCombine layer stamp (fun c => c.set token k (fun _ => .marked))
  match s.expertEntry layer e with
  | none => mark s
  | some (d, slot) =>
    if d ≠ s.deviceId && (s.routePort d).isNone then mark (s.raise F.BML_EVENT_UNREACHABLE)
    else (s.modInc F.BML_COUNTS_DISPATCHED).routePacket (packet 0 slot d s.deviceId layer k 0 token stamp (padTo s.hidden row)) none 0

/-- DISPATCH_COMMAND (R264, R265): a Praline core has BML send one DISPATCH packet for each choice of each token of a layer, for
the head instance only. -/
def execDispatchCommand (layer : Nat) (records : List Nat) (rows : List (List Byte)) (s : State) :
    Host.Outcome State Fault Refusal :=
  .next (
    match s.head with
    | none => s
    | some i =>
      if !s.bmlRuns || records.isEmpty || s.get F.BML_EXPERT_LAYERS < layer then s
      else
        let stamp := ofInt 64 i.tov
        let c : Combine := { layer, cycle := i.cycle, stamp, slots := records.map (fun _ => List.replicate s.topk .empty) }
        let s := { s with bml := { s.bml with combine := s.bml.combine.filter (fun x => !(x.layer == layer && x.cycle == i.cycle)) ++ [c] } }
        records.zipIdx.foldl (fun t r =>
          (List.range s.topk).foldl (fun u k => u.dispatchChoice layer stamp r.2 k (bitsAt r.1 (11 * k) 11) (rows.getD r.2 [])) t) s)

/-- Take the oldest delivered packet of a kind. -/
def State.takePacket (s : State) (kind : Nat) : Option (State × List Byte) :=
  (s.bml.inbox.find? (fun b => pkKind b == kind)).map (fun b =>
    ({ s with bml := { s.bml with inbox := removeFirst (fun x => x == b) s.bml.inbox } }, b))

/-- Why a DISPATCH packet is refused (R266), or the instance that takes it. -/
def State.admission (s : State) (b : List Byte) : Except Nat Inst :=
  match s.glz.insts.find? (fun i => ofInt 64 i.tov == pkTov b) with
  | none => .error 2
  | some i =>
    if i.tov + s.get F.BML_TIMING_COLLECT_CLOSE * 1000 ≤ s.now then .error 3
    else if !s.slotMapped (pkLayer b) (pkSlot b) then .error 4
    else
      let n := match s.bml.experts.find? (fun e => e.layer == pkLayer b && e.slot == pkSlot b && e.cycle == i.cycle) with
        | some e => e.rows.length
        | none => 0
      if n < s.get F.BML_EXPERT_CAPACITY then .ok i else .error 1

/-- DISPATCH (R266): the oldest DISPATCH packet is admitted into its expert's input buffer, or refused with a REFUSE packet. -/
def execDispatch (s : State) : Host.Outcome State Fault Refusal :=
  .next (
    if !s.bmlRuns then s
    else match s.takePacket 0 with
      | none => s
      | some (s, b) =>
        match s.admission b with
        | .error r =>
          s.routePacket (packet 2 (pkSlot b) (pkSrc b) s.deviceId (pkLayer b) (pkK b) r (pkToken b) (pkTov b) []) none 0
        | .ok i =>
          let mine (e : ExpertBuf) : Bool := e.layer == pkLayer b && e.slot == pkSlot b && e.cycle == i.cycle
          let es := if s.bml.experts.any mine then s.bml.experts
            else s.bml.experts ++ [({ layer := pkLayer b, slot := pkSlot b, cycle := i.cycle } : ExpertBuf)]
          { s with bml := { s.bml with experts := updateFirst mine (fun e => { e with rows := e.rows ++ [b] }) es } })

/-- SERVE (R266): once its instance is the head and collection has closed, the serve entry has run the expert over its buffer;
each admitted token's result row returns as a RESULT packet. -/
def execServe (layer slot : Nat) (rows : List (List Byte)) (s : State) : Host.Outcome State Fault Refusal :=
  .next (
    match s.head with
    | none => s
    | some i =>
      match s.bml.experts.find? (fun e => e.layer == layer && e.slot == slot && e.cycle == i.cycle) with
      | none => s
      | some e =>
        if !s.bmlRuns || s.now < i.tov + s.get F.BML_TIMING_COLLECT_CLOSE * 1000 then s
        else
          let s := { s with bml := { s.bml with experts := s.bml.experts.filter (fun x => x != e) } }
          e.rows.zipIdx.foldl (fun t b =>
            t.routePacket (packet 1 slot (pkSrc b.1) t.deviceId layer (pkK b.1) 0 (pkToken b.1) (pkTov b.1) (padTo t.hidden (rows.getD b.2 []))) none 0) s)

/-- The reply deadline of a combine buffer (R267): it follows the ToV of its instance, rebased or not (R270). -/
def State.replyDeadline (s : State) (c : Combine) : Time :=
  let tov := match s.inst c.cycle with
    | some i => i.tov
    | none => toSigned 64 c.stamp
  tov + (s.get F.BML_TIMING_COLLECT_CLOSE + s.get F.BML_TIMING_RETURN_WAIT) * 1000

/-- The open combine buffer of a reply. (DEDUCED: log entry 104) -/
def State.combineFor (s : State) (b : List Byte) : Option Combine :=
  s.bml.combine.find? (fun c => c.layer == pkLayer b && c.stamp == pkTov b && !c.closed && decide (s.now < s.replyDeadline c))

/-- RESULT (R267, R270): a RESULT packet fills its slot; at or after the deadline it counts as LATE_RESULT. -/
def execResult (s : State) : Host.Outcome State Fault Refusal :=
  .next (
    if !s.bmlRuns then s
    else match s.takePacket 1 with
      | none => s
      | some (s, b) =>
        match s.combineFor b with
        | none => s.satInc F.BML_COUNTS_LATE_RESULT
        | some c => s.updCombine c.layer c.stamp (fun c => c.set (pkToken b) (pkK b) (fun _ => .filled (pkPayload b))))

/-- REFUSE (R267): a REFUSE packet marks its slot for fallback. -/
def execRefuse (s : State) : Host.Outcome State Fault Refusal :=
  .next (
    if !s.bmlRuns then s
    else match s.takePacket 2 with
      | none => s
      | some (s, b) =>
        match s.combineFor b with
        | none => s
        | some c => s.updCombine c.layer c.stamp (fun c => c.set (pkToken b) (pkK b) (fun _ => .marked)))

/-- A combine buffer after its deadline: home rows in the slots without a result, the tokens that took one, and how many rows.
(DESIGN CHOICE: log entry 105) -/
def closeCombine (home : List (List Byte)) (c : Combine) : Combine × List Nat × Nat :=
  let isFilled (x : CombSlot) : Bool := match x with
    | .filled _ => true
    | _ => false
  let fill (t : Nat) (x : CombSlot) : CombSlot := if isFilled x then x else .filled (home.getD t [])
  ({ c with closed := true, slots := c.slots.zipIdx.map (fun l => l.1.map (fill l.2)) },
    (c.slots.zipIdx.filter (fun l => !l.1.all isFilled)).map (·.2), (c.slots.map (fun l => l.countP (fun x => !isFilled x))).foldl (· + ·) 0)

/-- COMBINE_DEADLINE (R267): at TOV + COLLECT_CLOSE + RETURN_WAIT the home rows fill the slots without a result, the tiles of
those tokens carry EXPERT_FALLBACK, and the combine entry gets its token. (DEDUCED: log entry 99) -/
def execCombineDeadline (layer : Nat) (home : List (List Byte)) (s : State) : Host.Outcome State Fault Refusal :=
  .next (
    match s.bml.combine.find? (fun c => c.layer == layer && !c.closed) with
    | none => s
    | some c =>
      if !s.bmlRuns || s.now < s.replyDeadline c then s
      else
        let r := closeCombine home c
        let s := { s with bml := { s.bml with combine := updateFirst (fun x => x == c) (fun _ => r.1) s.bml.combine } }
        let s := if r.2.2 = 0 then s else (s.raise F.BML_EVENT_FALLBACK).satAdd F.BML_COUNTS_FALLBACKS r.2.2
        let s := s.updInst c.cycle (fun i => { i with fallback := (i.fallback ++ r.2.1.map (· / 16)).eraseDups })
        s.emit (.core 0 [4, layer, c.cycle]))

/-! ## Remote copies (R268) -/

/-- The user of a core's read descriptor. -/
def State.coreUser (s : State) (core : Nat) : LayUser := { unit := 64 + core, cycle := s.headCycle, map := slotOf s.headCycle }

/-- What a read descriptor has delivered goes out in COPY packets; a failed one completes the core's entry with its code (R268). -/
def LayOut.sendRemote (x : LayOut) (core dest target : Nat) : State :=
  match x.code with
  | some c => x.s.emit (.core core [5, c + 1])
  | none =>
    -- a descriptor that moves nothing completes at once (R197)
    if x.bytes.isEmpty then x.s.emit (.core core [5, 0])
    else
      let s := { x.s with bml := { x.s.bml with copies := x.s.bml.copies ++ [{ core, dest, start := x.s.pwr.refclk }] } }
      (chunks 1024 x.bytes).zipIdx.foldl (fun t c =>
        t.routePacket (packet 3 0 (dest % 64) t.deviceId 0 0 0 0 (bitsAt (target + 1024 * c.2) 0 40) c.1) none 0) s

/-- REMOTE_COPY (R268): a Praline core has BML send what a LAY read descriptor delivers, in COPY packets of up to 1,024 bytes, to
a context address of another device. -/
def execRemoteCopy (core desc dest target : Nat) (s : State) : Host.Outcome State Fault Refusal :=
  .next (
    if !s.bmlRuns || 32 ≤ core then s
    else (s.layRead (s.coreUser core) desc none).sendRemote core dest target)

/-- A copy ends at its source (R268): the core's entry completes, with ERROR unless the code is 0.
(DESIGN CHOICE: log entry 105) -/
def State.endRemote (s : State) (c : RemoteCopy) (code : Nat) : State :=
  let s := { s with bml := { s.bml with copies := removeFirst (fun x => x == c) s.bml.copies } }
  let s := if code = 0 then s else s.raise F.BML_EVENT_COPY_ERR
  s.emit (.core c.core [5, code])

/-- Write a payload through translation in REMOTE_CTX, which must be enabled (R204, R205, R268). -/
def State.remoteWrite (s : State) (a : Nat) (l : List Byte) : Except Nat State :=
  let ctx := s.get F.BML_CTRL_REMOTE_CTX
  if s.on (F.LAY_CTX_CFG_ENABLE ctx) then s.ctxWrite ctx a l else .error 0x04

/-- COPY (R268): a COPY packet's payload is written through translation in REMOTE_CTX; a failure aborts the rest of the copy with
a NACK. After the last packet the notice goes to RX_Q and COPY_DONE back. (DEDUCED: log entry 106) -/
def execCopy (last : Bool) (s : State) : Host.Outcome State Fault Refusal :=
  .next (
    if !s.bmlRuns then s
    else match s.takePacket 3 with
      | none => s
      | some (s, b) =>
        let src := pkSrc b
        let a := bitsAt (pkTov b) 0 40
        let forget (s : State) : State := { s with bml := { s.bml with aborted := s.bml.aborted.filter (· != src) } }
        if s.bml.aborted.contains src then (if last then forget s else s)
        else match s.remoteWrite a (pkPayload b) with
          | .error c =>
            let s := (s.raise F.BML_EVENT_COPY_ERR).log wBML F.BML_EVENT_COPY_ERR.lo 1 0xFF a
            let s := if last then s else { s with bml := { s.bml with aborted := src :: s.bml.aborted } }
            s.routePacket (packet 5 0 src s.deviceId 0 0 5 0 0 (natLe 1 c)) none 0
          | .ok s =>
            if last then
              (s.queueWrite (s.get F.BML_CTRL_RX_Q) (padTo 64 (Config.copyNotice src a))).routePacket
                (packet 4 0 src s.deviceId 0 0 0 0 0 []) none 0
            else s)

/-- The oldest copy to a device. -/
def State.copyTo (s : State) (d : Nat) : Option RemoteCopy := s.bml.copies.find? (fun c => c.dest % 64 == d)

/-- COPY_DONE (R268): the source copy entry completes. -/
def execCopyDone (s : State) : Host.Outcome State Fault Refusal :=
  .next (
    if !s.bmlRuns then s
    else match s.takePacket 4 with
      | none => s
      | some (s, b) => match s.copyTo (pkSrc b) with
        | none => s
        | some c => s.endRemote c 0)

/-- NACK (R268): the source copy entry completes with ERROR. -/
def execNack (s : State) : Host.Outcome State Fault Refusal :=
  .next (
    if !s.bmlRuns then s
    else match s.takePacket 5 with
      | none => s
      | some (s, b) => match s.copyTo (pkSrc b) with
        | none => s
        | some c => s.endRemote c (1 + leAt (pkPayload b) 0 1))

/-- COPY_TIMEOUT (R268): no COPY_DONE within COPY_TIMEOUT ends the copy entry with ERROR. -/
def execCopyTimeout (s : State) : Host.Outcome State Fault Refusal :=
  .next (
    match s.bml.copies.find? (fun c => decide (c.start + 25 * s.get F.BML_TIMING_COPY_TIMEOUT ≤ s.pwr.refclk)) with
    | none => s
    | some c => if s.bmlRuns then s.endRemote c 1 else s)

end Sys2Proof.Machine
end

