-- ==== Sys2Proof/Machine/Security.lean ====
section
/-! DEFINITION. The commands of the root of trust (spec/19_security.md): anti-rollback, quotes, debug authentication, keys,
tamper, and MACsec's key agreement. -/

namespace Sys2Proof.Machine

/-! ## Anti-rollback (R312) -/

/-- The rollback advance toward TARGET (R312): refused unless an image is loaded, TARGET lies from the fuse SVN to the loaded
SVN, and no advance is under way. (DEDUCED: log entry 132) -/
def State.advanceRollback (s : State) (target : Nat) : State :=
  let s := s.put F.SEC_ROLLBACK_CMD_TARGET target
  if !s.on F.SEC_STATUS_IMAGE_LOADED || s.sec.rollTarget.isSome || decide (target < s.fuseSvn) || decide (s.boot.start.svn < target) then
    s.raise F.SEC_EVENT_ROLLBACK_REFUSED
  else if target = s.fuseSvn then s.raise F.SEC_EVENT_ROLLBACK_DONE
  else { (s.raise F.SEC_STATUS_ROLLBACK_BUSY) with sec := { s.sec with rollTarget := some target } }

/-- ROLLBACK_ADVANCE (R312): firmware writes SEC_ROLLBACK_CMD with ADVANCE = 1. -/
def execRollbackAdvance (target : Nat) (s : State) : Host.Outcome State Fault Refusal := .next (s.advanceRollback (target % 128))

/-- The lowest fuse of 64 that is not blown. -/
def lowestClear (n : Nat) : Nat := ((List.range 64).find? (fun k => !bitSet n k)).getD 64

/-- Blow the next rollback fuse and read the count afresh (R312). -/
def State.blowRollback (s : State) : State :=
  let f := s.sec.fuses
  let s := { s with sec := { s.sec with fuses := { f with rollback := setBit f.rollback (lowestClear f.rollback) } } }
  s.put F.SEC_STATUS_FUSE_SVN s.fuseSvn

/-- ROLLBACK_FUSE_BLOWN (R312): one fuse; the count is read afresh, and at TARGET the advance is done. -/
def execRollbackFuseBlown (s : State) : Host.Outcome State Fault Refusal :=
  .next (match s.sec.rollTarget with
    | none => s
    | some t =>
      let s := s.blowRollback
      if s.fuseSvn < t then s
      else { ((s.put F.SEC_STATUS_ROLLBACK_BUSY 0).raise F.SEC_EVENT_ROLLBACK_DONE) with sec := { s.sec with rollTarget := none } })

/-! ## Quotes (R314, R315) -/

/-- The 48-byte identity public key as SEC_DEVID_PK shows it. -/
def State.devicePk (s : State) : List Byte := (List.range 6).flatMap (fun k => natLe 8 (s.get (F.SEC_DEVID_PK_PK k)))

/-- The 320-byte quote body (R314). -/
def State.quoteBody (s : State) (q : QuoteReq) : List Byte :=
  let f := s.sec.fuses
  let slot := s.get F.SEC_STATUS_CAK_SLOT
  natLe 4 0xD5A70001 ++ natLe 1 (s.boot.level.getD 0) ++ natLe 1 s.safety ++ natLe 1 s.boot.start.slot ++ natLe 1 f.lifecycle
    ++ padTo 32 q.nonce ++ s.devicePk ++ s.meas 0 ++ s.meas 4 ++ s.meas 8 ++ (if q.tuned then s.meas 12 else zeroBytes 32)
    ++ sha256 s.lifeBytes ++ padTo 32 f.ownerHash ++ natLe 1 s.fuseSvn ++ natLe 1 (if slot = 7 then 0xFF else slot)
    ++ natLe 1 (s.get F.SEC_STATUS_DEBUG_SCOPES) ++ natLe 1 (if f.debugDisable then 1 else 0) ++ natLe 2 s.boot.start.svn
    ++ natLe 2 (s.get F.SEC_TAMPER_TAMPERS) ++ natLe 4 s.boot.start.imageSeq ++ natLe 4 s.sec.quoteSeq ++ natLe 8 (ofInt 64 s.now)
    ++ natLe 4 s.headCycle ++ natLe 1 s.timeState ++ zeroBytes 11

/-- Signing starts: the body is captured (R315). -/
def State.startQuote (s : State) (q : QuoteReq) : State :=
  { s with sec := { s.sec with signing := some (q, s.quoteBody q), quoteSeq := (s.sec.quoteSeq + 1) % 2 ^ 32 } }

/-- ATTEST_REQ (R314, R315, R338): `flags` bit 0 INCLUDE_TUNED. -/
def execAttestReq (port src reqId : Nat) (nonce : List Byte) (flags : Nat) (s : State) : Host.Outcome State Fault Refusal :=
  .next (s.hostFrame port (s.serves false true false) (fun s =>
    let q : QuoteReq := { port, src, reqId, nonce, tuned := bitSet flags 0 }
    let refuse (st : Nat) (s : State) : State := s.reply port src ftQuote st reqId 0 0 []
    if nonce.length ≠ 32 then refuse stMalformed s
    else if s.sec.fuses.lifecycle = 3 || s.sec.tampered || !s.on F.SEC_STATUS_IDENTITY then refuse stNoIdentity s
    else if s.sec.signing.isNone then s.startQuote q
    else if s.sec.waiting.isNone then { s with sec := { s.sec with waiting := some q } }
    else refuse stBusy (s.raise F.SEC_EVENT_QUOTE_BUSY)))

/-- QUOTE_READY (R314, R315, R338): the signed quote leaves in 27 fragments; the waiting request is taken up. -/
def execQuoteReady (s : State) : Host.Outcome State Fault Refusal :=
  .next (match s.sec.signing, s.sec.seed with
    | some (q, body), some seed =>
      let quote := body ++ padTo 35664 (Config.slhSign (Config.hkdf seed 0 72) body)
      let next := s.sec.waiting
      let s := { s with sec := { s.sec with signing := none, waiting := none } }.modInc F.SEC_COUNTS_QUOTES
      let s := s.sendFrames q.port txReply q.src (unitFrames ftQuote flReply stOk q.reqId (leAt body 292 4) 0 true quote)
      match next with
      | some w => s.startQuote w
      | none => s
    | _, _ => s)

/-! ## Debug authentication (R316, R317) -/

/-- The scopes on offer: BSCAN alone in DECOMMISSIONED (R317). -/
def State.scopeAvail (s : State) : Nat := if s.sec.fuses.lifecycle = 3 then 1 else 0x1F

/-- The state condition of R317: Safe with a cause other than START, Halted, or no slot loaded. -/
def State.debugState (s : State) : Bool :=
  (s.safety == stSafe && s.get F.SAF_STATE_CAUSE != cSTART) || s.safety == stHalted || !s.on F.SEC_STATUS_IMAGE_LOADED

/-- SEC answers on the debug port: the device is out of reset. -/
def State.debugPort (s : State) : Bool := s.boot.step != .inReset && !s.pwr.off && !s.pwr.refLost && decide (s.power ≤ 1)

/-- CHALLENGE_READ (R317): each read replaces the nonce. (DEDUCED: log entry 131) -/
def execChallengeRead (s : State) : Host.Outcome State Fault Refusal :=
  .next (if !s.debugPort then s
    else
      let id := if s.on F.SEC_STATUS_IDENTITY then sha256 s.devicePk else zeroBytes 32
      let c := natLe 4 0xD5DB0001 ++ natLe 2 s.scopeAvail ++ zeroBytes 2 ++ padTo 32 (Config.random s.free) ++ id
      { (s.fresh.emit (.challenge c)) with sec := { s.sec with challenge := some (c, s.now) } })

/-- RESPONSE_WRITE (R317): verification starts; each nonce serves one response. A write during a verification is not taken.
(DEDUCED: log entry 131) -/
def execResponseWrite (bytes : List Byte) (s : State) : Host.Outcome State Fault Refusal :=
  .next (if !s.debugPort || s.sec.response.isSome then s
    else
      let c := s.sec.challenge.getD ([], s.now)
      { s with sec := { s.sec with response := some (padTo 16280 bytes, c.1, c.2), challenge := none } })

/-- DEBUG_VERIFY_DONE (R317): the scope is granted only if every condition holds, and in BLANK none is (R311); 8 consecutive refusals lock out until
power-on. A response without a nonce of its own is refused. (DEDUCED: log entry 131) -/
def execDebugVerifyDone (s : State) : Host.Outcome State Fault Refusal :=
  .next (match s.sec.response with
    | none => s
    | some (r, c, t) =>
      let s := { s with sec := { s.sec with response := none } }
      let key := slice r 0 48
      let scope := leAt r 48 2
      let good := !s.sec.lockout && !c.isEmpty && decide (s.now ≤ t + 60000000000) && sha256 key == s.sec.fuses.ownerHash
        && Config.slhVerify key (c ++ slice r 48 2) (slice r 56 16224) && !s.sec.fuses.debugDisable
        && s.sec.fuses.lifecycle != 0
        && (scope &&& s.scopeAvail) == scope && s.debugState
      if good then
        let s := (s.put F.SEC_STATUS_DEBUG_SCOPES (s.get F.SEC_STATUS_DEBUG_SCOPES ||| scope)).raise F.SEC_EVENT_DEBUG_GRANT
        { s with sec := { s.sec with refusals := 0 } }
      else
        let n := s.sec.refusals + 1
        let s := (s.raise F.SEC_EVENT_DEBUG_FAIL).satInc F.SEC_COUNTS_DEBUG_FAILS
        let s := if 8 ≤ n then s.raise F.SEC_EVENT_DEBUG_LOCKOUT else s
        { s with sec := { s.sec with refusals := n, lockout := s.sec.lockout || decide (8 ≤ n) } })

/-- A scope is unlocked (R316). -/
def State.scopeOpen (s : State) (k : Nat) : Bool := bitSet (s.get F.SEC_STATUS_DEBUG_SCOPES) k

/-- Change the fuses. (DEDUCED: log entry 132) -/
def State.updFuses (s : State) (f : Fuses → Fuses) : State := { s with sec := { s.sec with fuses := f s.sec.fuses } }

/-- KEY_PROV_WRITE (R319): the CAK is wrapped under K_KEK and blown with its CKN into the first slot without VALID; it takes
effect at the next reset. (DEDUCED: log entry 132) -/
def execKeyProvWrite (cak ckn : List Byte) (s : State) : Host.Outcome State Fault Refusal :=
  .next (if !s.scopeOpen 3 then s
    else match s.sec.kek with
      | none => s
      | some k =>
        match s.sec.fuses.caks.findIdx? (fun c => !c.valid) with
        | none => s.raise F.SEC_EVENT_KEY_PROV_FULL
        | some i => s.updFuses (fun f => { f with caks := modifyAt (fun c =>
            { c with wrapped := Config.aesWrap k (padTo 32 cak), ckn := padTo 16 ckn, valid := true }) i f.caks }))

/-- CAK_REVOKE (R319). -/
def execCakRevoke (slot : Nat) (s : State) : Host.Outcome State Fault Refusal :=
  .next (if s.scopeOpen 3 then s.updFuses (fun f => { f with caks := modifyAt (fun c => { c with revoked := true }) slot f.caks }) else s)

/-- DECOMMISSION (R316, R311). -/
def execDecommission (s : State) : Host.Outcome State Fault Refusal :=
  .next (if s.scopeOpen 4 then (s.updFuses (fun f => { f with lifecycle := 3 })).showFuses else s)

/-- DEBUG_DISABLE_BLOW (R316). -/
def execDebugDisableBlow (s : State) : Host.Outcome State Fault Refusal :=
  .next (if s.scopeOpen 4 then (s.updFuses (fun f => { f with debugDisable := true })).showFuses else s)

/-! ## Tamper (R320, R321) -/

/-- Whether a monitor watches in the power state: in Standby VDD_AON and the shield alone (R320). -/
def State.watched (s : State) (monitor rail : Nat) : Bool :=
  !s.pwr.off && decide (1 ≤ monitor) && decide (monitor ≤ 4)
    && (decide (s.power ≤ 2) || monitor == 4 || (monitor == 1 && rail == 2))

/-- Overwrite every secret with zero (R321 step 1). -/
def State.zeroise (s : State) : State :=
  let s := ((s.put F.SEC_STATUS_DEBUG_SCOPES 0).put F.SEC_STATUS_MKA_A 0).put F.SEC_STATUS_MKA_B 0
  { s with
    sec := { s.sec with kek := none, seed := none, cak := none, mka := [{}, {}], rollTarget := none, signing := none, waiting := none
                        challenge := none, response := none }
    saf := { s.saf with safeReq := true }
    pwr := { s.pwr with safeN := true } }

/-- TAMPER_TRIP (R321): `monitor` 1 voltage, 2 clock, 3 temperature, 4 shield; `rail` of a voltage trip.
(DEDUCED: log entry 133) -/
def execTamperTrip (monitor rail : Nat) (s : State) : Host.Outcome State Fault Refusal :=
  .next (if !s.watched monitor rail then s
    else
      let s := s.zeroise
      let s := ((s.put F.SEC_TAMPER_LAST_MONITOR monitor).put F.SEC_TAMPER_LAST_RAIL (if monitor = 1 then rail else 0)).satInc
        F.SEC_TAMPER_TAMPERS
      let s := s.life 780
      let s := (if monitor = 2 then s.life 748 else s).eventTick
      s.resetTrigger rcSAFETY 1)

/-! ## MACsec key agreement (R318) -/

/-- MKA runs on a port: MACsec is on, a CAK is in force, and the link is up. -/
def State.mkaRuns (s : State) (p : Nat) : Bool := s.macsecOn p && s.sec.cak.isSome && s.portUp p

def State.updMka (s : State) (p : Nat) (f : Mka → Mka) : State := { s with sec := { s.sec with mka := modifyAt f p s.sec.mka } }

/-- MKA_HELLO (R318): every 2 s. (DEDUCED: log entry 134) -/
def execMkaHello (port : Nat) (s : State) : Host.Outcome State Fault Refusal :=
  .next (
    let due := match (s.sec.mka.getD port {}).hello with
      | none => true
      | some t => decide (t + 50000000 ≤ s.pwr.refclk)
    if s.mkaRuns port && due then (s.txSend port { cls := txStatus, kind := .mka 0 }).updMka port (fun m => { m with hello := some s.pwr.refclk }) else s)

/-- MKPDU (R318): `kind` 0 makes MKA live, with the device's own SAK when it serves the key; 1 distributes the SAK `sak`, with
packet numbers from 1. (DEDUCED: log entry 134) -/
def execMkpdu (port kind sak : Nat) (s : State) : Host.Outcome State Fault Refusal :=
  .next (if !s.mkaRuns port then s
    else
      let s := s.raise (portFld port F.SEC_STATUS_MKA_A F.SEC_STATUS_MKA_B)
      if kind = 0 then s.updMka port (fun m => { m with live := true, sak := some (m.sak.getD 0) })
      else s.updMka port (fun m => { m with live := true, sak := some sak, txPn := 1, rxPn := 0 }))

/-- MACSEC_DROP (R318): a Deruento frame that arrives unprotected, or fails its check, under REQUIRE.
(DEDUCED: log entry 130) -/
def execMacsecDrop (port : Nat) (s : State) : Host.Outcome State Fault Refusal :=
  .next (if s.hostListens port && s.needsMacsec port then s.dropUnprotected else s)

end Sys2Proof.Machine
end

