-- ==== Sys2Proof/Machine/Power.lean ====
section
/-! DEFINITION. Sleep and wake (spec/21_clocks_power_reset.md, R351 to R354, R358; spec/20, R340): TC10, Doze entry and wake, the
standby wake. -/

namespace Sys2Proof.Machine

/-! ## TC10 sleep (R340) -/

/-- A port goes silent. -/
def State.sleepPort (s : State) (p : Nat) : State :=
  { (s.raise (portFld p F.HST_STATUS_ASLEEP_A F.HST_STATUS_ASLEEP_B)) with
    hst := { s.hst with sleepReq := modifyAt (fun _ => none) p s.hst.sleepReq } }

/-- TC10_SLEEP_REQUEST (R340): accepted only while a low-power request is accepted. -/
def execTc10SleepRequest (port : Nat) (s : State) : Host.Outcome State Fault Refusal :=
  .next (if port < 2 ∧ s.on (tc10En port) ∧ s.portUp port ∧ s.lowPower then s.sleepPort port else s)

/-- TC10_SLEEP_ACK (R340): the link partner acknowledges the port's sleep request. -/
def execTc10SleepAck (port : Nat) (s : State) : Host.Outcome State Fault Refusal :=
  .next (if port < 2 ∧ (s.hst.sleepReq.getD port none).isSome then s.sleepPort port else s)

/-- TC10_SLEEP_TIMEOUT (R340): 16 ms without acknowledgement. -/
def execTc10SleepTimeout (port : Nat) (s : State) : Host.Outcome State Fault Refusal :=
  .next (match s.hst.sleepReq.getD port none with
    | some t => if t + 16000000 ≤ s.now then s.sleepPort port else s
    | none => s)

/-! ## Doze entry (R351) -/

/-- Copy `n` bytes between ranges that do not overlap, with their poison. -/
def State.copyRange (s : State) (src dst n : Nat) : State :=
  let inSrc (a : Nat) : Bool := decide (src ≤ a) && decide (a < src + n)
  let cells := s.mem.bytes.filter (fun (c : Host.Cell) => inSrc c.1)
  let bad := s.mem.poison.filter inSrc
  let s := s.zeroFill dst (dst + n)
  let m := cells.foldl (fun m (c : Host.Cell) => sparseSet memUnlisted m (dst + (c.1 - src)) c.2) s.mem.bytes
  bad.foldl (fun t w => t.poisonWord (dst + (w - src))) { s with mem := { s.mem with bytes := m } }

/-- The weights partition: its address and its bytes (R212). -/
def State.weights (s : State) : Nat × Nat :=
  ((s.get F.NGT_CTRL_ACT_BANKS + s.get F.NGT_CTRL_HIST_BANKS) * 0x400000, s.get F.NGT_CTRL_WEIGHT_BANKS * 0x400000)

/-- The resident pages that generation 0 names, one after another from a place in the save region: the address each one returns
to, its address now, its place, its length (R351). (DEDUCED: log entry 152) -/
def State.pagesToSave (s : State) : Nat → List (Nat × PageRec) → List (Nat × Nat × Nat × Nat)
  | _, [] => []
  | at_, (p, r) :: rest =>
    if s.kvc.gen0.any (fun q => q.2.names p != 0) && (s.page p).state == .resident then
      let n := r.granules * 4096
      (s.histBase + r.loc * 4096, s.pageAddr (s.page p), at_, n) :: s.pagesToSave (at_ + n) rest
    else s.pagesToSave at_ rest

/-- An uncorrectable error met by the save or the copy-back, one per word (R352). (DESIGN CHOICE: log entry 153) -/
def State.saveErrors (s : State) (bad : List Nat) : State :=
  (bad.filter s.populated).foldl (fun t a => (t.raise F.PWR_EVENT_SAVE_ERR).eccUncorr a) s

/-- Steps 1 to 3 of R351: the save area, the weights once since the reset, the pages of generation 0. Without DDR4 every bank
is retained. (DEDUCED: log entry 152) -/
def State.saveState (s : State) : State :=
  let s := s.writeBytes (s.base F.PWR_SAVE_BASE_BASE) (padTo 0x100000 (Config.saveImage s.regs))
  if s.ddrInstalled = 0 then s.raise F.PWR_STATUS_RETAIN_ALL
  else
    let region := s.base F.PWR_DDR_SAVE_BASE_BASE
    let w := s.weights
    let h := (s.histBase, s.get F.NGT_CTRL_HIST_BANKS * 0x400000)
    let keepW := s.on F.NGT_CTRL_RETAIN_WEIGHT
    let keepH := s.on F.NGT_CTRL_RETAIN_HIST
    let s := if keepW || s.on F.PWR_STATUS_WEIGHTS_SAVED then s
      else (s.copyRange w.1 region w.2).raise F.PWR_STATUS_WEIGHTS_SAVED
    let pages := if keepH then [] else s.pagesToSave (region + w.2) s.kvc.gen0Pages
    let s := pages.foldl (fun t x => t.copyRange x.2.1 x.2.2.1 x.2.2.2) s
    { s with pwr := { s.pwr with
        savedPages := pages.map (fun x => (x.1, x.2.2.1, x.2.2.2))
        unpowered := (if keepW then [] else [w]) ++ (if keepH then [] else [h]) } }

/-! ## Wake (R352) -/

/-- The wake begins (R352, R340): the PLLs that Doze entry stopped are enabled; WAKE_SRC is set; each TC10 port sends its
wake-up request. (DEDUCED: log entry 155) -/
def State.startWake (s : State) (src : Nat) : State :=
  let s := { (s.raise F.PWR_STATUS_TRANSITION) with pwr := { s.pwr with wakeSrc := some src } }
  let s := (s.put F.HST_STATUS_WAKE_SRC (min src 3)).raise F.HST_EVENT_WAKE
  [0, 1].foldl (fun t p => if t.on (tc10En p) then t.emit (.tc10 p 1) else t) (s.startPlls s.pwr.dozeEn)

/-- A wake event (R352, R353, R358), by the code of LAST_WAKE: it wakes the device from Doze; during Doze entry the wake follows
the entry; in Standby it drives MAIN_EN high. In Active and Idle it does nothing. -/
def State.wakeEvent (s : State) (src : Nat) : State :=
  if s.pwr.off || s.pwr.refLost || s.pwr.wakeSrc.isSome then s
  else if s.power = 2 then s.startWake src
  else if s.power = 3 then { s with pwr := { s.pwr with mainEn := true, wakeSrc := some src } }
  else if s.power = 1 && s.on F.PWR_STATUS_TRANSITION then { s with pwr := { s.pwr with wakeSrc := some src } }
  else s

/-- TC10_WAKE (R340): a wake-up pulse or request on a port that takes part in TC10. -/
def execTc10Wake (port : Nat) (s : State) : Host.Outcome State Fault Refusal :=
  .next (if port < 2 ∧ s.on (tc10En port) then s.wakeEvent (port + 1) else s)

/-- LINK_ENERGY (R340): with TC10_EN = 0 any energy on the link wakes the device. -/
def execLinkEnergy (port : Nat) (s : State) : Host.Outcome State Fault Refusal :=
  .next (if port < 2 ∧ !s.on (tc10En port) then s.wakeEvent (port + 1) else s)

/-- WAKE_N (R352): held low for 10 µs. -/
def execWakeN (s : State) : Host.Outcome State Fault Refusal :=
  .next (if s.on F.PWR_CTRL_WAKE_PIN_EN then s.wakeEvent 4 else s)

/-- WAKE_ALARM (R352): device time reaches PWR_WAKE_TIME. -/
def execWakeAlarm (s : State) : Host.Outcome State Fault Refusal :=
  .next (if s.on F.PWR_CTRL_WAKE_ALARM_EN ∧ (s.get F.PWR_WAKE_TIME_TIME : Int) ≤ s.now then s.wakeEvent 3 else s)

/-- The device at rest in Doze (R351): every domain on REFCLK with the PLLs stopped and remembered, the trigger pulses ended, the
links down, DDR4 in self-refresh, and the entry reported. -/
def State.restInDoze (s : State) : State :=
  let s := { s with pwr := { s.pwr with dozeEn := s.get F.CLK_SRC_PLL_EN, dozeSel := s.get F.CLK_SRC_SEL, goingTo := none }
                    tim := { s.tim with pulse := s.tim.pulse.map (fun _ => none) } }
  let s := (s.selectSources 0).stopPlls 15
  let s := ((s.put F.HST_STATUS_LINK_A 0).put F.HST_STATUS_LINK_B 0).flag F.DDR_STATUS_SELF_REFRESH (s.ddrInstalled != 0)
  (((s.put F.PWR_STATUS_STATE 2).put F.PWR_STATUS_TRANSITION 0).raise F.PWR_EVENT_DOZE).satInc F.PWR_STATUS_DOZES

/-- DOZE_ENTRY_DONE (R351): the steps of the entry have ended and the device rests in Doze. `bad` are the words in which the
save met an uncorrectable error. A wake event of the entry's time then starts the wake (R358). (DEDUCED: log entry 151) -/
def execDozeEntryDone (bad : List Nat) (s : State) : Host.Outcome State Fault Refusal :=
  .next (if !s.on F.PWR_STATUS_TRANSITION || s.power ≠ 1 || s.pwr.refLost then s
    else
      let s := (s.saveErrors bad).saveState.restInDoze
      match s.pwr.wakeSrc with
      | some src => s.startWake src
      | none => s)

/-- Step 7 of R351 undone (R222, R352): zero fill of the banks that lost power, then the copies back.
(DEDUCED: log entry 152) -/
def State.restoreState (s : State) : State :=
  let w := s.weights
  let s' := s.pwr.unpowered.foldl (fun t r => t.zeroFill r.1 (r.1 + r.2)) s
  let s' := if s.pwr.unpowered.contains w then s'.copyRange (s.base F.PWR_DDR_SAVE_BASE_BASE) w.1 w.2 else s'
  let s' := s.pwr.savedPages.foldl (fun t x => t.copyRange x.2.1 x.1 x.2.2) s'
  let s' := if s.on F.NGT_CTRL_RETAIN_HIST || s.on F.PWR_STATUS_RETAIN_ALL then s' else s'.reloadHistory
  { s' with pwr := { s'.pwr with unpowered := [], savedPages := [] } }

/-- Time resumes in HOLDOVER until a domain qualifies again (R17): every reception is from before the Doze. A device that never
was LOCKED stays in FREE. (DEDUCED: log entry 154) -/
def State.resumeTime (s : State) : State :=
  let s := [0, 1].foldl (fun t k => (t.put (slotQual k) 0).updDom k (fun d =>
    { d with good := 0, bad := 0, syncRx := [], announceRx := [], offsets := [], twoStep := [], qualSince := none })) s
  if s.timeState = tmFREE then s else s.enterHoldover

/-- The heartbeat timer and the watchdog restart after HB_GRACE (R354). (DEDUCED: log entry 154) -/
def State.restartTimers (s : State) : State :=
  let at_ := s.pwr.refclk + 25000000 * s.get F.SAF_TIMING_HB_GRACE
  { s with saf := { s.saf with hbStart := s.saf.hbStart.map (fun _ => at_), hbLast := none, hbExpired := false, wdtLast := at_ } }

/-- WAKE_DONE (R352): restore and copy-back have ended; the device returns to Active as if a commit of TARGET = Active had
applied, which recomputes M_TUNED (R313), and R350 applies. `bad` are the words in which the copy-back met an uncorrectable error. -/
def execWakeDone (bad : List Nat) (s : State) : Host.Outcome State Fault Refusal :=
  .next (match s.pwr.wakeSrc with
    | none => s
    | some src =>
      if s.power ≠ 2 || s.pwr.refLost || s.get F.CLK_STATUS_READY ≠ s.pwr.dozeEn then s
      else
        let s := s.restoreState.saveErrors bad
        let s := ((s.put F.DDR_STATUS_SELF_REFRESH 0).put F.HST_STATUS_ASLEEP_A 0).put F.HST_STATUS_ASLEEP_B 0
        let s := { s with hst := { s.hst with sleepReq := [none, none] } }
        let s := ((s.put F.PWR_CTRL_TARGET 0).put F.PWR_STATUS_LAST_WAKE src).returnActive
        s.resumeTime.restartTimers.measureTuned)

/-! ## Standby wake (R353) -/

/-- Intervals spent in Standby are written at the wake as unmeasured ticks with SPAN of up to 255 each (R368).
(DEDUCED: log entry 157) -/
def State.standbyTicks (s : State) : Nat → Nat → State
  | _, 0 => s
  | 0, _ => s
  | fuel + 1, n => ((s.lifeTick 4 (min n 255)).ringAppend 0 0 false (min n 255) 0).standbyTicks fuel (n - min n 255)

/-- STANDBY_WAKE (R353): PWR_GOOD has been high for 1 ms after MAIN_EN was driven high by a wake event.
(DEDUCED: log entry 155) -/
def execStandbyWake (s : State) : Host.Outcome State Fault Refusal :=
  .next (if s.power ≠ 3 || !s.pwr.mainEn || s.pwr.refLost || s.pwr.off then s
    else
      let n := s.obs.standbyIv
      let s := s.standbyTicks n n
      ({ s with obs := { s.obs with standbyIv := 0 } }).resetTrigger rcSTANDBY_WAKE 0)

end Sys2Proof.Machine
end

