-- ==== Sys2Proof/Machine/Observe.lean ====
section
/-! DEFINITION. The error log's ring and the lifetime record's intervals (spec/22_lifetime_and_long_run.md, R364 to R370). -/

namespace Sys2Proof.Machine

/-- ERROR_LOG_DRAIN (R364): the oldest pending entry goes into the ring. -/
def execErrorLogDrain (s : State) : Host.Outcome State Fault Refusal :=
  .next (if s.pwr.refLost || s.pwr.off then s else s.logDrain)

/-- LIFETIME_INTERVAL (R366, R368, R370): ten minutes have passed. `measured` says that the monitors ran through all of them,
with the bins they found; `fails` programs of the flash fail first. In Standby the interval waits for the wake.
(DEDUCED: log entry 157) -/
def execLifetimeInterval (measured : Bool) (tempBin droopBin fails : Nat) (s : State) : Host.Outcome State Fault Refusal :=
  .next (if s.pwr.refLost || s.pwr.off then s
    else if s.power = 3 then { s with obs := { s.obs with standbyIv := s.obs.standbyIv + 1 } }
    else
      let t := tempBin % 16
      let d := droopBin % 16
      let s := s.lifeTick 4 1
      let s := if measured then (s.lifeTick (16 + 4 * t) 1).lifeTick (80 + 4 * d) 1 else s
      (s.put F.OBS_RING_SUSPENDED 0).ringAppend t d measured 1 fails)

/-- SECTOR_ERASE_DONE (R368): the erase of the sector ahead has ended. -/
def execSectorEraseDone (s : State) : Host.Outcome State Fault Refusal :=
  .next (match s.obs.erasing, s.obs.logRing with
    | some k, some lr =>
      if s.pwr.refLost || s.pwr.off then s
      else
        let s := (s.flashErase (lr + k * 65536)).put F.OBS_RING_ERASING 0
        { s with obs := { s.obs with erasing := none } }
    | _, _ => s)

end Sys2Proof.Machine
end

