-- ==== Sys2Proof/Machine/Queues.lean ====
section
/-! DEFINITION. The commands of the stream queues (spec/04_stream_queues.md). -/

namespace Sys2Proof.Machine

/-- A command at a queue acts on an enabled queue while the block's clock runs (R57, R349). -/
def State.whenQueue (s : State) (q : Nat) (f : State → State) : State :=
  if s.on (F.SQ_QCFG_ENABLE q) && decide (q < 1024) && s.runs wSQ then f s else s

/-- A command that falls into the queue's reset is discarded (R68). (DESIGN CHOICE: log entry 178) -/
def State.whenSettled (s : State) (q : Nat) (f : State → State) : State := if s.resetting q then s else f s

/-- A consumer command names one of the four mark slots (R63). -/
def State.whenMark (s : State) (q slot : Nat) (f : State → State) : State :=
  s.whenQueue q (fun s => if slot < 4 then s.whenSettled q f else s)

/-- QUEUE_WRITE (R65): the item is accepted whole or dropped whole. -/
def execQueueWrite (queue : Nat) (data : List Byte) (s : State) : Host.Outcome State Fault Refusal :=
  .next (s.whenQueue queue (fun s => s.queueWrite queue data))

/-- FLUSH_STROBE (R60). -/
def execFlushStrobe (queue : Nat) (s : State) : Host.Outcome State Fault Refusal :=
  .next (s.whenQueue queue (fun s => s.whenSettled queue (fun s => s.queueFlush queue)))

/-- PENDING_MARKER_STORE (R65). -/
def execPendingMarkerStore (queue : Nat) (s : State) : Host.Outcome State Fault Refusal :=
  .next (s.whenQueue queue (fun s => s.whenSettled queue (fun s => s.storePending queue)))

/-- MARK (R63). -/
def execMark (queue slot : Nat) (s : State) : Host.Outcome State Fault Refusal :=
  .next (s.whenMark queue slot (fun s => s.queueMark queue slot))

/-- REWIND (R63, R64). -/
def execRewind (queue slot : Nat) (s : State) : Host.Outcome State Fault Refusal :=
  .next (s.whenMark queue slot (fun s => s.queueRewind queue slot))

/-- RELEASE (R63). -/
def execRelease (queue slot : Nat) (s : State) : Host.Outcome State Fault Refusal :=
  .next (s.whenMark queue slot (fun s => s.queueRelease queue slot))

/-- READ (R63, R61): the operands are the checks that fail on the word's way: parity on leaving the head, the middle and the tail, CRC16
at the consumer port, and the uncorrectable Nougat check. What the model itself finds (a poisoned word of the spill region, bytes
altered there) adds to them. (DEDUCED: log entry 37) -/
def execRead (queue : Nat) (parBad : StageParity) (crcBad eccBad : Bool) (s : State) : Host.Outcome State Fault Refusal :=
  .next (s.whenQueue queue (fun s => s.whenSettled queue (fun s => s.queueRead queue
    { headPar := parBad.head, midPar := parBad.mid, tailPar := parBad.tail, crc := crcBad, ecc := eccBad })))

/-- READ_TIMEOUT (R67). -/
def execReadTimeout (queue : Nat) (s : State) : Host.Outcome State Fault Refusal :=
  .next (s.whenQueue queue (fun s => s.whenSettled queue (fun s => s.queueTimeout queue)))

/-- POINTER_MISMATCH (R62). -/
def execPointerMismatch (queue : Nat) (s : State) : Host.Outcome State Fault Refusal :=
  .next (s.whenQueue queue (fun s => s.queueReset queue))

end Sys2Proof.Machine
end

