-- ==== Sys2Proof/Machine/Readback.lean ====
section
/-! DEFINITION. Register reads (R7, R9): the registers whose value is computed when read, and what a read returns. -/

namespace Sys2Proof.Machine

/-- The latest-value time of a stream for the head instance (GLZ_LV_TIMEi): all ones when there is none. -/
def State.lvTime (s : State) (i : Nat) : BitVec 64 :=
  let none_ := ~~~0#64
  match s.head with
  | none => none_
  | some h =>
    if s.get (F.ING_STR_CFG_KIND i) = 1 then
      match lidarIn s.glz.lidarTime i [h] with
      | some t => BitVec.ofInt 64 t
      | none => none_
    else match s.valueOf h.cycle (some i) with
      | some c => BitVec.ofInt 64 c.time
      | none => none_

/-- The error-log entry that OBS_ELOG_SEL names, while it is held (22). -/
def State.selectedEntry (s : State) : Option LogEntry :=
  s.obs.ring.find? (fun e => e.index == s.get F.OBS_ELOG_SEL_INDEX)

/-- SQ_QSTATq as computed from the queue (04). -/
def State.qstat (s : State) (q : Nat) : BitVec 64 :=
  let x := s.queue q
  let marks := x.marks.zipIdx.foldl (fun m p => if p.1.isSome then m + 2 ^ p.2 else m) 0
  BitVec.ofNat 64 (satNat 19 x.used + marks * 2 ^ 20 + (if x.packing.isEmpty then 0 else 2 ^ 24)
    + (if x.markerOpen then 2 ^ 25 else 0) + (if x.pendItems = 0 then 0 else 2 ^ 26)
    + s.get (F.SQ_QSTAT_ITEMS_IN q) * 2 ^ 32)

/-- The mask of streams in some states (ING_ADMITTED, ING_QUARANTINED, ING_ABSENT). -/
def State.streamStates (s : State) (sts : List Nat) : BitVec 64 := BitVec.ofNat 64 (s.streamMask sts)

/-- RUNNING of a block's STATUS register: enabled, in a window that a read finds ungated. -/
def State.running (s : State) (en : Fld) : Nat := s.get en

/-- ARR_STATUS (11). -/
def State.arrStatus (s : State) : BitVec 64 :=
  BitVec.ofNat 64 (s.presentTiles + (if s.arrShared then 2 ^ 7 else 0) + (if 32 ≤ s.presentTiles then s.running F.ARR_CTRL_ENABLE else 0) * 2 ^ 8
    + s.arr.sets.length * 2 ^ 9)

/-- LAY_STATUS (12). -/
def State.layStatus (s : State) : BitVec 64 :=
  BitVec.ofNat 64 (s.running F.LAY_CTRL_ENABLE + ((List.range 16).countP (fun k => s.on (F.LAY_CTX_CFG_ENABLE k))) * 2
    + s.get F.LAY_STATUS_TABLE_ENTRIES * 2 ^ 6)

/-- ATN_STATUS (14). -/
def State.atnStatus (s : State) : BitVec 64 :=
  let busy := (s.atn.blocks.filter (fun b => !b.golden)).map (·.slot) ++ s.atn.deadSlots
  BitVec.ofNat 64 (s.running F.ATN_CTRL_ENABLE + ((List.range 64).countP (fun j => s.on (F.ATN_HEAD_VALID j))) * 2
    + s.atn.steps.length * 2 ^ 8 + (busy.foldl setBit 0) * 2 ^ 11)

/-- KVC_STATUS, KVC_GEN and the selected page record (15). -/
def State.kvcStatus (s : State) : BitVec 64 :=
  BitVec.ofNat 64 (s.running F.KVC_CTRL_ENABLE + s.gensHeld.eraseDups.length * 2 + (if s.kvc.shadowReady then 2 ^ 4 else 0)
    + (if s.kvcStaged then 2 ^ 5 else 0) + (s.kvc.pages.countP (fun p => p.2.state != .free)) * 2 ^ 6 + s.residentFree * 2 ^ 22)

def State.kvcGen (s : State) : BitVec 64 :=
  let old := s.gensHeld.foldl (fun m g => if genBefore g m then g else m) s.kvc.gen
  BitVec.ofNat 64 (s.kvc.gen + old * 2 ^ 32)

/-- TGS_STATUS and GLZ_STATUS with RUNNING (09, 10). -/
def State.tgsStatus (s : State) : BitVec 64 := F.TGS_STATUS_RUNNING.into (s.reg F.TGS_STATUS_RUNNING.addr) (s.running F.TGS_CTRL_ENABLE)
def State.glzStatus (s : State) : BitVec 64 := F.GLZ_STATUS_RUNNING.into (s.reg F.GLZ_STATUS_RUNNING.addr) (s.running F.GLZ_CTRL_ENABLE)

/-- BML_STATUS with RUNNING (16). -/
def State.bmlStatus (s : State) : BitVec 64 := F.BML_STATUS_RUNNING.into (s.reg F.BML_STATUS_RUNNING.addr) (s.running F.BML_CTRL_ENABLE)

/-- CHK_STATUS (17): a pair is in lockstep until its comparator has reported a mismatch. -/
def State.chkStatus (s : State) : BitVec 64 :=
  let on := s.on F.CHK_CTRL_ENABLE
  let ready := match s.head with
    | some i => s.chk.sentinels.any (fun x => x.cycle == i.cycle)
    | none => false
  BitVec.ofNat 64 ((if on then 1 else 0) + (if on && !s.chk.mismatch.1 then 2 else 0) + (if on && !s.chk.mismatch.2 then 4 else 0)
    + (if ready then 8 else 0) + s.get F.CHK_STATUS_SENT_CYCLE * 2 ^ 32)

/-- Registers whose value is computed when read. -/
def State.computedReg (s : State) (a : Nat) : Option (BitVec 64) :=
  if a = F.TIM_NOW_NOW.addr then some (BitVec.ofInt 64 s.now)
  else if a = F.ING_ADMITTED_MASK.addr then some (s.streamStates [2, 4])
  else if a = F.ING_QUARANTINED_MASK.addr then some (s.streamStates [3])
  else if a = F.ING_ABSENT_MASK.addr then some (s.streamStates [4])
  else if a = F.SQ_ACTIVE_ENABLED.addr then
    some (BitVec.ofNat 64 ((List.range 1024).countP (fun q => s.on (F.SQ_QCFG_ENABLE q))))
  else if (F.SQ_QSTAT_USED 0).addr ≤ a ∧ a < (F.SQ_QSTAT_USED 1024).addr then
    some (s.qstat ((a - (F.SQ_QSTAT_USED 0).addr) / 8))
  else if (F.GLZ_LV_TIME_TIME 0).addr ≤ a ∧ a < (F.GLZ_LV_TIME_TIME 64).addr then
    some (s.lvTime ((a - (F.GLZ_LV_TIME_TIME 0).addr) / 8))
  else if a = F.OBS_ELOG_SEL_INDEX.addr then
    some (BitVec.ofNat 64 (s.get F.OBS_ELOG_SEL_INDEX + (if s.selectedEntry.isSome then 2 ^ 32 else 0)))
  else if (F.OBS_ELOG_DATA_DATA 0).addr ≤ a ∧ a < (F.OBS_ELOG_DATA_DATA 4).addr then
    some (match s.selectedEntry with
      | some e => BitVec.ofNat 64 (leAt e.bytes (a - (F.OBS_ELOG_DATA_DATA 0).addr) 8)
      | none => 0)
  else if (F.OBS_LIFE_DATA 0).addr ≤ a ∧ a < (F.OBS_LIFE_DATA 256).addr then
    some (BitVec.ofNat 64 (leAt s.lifeBytes (a - (F.OBS_LIFE_DATA 0).addr) 8))
  else if a = F.PTS_STATUS_TABLES.addr then some s.ptsStatus
  else if a = F.ARR_STATUS_RUNNING.addr then some s.arrStatus
  else if a = F.LAY_STATUS_RUNNING.addr then some s.layStatus
  else if a = F.ATN_STATUS_RUNNING.addr then some s.atnStatus
  else if a = F.KVC_STATUS_RUNNING.addr then some s.kvcStatus
  else if a = F.KVC_GEN_CURRENT.addr then some s.kvcGen
  else if a = F.KVC_PAGE_DATA0_DATA.addr then
    some (BitVec.ofNat 64 (leAt (s.page (s.get F.KVC_PAGE_SEL_PAGE)).bytes 0 8))
  else if a = F.KVC_PAGE_DATA1_DATA.addr then
    some (BitVec.ofNat 64 (leAt (s.page (s.get F.KVC_PAGE_SEL_PAGE)).bytes 8 8))
  else if a = F.TGS_STATUS_RUNNING.addr then some s.tgsStatus
  else if a = F.GLZ_STATUS_RUNNING.addr then some s.glzStatus
  else if a = F.BML_STATUS_RUNNING.addr then some s.bmlStatus
  else if a = F.CHK_STATUS_RUNNING.addr then some s.chkStatus
  else if a = F.LFT_STATUS_SLOTS.addr then some s.lftStatus
  else if (F.LFT_CAM_STAT_ACTIVE_BANK 0).addr ≤ a ∧ a < (F.LFT_CAM_STAT_ACTIVE_BANK 16).addr
      ∧ (a - (F.LFT_CAM_STAT_ACTIVE_BANK 0).addr) % 32 = 0 then
    some (s.camStat ((a - (F.LFT_CAM_STAT_ACTIVE_BANK 0).addr) / 32))
  else none

/-- The value a 64-bit read of a register address returns: 0 at an undefined offset, in a gated window, and in
write-only bits (R7, R9). The counts of a host port with ENABLE 0 read 0 (20). (DEDUCED: log entry 9) -/
def State.readReg (s : State) (addr : Nat) : BitVec 64 :=
  let a := addr / 8 * 8
  match windowOf a, regRow a with
  | some w, some r =>
    if s.gated w then 0
    else if (a = (F.HST_RX_ACCEPTED 0).addr ∨ a = (F.HST_TX_FRAMES 0).addr) ∧ !s.on F.HST_CTRL_ENABLE_A then 0
    else if (a = (F.HST_RX_ACCEPTED 1).addr ∨ a = (F.HST_TX_FRAMES 1).addr) ∧ !s.on F.HST_CTRL_ENABLE_B then 0
    else ((s.computedReg a).getD (s.reg a)) &&& ~~~r.wo
  | _, _ => 0

end Sys2Proof.Machine
end

