-- ==== Sys2Proof/Machine/Register.lean ====
section
/-! DEFINITION. Register writes as commands (spec/00_scope.md, R6 to R9), the registers that act when written, loss of a required
unit (R3), and a Praline core's own loads and stores (spec/13_memory.md, R211; spec/22, R362). -/

namespace Sys2Proof.Machine

/-! ## Registers that act when written -/

/-- A write to SLV_BA_CMD (R131, R133): its fields are stored; ABORT abandons the running step; START begins one.
(DEDUCED: log entries 11, 59) -/
def State.writeBaCmd (s : State) (addr value : Nat) (half : Bool) : State :=
  let d := writeData addr value half &&& writeMask addr half
  let s := s.writeReg addr value half
  let s := if F.SLV_BA_CMD_ABORT.of d = 1 then s.baAbort else s
  if F.SLV_BA_CMD_START.of d = 1 then s.baStart else s

/-- A write to RST_CTRL (R356): WARM with KEY in the same write starts a warm reset. (DEDUCED: log entry 11) -/
def State.writeRstCtrl (s : State) (addr value : Nat) (half : Bool) : State :=
  let d := writeData addr value half &&& writeMask addr half
  if F.RST_CTRL_WARM.of d = 1 ∧ F.RST_CTRL_KEY.of d = 0xA5 then s.resetTrigger rcWARM 0 else s

/-- A write to SEC_ROLLBACK_CMD (R312): ADVANCE starts the advance to the TARGET of the write. (DEDUCED: log entry 11) -/
def State.writeRollback (s : State) (addr value : Nat) (half : Bool) : State :=
  let d := writeData addr value half &&& writeMask addr half
  if F.SEC_ROLLBACK_CMD_ADVANCE.of d = 1 then s.advanceRollback (F.SEC_ROLLBACK_CMD_TARGET.of d) else s.writeReg addr value half

/-- Whether an address lies in the window of a block that is not gated (R9). -/
def State.windowLive (s : State) (a : Nat) : Bool :=
  match windowOf a with
  | some w => !s.gated w
  | none => false

/-- A write to a register window (R6 to R9), with the effect of the registers that act when written; in the window of a gated
block it is discarded (R9). (DEDUCED: log entry 11) -/
def State.writeWindow (s : State) (addr value : Nat) (half : Bool) : State :=
  let a := addr / 8 * 8
  if !s.windowLive a then s
  else if a = F.CLK_SRC_SEL.addr then s.writeClkSrc addr value half
  else if a = F.SLV_BA_CMD_START.addr then s.writeBaCmd addr value half
  else if a = F.RST_CTRL_WARM.addr then s.writeRstCtrl addr value half
  else if a = F.SEC_ROLLBACK_CMD_ADVANCE.addr then s.writeRollback addr value half
  else s.writeReg addr value half

/-- Whether anything in the device can reach its registers: it is powered, not held
in reset (R2), clocked, and not in Doze or Standby. (DESIGN CHOICE: log entry 10) -/
def State.reachable (s : State) : Bool := !s.pwr.off && !s.boot.held && !s.pwr.refLost && decide (s.power ≤ 1)

/-- REGISTER_WRITE (R6 to R9): a 64-bit write, or with `half` a 32-bit one of the addressed half. An address that is not a
multiple of the size names the register, or the half, that it lies in. (DESIGN CHOICE: log entry 10) -/
def execRegisterWrite (addr value : Nat) (half : Bool) (s : State) : Host.Outcome State Fault Refusal :=
  .next (if s.reachable then s.writeWindow addr value half else s)

/-- BA_START (R131, R133): SLV_BA_CMD written with START = 1. -/
def execBaStart (value : Nat) (s : State) : Host.Outcome State Fault Refusal :=
  .next (if s.reachable then s.writeWindow F.SLV_BA_CMD_START.addr (setBit value 0) false else s)

/-- BA_ABORT (R133): SLV_BA_CMD written with ABORT = 1. -/
def execBaAbort (value : Nat) (s : State) : Host.Outcome State Fault Refusal :=
  .next (if s.reachable then s.writeWindow F.SLV_BA_CMD_START.addr (setBit value 1) false else s)

/-- REQUIRED_UNIT_LOSS (R3, R285). -/
def execRequiredUnitLoss (unit : ReqUnit) (s : State) : Host.Outcome State Fault Refusal :=
  .next (if s.pwr.off || s.pwr.refLost then s else s.loseUnit unit)

/-! ## A Praline core's loads and stores -/

/-- Whether an access is of a register window (R210). -/
def inWindows (a : Nat) : Bool := decide (windowBase ≤ a) && decide (a < windowBase + 0x190000)

/-- Whether a user access to the OBS window is denied (R362). Privileges: 0 machine, 1 supervisor, 2 user.
(DEDUCED: log entry 160) -/
def State.userDenied (s : State) (priv : Nat) (store : Bool) (addr : Nat) : Bool :=
  priv == 2 && windowOf (addr / 8 * 8) == some wOBS
    && (store || !s.on F.OBS_CTRL_USER_READ || decide (addr < (F.OBS_CNT_COUNT 0).addr) || decide ((F.OBS_CNT_COUNT 256).addr ≤ addr))

/-- A load of a register: 8 bytes, or the addressed half (R6). A 32-bit read of TIM_NOW's low half latches the high half, which
the next 32-bit read of the high half returns (02, TIM_NOW). -/
def State.coreLoad (s : State) (addr size : Nat) : State × Nat :=
  let v := (s.readReg addr).toNat
  if size = 8 then (s, v)
  else if addr = F.TIM_NOW_NOW.addr ∧ !s.gated wTIM then
    ({ s with tim := { s.tim with latch := some (v / 2 ^ 32) } }, v % 2 ^ 32)
  else if addr = F.TIM_NOW_NOW.addr + 4 ∧ !s.gated wTIM then
    ({ s with tim := { s.tim with latch := none } }, s.tim.latch.getD (v / 2 ^ 32))
  else (s, if addr % 8 = 4 then v / 2 ^ 32 else v % 2 ^ 32)

/-- An access fault of a core (R211, R362): the exception is the core's. (DEDUCED: log entry 160) -/
def State.accessFault (s : State) (core priv addr : Nat) : State :=
  (s.count 5 2 1 (some (64 + core)) none priv).emit (.accessFault core addr)

/-- Count an access to memory by a core (R360): class 1, by memory and direction. -/
def State.countAccess (s : State) (core priv : Nat) (store : Bool) (addr : Nat) : State :=
  s.count 1 ((if inNougat addr then 0 else 2) + if store then 1 else 0) 1 (some (64 + core)) (some addr) priv

/-- PRALINE_ACCESS (R211, R214, R220, R362): a load or a store of `size` bytes. `err` is what a load finds in the word: 0
nothing, 1 a single-bit error, 2 an uncorrectable one. An access of a register window is of 4 or 8 bytes (R6).
(DESIGN CHOICE: log entry 10) -/
def execPralineAccess (core priv : Nat) (store : Bool) (addr size value : Nat) (err : Nat) (s : State) :
    Host.Outcome State Fault Refusal :=
  .next (
    if !s.reachable || !bitSet s.boot.cores core || 2 < priv || s.boot.entry.isNone then s
    else
      let s := s.count 5 1 1 (some (64 + core)) (some addr) priv
      if inWindows addr then
        if (size ≠ 4 ∧ size ≠ 8) ∨ addr % size ≠ 0 then s
        else if s.userDenied priv store addr then s.accessFault core priv addr
        else if store then s.writeWindow addr value (size == 4)
        else
          let r := s.coreLoad addr size
          r.1.emit (.load core r.2 false)
      else if !s.populatedRange addr size then
        let s := (s.hole addr).accessFault core priv addr
        if store then s else s.emit (.load core 0 false)
      else if store then (s.countAccess core priv true addr).writeLe addr size value
      else
        let v := s.readLe addr size
        let s := s.countAccess core priv false addr
        let bad := s.badWords addr size
        let s := if err = 1 ∧ bad.isEmpty then s.eccCorrected addr 0 else s
        let s := if err = 2 ∧ bad.isEmpty then s.eccUncorr addr else bad.foldl State.eccUncorr s
        s.emit (.load core v (err == 2 || !bad.isEmpty)))

end Sys2Proof.Machine
end

