-- ==== Sys2Proof/Machine/Dispatch.lean ====
section
/-! DEFINITION. One arm per command: a direct call of its meaning. -/

namespace Sys2Proof.Machine

def exec (i : Instr) (s : State) : Host.Outcome State Fault Refusal :=
  match i with
  | .registerWrite addr value half => Sys2Proof.Machine.execRegisterWrite addr value half s
  | .timNowLowRead => Sys2Proof.Machine.execTimNowLowRead s
  | .requiredUnitLoss unit => Sys2Proof.Machine.execRequiredUnitLoss unit s
  | .instanceOpen => Sys2Proof.Machine.execInstanceOpen s
  | .sync port domain seq twoStep origin correction logInterval => Sys2Proof.Machine.execSync port domain seq twoStep origin correction logInterval s
  | .followUp port domain seq origin correction => Sys2Proof.Machine.execFollowUp port domain seq origin correction s
  | .announce port domain clockClass gm utcOffset logInterval => Sys2Proof.Machine.execAnnounce port domain clockClass gm utcOffset logInterval s
  | .pdelay port kind stamp => Sys2Proof.Machine.execPdelay port kind stamp s
  | .signaling port => Sys2Proof.Machine.execSignaling port s
  | .syncReceiptTimeout slot port => Sys2Proof.Machine.execSyncReceiptTimeout slot port s
  | .announceReceiptTimeout slot port => Sys2Proof.Machine.execAnnounceReceiptTimeout slot port s
  | .slewComplete => Sys2Proof.Machine.execSlewComplete s
  | .acqTimeout => Sys2Proof.Machine.execAcqTimeout s
  | .holdoverLimit => Sys2Proof.Machine.execHoldoverLimit s
  | .revert => Sys2Proof.Machine.execRevert s
  | .sensorPtpRx port isSync => Sys2Proof.Machine.execSensorPtpRx port isSync s
  | .sensorAnnounceTx port => Sys2Proof.Machine.execSensorAnnounceTx port s
  | .sensorSyncTx port => Sys2Proof.Machine.execSensorSyncTx port s
  | .sensorPdelayTx port => Sys2Proof.Machine.execSensorPdelayTx port s
  | .launchRequest port time dropLate dst payload => Sys2Proof.Machine.execLaunchRequest port time dropLate dst payload s
  | .launch port => Sys2Proof.Machine.execLaunch port s
  | .triggerEdge output => Sys2Proof.Machine.execTriggerEdge output s
  | .triggerPulseEnd output => Sys2Proof.Machine.execTriggerPulseEnd output s
  | .frameStart rx vc frameNumber => Sys2Proof.Machine.execFrameStart rx vc frameNumber s
  | .csiLine rx vc dataType data headerOk crcOk => Sys2Proof.Machine.execCsiLine rx vc dataType data headerOk crcOk s
  | .frameEnd rx vc frameNumber => Sys2Proof.Machine.execFrameEnd rx vc frameNumber s
  | .embeddedData rx vc data crcOk => Sys2Proof.Machine.execEmbeddedData rx vc data crcOk s
  | .frameEndTimeout stream => Sys2Proof.Machine.execFrameEndTimeout stream s
  | .lidarDatagram port frame => Sys2Proof.Machine.execLidarDatagram port frame s
  | .arpRequest port senderIp targetIp => Sys2Proof.Machine.execArpRequest port senderIp targetIp s
  | .canFrame ctrl id ide fdf brs data => Sys2Proof.Machine.execCanFrame ctrl id ide fdf brs data s
  | .busOff ctrl => Sys2Proof.Machine.execBusOff ctrl s
  | .busOffRecovery ctrl => Sys2Proof.Machine.execBusOffRecovery ctrl s
  | .dataReadyEdge slot => Sys2Proof.Machine.execDataReadyEdge slot s
  | .spiReadDone slot data => Sys2Proof.Machine.execSpiReadDone slot data s
  | .encoderEdge input rising held lost => Sys2Proof.Machine.execEncoderEdge input rising held lost s
  | .encoderIdleTimeout stream => Sys2Proof.Machine.execEncoderIdleTimeout stream s
  | .absentTimeout stream => Sys2Proof.Machine.execAbsentTimeout stream s
  | .discGraceEnd => Sys2Proof.Machine.execDiscGraceEnd s
  | .goldenLineInject rx => Sys2Proof.Machine.execGoldenLineInject rx s
  | .goldenPacketInsert port => Sys2Proof.Machine.execGoldenPacketInsert port s
  | .queueWrite queue data => Sys2Proof.Machine.execQueueWrite queue data s
  | .flushStrobe queue => Sys2Proof.Machine.execFlushStrobe queue s
  | .pendingMarkerStore queue => Sys2Proof.Machine.execPendingMarkerStore queue s
  | .mark queue slot => Sys2Proof.Machine.execMark queue slot s
  | .rewind queue slot => Sys2Proof.Machine.execRewind queue slot s
  | .release queue slot => Sys2Proof.Machine.execRelease queue slot s
  | .read queue parBad crcBad eccBad => Sys2Proof.Machine.execRead queue parBad crcBad eccBad s
  | .readTimeout queue => Sys2Proof.Machine.execReadTimeout queue s
  | .pointerMismatch queue => Sys2Proof.Machine.execPointerMismatch queue s
  | .pointItemRead slot => Sys2Proof.Machine.execPointItemRead slot s
  | .intakeEnd => Sys2Proof.Machine.execIntakeEnd s
  | .partCompensate slot => Sys2Proof.Machine.execPartCompensate slot s
  | .poseWaitTimeout slot => Sys2Proof.Machine.execPoseWaitTimeout slot s
  | .tableClose => Sys2Proof.Machine.execTableClose s
  | .tableFree => Sys2Proof.Machine.execTableFree s
  | .sparseConvStart golden => Sys2Proof.Machine.execSparseConvStart golden s
  | .dilate golden => Sys2Proof.Machine.execDilate golden s
  | .stagingBlock golden => Sys2Proof.Machine.execStagingBlock golden s
  | .outputBlock golden => Sys2Proof.Machine.execOutputBlock golden s
  | .lftItemRead cam => Sys2Proof.Machine.execLftItemRead cam s
  | .backboneDone slot records => Sys2Proof.Machine.execBackboneDone slot records s
  | .lift => Sys2Proof.Machine.execLift s
  | .liftBlockEmit => Sys2Proof.Machine.execLiftBlockEmit s
  | .liftDone => Sys2Proof.Machine.execLiftDone s
  | .egoSampleRead queue => Sys2Proof.Machine.execEgoSampleRead queue s
  | .registrationRecord => Sys2Proof.Machine.execRegistrationRecord s
  | .updateRecord => Sys2Proof.Machine.execUpdateRecord s
  | .egoIntakeClose => Sys2Proof.Machine.execEgoIntakeClose s
  | .asmBudgetExpiry done => Sys2Proof.Machine.execAsmBudgetExpiry done s
  | .egoIterationDone => Sys2Proof.Machine.execEgoIterationDone s
  | .egoSolveDone nougat => Sys2Proof.Machine.execEgoSolveDone nougat s
  | .egoPublish => Sys2Proof.Machine.execEgoPublish s
  | .baStart value => Sys2Proof.Machine.execBaStart value s
  | .baAbort value => Sys2Proof.Machine.execBaAbort value s
  | .baStepDone => Sys2Proof.Machine.execBaStepDone s
  | .baTimeout => Sys2Proof.Machine.execBaTimeout s
  | .warpStart => Sys2Proof.Machine.execWarpStart s
  | .tileHeadsDone cycle tile cells poisoned => Sys2Proof.Machine.execTileHeadsDone cycle tile cells poisoned s
  | .compareDone cycle tile => Sys2Proof.Machine.execCompareDone cycle tile s
  | .amendWindowClose => Sys2Proof.Machine.execAmendWindowClose s
  | .amendRecompute tile cells => Sys2Proof.Machine.execAmendRecompute tile cells s
  | .reuseDeadline => Sys2Proof.Machine.execReuseDeadline s
  | .tokenReceive token => Sys2Proof.Machine.execTokenReceive token s
  | .entryFire unit graph slot tile => Sys2Proof.Machine.execEntryFire unit graph slot tile s
  | .entryComplete unit graph slot error arg => Sys2Proof.Machine.execEntryComplete unit graph slot error arg s
  | .creditReturn edge => Sys2Proof.Machine.execCreditReturn edge s
  | .squashDone => Sys2Proof.Machine.execSquashDone s
  | .budgetOverrun cls key => Sys2Proof.Machine.execBudgetOverrun cls key s
  | .tileOperationDone tile fault tableErr => Sys2Proof.Machine.execTileOperationDone tile fault tableErr s
  | .chainStoreDone tile golden fault tableErr => Sys2Proof.Machine.execChainStoreDone tile golden fault tableErr s
  | .pralineAccess core priv store addr size value err => Sys2Proof.Machine.execPralineAccess core priv store addr size value err s
  | .eccWriteBack bank => Sys2Proof.Machine.execEccWriteBack bank s
  | .scrub bank err => Sys2Proof.Machine.execScrub bank err s
  | .ddrScrub channel err => Sys2Proof.Machine.execDdrScrub channel err s
  | .alertN channel addr again => Sys2Proof.Machine.execAlertN channel addr again s
  | .scoreDone => Sys2Proof.Machine.execScoreDone s
  | .normDone slot golden => Sys2Proof.Machine.execNormDone slot golden s
  | .valueDone slot golden => Sys2Proof.Machine.execValueDone slot golden s
  | .gradientDone slot golden => Sys2Proof.Machine.execGradientDone slot golden s
  | .generationChange => Sys2Proof.Machine.execGenerationChange s
  | .shadowCopyDone => Sys2Proof.Machine.execShadowCopyDone s
  | .dropRange => Sys2Proof.Machine.execDropRange s
  | .share => Sys2Proof.Machine.execShare s
  | .renumber => Sys2Proof.Machine.execRenumber s
  | .clear => Sys2Proof.Machine.execClear s
  | .undefine => Sys2Proof.Machine.execUndefine s
  | .commit => Sys2Proof.Machine.execCommit s
  | .walk step seq badPage => Sys2Proof.Machine.execWalk step seq badPage s
  | .append => Sys2Proof.Machine.execAppend s
  | .prefetch => Sys2Proof.Machine.execPrefetch s
  | .trainingStart port => Sys2Proof.Machine.execTrainingStart port s
  | .trainingDone port peer profileOk => Sys2Proof.Machine.execTrainingDone port peer profileOk s
  | .trainingTimeout port => Sys2Proof.Machine.execTrainingTimeout port s
  | .linkTimeout port => Sys2Proof.Machine.execLinkTimeout port s
  | .laneLockLoss port => Sys2Proof.Machine.execLaneLockLoss port s
  | .flit port flit => Sys2Proof.Machine.execFlit port flit s
  | .nackFlit port ack => Sys2Proof.Machine.execNackFlit port ack s
  | .creditFlit port vc count ack => Sys2Proof.Machine.execCreditFlit port vc count ack s
  | .keepalive port ack peerTime roundTrip => Sys2Proof.Machine.execKeepalive port ack peerTime roundTrip s
  | .keepaliveTx port => Sys2Proof.Machine.execKeepaliveTx port s
  | .dispatchCommand layer records rows => Sys2Proof.Machine.execDispatchCommand layer records rows s
  | .dispatch => Sys2Proof.Machine.execDispatch s
  | .result => Sys2Proof.Machine.execResult s
  | .refuse => Sys2Proof.Machine.execRefuse s
  | .serve layer slot rows => Sys2Proof.Machine.execServe layer slot rows s
  | .combineDeadline layer home => Sys2Proof.Machine.execCombineDeadline layer home s
  | .remoteCopy core desc dest target => Sys2Proof.Machine.execRemoteCopy core desc dest target s
  | .copy last => Sys2Proof.Machine.execCopy last s
  | .copyDone => Sys2Proof.Machine.execCopyDone s
  | .nack => Sys2Proof.Machine.execNack s
  | .copyTimeout => Sys2Proof.Machine.execCopyTimeout s
  | .sentinelRun cycle => Sys2Proof.Machine.execSentinelRun cycle s
  | .sentinelDone cycle cells => Sys2Proof.Machine.execSentinelDone cycle cells s
  | .goldenCompareDone num error => Sys2Proof.Machine.execGoldenCompareDone num error s
  | .goldenSpan => Sys2Proof.Machine.execGoldenSpan s
  | .guardTileIssue cells => Sys2Proof.Machine.execGuardTileIssue cells s
  | .heartbeatTimeout => Sys2Proof.Machine.execHeartbeatTimeout s
  | .watchdogService => Sys2Proof.Machine.execWatchdogService s
  | .watchdogExpiry => Sys2Proof.Machine.execWatchdogExpiry s
  | .lockstep pairB => Sys2Proof.Machine.execLockstep pairB s
  | .safSelf => Sys2Proof.Machine.execSafSelf s
  | .safePath => Sys2Proof.Machine.execSafePath s
  | .env source => Sys2Proof.Machine.execEnv source s
  | .noticeRepeat => Sys2Proof.Machine.execNoticeRepeat s
  | .commitNextBoundary host id items crcOk => Sys2Proof.Machine.execCommitNextBoundary host id items crcOk s
  | .commitAtTime host id time items crcOk => Sys2Proof.Machine.execCommitAtTime host id time items crcOk s
  | .commitCancel host id crcOk => Sys2Proof.Machine.execCommitCancel host id crcOk s
  | .commitCheckDone => Sys2Proof.Machine.execCommitCheckDone s
  | .commitApply => Sys2Proof.Machine.execCommitApply s
  | .powerOnReset => Sys2Proof.Machine.execPowerOnReset s
  | .resetN => Sys2Proof.Machine.execResetN s
  | .pwrGoodLow => Sys2Proof.Machine.execPwrGoodLow s
  | .warm => Sys2Proof.Machine.execWarm s
  | .resetRelease provEn testEn shieldBad pufBad flashBad => Sys2Proof.Machine.execResetRelease provEn testEn shieldBad pufBad flashBad s
  | .bistDone failed cores tilesMem tilesLogic banks ports => Sys2Proof.Machine.execBistDone failed cores tilesMem tilesLogic banks ports s
  | .ddrTrainingDone failedChannels => Sys2Proof.Machine.execDdrTrainingDone failedChannels s
  | .imageLoadDone flashBad latent => Sys2Proof.Machine.execImageLoadDone flashBad latent s
  | .rollbackAdvance target => Sys2Proof.Machine.execRollbackAdvance target s
  | .rollbackFuseBlown => Sys2Proof.Machine.execRollbackFuseBlown s
  | .attestReq port src reqId nonce flags => Sys2Proof.Machine.execAttestReq port src reqId nonce flags s
  | .quoteReady => Sys2Proof.Machine.execQuoteReady s
  | .challengeRead => Sys2Proof.Machine.execChallengeRead s
  | .responseWrite bytes => Sys2Proof.Machine.execResponseWrite bytes s
  | .debugVerifyDone => Sys2Proof.Machine.execDebugVerifyDone s
  | .keyProvWrite cak ckn => Sys2Proof.Machine.execKeyProvWrite cak ckn s
  | .cakRevoke slot => Sys2Proof.Machine.execCakRevoke slot s
  | .decommission => Sys2Proof.Machine.execDecommission s
  | .debugDisableBlow => Sys2Proof.Machine.execDebugDisableBlow s
  | .tamperTrip monitor rail => Sys2Proof.Machine.execTamperTrip monitor rail s
  | .mkaHello port => Sys2Proof.Machine.execMkaHello port s
  | .macsecDrop port => Sys2Proof.Machine.execMacsecDrop port s
  | .statusRead port src reqId => Sys2Proof.Machine.execStatusRead port src reqId s
  | .tileRead port src reqId cycle options mask => Sys2Proof.Machine.execTileRead port src reqId cycle options mask s
  | .tuneStage port src reqId stageSeq flags items => Sys2Proof.Machine.execTuneStage port src reqId stageSeq flags items s
  | .tuneCommit port src reqId header => Sys2Proof.Machine.execTuneCommit port src reqId header s
  | .heartbeat port src reqId hbSeq flags => Sys2Proof.Machine.execHeartbeat port src reqId hbSeq flags s
  | .heartbeatResetReq port src reqId hbSeq prot => Sys2Proof.Machine.execHeartbeatResetReq port src reqId hbSeq prot s
  | .heartbeatResetConfirm port src reqId hbSeq nonce prot => Sys2Proof.Machine.execHeartbeatResetConfirm port src reqId hbSeq nonce prot s
  | .logReadErrorLog port src reqId fromIndex count => Sys2Proof.Machine.execLogReadErrorLog port src reqId fromIndex count s
  | .logReadStartRecord port src reqId => Sys2Proof.Machine.execLogReadStartRecord port src reqId s
  | .logReadLifetime port src reqId => Sys2Proof.Machine.execLogReadLifetime port src reqId s
  | .malformedFrame port malformed => Sys2Proof.Machine.execMalformedFrame port malformed s
  | .trainBuild subscriber cycle => Sys2Proof.Machine.execTrainBuild subscriber cycle s
  | .hostLinkDown port left => Sys2Proof.Machine.execHostLinkDown port left s
  | .hostLinkUp port => Sys2Proof.Machine.execHostLinkUp port s
  | .tc10SleepRequest port => Sys2Proof.Machine.execTc10SleepRequest port s
  | .tc10Wake port => Sys2Proof.Machine.execTc10Wake port s
  | .wakeN => Sys2Proof.Machine.execWakeN s
  | .wakeAlarm => Sys2Proof.Machine.execWakeAlarm s
  | .wakeDone bad => Sys2Proof.Machine.execWakeDone bad s
  | .standbyWake => Sys2Proof.Machine.execStandbyWake s
  | .pllReady pll => Sys2Proof.Machine.execPllReady pll s
  | .clkSrcWrite value => Sys2Proof.Machine.execClkSrcWrite value s
  | .refclkLoss => Sys2Proof.Machine.execRefclkLoss s
  | .refclkRecovery lossUs => Sys2Proof.Machine.execRefclkRecovery lossUs s
  | .vidStep up => Sys2Proof.Machine.execVidStep up s
  | .errorLogDrain => Sys2Proof.Machine.execErrorLogDrain s
  | .lifetimeInterval measured tempBin droopBin fails => Sys2Proof.Machine.execLifetimeInterval measured tempBin droopBin fails s
  | .sectorEraseDone => Sys2Proof.Machine.execSectorEraseDone s
  | .hostPdelayTx port => Sys2Proof.Machine.execHostPdelayTx port s
  | .sensorPdelay port kind stamp => Sys2Proof.Machine.execSensorPdelay port kind stamp s
  | .mkpdu port kind sak => Sys2Proof.Machine.execMkpdu port kind sak s
  | .tc10SleepAck port => Sys2Proof.Machine.execTc10SleepAck port s
  | .tc10SleepTimeout port => Sys2Proof.Machine.execTc10SleepTimeout port s
  | .linkEnergy port => Sys2Proof.Machine.execLinkEnergy port s
  | .dozeEntryDone bad => Sys2Proof.Machine.execDozeEntryDone bad s
  | .pageCopyEnd page => Sys2Proof.Machine.execPageCopyEnd page s
  | .vddAonFall => Sys2Proof.Machine.execVddAonFall s

end Sys2Proof.Machine
end

