-- ==== Sys2Proof/Safety.lean ====
section
/-! DEFINITION. What a good state of the device is, in the terms that claims use. -/

namespace Sys2Proof.Machine

/-- The sparse maps of a state are in their one canonical form: keys strictly rising, and no entry equal to what an unlisted key
reads as. Equal register files, queues, memories and flashes are then equal data. -/
structure State.Canonical (s : State) : Prop where
  regs   : sparseWf regReset 0 s.regs = true
  queues : sparseWf queueUnlisted 0 s.queues = true
  mem    : Memory.wf s.mem.bytes = true
  flash  : sparseWf flashUnlisted 0 s.boot.flash = true

end Sys2Proof.Machine
end

