-- ==== Sys2Proof/Certificates/Slice0/Obligations.lean ====
section
/-! DEFINITION. The statements for the provers: what each command does to the state, what a reset leaves, what a step keeps, and
what families of commands leave unchanged. A free value stands in them as the constant of Config applied to the counter
that the state holds, so each holds whatever that value is. -/

open Sys2Proof Sys2Proof.Machine

/-- A step takes the command at the front of the queue and is that command's effect on the state with the queue's rest.
The queue of waiting commands is the model's own (assumption log entry 1); what each command does is the spec's. -/
def Obligations.StepRunsFrontCommand : Prop :=
  ∀ s : State,
    (∀ (c : Instr) (rest : List Instr), step { s with pending := c :: rest } = exec c { s with pending := rest })

/-- DESIGN CHOICE (assumption log entry 1): with nothing waiting, a step is one REFCLK period: the REFCLK count rises by
one, the queue stays empty, and memory and the stream queues hold while the ports have nothing to send; without REFCLK
nothing moves (parts of R16, R348). That a command whose condition does not hold changes nothing is the model's choice
(log entry 2). -/
def Obligations.EmptyQueueTicks : Prop :=
  ∀ s : State, s.pending = [] →
    (s.pwr.refLost = true → step s = .next s) ∧
    (s.pwr.refLost = false → s.pwr.off = false → ∃ t, step s = .next t ∧ t.pwr.refclk = s.pwr.refclk + 1 ∧ t.pending = []) ∧
    (s.pwr.refLost = false → s.pwr.off = false → (∀ p, p < 8 → (s.txPort p).cur = none ∧ (s.txPort p).queue = []) → ∃ t, step s = .next t ∧ t.pwr = { s.pwr with refclk := s.pwr.refclk + 1 } ∧ t.pending = [] ∧ t.mem = s.mem ∧ t.queues = s.queues)

/-- The state after reset is in canonical form: registers, queues, memory and flash list strictly rising keys and no entry
equal to what an unlisted key reads as. -/
def Obligations.ResetIsCanonical : Prop := State.reset.Canonical

/-- Every step keeps the canonical form: if the registers, queues, memory and flash of a state list strictly rising keys
and no entry equal to what an unlisted key reads as, so do those of the state that a step answers. -/
def Obligations.StepKeepsCanonical : Prop :=
  ∀ s : State, s.Canonical →
    (∀ (t : State), step s = .next t → t.Canonical)

/-- A run-ahead entry is ready only when, on every output edge, at least one credit remains after it takes one; the head's
needs only one (R158). -/
def Obligations.RunAheadLeavesACredit : Prop :=
  ∀ s : State,
    (∀ (unit : Nat) (run : RunId) (e : ListEntry), e = s.entryOf run.graph unit (s.tgs.firedCount unit run) → (s.runsAhead run = true → s.ready unit run = true → ∀ x ∈ e.outs, 1 ≤ s.creditsLeft x - 1) ∧
      (s.runsAhead run = false → (run.golden || s.mayRun run.cycle) = true → s.tgs.firedCount unit run < (s.unitDir run.graph unit).2 → e.ok = true → (∀ x ∈ e.ins, (s.tgs.input run x).isSome = true) →
        (∀ x ∈ e.outs, 1 ≤ s.creditsLeft x) → s.unitAllows unit run e = true → s.ready unit run = true))

/-- A PLL is started 8,192 REFCLK cycles after its enable and not before, READY clears at once when it is disabled, the
count restarts from zero at each enable, and no PLL setting changes device time (R344). -/
def Obligations.PllsCountFromEnable : Prop :=
  ∀ s : State,
    (∀ (p t : Nat), s.pwr.pllStart.getD p none = some t → s.pwr.refLost = false → s.pwr.refclk < t + 8192 → exec (.pllReady p) s = .next s) ∧
    (∀ (p t : Nat), s.pwr.pllStart.getD p none = some t → s.pwr.refLost = false → t + 8192 ≤ s.pwr.refclk → p < 4 → ∃ t, exec (.pllReady p) s = .next t ∧ bitSet (t.get F.CLK_STATUS_READY) p = true ∧ t.tim = s.tim) ∧
    (∀ (v p : Nat), s.boot.locked = false → (∀ k, k < 4 → bitSet v (8 + k) = true → bitSet (s.get F.CLK_STATUS_READY) k = true) → (∀ k, k < 4 → bitSet (s.get F.CLK_STATUS_ACTIVE) k = true → bitSet v k = true) → p < 4 → bitSet v p = false → ∃ t, exec (.clkSrcWrite v) s = .next t ∧ bitSet (t.get F.CLK_STATUS_READY) p = false ∧ t.pwr.pllStart.getD p none = none) ∧
    (∀ (v p : Nat), s.boot.locked = false → (∀ k, k < 4 → bitSet v (8 + k) = true → bitSet (s.get F.CLK_STATUS_READY) k = true) → (∀ k, k < 4 → bitSet (s.get F.CLK_STATUS_ACTIVE) k = true → bitSet v k = true) → p < 4 → bitSet v p = true → bitSet (s.get F.CLK_SRC_PLL_EN) p = false → ∃ t, exec (.clkSrcWrite v) s = .next t ∧ t.pwr.pllStart.getD p none = some s.pwr.refclk) ∧
    (∀ (v : Nat) (t : State), exec (.clkSrcWrite v) s = .next t → t.tim = s.tim)

/-- PWR_GOOD low while MAIN_EN is high resets as RESET_N does and is recorded as code 2; while MAIN_EN is low it is
ignored; when both fall together, one reset occurs (R379). -/
def Obligations.PowerGoodResets : Prop :=
  ∀ s : State,
    (s.pwr.mainEn = true → exec .pwrGoodLow s = exec .resetN s) ∧
    (s.pwr.mainEn = false → exec .pwrGoodLow s = .next s) ∧
    (∀ (t : State), s.pwr.mainEn = true → s.pwr.off = false → s.boot.held = false → s.boot.running = none → exec .pwrGoodLow s = .next t → t.get F.RST_CAUSE_LAST = 2 ∧ exec .resetN t = .next (t.put F.RST_CAUSE_SEEN (setBit (t.get F.RST_CAUSE_SEEN) 1)))

/-- R9: a read at an undefined offset within a block window, or at any offset in the window of a gated block, returns 0,
and a write to such an offset is discarded; no error is reported, for the state stays as it is. -/
def Obligations.WritesDiscarded : Prop :=
  ∀ s : State,
    (∀ (a v w : Nat) (half : Bool), windowOf (a / 8 * 8) = some w → regRow (a / 8 * 8) = none ∨ s.gated w = true → s.readReg a = 0 ∧ exec (.registerWrite a v half) s = .next s)

/-- A write to a register that does not act when written, bit by bit (parts of R6 to R8): bits of the addressed half that
are RW, RWS, or RWL before the lock take the data; W1C bits written 1 clear; every other bit, and every other
register, keeps its value. The write of a register with RWL bits after the lock is the next statement. That a command
whose condition does not hold changes nothing is the model's choice (log entry 2). -/
def Obligations.RegisterWriteByAccessType : Prop :=
  ∀ s : State, s.reachable = true →
    (∀ (a v w : Nat) (half : Bool) (r : RegRow), windowOf (a / 8 * 8) = some w → regRow (a / 8 * 8) = some r → s.gated w = false → a / 8 * 8 ∉ [F.CLK_SRC_SEL.addr, F.SLV_BA_CMD_START.addr, F.RST_CTRL_WARM.addr, F.SEC_ROLLBACK_CMD_ADVANCE.addr, F.CLK_EN_EN.addr] → w ≠ wOBS → s.boot.locked = false ∨ r.rwl &&& writeMask a half = 0#64 → ∃ t, exec (.registerWrite a v half) s = .next t ∧ t = { s with regs := t.regs } ∧ (∀ b, b ≠ a / 8 * 8 → t.reg b = s.reg b) ∧
      ∀ i, i < 64 → (t.reg (a / 8 * 8)).getLsbD i =
        if (writeMask a half).getLsbD i && (r.rw ||| r.rws ||| (if s.boot.locked then 0#64 else r.rwl)).getLsbD i then
          (writeData a v half).getLsbD i
        else (s.reg (a / 8 * 8)).getLsbD i &&
          !((writeMask a half).getLsbD i && r.w1c.getLsbD i && (writeData a v half).getLsbD i))

/-- After the lock, a write that reaches RWL bits leaves them as they are and sets LOCK_ERR of the owning block (parts of
R7). That a command whose condition does not hold changes nothing is the model's choice (log entry 2). -/
def Obligations.LockedWritesSetLockErr : Prop :=
  ∀ s : State, s.reachable = true → s.boot.locked = true →
    (∀ (a v w : Nat) (half : Bool) (r : RegRow) (f : Fld), windowOf (a / 8 * 8) = some w → regRow (a / 8 * 8) = some r → s.gated w = false → a / 8 * 8 ∉ [F.CLK_SRC_SEL.addr, F.SLV_BA_CMD_START.addr, F.RST_CTRL_WARM.addr, F.SEC_ROLLBACK_CMD_ADVANCE.addr, F.CLK_EN_EN.addr] → w ≠ wOBS → r.rwl &&& writeMask a half ≠ 0#64 → lockErr (a / 8 * 8) = some f → f.addr ≠ a / 8 * 8 → f.lo < 64 ∧ f.w = 1 → ∃ t, exec (.registerWrite a v half) s = .next t ∧ t.get f = 1 ∧ t = { s with regs := t.regs } ∧
      (∀ i, i < 64 → r.rwl.getLsbD i = true → r.rw.getLsbD i = false → r.rws.getLsbD i = false → r.w1c.getLsbD i = false →
        (t.reg (a / 8 * 8)).getLsbD i = (s.reg (a / 8 * 8)).getLsbD i))

/-- REQUIRED_UNIT_LOSS (parts of R3, R285): the level falls at once to the highest whose units remain and SAF takes
UNIT_LOST; where it need not fall, only the unit is lost. Choices of the model that its clauses can rest on: log
entries 2, 56, 110, 114, 148, 197. -/
def Obligations.UnitLossActs : Prop :=
  ∀ s : State, s.pwr.off = false → s.pwr.refLost = false →
    (∀ (u : ReqUnit) (old new : Nat), (s.addLost u).boot.level = some old → (s.addLost u).levelNow = some new → new < old → exec (.requiredUnitLoss u) s = .next (({ s.addLost u with boot := { (s.addLost u).boot with level := some new } } : State).detect
        cUNIT_LOST 0xFF new)) ∧
    (∀ (u : ReqUnit) (old new : Nat), (s.addLost u).boot.level = some old → (s.addLost u).levelNow = some new → old ≤ new → exec (.requiredUnitLoss u) s = .next (s.addLost u))

/-- The registers as a map: a field reads back what was written, and a field that shares no bit with it keeps its value. -/
def Obligations.RegisterLawsHold : Prop :=
  ∀ s : State,
    (∀ (f : Fld) (n : Nat), f.lo + f.w ≤ 64 → (s.put f n).get f = n % 2 ^ f.w) ∧
    (∀ (f g : Fld) (n : Nat), f.addr ≠ g.addr ∨ f.lo + f.w ≤ g.lo ∨ g.lo + g.w ≤ f.lo → g.lo + g.w ≤ 64 → (s.put f n).get g = s.get g)

/-- TIM's own registers and timers: the low half of TIM_NOW latches the high half, Signaling changes nothing, a foreign
master is counted, a slew ends in LOCKED, HOLDOVER past its limit is untraceable (parts of R15, R19, R24, R27).
Choices of the model that its clauses can rest on: log entries 2, 164. -/
def Obligations.TimeEngineActs : Prop :=
  ∀ s : State, s.gated wTIM = false → s.pwr.refLost = false →
    (exec .timNowLowRead s = .next { s with tim := { s.tim with latch := some (ofInt 64 s.tim.time / 2 ^ 32) } }) ∧
    (∀ (p : Nat), exec (.signaling p) s = .next s) ∧
    (∀ (p : Nat) (b : Bool), p < 6 → ∃ t, exec (.sensorPtpRx p b) s = .next t ∧ t.get F.TIM_EVENT_FOREIGN_MASTER = 1 ∧
      t.tim = { s.tim with foreign := s.tim.foreign + 1 } ∧ t = { s with regs := t.regs, tim := t.tim } ∧
      ∀ a, a ≠ F.TIM_EVENT_FOREIGN_MASTER.addr → t.reg a = s.reg a) ∧
    (s.get F.TIM_STATUS_STATE = 2 → s.getI F.TIM_SLEW_REMAIN_VALUE = 0 → ∃ t, exec .slewComplete s = .next t ∧ t.get F.TIM_STATUS_STATE = 1 ∧
      t.get F.TIM_FREQ_ADJ_SLEW_ADJ = 0 ∧ t.get F.TIM_FREQ_ADJ_SERVO_ADJ = s.get F.TIM_FREQ_ADJ_SERVO_ADJ ∧ t = { s with regs := t.regs } ∧
      ∀ a, a ≠ F.TIM_STATUS_STATE.addr → a ≠ F.TIM_FREQ_ADJ_SLEW_ADJ.addr → t.reg a = s.reg a) ∧
    (∀ (t0 : Int), s.get F.TIM_STATUS_STATE = 3 → s.tim.holdSince = some t0 → t0 + s.get F.TIM_CTRL_HOLDOVER_LIMIT * 1000000000 ≤ s.tim.time → ∃ t, exec .holdoverLimit s = .next t ∧ t.get F.TIM_STATUS_UNTRACEABLE = 1 ∧ t.get F.TIM_EVENT_UNTRACEABLE = 1 ∧
      t.get F.TIM_STATUS_STATE = 3 ∧ t = { s with regs := t.regs } ∧
      ∀ a, a ≠ F.TIM_STATUS_UNTRACEABLE.addr → a ≠ F.TIM_EVENT_UNTRACEABLE.addr → t.reg a = s.reg a)

/-- gPTP messages of the host ports: Sync, Follow_Up, Announce, the peer delay messages and the receipt timeouts (parts of
R21, R22, R26). Choices of the model that its clauses can rest on: log entries 2, 14, 17, 166, 169. -/
def Obligations.PtpMessagesAct : Prop :=
  ∀ s : State, s.gated wTIM = false → s.pwr.refLost = false →
    (∀ (p d q k : Nat) (o c l : Int) (u : State), s.slotFor p d = some k → u = s.updDom k (fun x => { x with syncRx := (p, s.tim.time, l) :: x.syncRx.filter (fun y => y.1 != p) }) → u.passive k p = false → exec (.sync p d q true o c l) s = .next (u.updDom k (fun x =>
        { x with twoStep := (p, q, s.rxStamp p, c, u.tim.slewed) :: x.twoStep.filter (fun y => y.1 != p) }))) ∧
    (∀ (p d q k : Nat) (o c l : Int) (u : State), s.slotFor p d = some k → u = s.updDom k (fun x => { x with syncRx := (p, s.tim.time, l) :: x.syncRx.filter (fun y => y.1 != p) }) → u.passive k p = false → exec (.sync p d q false o c l) s = .next (u.measure k p (s.rxStamp p) (o + c) u.tim.slewed).chooseSlot) ∧
    (∀ (p d q k : Nat) (two : Bool) (o c l : Int) (u : State), s.slotFor p d = some k → u = s.updDom k (fun x => { x with syncRx := (p, s.tim.time, l) :: x.syncRx.filter (fun y => y.1 != p) }) → u.passive k p = true → exec (.sync p d q two o c l) s = .next u.chooseSlot) ∧
    (∀ (p d q k : Nat) (o c rx c0 sl : Int) (u : State), s.slotFor p d = some k → (s.dom k).twoStep.find? (fun x => x.1 == p && x.2.1 == q) = some (p, q, rx, c0, sl) → u = s.updDom k (fun x => { x with twoStep := x.twoStep.filter (fun y => y.1 != p) }) → u.passive k p = false → exec (.followUp p d q o c) s = .next (u.measure k p rx (o + c + c0) sl).chooseSlot) ∧
    (∀ (p d cls k : Nat) (gm : Announcer) (utc l : Int), s.slotFor p d = some k → cls ≤ s.get F.TIM_QUALIFY_CLASS_LIMIT → ((s.dom k).announced = true → (s.dom k).gmId = gm.id) → exec (.announce p d cls gm utc l) s = .next ((((s.put (slotClass k) cls).put (slotGm k) gm.id).updDom k (fun x => { x with
        announced := true, gmId := gm.id, utcOffset := utc
        vectors := (p, [gm.prio1, cls, gm.accuracy, gm.variance, gm.prio2, gm.id, gm.steps, gm.sender]) :: x.vectors.filter (fun y => y.1 != p)
        announceRx := (p, s.tim.time, l) :: x.announceRx.filter (fun y => y.1 != p) })).showSlave k)) ∧
    (∀ (k : Nat) (a b : List Nat), k < 2 → bitSet (s.get (slotPorts k)) 0 = true → bitSet (s.get (slotPorts k)) 1 = true → (s.dom k).vectors = [(0, a), (1, b)] → s.passive k 1 = vectorLe a b ∧ s.passive k 0 = !vectorLe a b) ∧
    (∀ (p : Nat) (st : Int), p < 2 → exec (.pdelay p 0 st) s = .next (s.txSend p { cls := txStatus, kind := .ptp 3 [s.rxStamp p] })) ∧
    (∀ (p : Nat) (st t1 t2 t4 : Int), p < 2 → (s.tim.ports.getD p {}).t1 = some t1 → (s.tim.ports.getD p {}).resp = some (t2, t4) → exec (.pdelay p 2 st) s = .next (({ s with tim := { s.tim with ports := modifyAt (fun x => { x with t1 := none, resp := none, delay := ((t4 - t1) - (st - t2)) / 2 }) p s.tim.ports } } : State).hostCapable p)) ∧
    (∀ (k p : Nat) (l : List (Nat × Time × Int)), k < 2 → (s.dom k).syncRx = l → s.on (slotEn k) = true → (l.filter (fun x => bitSet (s.get (slotPorts k)) x.1)).any (fun x =>
      x.1 == p && s.rxExpired (s.get F.TIM_QUALIFY_SYNC_TIMEOUT) x) = true → exec (.syncReceiptTimeout k p) s = .next (let u := (s.updDom k (fun x => { x with vectors := x.vectors.filter (fun v => v.1 != p) })).showSlave k
      if (l.filter (fun x => bitSet (s.get (slotPorts k)) x.1)).all (u.rxExpired (s.get F.TIM_QUALIFY_SYNC_TIMEOUT)) then (u.raise (slotLost k)).unqualify k else u)) ∧
    (∀ (k p : Nat) (l : List (Nat × Time × Int)), k < 2 → (s.dom k).announceRx = l → s.on (slotEn k) = true → (l.filter (fun x => bitSet (s.get (slotPorts k)) x.1)).any (fun x =>
      x.1 == p && s.rxExpired (s.get F.TIM_QUALIFY_ANNOUNCE_TIMEOUT) x) = true → exec (.announceReceiptTimeout k p) s = .next (let u := (s.updDom k (fun x => { x with vectors := x.vectors.filter (fun v => v.1 != p) })).showSlave k
      if (l.filter (fun x => bitSet (s.get (slotPorts k)) x.1)).all (u.rxExpired (s.get F.TIM_QUALIFY_ANNOUNCE_TIMEOUT)) then (u.raise (slotLost k)).unqualify k else u))

/-- The time state: the acquisition timeout, the return to the preferred slot, and where a switch slews (parts of R18,
R19, R23). Choices of the model that its clauses can rest on: log entries 2, 18, 165, 168. -/
def Obligations.TimeStateActs : Prop :=
  ∀ s : State, s.gated wTIM = false → s.pwr.refLost = false →
    (∀ (t0 : Int), s.tim.acqStart = some t0 → s.get F.TIM_STATUS_STATE = 0 → t0 + s.get F.TIM_CTRL_ACQ_TIMEOUT * 1000000000 ≤ s.tim.time → exec .acqTimeout s = .next ({ s.raise F.TIM_EVENT_ACQ_TIMEOUT with tim := { s.tim with acqStart := none } } : State).reportLevel) ∧
    (∀ (k : Nat) (t0 : Int), s.get F.TIM_CTRL_PREFERRED = k → s.on F.TIM_CTRL_REVERT = true → s.on (slotQual k) = true → s.follows (1 - k) = true → (s.dom k).qualSince = some t0 → t0 + s.get F.TIM_CTRL_REVERT_HOLD * 1000000000 ≤ s.tim.time → exec .revert s = .next (s.switchTo k)) ∧
    (∀ (k : Nat), k < 2 → s.getI (slotOffset k) ≠ 0 → (s.getI (slotOffset k)).natAbs ≤ s.get F.TIM_DISC_THRESHOLD_THRESHOLD → (s.switchTo k).get F.TIM_STATUS_STATE = 2 ∧ (s.switchTo k).get F.TIM_STATUS_ACTIVE_SLOT = k ∧
      (s.switchTo k).get F.TIM_STATUS_ACTIVE_DOMAIN = s.get (slotNumber k) ∧ (s.switchTo k).get F.TIM_EVENT_SWITCH = 1 ∧ (s.switchTo k).tim.time = s.tim.time)

/-- What device time sends: sensor PTP messages, peer delay requests, launches and camera triggers (parts of R27 to R32).
Choices of the model that its clauses can rest on: log entries 2, 16, 164. -/
def Obligations.TimedOutputsAct : Prop :=
  ∀ s : State, s.gated wTIM = false → s.pwr.refLost = false →
    (∀ (p : Nat), s.sensorMaster p = true → s.txDue (10 * p + 1) 1000000000 = true → s.get F.TIM_STATUS_STATE = 1 → exec (.sensorAnnounceTx p) s = .next ((s.txSend (p + 2) { cls := txStatus, kind := .ptp 1 [s.get F.TIM_SENSOR_DOM_PRIORITY1,
        s.get (slotClass (s.get F.TIM_STATUS_ACTIVE_SLOT)), (s.dom (s.get F.TIM_STATUS_ACTIVE_SLOT)).utcOffset, 1, 1,
        s.get F.TIM_SENSOR_DOM_DOMAIN_NUMBER] }).noteTx (10 * p + 1))) ∧
    (∀ (p : Nat), s.sensorMaster p = true → s.txDue (10 * p) (logSeconds (s.getI F.TIM_SENSOR_DOM_SYNC_LOG_INTERVAL)) = true → exec (.sensorSyncTx p) s = .next ((s.txSend (p + 2) { cls := txStatus, kind := .ptp 0 [s.get F.TIM_SENSOR_DOM_DOMAIN_NUMBER] }).noteTx (10 * p))) ∧
    (∀ (p : Nat), s.sensorMaster p = true → s.txDue (10 * p + 2) (logSeconds (s.getI F.TIM_SENSOR_DOM_PDELAY_LOG_INTERVAL)) = true → exec (.sensorPdelayTx p) s = .next ((s.txSend (p + 2) { cls := txStatus, kind := .ptp 2 [] }).noteTx (10 * p + 2))) ∧
    (∀ (p : Nat), p < 2 → s.portUp p = true → s.txDue (100 + p) (logSeconds (s.getI F.TIM_QUALIFY_PDELAY_LOG_INTERVAL)) = true → exec (.hostPdelayTx p) s = .next ((s.txSend p { cls := txStatus, kind := .ptp 2 [] }).noteTx (100 + p))) ∧
    (∀ (p : Nat) (st : Int), s.sensorMaster p = true → exec (.sensorPdelay p 0 st) s = .next (s.txSend (p + 2) { cls := txStatus, kind := .ptp 3 [s.rxStamp (p + 2)] })) ∧
    (∀ (p kind : Nat) (f : List Int), p < s.tim.tx.length → s.txPort p = {} → s.txUp p = true → s.guarded p = false → kind = 0 ∨ kind = 2 → (s.txSend p { cls := txStatus, kind := .ptp kind f }).out = .ptp p kind (if kind = 0 then [s.txStamp p, (s.tim.frac : Int)] ++ f else [s.txStamp p]) :: s.out) ∧
    (∀ (p dst : Nat) (ti : Int) (dl : Bool) (pl : List Byte), p < 8 → s.tim.launch.getD p [] = [] → s.launching p = false → s.tim.time < ti + 40 → (s.txPort p).last = none → exec (.launchRequest p ti dl dst pl) s = .next { s with tim := { s.tim with
        launch := modifyAt (fun _ => [{ time := ti, dropLate := dl, frames := [(dst, pl)], late := false }]) p s.tim.launch } }) ∧
    (∀ (p dst : Nat) (ti : Int) (dl : Bool) (pl : List Byte) (h : Launch) (r : List Launch), p < 8 → s.tim.launch.getD p [] = h :: r → h.time ≤ ti → r.length + 1 < launchDepth p → exec (.launchRequest p ti dl dst pl) s = .next { s with tim := { s.tim with
        launch := modifyAt (insertBy (·.time) { time := ti, dropLate := dl, frames := [(dst, pl)] }) p s.tim.launch } }) ∧
    (∀ (p : Nat) (e : Launch) (r : List Launch), s.tim.launch.getD p [] = e :: r → e.train = none → e.time ≤ s.tim.time → e.late = false → s.launching p = false → exec (.launch p) s = .next ((({ s with tim := { s.tim with launch := modifyAt (fun _ => r) p s.tim.launch } } : State).updTx p (fun q => { q with last := some (e.time, false) })).sendLaunch p e)) ∧
    (∀ (o : Nat) (e : Int), o < 12 → s.on (F.TIM_TRIG_CTL_ENABLE o) = true → s.trigEdgeBefore o s.tim.time = some e → s.tim.lastEdge.getD o none = none → s.tim.time ≤ e + 40 → exec (.triggerEdge o) s = .next { s with tim := { s.tim with
        lastEdge := modifyAt (fun _ => some e) o s.tim.lastEdge, pulse := modifyAt (fun _ => some (e + s.get (F.TIM_TRIG_CTL_WIDTH o), !s.on (F.TIM_TRIG_CTL_POLARITY o))) o s.tim.pulse } }) ∧
    (∀ (o : Nat) (e : Int) (a : Bool), s.tim.pulse.getD o none = some (e, a) → e ≤ s.tim.time → exec (.triggerPulseEnd o) s = .next { s with tim := { s.tim with pulse := modifyAt (fun _ => none) o s.tim.pulse } })

/-- The camera path: Frame Start, a line, embedded data, Frame End and the missing Frame End, and an unmatched packet
(parts of R36 to R39, R388). Choices of the model that its clauses can rest on: log entries 2, 23, 24, 172, 173, 174,
175. -/
def Obligations.CamerasAct : Prop :=
  ∀ s : State, s.gated wING = false → s.pwr.refLost = false → s.tim.streamsUp = true →
    (∀ (rx vc n i : Nat), rx < 12 → bitSet (s.get F.ING_CTRL_CSI_EN) rx = true → s.ing.bursts.any (fun b => b.rx == rx) = false → s.camsOf rx vc = [i] → s.frameOf i = none → 0 < n → n < 65536 → s.on (F.ING_STR_CFG_STAMP_SRC i) = false → exec (.frameStart rx vc n) s = .next (({ s with ing := { s.ing with
        frames := s.ing.frames ++ [{ stream := i, arrival := s.tim.time }], frameAt := setKey s.ing.frameAt i s.tim.time
        missed := s.ing.missed + missedFrames ((s.ing.frameNo.lookup i).getD 0) n, frameNo := setKey s.ing.frameNo i n
        lastRx := setKey s.ing.lastRx i s.tim.time } } : State).frameItem { stream := i, arrival := s.tim.time } ifFrameStart [])) ∧
    (∀ (rx vc n : Nat), rx < 12 → bitSet (s.get F.ING_CTRL_CSI_EN) rx = true → s.ing.bursts.any (fun b => b.rx == rx) = false → s.camsOf rx vc = [] → exec (.frameStart rx vc n) s = .next (s.ingDrop F.ING_DROPS_CSI_UNMATCHED)) ∧
    (∀ (rx vc dt i : Nat) (d : List Byte) (f : OpenFrame) (u : State), rx < 12 → bitSet (s.get F.ING_CTRL_CSI_EN) rx = true → s.isGoldenType rx vc dt = false → dt ≠ 0x12 → dt ≠ 0x02 → dt ≠ 0x03 → s.camOf rx vc dt = some i → s.frameOf i = some f → f.lines < 2160 → d.length ≤ lineLimit dt → u = s.updOpen i (fun f => { f with lines := f.lines + 1 }) → (u.bufferTake rx (linePixels dt d)).2 = true → exec (.csiLine rx vc dt d true true) s = .next ((u.bufferTake rx (linePixels dt d)).1.frameItem f 0 (natLe 2 f.lines ++ d))) ∧
    (∀ (rx vc dt : Nat) (d : List Byte) (c : Bool), rx < 12 → bitSet (s.get F.ING_CTRL_CSI_EN) rx = true → dt = 0x02 ∨ dt = 0x03 → vc < 4 → exec (.csiLine rx vc dt d true c) s = .next s) ∧
    (∀ (rx vc i : Nat) (d : List Byte) (f : OpenFrame), rx < 12 → bitSet (s.get F.ING_CTRL_CSI_EN) rx = true → s.camsOf rx vc = [i] → s.frameOf i = some f → s.get (F.ING_STR_CFG_CHECK i) = 2 → f.embSeen = false → ∃ g : OpenFrame, g.embSeen = true ∧ g.stream = f.stream ∧
        g.embedded = embeddedTime false (bitsAt (s.get (F.ING_STR_MATCH_SEL_B i)) 16 2) (bitsAt (s.get (F.ING_STR_MATCH_SEL_B i)) 0 16) d ∧
        exec (.embeddedData rx vc d true) s = .next ((s.releaseHeld g).updOpen i (fun _ => { g with held := [] }))) ∧
    (∀ (rx vc n : Nat) (f : OpenFrame), rx < 12 → bitSet (s.get F.ING_CTRL_CSI_EN) rx = true → (s.camsOf rx vc).filterMap s.frameOf = [f] → exec (.frameEnd rx vc n) s = .next (s.closeFrame f false)) ∧
    (∀ (i : Nat) (f : OpenFrame), s.frameOf i = some f → f.arrival + s.get (F.ING_STR_TIME_PERIOD i) ≤ s.tim.time → exec (.frameEndTimeout i) s = .next (s.closeFrame f true))

/-- The sensor ports, CAN, SPI and the encoder inputs: what each event does to the ingest state (parts of R40 to R46).
Choices of the model that its clauses can rest on: log entries 2, 26, 28, 30, 31, 32, 176, 177. -/
def Obligations.SensorsAct : Prop :=
  ∀ s : State, s.gated wING = false → s.pwr.refLost = false → s.tim.streamsUp = true →
    (∀ (p ip dst i : Nat) (fr d : List Byte), p < 6 → bitSet (s.get F.ING_CTRL_ETH_EN) p = true → acceptUdp (s.get (F.ING_ETH_MAC_MAC p)) (if s.on (F.ING_ETH_CFG_VLAN_EN p) then some (s.get (F.ING_ETH_CFG_VLAN_ID p)) else none) fr = some (ip, dst, d) → s.lidarOf p dst ip = some i → exec (.lidarDatagram p fr) s = .next (s.lidarPacket i (s.tim.time + s.getI (F.TIM_PORT_ASYM_INGRESS_ADJ (2 + p))) d)) ∧
    (∀ (p : Nat) (fr : List Byte), p < 6 → bitSet (s.get F.ING_CTRL_ETH_EN) p = true → acceptUdp (s.get (F.ING_ETH_MAC_MAC p)) (if s.on (F.ING_ETH_CFG_VLAN_EN p) then some (s.get (F.ING_ETH_CFG_VLAN_ID p)) else none) fr = none → exec (.lidarDatagram p fr) s = .next (s.ingDrop F.ING_DROPS_ETH_UNMATCHED)) ∧
    (∀ (p a b : Nat), p < 6 → bitSet (s.get F.ING_CTRL_ETH_EN) p = true → exec (.arpRequest p a b) s = .next (if b = s.get (F.ING_ETH_CFG_IPV4_ADDR p) then s.txSend (p + 2) { cls := txReply, kind := .arp a } else s)) ∧
    (∀ (c id i : Nat) (ide : Bool) (d : List Byte), c < 4 → bitSet (s.get F.ING_CTRL_CAN_EN) c = true → s.ing.busOff.getD c false = false → d.length ≤ 8 → id < 2 ^ 29 → (s.streamsOf 2 c).filter (fun i => s.filterTakes c (bitsAt (s.get (F.ING_STR_MATCH_SEL_A i)) 0 5) id ide) = [i] → exec (.canFrame c id ide false false d) s = .next (s.sampleItem i s.tim.time none 0 (natLe 4 (id + (if ide then 2 ^ 29 else 0)) ++ d))) ∧
    (∀ (c : Nat), c < 4 → bitSet (s.get F.ING_CTRL_CAN_EN) c = true → exec (.busOff c) s = .next { s.raise F.ING_EVENT_CAN_ERR with ing := { s.ing with busOff := modifyAt (fun _ => true) c s.ing.busOff } }) ∧
    (∀ (c : Nat), exec (.busOffRecovery c) s = .next { s with ing := { s.ing with busOff := modifyAt (fun _ => false) c s.ing.busOff } }) ∧
    (∀ (k : Nat), k < 4 → bitSet (s.get F.ING_CTRL_SPI_EN) k = true → s.ing.spiEdge.getD k none = none → exec (.dataReadyEdge k) s = .next (({ s with ing := { s.ing with spiEdge := modifyAt (fun _ => some s.tim.time) k s.ing.spiEdge } } : State).spiServe (k / 2))) ∧
    (∀ (k i : Nat) (t : Time) (d : List Byte) (l : List Nat), s.ing.spiRead.getD k none = some t → s.streamsOf 3 k = i :: l → exec (.spiReadDone k d) s = .next ((({ s with ing := { s.ing with spiRead := modifyAt (fun _ => none) k s.ing.spiRead } } : State).sampleItem i t none 0
        (padTo (s.get (F.ING_SPI_CS_READ_LEN k)) d)).spiServe (k / 2))) ∧
    (∀ (e i held : Nat) (l : List Nat) (u : State), e < 8 → s.get (F.ING_ENC_CFG_FILTER e) ≤ held → s.encInput e = e → bitSet (s.get F.ING_CTRL_ENC_EN) e = true → s.get (F.ING_ENC_CFG_MODE e) = 0 → (s.encIn e).level = some false → u = (s.updEnc e (fun x => { x with level := some true, edgeAt := some s.tim.time })).updEnc e (fun x => { x with count := x.count + 1, lastIdle := some s.tim.time }) → s.streamsOf 4 e = i :: l → (s.ing.lastRx.lookup i).getD s.tim.time + s.get (F.ING_ENC_CFG_INTERVAL e) * 1000 ≤ s.tim.time → exec (.encoderEdge e true held false) s = .next (u.encRecord i e false)) ∧
    (∀ (e held : Nat) (rising : Bool), e < 8 → held < s.get (F.ING_ENC_CFG_FILTER e) → exec (.encoderEdge e rising held false) s = .next s) ∧
    (∀ (e held : Nat) (rising : Bool), e < 8 → (s.encIn e).level = some rising → exec (.encoderEdge e rising held false) s = .next s) ∧
    (∀ (i : Nat), (s.streamsOf 4 (s.get (F.ING_STR_CFG_SOURCE i))).contains i = true → bitSet (s.get F.ING_CTRL_ENC_EN) (s.get (F.ING_STR_CFG_SOURCE i)) = true → s.get (F.ING_ENC_CFG_IDLE_TIMEOUT (s.get (F.ING_STR_CFG_SOURCE i))) ≠ 0 → ((s.encIn (s.get (F.ING_STR_CFG_SOURCE i))).lastIdle.or (s.ing.lastRx.lookup i)).getD s.tim.time
        + s.get (F.ING_ENC_CFG_IDLE_TIMEOUT (s.get (F.ING_STR_CFG_SOURCE i))) * 1000000 ≤ s.tim.time → exec (.encoderIdleTimeout i) s = .next ((s.encRecord i (s.get (F.ING_STR_CFG_SOURCE i)) true).updEnc (s.get (F.ING_STR_CFG_SOURCE i))
        (fun x => { x with lastIdle := some s.tim.time }))) ∧
    (∀ (i : Nat) (t : Time), i < 64 → s.get (F.ING_STR_STAT_STATE i) = 2 → s.get (F.ING_STR_TIME_ABSENT_PERIODS i) ≠ 0 → s.ing.lastRx.lookup i = some t → t + s.get (F.ING_STR_TIME_ABSENT_PERIODS i) * s.get (F.ING_STR_TIME_PERIOD i) ≤ s.tim.time → exec (.absentTimeout i) s = .next ((s.put (F.ING_STR_STAT_STATE i) 4).raise F.ING_EVENT_ABSENT)) ∧
    (s.inGrace = false → exec .discGraceEnd s = .next { s with ing := { s.ing with graceEnd := none } })

/-- Golden frames at the inputs (parts of R48, R49, R280): a line of a camera burst, the last line of it, which makes the
frame due, and the packets of a lidar frame. Choices of the model that its clauses can rest on: log entries 2, 33, 34,
35. -/
def Obligations.GoldenInjectionActs : Prop :=
  ∀ s : State, s.gated wING = false → s.pwr.refLost = false → s.tim.streamsUp = true → s.on F.ING_CTRL_GOLDEN_EN = true → s.power = 0 →
    (∀ (rx i : Nat) (b : Burst) (l : List Nat), rx < 12 → bitSet (s.get F.ING_CTRL_CSI_EN) rx = true → s.burstFor rx = some b → s.streamsOf 0 rx = i :: l → b.next + 1 < s.goldenUnits b.entry → ∃ u, u = s.goldenWrite i 0 (natLe 2 b.next ++ s.readBytes (s.goldenContent b.entry + b.next * s.goldenBytes b.entry) (s.goldenBytes b.entry)) ∧
        exec (.goldenLineInject rx) s = .next { u with ing := { u.ing with
          bursts := u.ing.bursts.filter (fun x => x.num != b.num) ++ [{ b with next := b.next + 1 }] } }) ∧
    (∀ (rx i : Nat) (b : Burst) (l : List Nat), rx < 12 → bitSet (s.get F.ING_CTRL_CSI_EN) rx = true → s.burstFor rx = some b → s.streamsOf 0 rx = i :: l → s.goldenUnits b.entry ≤ b.next + 1 → ∃ u, u = s.goldenWrite i 0 (natLe 2 b.next ++ s.readBytes (s.goldenContent b.entry + b.next * s.goldenBytes b.entry) (s.goldenBytes b.entry)) ∧
        exec (.goldenLineInject rx) s = .next ((({ u with ing := { u.ing with
          bursts := u.ing.bursts.filter (fun x => x.num != b.num) } } : State).flushItem i).goldenDue b.num)) ∧
    (∀ (p i : Nat) (g : Golden) (l : List Nat), p < 6 → bitSet (s.get F.ING_CTRL_ETH_EN) p = true → s.saf.golden.find? (fun g => g.kind == 1 && g.due.isNone && s.goldenPort g.entry == some p) = some g → s.streamsOf 1 p = i :: l → exec (.goldenPacketInsert p) s = .next ((s.goldenPackets i g.entry (s.goldenUnits g.entry) 0).goldenDue g.num))

/-- QUEUE_WRITE, FLUSH_STROBE, PENDING_MARKER_STORE, READ, READ_TIMEOUT and POINTER_MISMATCH at an enabled queue while SQ
is clocked: what each does to the queue and its registers (parts of R59 to R62, R65 to R68). Choices of the model that
its clauses can rest on: log entries 2, 37, 39, 178, 179. -/
def Obligations.QueueCommandsAct : Prop :=
  ∀ s : State, s.gated wSQ = false →
    (∀ (q : Nat) (d : List Byte), q < 1024 → s.on (F.SQ_QCFG_ENABLE q) = true → d.isEmpty = false → s.on (F.SQ_QCFG_PACKING q) = false → (s.queue q).resetAt = none → (s.queue q).pendItems = 0 → s.itemFits q d.length = true → (s.queue q).isEmpty = false → exec (.queueWrite q d) s = .next (((s.storeQueue q { s.queue q with
        words := (s.queue q).words ++ itemWords d
        writes := (s.queue q).writes ++ [((s.queue q).wr, (s.queue q).packing.length, s.tim.steps)] }).modInc
        (F.SQ_QSTAT_ITEMS_IN q)).count 4 0 (((s.queue q).words ++ itemWords d).length - (s.queue q).words.length))) ∧
    (∀ (q : Nat) (d : List Byte), q < 1024 → s.on (F.SQ_QCFG_ENABLE q) = true → d.isEmpty = false → (s.queue q).resetAt = none → (s.queue q).pendItems = 0 → s.itemFits q d.length = false → (s.queue q).markerOpen = false → (s.queue q).packing.isEmpty = true → (s.queue q).used < s.get (F.SQ_QCFG_SIZE q) → exec (.queueWrite q d) s = .next ((((((s.raise F.SQ_EVENT_DROP).put F.SQ_LAST_ERR_QUEUE q).put F.SQ_LAST_ERR_CAUSE 0).satInc
        (F.SQ_QDROP_DROPPED q)).count 4 2 1).storeQueue q { s.queue q with
        words := (s.queue q).words ++ [mkWord (gapMarker q 1 (satNat 32 d.length) 0) 64 true false] })) ∧
    (∀ (q : Nat) (d : List Byte), q < 1024 → s.on (F.SQ_QCFG_ENABLE q) = true → d.isEmpty = false → (s.queue q).resetAt = some s.pwr.refclk → exec (.queueWrite q d) s = .next (s.dropItem q d.length)) ∧
    (∀ (q : Nat), q < 1024 → s.on (F.SQ_QCFG_ENABLE q) = true → (s.queue q).resetAt = none → (s.queue q).packing.isEmpty = false → exec (.flushStrobe q) s = .next (s.storeQueue q { s.queue q with
        words := (s.queue q).words ++ [mkWord (padTo 64 (s.queue q).packing) (s.queue q).packing.length false false]
        packing := [] })) ∧
    (∀ (q : Nat), q < 1024 → s.on (F.SQ_QCFG_ENABLE q) = true → (s.queue q).resetAt = none → (s.queue q).packing.isEmpty = true → (s.queue q).pendItems ≠ 0 → (s.queue q).used < s.get (F.SQ_QCFG_SIZE q) → exec (.pendingMarkerStore q) s = .next (s.storeQueue q { s.queue q with
        words := (s.queue q).words ++ [mkWord (gapMarker q (s.queue q).pendItems (s.queue q).pendBytes 2) 64 true false]
        pendItems := 0, pendBytes := 0 })) ∧
    (∀ (q : Nat) (w : QWord) (l : List QWord), q < 1024 → s.on (F.SQ_QCFG_ENABLE q) = true → (s.queue q).resetAt = none → s.storedWords q = w :: l → w.bad {} = false → s.get (F.SQ_QCFG_READ_TIMEOUT q) = 0 → exec (.read q ⟨false, false, false⟩ false false) s = .next (((s.emit (.word q w.data (w.sideband false))).storeQueue q
        { s.queue q with rdWord := (s.queue q).rdWord + 1, rdByte := 0, again := false }.free).count 4 1 1)) ∧
    (∀ (q : Nat) (w : QWord) (l : List QWord) (p : StageParity) (d e : Bool), q < 1024 → s.on (F.SQ_QCFG_ENABLE q) = true → (s.queue q).resetAt = none → s.storedWords q = w :: l → (p.head || p.mid || p.tail || d || e) = true → ∃ u, u = (((s.emit (.word q w.data (w.sideband true))).storeQueue q { s.queue q with rdWord := (s.queue q).rdWord + 1, rdByte := 0, again := false }.free).startTimer q).count 4 1 1 ∧
      exec (.read q p d e) s = .next (u.deliverWord q w { headPar := p.head, midPar := p.mid, tailPar := p.tail, crc := d, ecc := e })) ∧
    (∀ (q t0 : Nat), q < 1024 → s.on (F.SQ_QCFG_ENABLE q) = true → (s.queue q).resetAt = none → s.pending = [] → (s.queue q).timer = some t0 → (s.queue q).isEmpty = false → t0 + 25 * s.get (F.SQ_QCFG_READ_TIMEOUT q) ≤ s.pwr.refclk → exec (.readTimeout q) s = .next (((s.storeQueue q { (s.queue q).flush with timer := none }).satInc (F.SQ_QDROP_TIMEOUTS q)).sendQueueNotice q)) ∧
    (∀ (q : Nat), q < 1024 → s.on (F.SQ_QCFG_ENABLE q) = true → exec (.pointerMismatch q) s = .next (((((s.setQueue q
        { words := [mkWord (gapMarker q 0xFFFFFFFF 0 1) 64 true false]
          base := (s.queue q).wr + (if (s.queue q).packing.isEmpty then 0 else 1)
          rdWord := (s.queue q).wr + (if (s.queue q).packing.isEmpty then 0 else 1)
          marks := (s.queue q).marks.map (fun m => m.map (fun _ => ((s.queue q).wr + (if (s.queue q).packing.isEmpty then 0 else 1), 0)))
          pendItems := (s.queue q).pendItems, pendBytes := (s.queue q).pendBytes, timer := (s.queue q).timer
          resetAt := some s.pwr.refclk }).sqErr q
        F.SQ_EVENT_PTR_MISMATCH).satInc (F.SQ_QDROP_RESETS q)).log wSQ 3 2 0xFF q).detect cCONTAINED 0xFF q)) ∧
    (∀ (q : Nat) (x : Queue), x.words.length ≤ 16 → (s.queue q).words.length ≤ 16 → s.storeQueue q x = s.setQueue q x)

/-- MARK records the read position in a free slot of an enabled queue, REWIND returns the read position to the mark,
RELEASE frees the slot; every other queue is unchanged (parts of R63, R64). That a command whose condition does not
hold changes nothing is the model's choice (log entry 2). -/
def Obligations.QueueMarksAct : Prop :=
  ∀ (s : State) (q k : Nat), q < 1024 → k < 4 → s.on (F.SQ_QCFG_ENABLE q) = true → s.runs wSQ = true → s.resetting q = false →
    ((s.queue q).marks.length = 4 → (s.queue q).marks.getD k none = none → ∃ t, exec (.mark q k) s = .next t ∧ (t.queue q).marks.getD k none = some ((s.queue q).rdWord, (s.queue q).rdByte) ∧
      t.queue q = { s.queue q with marks := (t.queue q).marks, rdCopy := ((s.queue q).rdWord, (s.queue q).rdByte), wrCopy := (s.queue q).wr } ∧ (∀ p, p ≠ q → t.queue p = s.queue p) ∧ t = { s with queues := t.queues }) ∧
    (∀ (m : Nat × Nat), (s.queue q).marks.getD k none = some m → ∃ t, exec (.rewind q k) s = .next t ∧ t.queue q = { s.queue q with rdWord := m.1, rdByte := m.2, again := true, rdCopy := m, wrCopy := (s.queue q).wr } ∧
      (∀ p, p ≠ q → t.queue p = s.queue p) ∧ t = { s with queues := t.queues, regs := t.regs } ∧ (∀ a, windowOf a ≠ some wOBS → t.reg a = s.reg a)) ∧
    (∀ (m : Nat × Nat), (s.queue q).marks.getD k none = some m → ∃ t, exec (.release q k) s = .next t ∧ (t.queue q).marks.getD k none = none ∧ (t.queue q).rdWord = (s.queue q).rdWord ∧
      (∀ p, p ≠ q → t.queue p = s.queue p) ∧ t = { s with queues := t.queues, mem := t.mem } ∧ ((s.queue q).words.length ≤ 16 → t.mem = s.mem))

/-- The point engine: reading an item of a lidar queue, the end of an instance's intake, compensation of a completed part
with and without trajectory cover, closing the table and freeing it (parts of R70 to R86). Choices of the model that
its clauses can rest on: log entries 2, 36, 40, 41, 42, 43, 44, 181. -/
def Obligations.PointEngineActs : Prop :=
  ∀ s : State, s.on F.PTS_CTRL_ENABLE = true → s.gated wPTS = false → s.pwr.refLost = false →
    (∀ (k l c stream : Nat) (hd pl : List Byte) (steps : Int) (late : Bool), k < 16 → s.on (F.PTS_LIDAR_CFG_ENABLE k) = true → s.peekItem (s.get (F.ING_STR_CFG_QUEUE (s.lidarStream k))) {} = .item hd pl false steps → leAt hd 10 1 % 64 = stream → s.slotOfStream stream = some l → bitSet (leAt hd 11 1) 6 = false → bitSet (leAt hd 11 1) 0 = false → s.itemWindow (s.itemStamp hd steps + s.get (F.ING_STR_CFG_LATENCY stream)) = .window c late → (s.inst c).any (fun i => bitSet i.excluded stream) = false → exec (.pointItemRead ⟨k, false, false⟩) s = .next ((s.takeItem (s.get (F.ING_STR_CFG_QUEUE (s.lidarStream k)))).1.pointItem l hd pl (s.itemStamp hd steps) c late)) ∧
    (∀ (k l : Nat) (hd pl : List Byte) (steps : Int) (a b : Bool), k < 16 → s.on (F.PTS_LIDAR_CFG_ENABLE k) = true → s.peekItem (s.get (F.ING_STR_CFG_QUEUE (s.lidarStream k))) { tailPar := a, crc := b } = .item hd pl true steps → s.slotOfStream (leAt hd 10 1 % 64) = some l → exec (.pointItemRead ⟨k, a, b⟩) s = .next (((s.takeItem (s.get (F.ING_STR_CFG_QUEUE (s.lidarStream k))) { tailPar := a, crc := b }).1.raise F.PTS_EVENT_ITEM_DISCARD).flagCollecting
        (fun t => { t with degraded := true }))) ∧
    (∀ (k items : Nat) (reset : Bool), k < 16 → s.on (F.PTS_LIDAR_CFG_ENABLE k) = true → s.peekItem (s.get (F.ING_STR_CFG_QUEUE (s.lidarStream k))) {} = .gap reset items → exec (.pointItemRead ⟨k, false, false⟩) s = .next ((s.takeItem (s.get (F.ING_STR_CFG_QUEUE (s.lidarStream k)))).1.pointGap
        (s.get (F.ING_STR_CFG_QUEUE (s.lidarStream k))) reset items)) ∧
    (∀ (w : PtsWin) (a close : Time) (t : PTable), s.pts.wins.find? (fun w => !w.ended) = some w → s.window w.cycle = some (a, close) → s.ptable w.cycle = some t → close + 50000 ≤ s.tim.time → w.waited = false → exec .intakeEnd s = .next (((List.range 16).foldl (fun t l => match (t.lslot l).part with
        | some p => if p.cycle ≤ w.cycle then t.completePart l else t
        | none => t) s).updWin w.cycle (fun w => { w with ended := true }))) ∧
    (∀ (k : Nat) (p : Part), s.pts.parts.find? (fun p => p.slot == k) = some p → s.trajCovers p.mid = true → exec (.partCompensate k) s = .next (s.insertPart p false)) ∧
    (∀ (k : Nat) (p : Part), s.pts.parts.find? (fun p => p.slot == k) = some p → s.trajCovers p.mid = false → p.doneAt + s.get F.PTS_CTRL_POSE_WAIT * 1000 ≤ s.tim.time → exec (.poseWaitTimeout k) s = .next (s.insertPart p true)) ∧
    (∀ (t : PTable), s.pts.tables.find? (fun t => !t.closed && (s.ptsWin t.cycle).any (·.ended) && !s.pts.parts.any (fun p => p.cycle == t.cycle) && s.mayRun t.cycle) = some t → ∃ v u, v = ((s.updTable t.cycle (fun t => { t with closed := true })).endBudget 2 t.cycle).startBudget 3 t.cycle t.cycle ∧
        u = (v.writeTable t (v.base (F.PTS_TABLE_BASE t.index))).unitDone 96 false t.cycle 0 ∧
        exec .tableClose s = .next (((((((((({ u with pts := { u.pts with summary := t.summary } } : State).put F.PTS_LAST_POINTS_IN
          (satNat 24 ((t.lidars.map (·.decoded)).foldl (· + ·) 0))).put F.PTS_LAST_POINTS_KEPT (satNat 24 t.kept.length)).put
          F.PTS_LAST_POINTS_OVERFLOW (satNat 16 t.overflow)).put F.PTS_LAST_DROPS_NO_RETURN (satNat 16 t.noReturn)).put
          F.PTS_LAST_DROPS_OUTSIDE_GRID (satNat 16 t.outGrid)).put F.PTS_LAST_DROPS_OUTSIDE_Z (satNat 16 t.outZ)).put
          F.PTS_LAST_DROPS_SUPERSEDED (satNat 16 t.superseded)).put F.PTS_LAST_PILLARS_PILLARS t.pillars.length).put F.PTS_LAST_PILLARS_GUARD
          (t.pillars.countP (fun p => p.cls == 0)) |>.put F.PTS_LAST_PILLARS_REFUSED (satNat 16 t.refused) |>.put F.PTS_LAST_PILLARS_EVICTED
          (satNat 14 t.evicted))) ∧
    (∀ (t : PTable), s.pts.tables.find? (fun t => t.consumed && (t.read || !s.on F.CHK_CTRL_ENABLE || s.gated wCHK)) = some t → exec .tableFree s = .next (s.freeTable t.cycle))

/-- Sparse convolution, of an instance and of the golden pass: its start on a closed table, dilation, a staged block and
the layer's end, an output block and the pass's end (parts of R91, R92, R95 to R102). Every constructor completes
whatever the pass: its start, dilate, stagingBlock, outputBlock. Choices of the model that its clauses can rest on:
log entries 2, 47, 180, 182, 183. -/
def Obligations.SparseConvolutionActs : Prop :=
  ∀ s : State, s.on F.PTS_CTRL_ENABLE = true → s.gated wPTS = false → s.pwr.refLost = false →
    (∀ (t : PTable) (w : PtsWin) (i : Inst), s.spc = none → s.glz.insts.find? (fun i => !i.pillarDone) = some i → s.ptable i.cycle = some t → s.ptsWin i.cycle = some w → t.closed = true → t.consumed = false → s.mayRun i.cycle = true → ∃ u, u = s.zeroFill (s.siteArea false).2.1 ((s.siteArea false).2.2.1 + (s.siteArea false).2.2.2 * 4) ∧
        ∃ o, o = u.offerSites false { table := t, ego := i.ego, cell := u.cellSize, geom := w.geom } (t.emission.map (fun p => (p.key, p.cls))) ∧
          exec (.sparseConvStart false) s = .next (o.1.setSpc false (some { o.2 with nIn := o.2.sites.length, sitesIn := o.2.sites.length }))) ∧
    (∀ (t : PTable), s.spcGold = none → s.pts.golden = some t → ∃ v, v = (let u := s.writeTable t (s.base F.PTS_GOLDEN_BASE_BASE);
          { u with pts := { u.pts with goldBlocks := [] } }) ∧
      ∃ u, u = v.zeroFill (v.siteArea true).2.1 ((v.siteArea true).2.2.1 + (v.siteArea true).2.2.2 * 4) ∧
        ∃ o, o = u.offerSites true { table := t, ego := (256, 256), cell := u.cellSize, geom := (v.get F.PTS_GEOM_GUARD_RADIUS, v.get F.PTS_GEOM_CLASS_WIDTH) }
            (t.emission.map (fun p => (p.key, p.cls))) ∧
          exec (.sparseConvStart true) s = .next (o.1.setSpc true (some { o.2 with nIn := o.2.sites.length, sitesIn := o.2.sites.length }))) ∧
    (∀ (g : Bool) (x : Spc) (u : State), s.spcOf g = some x → x.dilated = false → x.layer < s.layers → u = s.unitDone 96 g x.table.cycle x.layer → (u.layer x.layer).1 = false ∨ (u.layer x.layer).2.1 = true → exec (.dilate g) s = .next (u.setSpc g (some { x with nIn := x.sites.length, dilated := true }))) ∧
    (∀ (g : Bool) (x : Spc) (u : State), s.spcOf g = some x → x.dilated = false → x.layer < s.layers → u = s.unitDone 96 g x.table.cycle x.layer → (u.layer x.layer).1 = true → (u.layer x.layer).2.1 = false → ∃ o, o = u.offerSites g { x with nIn := x.sites.length, dilated := true }
          ((((List.range 16).flatMap (fun k => x.sites.filter (fun c => c.2 == k))).flatMap (fun c => neighbours c.1)).map (fun key =>
            (key, rangeClass x.cell x.ego x.geom (key % 512 : Nat) (key / 512 : Nat)))) ∧
        exec (.dilate g) s = .next (o.1.setSpc g (some o.2))) ∧
    (∀ (g : Bool) (x : Spc), s.spcOf g = some x → x.layer < s.layers → x.dilated = true → g = true ∨ s.spcGold.any (fun y => decide (y.layer < s.layers)) = false → x.sites ≠ [] → ∃ u mask body bad ring, (bad = false → u = s) ∧
        ∃ v, v = u.writeBytes (u.base F.PTS_CONV_STAGE_BASE_BASE + ring % 8 * 196608)
            (withCrc (natLe 4 (64 * x.block) ++ natLe 2 (min 64 (x.sites.length - 64 * x.block)) ++ natLe 2 mask ++ natLe 1 x.layer
              ++ natLe 1 (slotByte g x.table.cycle) ++ zeroBytes 50) ++ body) ∧
        ∃ y : Spc, y = { x with block := x.block + 1, staged := x.staged + 1, degraded := x.degraded || bad } ∧
        exec (.stagingBlock g) s = .next (if 64 * (x.block + 1) < x.sites.length then v.setSpc g (some y) else v.layerDone g y)) ∧
    (∀ (g : Bool) (x : Spc), s.spcOf g = some x → x.layer < s.layers → x.dilated = true → g = true ∨ s.spcGold.any (fun y => decide (y.layer < s.layers)) = false → x.sites = [] → exec (.stagingBlock g) s = .next (s.layerDone g x)) ∧
    (∀ (g : Bool) (x y : Spc) (b : Block), s.spcOf g = some x → s.layers ≤ x.layer → (x.sites.zipIdx.filter (fun c => tileOfKey c.1.1 == x.tile)).isEmpty = true → b = { tile := x.tile, buffer := 0, empty := true, degraded := x.degraded, overflow := x.ovfTiles.contains x.tile } → y = { x with tile := x.tile + 1, blocks := x.blocks ++ [{ b with header := outHeader b (slotByte g x.table.cycle) x.table.p }], degraded := x.degraded || x.degraded } → exec (.outputBlock g) s = .next (if x.tile + 1 = 256 then s.spcDone g y else s.setSpc g (some y))) ∧
    (∀ (g : Bool) (x : Spc) (k : Nat), s.spcOf g = some x → s.layers ≤ x.layer → (x.sites.zipIdx.filter (fun c => tileOfKey c.1.1 == x.tile)).isEmpty = false → (List.range (s.get F.PTS_SPC_CTRL_TILE_BUFS)).find? (fun b => !s.heldBuffers.contains b) = some k → ∃ u rows bad, (bad = false → u = s) ∧
        ∃ b : Block, b = { tile := x.tile, buffer := k, sites := (x.sites.zipIdx.filter (fun c => tileOfKey c.1.1 == x.tile)).length, degraded := x.degraded || bad, overflow := x.ovfTiles.contains x.tile } ∧
        ∃ v, v = (u.writeBytes (u.tileBuf k + 64) rows).writeBytes ((u.writeBytes (u.tileBuf k + 64) rows).tileBuf k) (outHeader b (slotByte g x.table.cycle) x.table.p) ∧
        ∃ y : Spc, y = { x with tile := x.tile + 1, blocks := x.blocks ++ [{ b with header := outHeader b (slotByte g x.table.cycle) x.table.p }], degraded := x.degraded || b.degraded } ∧
        exec (.outputBlock g) s = .next (if x.tile + 1 = 256 then v.spcDone g y else v.setSpc g (some y)))

/-- The camera lift: reading the items of a camera queue, the backbone's end with and without a record queue, the golden
backbone's end, the lift's start, a lift block and the end of the lift (parts of R106 to R114). Choices of the model
that its clauses can rest on: log entries 2, 49, 50, 51, 52, 180, 184, 185, 186. -/
def Obligations.LiftEngineActs : Prop :=
  ∀ s : State, s.on F.LFT_CTRL_ENABLE = true → s.gated wLFT = false → s.pwr.refLost = false →
    (∀ (k c : Nat) (hd pl : List Byte) (steps : Int), k < 16 → s.on (F.LFT_CAM_CFG_ENABLE k) = true → s.peekItem (s.get (F.ING_STR_CFG_QUEUE (s.camStream k))) {} = .item hd pl false steps → s.camOfStream (leAt hd 10 1 % 64) = some c → s.newItem c (leAt hd 12 4) = true → bitSet (leAt hd 11 1) 0 = false → bitSet (leAt hd 11 1) 3 = false → bitSet (leAt hd 11 1) 4 = false → exec (.lftItemRead ⟨k, false, false⟩) s = .next (((s.takeItem (s.get (F.ING_STR_CFG_QUEUE (s.camStream k))) {}).1.noteSeq c (leAt hd 12 4)).lineItem c pl)) ∧
    (∀ (k c : Nat) (hd pl : List Byte) (steps : Int), k < 16 → s.on (F.LFT_CAM_CFG_ENABLE k) = true → s.peekItem (s.get (F.ING_STR_CFG_QUEUE (s.camStream k))) {} = .item hd pl false steps → s.camOfStream (leAt hd 10 1 % 64) = some c → s.newItem c (leAt hd 12 4) = true → bitSet (leAt hd 11 1) 0 = false → bitSet (leAt hd 11 1) 3 = true → exec (.lftItemRead ⟨k, false, false⟩) s = .next (((s.takeItem (s.get (F.ING_STR_CFG_QUEUE (s.camStream k))) {}).1.noteSeq c (leAt hd 12 4)).frameStartItem c
        (leAt hd 12 4) (s.itemStamp hd steps))) ∧
    (∀ (k : Nat) (f : LftFrame) (r : List (List Byte)), k ≠ 255 → s.backboneFrame k = some f → f.golden = false → s.mayRun f.cycle = true → s.poisoned (s.frameArea f).1 (s.frameArea f).2 = false → s.liftQueue = none → exec (.backboneDone k r) s = .next ((({ s with
        lft := { s.lft with doneNext := s.lft.doneNext + 1, frames := s.lft.frames.filter (fun (x : LftFrame) => !(x.phase == .waiting && x == f)) ++ [{ f with phase := .columns, records := (r.map (padTo s.recordBytes)).take (s.get (F.LFT_CAM_CFG_U_COLS f.cam)), degraded := f.degraded, order := s.lft.doneNext, pos := none }] } } : State).endBudget 0 (f.cycle * 64 + f.stream)).startBudget 1 (f.cycle * 64 + f.stream) f.cycle)) ∧
    (∀ (k q : Nat) (f : LftFrame) (r rs : List (List Byte)) (t : State), k ≠ 255 → s.backboneFrame k = some f → f.golden = false → s.mayRun f.cycle = true → s.poisoned (s.frameArea f).1 (s.frameArea f).2 = false → s.liftQueue = some q → rs = (r.map (padTo s.recordBytes)).take (s.get (F.LFT_CAM_CFG_U_COLS f.cam)) → s.accepts q (rs.length * s.recordBytes) = true → t = rs.foldl (fun u x => u.queueWrite q x) s → exec (.backboneDone k r) s = .next ((({ t with
        lft := { t.lft with doneNext := t.lft.doneNext + 1, frames := t.lft.frames.filter (fun (x : LftFrame) => !(x.phase == .waiting && x == f)) ++ [{ f with phase := .columns, records := rs, degraded := f.degraded, order := t.lft.doneNext, pos := some ((s.queue q).wr, (s.queue q).packing.length) }] } } : State).endBudget 0 (f.cycle * 64 + f.stream)).startBudget 1 (f.cycle * 64 + f.stream) f.cycle)) ∧
    (∀ (f : LftFrame) (r : List (List Byte)), s.goldenFrame = some f → f.golden = true → s.poisoned (s.frameArea f).1 (s.frameArea f).2 = false → exec (.backboneDone 255 r) s = .next { s with
        lft := { s.lft with doneNext := s.lft.doneNext + 1, frames := s.lft.frames.filter (fun (x : LftFrame) => !(x.phase == .waiting && x == f)) ++ [{ f with phase := .columns, records := (r.map (padTo s.recordBytes)).take (s.get (F.LFT_CAM_CFG_U_COLS f.cam)), degraded := f.degraded, order := s.lft.doneNext, pos := none }] } }) ∧
    (∀ (f : LftFrame) (bank : Nat) (t : State) (r : List (List Byte)), s.lft.lifting = none → s.nextLift = some f → f.golden = true ∨ s.mayRun f.cycle = true → bank = (if f.golden then 2 else match s.inst f.cycle with
        | some i => i.banks.getD f.cam 0
        | none => s.get (F.LFT_CAM_STAT_ACTIVE_BANK f.cam)) → s.takeRecords f = (t, some (r, false)) → t.poisoned (t.tableBase f.cam bank) 16 = false → exec .lift s = .next { t with lft := { t.lft with 
        frames := removeFirst (· == f) t.lft.frames, lifting := some { frame := { f with records := r }, bank }
        goldBlocks := if f.golden then [] else t.lft.goldBlocks } }) ∧
    (∀ (l : Lifting) (b a tile count first : Nat), s.lft.lifting = some l → a = s.tableBase l.frame.cam l.bank → l.run < (s.liftTable l).1 → s.poisoned (a + 16 + 8 * l.run) 8 = false → tile = s.readLe (a + 16 + 8 * l.run) 2 → count = s.readLe (a + 16 + 8 * l.run + 2) 2 → first = s.readLe (a + 16 + 8 * l.run + 4) 4 → tile ≤ 255 ∧ first + count ≤ (s.liftTable l).2.1 → s.poisoned (a + 16 + 8 * (s.liftTable l).1 + 4 * first) (4 * count) = false → (List.range (s.get F.LFT_CTRL_LIFT_BUFS)).find? (fun b => !s.liftBuffers.contains b) = some b → ∃ t head rows n, exec .liftBlockEmit s = .next t ∧
        head = liftHeader l.frame tile n (s.liftTable l).2.2 (l.run + 1 == (s.liftTable l).1) l.frame.degraded ∧
        t = { s.writeBytes (s.liftBuf b) (head ++ rows) with lft := t.lft } ∧ t.lft.frames = s.lft.frames ∧
        ∃ m, t.lft.lifting = some m ∧ m.run = l.run + 1 ∧
          m.blocks = l.blocks ++ [{ tile, buffer := b, degraded := l.frame.degraded, sites := n, header := head }]) ∧
    (∀ (l : Lifting), s.lft.lifting = some l → l.run = 0 → (s.liftTable l).1 = 0 → ∃ t m, exec .liftBlockEmit s = .next t ∧ t = { s with lft := { s.lft with lifting := some m } } ∧ m.run = 1 ∧
        m.blocks = l.blocks ++ [{ tile := 0xFFFF, buffer := 0, empty := true
                                  header := liftHeader l.frame 0xFFFF 0 (s.liftTable l).2.2 true l.frame.degraded }]) ∧
    (∀ (l : Lifting) (t : State) (bs : List Block), s.lft.lifting = some l → max 1 (s.liftTable l).1 ≤ l.run → l.frame.golden = false → s.degradeLift l = (t, bs) → exec .liftDone s = .next (((((({ { t with lft := { t.lft with lifting := none } }.unitDone 98 false l.frame.cycle l.frame.cam with
        lft := { ({ t with lft := { t.lft with lifting := none } }.unitDone 98 false l.frame.cycle l.frame.cam).lft with
          frames := ({ t with lft := { t.lft with lifting := none } }.unitDone 98 false l.frame.cycle l.frame.cam).lft.frames
            ++ [{ l.frame with phase := .lifted }] } } : State).modInc (F.LFT_CAM_STAT_FRAMES l.frame.cam)).endBudget 1
        (l.frame.cycle * 64 + l.frame.stream)).frameReady l.frame.cycle
        { stream := some l.frame.stream, time := l.frame.stamp, calGen := (s.liftTable l).2.2, arrival := l.frame.arrival, blocks := bs }
        l.frame.again)).tryFinal))

/-- The solver's intake: a sample joins the node to come, a late one is dropped; a registration record joins the records
to come or its node, or is dropped; an update record is read for the next intake close (parts of R118, R119, R125).
Choices of the model that its clauses can rest on: log entries 2, 57, 58, 188. -/
def Obligations.SolverTakesItsInputs : Prop :=
  ∀ s : State, s.egoOn = true →
    (∀ (q : Nat) (u : State) (hd pl : List Byte) (steps : Int) (x : EgoItem), (List.range 64).any (fun i => s.on (F.ING_STR_CFG_ENABLE i) && s.get (F.ING_STR_CFG_QUEUE i) == q && decide (2 ≤ s.get (F.ING_STR_CFG_KIND i))) = true → s.takeItem q {} = (u, .item hd pl false steps) → bitSet (leAt hd 11 1) 6 = false → bitSet (leAt hd 11 1) 0 = false → (u.get (F.ING_STR_CFG_KIND (bitsAt (leAt hd 10 1) 0 6)) == 4 && bitSet (leAt pl 4 4) 1) = false → egoItemOf u.slvParam (u.get (F.ING_STR_CFG_KIND (bitsAt (leAt hd 10 1) 0 6))) (bitsAt (leAt hd 10 1) 0 6) (u.itemStamp hd steps) pl (u.tim.steps - steps) = some x → u.slv.closed = none → exec (.egoSampleRead ⟨q, false, false⟩) s = .next { u with slv := { u.slv with items := u.slv.items ++ [x] } }) ∧
    (∀ (q : Nat) (u : State) (hd pl : List Byte) (steps : Int) (x : EgoItem) (c : Time), (List.range 64).any (fun i => s.on (F.ING_STR_CFG_ENABLE i) && s.get (F.ING_STR_CFG_QUEUE i) == q && decide (2 ≤ s.get (F.ING_STR_CFG_KIND i))) = true → s.takeItem q {} = (u, .item hd pl false steps) → bitSet (leAt hd 11 1) 6 = false → bitSet (leAt hd 11 1) 0 = false → (u.get (F.ING_STR_CFG_KIND (bitsAt (leAt hd 10 1) 0 6)) == 4 && bitSet (leAt pl 4 4) 1) = false → egoItemOf u.slvParam (u.get (F.ING_STR_CFG_KIND (bitsAt (leAt hd 10 1) 0 6))) (bitsAt (leAt hd 10 1) 0 6) (u.itemStamp hd steps) pl (u.tim.steps - steps) = some x → u.slv.closed = some c → x.stamp < c → exec (.egoSampleRead ⟨q, false, false⟩) s = .next { (u.raise F.SLV_EVENT_LATE_MEAS) with
        slv := { u.slv with late := true, lateCount := u.slv.lateCount + 1 } }) ∧
    (∀ (u : State) (b : List Byte), s.takeBytes (s.get F.SLV_QUEUES_REG_Q) 64 = (u, some (b, false)) → crcOk b = true → u.slv.nodes.any (fun n => decide (n.prev ≤ regTime b) && decide (regTime b < n.time)) = false → u.slv.closed = none → exec .registrationRecord s = .next { u with slv := { u.slv with regs := u.slv.regs ++ [b] } }) ∧
    (∀ (u : State) (b : List Byte), s.takeBytes (s.get F.SLV_QUEUES_REG_Q) 64 = (u, some (b, false)) → crcOk b = true → u.slv.nodes.any (fun n => decide (n.prev ≤ regTime b) && decide (regTime b < n.time)) = true → exec .registrationRecord s = .next { u with slv := { u.slv with
          nodes := u.slv.nodes.map (fun n =>
        if n.prev ≤ regTime b ∧ regTime b < n.time then { n with regs := n.regs ++ [b] } else n)
          solve := u.slv.solve.map (fun x => { x with nodes := x.nodes.map (fun n =>
            if n.prev ≤ regTime b ∧ regTime b < n.time then { n with regs := n.regs ++ [b] } else n) }) } }) ∧
    (∀ (u : State) (b : List Byte), s.takeBytes (s.get F.SLV_QUEUES_REG_Q) 64 = (u, some (b, false)) → crcOk b = false → exec .registrationRecord s = .next u.regDrop) ∧
    (∀ (u : State) (b : List Byte), s.on F.SLV_CTRL_ASM_EN = false → s.takeBytes (s.get F.SLV_QUEUES_UPD_Q) (64 + if leAt (s.peekBytes (s.get F.SLV_QUEUES_UPD_Q) 64) 10 1 = 0 then 900 else 60) = (u, some (b, true)) → exec .updateRecord s = .next u.regDrop) ∧
    (∀ (u : State) (b : List Byte), s.on F.SLV_CTRL_ASM_EN = false → s.takeBytes (s.get F.SLV_QUEUES_UPD_Q) (64 + if leAt (s.peekBytes (s.get F.SLV_QUEUES_UPD_Q) 64) 10 1 = 0 then 900 else 60) = (u, some (b, false)) → (crc32c (b.take 60 ++ b.drop 64) == leAt b 60 4) = true → ((List.range (u.slvSetAt u.nextNode).window).map (fun (i : Nat) => (u.nextSlot u.nextNode + 64 - i) % 64)).contains (leAt b 8 1) = true → leAt (s.peekBytes (s.get F.SLV_QUEUES_UPD_Q) 64) 10 1 = 1 → exec .updateRecord s = .next { u with slv := { u.slv with updates := u.slv.updates ++ [(b.take 64, mantissas (b.drop 64))] } })

/-- A solve of the ego kind: it starts at the intake close, stops assembling at its budget, iterates, ends and is
published at its deadline (parts of R117, R118, R120, R121, R124, R127 to R130, R134). Choices of the model that its
clauses can rest on: log entries 2, 54, 55, 56, 57, 187, 188, 189. -/
def Obligations.SolverSolves : Prop :=
  ∀ s : State, s.egoOn = true →
    (∀ (u : State) (n : SlvNode) (nodes : List SlvNode) (prior : List Int), s.slv.solve = none → s.nextNode + s.egoIntake ≤ s.tim.time → s.formNode s.nextNode (s.slv.closed.getD (s.nextNode - s.nodePeriod)) = (u, n) → u.on F.SLV_CTRL_ASM_EN = true → slideWindow u.slvParam u.nodePeriod (s.slvSetAt s.nextNode).window u.slv.nodes u.slv.prior n = (nodes, prior) → u.slv.sig = none → u.slv.last = none → ∃ t sv, exec .egoIntakeClose s = .next t ∧ t.slv.solve = some sv ∧ t.slv.closed = some s.nextNode ∧ t.slv.passed = none ∧
        sv.time = s.nextNode ∧ sv.nodes = nodes ∧ sv.prior = coldPrior u.slvParam nodes ∧ sv.sig = egoSignature nodes ∧ sv.iters = 0 ∧ sv.start = u.now ∧
        sv.flags = flagBits [(eCOLD, true), (eWARM, false), (eNO_IMU, n.imus.isEmpty), (eNO_WHEEL, !n.wheel),
          (eDEGRADED, n.imus.isEmpty && !n.wheel), (eFALLBACK, false), (eSAT, false)] ∧
        t = (((({ u with slv := t.slv } : State).put F.SLV_STATUS_NODES (s.slvSetAt s.nextNode).window).raise F.SLV_STATUS_EGO_BUSY).flag F.SLV_STATUS_RESIDENT false)) ∧
    (∀ (x : EgoSolve) (k : Nat), s.slv.solve = some x → x.finished = false → x.cut = none → x.start + x.set.asmBudget * 1000 ≤ s.tim.time → s.on F.SLV_CTRL_ASM_EN = true → exec (.asmBudgetExpiry k) s = .next { s with slv := { s.slv with solve := some { x with cut := some k, flags := setBit x.flags eFALLBACK } } }) ∧
    (∀ (x : EgoSolve), s.slv.solve = some x → x.finished = false → ∃ t y, exec .egoIterationDone s = .next t ∧ t.slv.solve = some y ∧ y.iters = x.iters + 1 ∧ y.time = x.time ∧ y.sig = x.sig ∧
        (x.set.iters ≤ x.iters + 1 → y.finished = true) ∧ (x.cut.isSome = true → y.finished = true) ∧
        (y.failed = true → y.finished = true ∧ y.nodes = x.nodes)) ∧
    (∀ (x : EgoSolve), s.slv.solve = some x → x.ended = false → x.finished = true → x.failed = false → x.nougat = false → bitSet x.flags eWARM = false → exec (.egoSolveDone false) s = .next { (s.put F.SLV_SIG_EGO_SIG x.sig).egoIdle with
        slv := { (s.put F.SLV_SIG_EGO_SIG x.sig).egoIdle.slv with
          solve := some { x with ended := true, failed := false, dur := satNat 16 ((s.tim.time - x.start).toNat / 100) }
          sig := some x.sig, nodes := x.nodes } }) ∧
    (∀ (x : EgoSolve), s.slv.solve = some x → x.ended = true → x.time + s.egoDeadline ≤ s.tim.time → ∃ (t : State) (e : Est), exec .egoPublish s = .next t ∧ t.slv.solve = none ∧ t.slv.last = some e ∧ e.seq = s.slv.seq ∧ e.time = (s.egoResult x).time ∧
        e.p = (s.egoResult x).p ∧ e.q = (s.egoResult x).q ∧ t.slv.missed = false ∧ t.slv.late = false ∧ (x.failed = false → t.slv.solved = some e)) ∧
    (∀ (x : EgoSolve), s.slv.solve = some x → x.ended = false → x.time + s.egoDeadline ≤ s.tim.time → ∃ (u : State) (e : Est) (c : Nat), exec .egoPublish s = .next (((u.egoIdle.raise F.SLV_EVENT_MISSED).satInc F.SLV_COUNTS_MISSES).detect c 4 (ofInt 64 x.time)) ∧
        (c = cEGO_SPAN ∨ c = cCONTAINED) ∧
        u.slv.solve = none ∧ u.slv.last = some e ∧ e.seq = s.slv.seq ∧ e.time = x.time ∧ u.slv.missed = true)

/-- Bundle adjustment: START and ABORT of SLV_BA_CMD, the end of a step, and its timeout (parts of R116, R131 to R134).
Choices of the model that its clauses can rest on: log entries 2, 59, 190. -/
def Obligations.BundleAdjustmentActs : Prop :=
  ∀ s : State, s.gated wSLV = false →
    (∀ (value : Nat), s.reachable = true → F.SLV_BA_CMD_ABORT.of (writeData F.SLV_BA_CMD_START.addr (setBit value 0) false &&& writeMask F.SLV_BA_CMD_START.addr false) ≠ 1 → F.SLV_BA_CMD_START.of (writeData F.SLV_BA_CMD_START.addr (setBit value 0) false &&& writeMask F.SLV_BA_CMD_START.addr false) = 1 → exec (.baStart value) s = .next (s.writeReg F.SLV_BA_CMD_START.addr (setBit value 0) false).baStart) ∧
    (∀ (value : Nat), s.reachable = true → F.SLV_BA_CMD_ABORT.of (writeData F.SLV_BA_CMD_START.addr (setBit value 1) false &&& writeMask F.SLV_BA_CMD_START.addr false) = 1 → F.SLV_BA_CMD_START.of (writeData F.SLV_BA_CMD_START.addr (setBit value 1) false &&& writeMask F.SLV_BA_CMD_START.addr false) ≠ 1 → exec (.baAbort value) s = .next (s.writeReg F.SLV_BA_CMD_START.addr (setBit value 1) false).baAbort) ∧
    (∀ (b : BaStep), s.slv.ba = some b → b.paused = false → s.runs wSLV = true → ∃ t, exec .baStepDone s = .next t ∧ t.slv.ba = none ∧ t.slv.baSig = some b.sig ∧ t.slv.nodes = s.slv.nodes ∧ t.slv.solve = s.slv.solve) ∧
    (∀ (b : BaStep), s.slv.ba = some b → b.start + b.set.baTimeout * 1000000 ≤ s.tim.time → s.runs wSLV = true → exec .baTimeout s = .next ((s.baEnd b 3 0 0 false false).raise F.SLV_EVENT_BA_TIMEOUT))

/-- Opening an instance: the one that is due, after the work of the ToV before it, or the commits due there first; at a
ToV where none is due, that work alone; and the start of the ego-warp (parts of R10, R137, R138, R142, R306). Choices
of the model that its clauses can rest on: log entries 2, 63, 66, 144. -/
def Obligations.FusionOpensAndWarps : Prop :=
  ∀ s : State, s.on F.GLZ_CTRL_ENABLE = true → s.gated wGLZ = false → s.pwr.refLost = false →
    (s.openDue = true → s.commitsDue.isEmpty = true → s.atTov.openDue = true → exec .instanceOpen s = .next s.atTov.openInstance.followOpenings) ∧
    (s.openDue = true → s.commitsDue.isEmpty = false → exec .instanceOpen s = .next s.applyDue) ∧
    (s.openDue = false → exec .instanceOpen s = .next s.atTov) ∧
    (∀ (i : Inst), s.glz.insts.find? (fun i => !i.warped && s.mayRun i.cycle) = some i → i.tov ≤ s.tim.time → s.trajCovers i.tov = true → exec .warpStart s = .next (((i.tov :: ((s.usedCameras i).map (·.time) ++ ((s.valueOf i.cycle none).map (·.time)).toList)).foldl
        (fun u t => u.usePose i.cycle t) s).updInst i.cycle (fun i => { i with warped := true }))) ∧
    (∀ (i : Inst), s.glz.insts.find? (fun i => !i.warped && s.mayRun i.cycle) = some i → s.tim.time < i.tov → exec .warpStart s = .next s)

/-- A tile's heads complete and its comparison starts, or ends UNCHECKED with the checker off; a comparison ends; an
amended tile's comparison ends with its re-issue; a disagreement squashes the run-ahead instances (parts of R12, R146,
R150, R165, R276, R277). Choices of the model that its clauses can rest on: log entries 2, 63, 69, 118, 194, 197. -/
def Obligations.FusionComparesTiles : Prop :=
  ∀ s : State, s.on F.GLZ_CTRL_ENABLE = true → s.gated wGLZ = false → s.pwr.refLost = false →
    (∀ (cycle tile : Nat) (cells : List (BitVec 64)) (bad : Bool) (i : Inst) (t : Tile) (u v w : State), s.inst cycle = some i → tile < 256 → i.warped = true → (i.tile tile).phase = .waiting → (i.reuseDone && s.isHead cycle) = false → s.frontDone i = true → s.inOrder i tile = true → s.mayRun cycle = true → s.glzError cycle = false → (s.composeInput i tile).2 = false → w = (s.composeInput i tile).1 → t = w.composeTile i tile cells bad → u = w.composeEvents t bad (w.readsStale i tile) → v = u.updInst cycle (fun i => { i.updTile tile (fun x => { x with phase := .comparing, tile := some t, fired := some u.now }) with lastDone := some u.now }) → v.chkOn = true → exec (.tileHeadsDone cycle tile cells bad) s = .next (v.startBudget 6 (tileKey cycle tile) cycle)) ∧
    (∀ (cycle tile : Nat) (cells : List (BitVec 64)) (bad : Bool) (i : Inst) (t : Tile) (u v w : State), s.inst cycle = some i → tile < 256 → i.warped = true → (i.tile tile).phase = .waiting → (i.reuseDone && s.isHead cycle) = false → s.frontDone i = true → s.inOrder i tile = true → s.mayRun cycle = true → s.glzError cycle = false → (s.composeInput i tile).2 = false → w = (s.composeInput i tile).1 → t = w.composeTile i tile cells bad → u = w.composeEvents t bad (w.readsStale i tile) → v = u.updInst cycle (fun i => { i.updTile tile (fun x => { x with phase := .comparing, tile := some t, fired := some u.now }) with lastDone := some u.now }) → v.chkOn = false → exec (.tileHeadsDone cycle tile cells bad) s = .next (((v.unchecked tile).compared cycle tile true).tryFinal)) ∧
    (∀ (cycle tile : Nat) (i : Inst) (x : Sentinel) (t : Tile), s.inst cycle = some i → s.sentinel cycle = some x → (i.tile tile).phase = .comparing → (i.tile tile).tile = some t → s.chkOn = true → exec (.compareDone cycle tile) s = .next (if (s.compare i t x).2 then ((s.compare i t x).1.compared cycle tile true).tryFinal.squash sqDisagree
        else ((s.compare i t x).1.compared cycle tile false).tryFinal)) ∧
    (∀ (cycle tile : Nat) (i : Inst) (x : Sentinel) (t : Tile), s.inst cycle = some i → s.sentinel cycle = some x → (i.tile tile).phase = .recomparing → (i.tile tile).tile = some t → s.chkOn = true → exec (.compareDone cycle tile) s = .next (if (s.compare i t x).2 then ((s.compare i t x).1.reissue cycle tile true).tryFinal.squash sqDisagree
        else ((s.compare i t x).1.reissue cycle tile false).tryFinal))

/-- The end of the head's amend window, the one recomputation of an amended tile, and the reuse deadline (parts of R11,
R144, R150, R151). Choices of the model that its clauses can rest on: log entries 2, 51. -/
def Obligations.FusionAmendsAndReuses : Prop :=
  ∀ s : State, s.on F.GLZ_CTRL_ENABLE = true → s.gated wGLZ = false → s.pwr.refLost = false →
    (s.glz.insts.any (fun i => !i.amendClosed && decide (i.tov + i.amendWin ≤ s.tim.time)) = true → exec .amendWindowClose s = .next s.tryFinal) ∧
    (∀ (tile : Nat) (cells : HeadCells) (i : Inst) (old t : Tile) (v w : State), s.head = some i → (i.tile tile).tile = some old → i.amendClosed = true → i.reuseDone = false → (i.tile tile).pendingAmend = true → (i.tile tile).phase = .issued → s.amendOutstanding i = false → s.glzError i.cycle = false → (s.composeInput i tile).2 = false → w = (s.composeInput i tile).1 → t = { w.composeTile i tile cells.cells cells.poisoned with seq := old.seq } → v = (w.composeEvents t cells.poisoned (w.readsStale i tile)).updInst i.cycle (fun i => i.updTile tile (fun x => { x with phase := .recomparing, tile := some t, pendingAmend := false })) → v.chkOn = true → exec (.amendRecompute tile cells) s = .next (v.startBudget 6 (tileKey i.cycle tile) i.cycle)) ∧
    (∀ (i : Inst) (m : List Nat) (w v : State), s.head = some i → i.reuseDone = false → i.deadline - s.get F.GLZ_DEADLINE_REUSE_LEAD * 1000 ≤ s.tim.time → s.safety ≠ stHalted → i.tiles.countP (fun t => t.pendingAmend || t.phase == .recomparing) = 0 → i.late.all (·.2) = true → w = (s.updInst i.cycle (fun i => { i with
          reuseDone := true, amendClosed := true
          tiles := i.tiles.map (fun t => { t with pendingAmend := false, phase := if t.phase = .recomparing then .issued else t.phase }) })).satAdd F.GLZ_COUNTS_LATE 0 → m = (List.range 256).filter (fun t => (i.tile t).phase == .waiting) → v = m.foldl (fun u t => u.reuseTile i.cycle t) (if m.isEmpty then w
          else (i.tov :: ((w.glz.past.find? (fun r => r.cycle == (i.cycle + 2 ^ 32 - 1) % 2 ^ 32)).map (·.tov)).toList).foldl (fun u t => u.usePose i.cycle t) w) → v.chkOn = true → (v.sentinel i.cycle).isSome = true → exec .reuseDeadline s = .next v.tryFinal)

/-- The scheduler: a token reaches its consumer's entry, waits for a table place or is dropped as stale; a credit returns
(parts of R156, R157, R159, R161, R165). Choices of the model that its clauses can rest on: log entries 2, 69, 72,
194. -/
def Obligations.SchedulerMovesTokens : Prop :=
  ∀ s : State, s.tgsRuns = true →
    (∀ (b : List Byte) (k : Token) (u : State), crcOk (padTo 16 b) = true → k = tokenOf (padTo 16 b) → u = { s.count 3 3 1 with tgs := { (s.count 3 3 1).tgs with sent := removeFirst (fun x => x.sameWire k) (s.count 3 3 1).tgs.sent } } → u.tokenStale k = true → exec (.tokenReceive b) s = .next (u.dropToken k.edge (k.kind == 2) true)) ∧
    (∀ (b : List Byte) (k : Token) (u : State) (dst : Nat × Nat × Nat) (c : Nat), crcOk (padTo 16 b) = true → k = tokenOf (padTo 16 b) → u = { s.count 3 3 1 with tgs := { (s.count 3 3 1).tgs with sent := removeFirst (fun x => x.sameWire k) (s.count 3 3 1).tgs.sent } } → u.tokenStale k = false → u.goldenGone k = false → u.consumerOf k.edge = some dst → k.kind ≠ 2 → c = (if k.golden = true then k.cycle else ((u.glz.insts.find? (fun i => slotOf i.cycle == k.slot)).map (fun i => i.cycle)).getD k.cycle) → u.tableRoom ({ k with dst := dst, cycle := c } : Token).run dst.2.1 dst.2.2 = true → exec (.tokenReceive b) s = .next (({ u with tgs := { u.tgs with tokens := u.tgs.tokens ++ [{ k with dst := dst, cycle := c }] } } : State).syncOps)) ∧
    (∀ (e : Nat), s.tgs.used.contains e = true → exec (.creditReturn e) s = .next ({ s with tgs := { s.tgs.returnCredit e with used := removeFirst (· == e) s.tgs.used } } : State).syncOps) ∧
    (∀ (cls key n : Nat) (b : Budget), s.tgs.budgets.find? (fun b => b.cls == cls && b.key == key && !b.reported) = some b → s.budgetLimit b = some n → b.start + n ≤ s.pwr.refclk → ∃ u, u = { s with tgs := { s.tgs with budgets := s.tgs.budgets.map (fun x => if x = b then { x with reported := true } else x) } } ∧
        exec (.budgetOverrun cls key) s = .next ((((u.satInc (F.TGS_BUDGET_OVERRUNS cls)).raise F.TGS_EVENT_BUDGET_OVERRUN).log wTGS
          F.TGS_EVENT_BUDGET_OVERRUN.lo 2 0xFF cls).detect (if cls = 8 then cFUSION else cBUDGET) cls key))

/-- Firing and completion of an entry, and the end of a squash (parts of R157, R159, R161, R162, R165, R167). Choices of
the model that its clauses can rest on: log entries 2, 69, 72, 194. -/
def Obligations.SchedulerRunsEntries : Prop :=
  ∀ s : State,
    (∀ (unit graph slot tile : Nat) (run : RunId) (e : ListEntry), s.runOf graph slot = some run → s.tgsRuns = true → graph < s.graphs → 64 ≤ unit → unit < 104 → s.ready unit run = true → s.picked tile unit run = true → s.tableRoom run unit (s.tgs.firedCount unit run) = true → e = s.entryOf graph unit (s.tgs.firedCount unit run) → e.ok = true → e.count ≠ 0 → e.ins.all (fun x => !(s.tgs.input run x).any (fun k => k.kind == 3)) = true → exec (.entryFire unit graph slot tile) s = .next ((((s.takeInputs unit run (s.tgs.firedCount unit run) e).count 3 0 1 (some unit)).startUnit
        unit tile run (s.tgs.firedCount unit run) e).syncOps)) ∧
    (∀ (unit graph slot : Nat) (error : Bool) (arg : Nat) (run : RunId) (f : Firing) (r : State × Option Nat × Nat), s.runOf graph slot = some run → s.tgs.firing.find? (fun f => f.unit == unit && f.run == run) = some f → s.tgsRuns = true → s.entryOutcome f (s.entryOf graph unit f.index) error (arg % 2 ^ 32) = some r → exec (.entryComplete unit graph slot error arg) s = .next (r.1.completeEntry f (s.entryOf graph unit f.index) r.2.1 r.2.2)) ∧
    (∀ (unit graph slot : Nat) (error : Bool) (arg : Nat) (run : RunId) (f : Firing), s.runOf graph slot = some run → s.tgs.firing.find? (fun f => f.unit == unit && f.run == run) = some f → s.entryOutcome f (s.entryOf graph unit f.index) error (arg % 2 ^ 32) = none → exec (.entryComplete unit graph slot error arg) s = .next s) ∧
    (∀ (slots cs : Nat) (t : Time) (u v : State), s.tgs.squash = some (slots, cs, t) → u = { s with tgs := { s.tgs with squash := none }, atn := { s.atn with deadSlots := [] } } → v = (u.glz.insts.filter (fun i => bitSet slots (slotOf i.cycle))).foldl (fun v i => (v.clearMaps (slotOf i.cycle)).restartBudgets i) u → exec .squashDone s = .next ((v.put F.TGS_LAST_SQUASH_DURATION (satNat 14 ((v.now - t).toNat / 10))).syncHead.syncOps))

/-- A tile operation completes, on what its buffers hold, and a chain's store completes; the tile takes up its next work
(parts of R173, R174, R179, R180, R183). Choices of the model that its clauses can rest on: log entries 2, 73, 75, 76,
77. -/
def Obligations.ArrayTilesAct : Prop :=
  ∀ s : State,
    (∀ (tile : Nat) (o : ArrOp) (b : ArrBuf) (t : State), s.arrRuns = true → t = s.tileStart tile → t.opOn tile = some o → t.arr.bufs.find? (fun b => b.fits o) = some b → b.code = none → b.bad = false → exec (.tileOperationDone tile 0 false) s = .next ((t.opAdvance o b).tileStart tile)) ∧
    (∀ (tile : Nat) (g te : Bool) (o : ArrOp) (a w : LayOut) (rows : List (List Nat)) (out : List (List Byte × Nat × Nat)), s.arr.ops.find? (fun o => o.tile == tile && o.run.golden == g && o.phase == .storing) = some o → s.arrRuns = true → s.storeRows o te = (a, rows) → a.code = none → a.poison = false → adQ o.desc = 0 → out = a.s.storedRows o rows → (adAdd o.desc && adOutFmt o.desc == 6) = false → w = a.s.layWrite o.user (adO o.desc) o.repOf (out.flatMap (·.1)) false (if adAdd o.desc then some (addStore (adOutFmt o.desc == 5)) else none) te → w.lost = false → w.code = none → (out.map (·.2.1)).foldl (· + ·) 0 + w.sats = 0 → (out.map (·.2.2)).foldl (· + ·) 0 = 0 → o.count ≤ o.rep + 1 → exec (.chainStoreDone tile g 0 te) s = .next ((((w.s.freeSetOf o).count 2 2 1 (some o.unit)).updOp { o with phase := .ended none }).tileStart tile))

/-- The attention engine: a row block is scored into a free slot and handed to its head's core; the core normalises it;
VALUE writes a forward block's rows; GRADIENT a backward block's (parts of R231 to R236). Choices of the model that
its clauses can rest on: log entries 2, 88. -/
def Obligations.AttentionBlocksAct : Prop :=
  ∀ s : State, s.atnRuns = true →
    (∀ (st : AtnStep) (slot : Nat) (rows : List AtnRow) (r : (LayOut × (Nat → List Nat)) × (LayOut × (Nat → List Nat)) × (LayOut × (Nat → List Nat))) (x : PhaseRun), s.scoreChoice = some (st, slot) → rows = takeBlock (sdBackward st.desc) s.slotBytes st.rows → rows.isEmpty = false → rows.any (fun r => (st.pages r.seq).isNone) = false → r = s.stepInputs st rows (decide (st.rows.length ≤ rows.length)) → r.1.1.code = none ∧ r.2.1.1.code = none ∧ r.2.2.1.code = none → r.1.1.poison = false ∧ r.2.1.1.poison = false ∧ r.2.2.1.poison = false → x = r.2.2.1.s.scoreBlock st slot rows r → x.code = none → ∃ u, u = ((x.s.modAdd F.ATN_CANDS_CANDIDATES ((rows.map (·.cands.length)).foldl (· + ·) 0)).updStep st.id
          (fun y => { y with rows := y.rows.drop rows.length })).emit (.core st.core [1, slot]) ∧
        exec .scoreDone s = .next { u with atn := { u.atn with
          blocks := u.atn.blocks ++ [{ step := st.id, slot, golden := st.run.golden, core := st.core, head := sdHead st.desc, rows }] } }) ∧
    (∀ (slot : Nat) (g : Bool) (b : AtnBlock) (st : AtnStep) (x : PhaseRun), s.blockOf slot g .norm = some (b, st) → s.coreTurn b = true → x = s.normBlock st (blockRows (sdBackward st.desc) (s.slotAddr g slot) b.rows) → x.code = none → exec (.normDone slot g) s = .next { x.s with atn := { x.s.atn with blocks := updateFirst (fun c => c == b) (fun c => { c with phase := .value }) x.s.atn.blocks } }) ∧
    (∀ (slot : Nat) (g : Bool) (b : AtnBlock) (st : AtnStep) (x : PhaseRun × List (AtnRow × List Byte)) (w : LayOut), s.blockOf slot g .value = some (b, st) → sdBackward st.desc = false → x = s.valueBlock st (blockRows false (s.slotAddr g slot) b.rows) → x.1.code = none → w = x.1.s.stepWrite st (leAt st.desc 88 5) x.2 (s.lastBlock b st) → w.code = none → exec (.valueDone slot g) s = .next (w.s.blockDone b st)) ∧
    (∀ (slot : Nat) (g : Bool) (b : AtnBlock) (st : AtnStep) (q dO : LayOut × (Nat → List Nat)) (x : PhaseRun × List (AtnRow × List Byte)) (w : LayOut), s.blockOf slot g .value = some (b, st) → sdBackward st.desc = true → q = s.stepRead st (leAt st.desc 80 5) b.rows false → dO = q.1.s.stepRead st (leAt st.desc 96 5) b.rows false → q.1.code = none ∧ dO.1.code = none ∧ q.1.poison = false ∧ dO.1.poison = false → x = dO.1.s.gradBlock st (blockRows true (s.slotAddr g slot) b.rows) q.2 dO.2 (layFmt (s.readBytes (leAt st.desc 96 5) 128)) → x.1.code = none → w = x.1.s.stepWrite st (leAt st.desc 104 5) x.2 (s.lastBlock b st) → w.code = none → exec (.gradientDone slot g) s = .next (w.s.blockDone b st))

/-- A Praline core's loads and stores: of memory, of registers, of a hole, and denied to a user (parts of R6, R211, R362).
Choices of the model that its clauses can rest on: log entries 2, 160. -/
def Obligations.MemoryAccessesAct : Prop :=
  ∀ s : State,
    (∀ (core priv addr size value err : Nat), s.reachable = true → bitSet s.boot.cores core = true → priv ≤ 2 → s.boot.entry.isNone = false → inWindows addr = false → (s.count 5 1 1 (some (64 + core)) (some addr) priv).populatedRange addr size = true → exec (.pralineAccess core priv true addr size value err) s = .next (((s.count 5 1 1 (some (64 + core)) (some addr) priv).countAccess core priv true addr).writeLe addr size value)) ∧
    (∀ (core priv addr size value err : Nat) (u : State), s.reachable = true → bitSet s.boot.cores core = true → priv ≤ 2 → s.boot.entry.isNone = false → inWindows addr = false → (s.count 5 1 1 (some (64 + core)) (some addr) priv).populatedRange addr size = true → u = (s.count 5 1 1 (some (64 + core)) (some addr) priv).countAccess core priv false addr → (u.badWords addr size) = [] → exec (.pralineAccess core priv false addr size value 0) s = .next (u.emit (.load core ((s.count 5 1 1 (some (64 + core)) (some addr) priv).readLe addr size) false))) ∧
    (∀ (core priv addr size value err : Nat), s.reachable = true → bitSet s.boot.cores core = true → priv ≤ 2 → s.boot.entry.isNone = false → inWindows addr = false → (s.count 5 1 1 (some (64 + core)) (some addr) priv).populatedRange addr size = false → exec (.pralineAccess core priv true addr size value err) s = .next (((s.count 5 1 1 (some (64 + core)) (some addr) priv).hole addr).accessFault core priv addr)) ∧
    (∀ (core priv addr size value err : Nat), s.reachable = true → bitSet s.boot.cores core = true → priv ≤ 2 → s.boot.entry.isNone = false → inWindows addr = true → size = 4 ∨ size = 8 → addr % size = 0 → (s.count 5 1 1 (some (64 + core)) (some addr) priv).userDenied priv true addr = true → exec (.pralineAccess core priv true addr size value err) s = .next ((s.count 5 1 1 (some (64 + core)) (some addr) priv).accessFault core priv addr)) ∧
    (∀ (core priv addr size value err : Nat), s.reachable = true → bitSet s.boot.cores core = true → priv ≤ 2 → s.boot.entry.isNone = false → inWindows addr = true → size = 4 ∨ size = 8 → addr % size = 0 → (s.count 5 1 1 (some (64 + core)) (some addr) priv).userDenied priv true addr = false → exec (.pralineAccess core priv true addr size value err) s = .next ((s.count 5 1 1 (some (64 + core)) (some addr) priv).writeWindow addr value (size == 4))) ∧
    (∀ (core priv addr size value err : Nat), s.reachable = true → bitSet s.boot.cores core = true → priv ≤ 2 → s.boot.entry.isNone = false → inWindows addr = true → size = 4 ∨ size = 8 → addr % size = 0 → (s.count 5 1 1 (some (64 + core)) (some addr) priv).userDenied priv false addr = false → exec (.pralineAccess core priv false addr size value err) s = .next (((s.count 5 1 1 (some (64 + core)) (some addr) priv).coreLoad addr size).1.emit (.load core ((s.count 5 1 1 (some (64 + core)) (some addr) priv).coreLoad addr size).2 false)))

/-- The memory's own commands: a corrected word is written back, the patrols read one word or burst and go on to the next,
and a parity error on a command is counted and retried twice (parts of R214, R215, R220). Choices of the model that
its clauses can rest on: log entries 2, 86, 161. -/
def Obligations.MemoryPatrolsAct : Prop :=
  ∀ s : State,
    (∀ (bank : Nat), exec (.eccWriteBack bank) s = .next { s with mem := { s.mem with writeBack := removeFirst (fun a => (s.bankRow a).1 == bank) s.mem.writeBack } }) ∧
    (∀ (bank : Nat), bank < 64 → s.on F.NGT_CTRL_SCRUB_EN = true → s.on F.NGT_STATUS_READY = true → s.power < 2 → bitSet (s.get F.NGT_FAIL_MASK) bank = false → exec (.scrub bank 0) s = .next (s.advanceScrub bank)) ∧
    (∀ (bank : Nat), bank < 64 → s.on F.NGT_CTRL_SCRUB_EN = true → s.on F.NGT_STATUS_READY = true → s.power < 2 → bitSet (s.get F.NGT_FAIL_MASK) bank = false → exec (.scrub bank 1) s = .next ((s.advanceScrub bank).eccCorrected (s.rowAddr bank (sparseGet (fun _ => 0) s.mem.scrubRow bank)) 0)) ∧
    (∀ (bank : Nat), bank < 64 → s.on F.NGT_CTRL_SCRUB_EN = true → s.on F.NGT_STATUS_READY = true → s.power < 2 → bitSet (s.get F.NGT_FAIL_MASK) bank = false → (s.advanceScrub bank).mem.poison.contains (s.rowAddr bank (sparseGet (fun _ => 0) s.mem.scrubRow bank)) = false → exec (.scrub bank 2) s = .next (((((s.advanceScrub bank).memErr (s.rowAddr bank (sparseGet (fun _ => 0) s.mem.scrubRow bank)) 2).countUncorr (s.rowAddr bank (sparseGet (fun _ => 0) s.mem.scrubRow bank))).raise F.NGT_EVENT_SCRUB_UNCORR).poisonWord (s.rowAddr bank (sparseGet (fun _ => 0) s.mem.scrubRow bank)))) ∧
    (∀ (channel : Nat), channel < s.ddrChannels → s.on F.DDR_CTRL_SCRUB_EN = true → s.ddrInstalled ≠ 0 → s.on F.DDR_STATUS_SELF_REFRESH = false → s.gated wDDR = false → exec (.ddrScrub channel 0) s = .next { s with mem := { s.mem with ddrScrub := sparseSet (fun _ => 0) s.mem.ddrScrub channel ((sparseGet (fun _ => 0) s.mem.ddrScrub channel + 1) % (2 ^ 30 * 2 ^ s.get F.DDR_CTRL_CAPACITY / 64)) } }) ∧
    (∀ (channel : Nat), channel < s.ddrChannels → s.on F.DDR_CTRL_SCRUB_EN = true → s.ddrInstalled ≠ 0 → s.on F.DDR_STATUS_SELF_REFRESH = false → s.gated wDDR = false → ∃ u, u = { s with mem := { s.mem with ddrScrub := sparseSet (fun _ => 0) s.mem.ddrScrub channel ((sparseGet (fun _ => 0) s.mem.ddrScrub channel + 1) % (2 ^ 30 * 2 ^ s.get F.DDR_CTRL_CAPACITY / 64)) } } ∧ exec (.ddrScrub channel 1) s = .next (u.eccCorrected (ddrBase + (sparseGet (fun _ => 0) s.mem.ddrScrub channel / 4 * s.ddrChannels + channel) * 256 + sparseGet (fun _ => 0) s.mem.ddrScrub channel % 4 * 64) 0)) ∧
    (∀ (channel addr : Nat), channel < 8 → s.on F.DDR_CTRL_CA_PARITY = true → s.ddrInstalled ≠ 0 → ∃ u, u = { s with mem := { s.mem with caRetry := sparseSet (fun _ => 0) s.mem.caRetry channel 1 } } ∧
        exec (.alertN channel addr false) s = .next ((((u.raise F.DDR_EVENT_CA_PARITY).satInc (F.DDR_CHAN_CA_ERRORS channel)).memErr addr 3).put F.DDR_LAST_ERR_CHANNEL channel)) ∧
    (∀ (channel addr : Nat), channel < 8 → s.on F.DDR_CTRL_CA_PARITY = true → s.ddrInstalled ≠ 0 → sparseGet (fun _ => 0) s.mem.caRetry channel = 2 → ∃ u, u = { s with mem := { s.mem with caRetry := sparseSet (fun _ => 0) s.mem.caRetry channel 0 } } ∧
        exec (.alertN channel addr true) s = .next (((((((((u.raise F.DDR_EVENT_CA_PARITY).satInc (F.DDR_CHAN_CA_ERRORS channel)).memErr addr 3).put
          F.DDR_LAST_ERR_CHANNEL channel).raise F.DDR_EVENT_UNCORR).put F.DDR_LAST_ERR_KIND 1).log wDDR 1 1 0xFF addr).poisonWord (addr / 64 * 64)).detect cCONTAINED 0xFF addr))

/-- The history cache: an edit joins the batch, a full buffer refuses it, COMMIT stages the batch or rejects it whole; a
generation change, the end of the shadow copy (parts of R244 to R246). Choices of the model that its clauses can rest
on: log entries 2, 91. -/
def Obligations.HistoryEditsAndGenerations : Prop :=
  ∀ s : State, s.kvcRuns = true →
    (∀ (u : State) (r : List Byte), s.takeEdit 1 = (u, some r) → u.kvc.edits.length < 1024 → exec .dropRange s = .next { u with kvc := { u.kvc with edits := u.kvc.edits ++ [r] } }) ∧
    (∀ (u : State) (r : List Byte), s.takeEdit 2 = (u, some r) → u.kvc.edits.length < 1024 → exec .share s = .next { u with kvc := { u.kvc with edits := u.kvc.edits ++ [r] } }) ∧
    (∀ (u : State) (r : List Byte), s.takeEdit 3 = (u, some r) → u.kvc.edits.length < 1024 → exec .renumber s = .next { u with kvc := { u.kvc with edits := u.kvc.edits ++ [r] } }) ∧
    (∀ (u : State) (r : List Byte), s.takeEdit 4 = (u, some r) → u.kvc.edits.length < 1024 → exec .clear s = .next { u with kvc := { u.kvc with edits := u.kvc.edits ++ [r] } }) ∧
    (∀ (u : State) (r : List Byte), s.takeEdit 5 = (u, some r) → u.kvc.edits.length < 1024 → exec .undefine s = .next { u with kvc := { u.kvc with edits := u.kvc.edits ++ [r] } }) ∧
    (∀ (u : State) (r : List Byte), s.takeEdit 1 = (u, some r) → 1024 ≤ u.kvc.edits.length → exec .dropRange s = .next { u.satInc F.KVC_COUNTS_REJECTED with kvc := { u.kvc with overflow := true } }) ∧
    (∀ (u v t : State) (r : List Byte) (o : List (Nat × HistSeq)), s.takeEdit 6 = (u, some r) → u.kvc.edits.find? (fun x => !v.editOk x) = none → v = { u with kvc := { u.kvc with edits := [], overflow := false } } → u.kvc.overflow = false → crcOk r = true → v.applyEdits v.kvc.shadow u.kvc.edits = some o → v.batchOk o = true → v.stage v.kvc.appends (v.kvc.batches ++ [u.kvc.edits]) = some t → exec .commit s = .next t) ∧
    (∀ (u : State) (r x : List Byte), s.takeEdit 6 = (u, some r) → u.kvc.edits.find? (fun x => !({ u with kvc := { u.kvc with edits := [], overflow := false } } : State).editOk x) = some x → exec .commit s = .next (({ u with kvc := { u.kvc with edits := [], overflow := false } } : State).rejectBatch (edSeq x))) ∧
    (∀ (u v w : State), s.changeDue = true → u = { s with
        kvc := { s.kvc with
          current := s.kvc.shadowBank, gen := (s.kvc.gen + 1) % 2 ^ 32, lastChange := some s.now, shadowReady := false
          shadow := [], appends := [], batches := [] }
        atn := { s.atn with boundary := false } } → v = (s.touched s.kvc.shadow).foldl (fun t p => t.updPage p (fun r => { r with zeroAt := if r.refs = 0 then some ((s.kvc.gen + 1) % 2 ^ 32) else none })) u → w = v.writeBytes (v.dirAddr v.freeBank 0) (v.readBytes (v.dirAddr v.kvc.current 0) (v.seqs * 8)) → exec .generationChange s = .next ({ w with kvc := { w.kvc with shadowBank := v.freeBank } } : State).freePages) ∧
    (exec .shadowCopyDone s = .next { s with kvc := { s.kvc with shadowReady := true } })

/-- The history cache: a walk of one sequence, the end of a page copy, an append and a prefetch of the head's entries
(parts of R247 to R253). Choices of the model that its clauses can rest on: log entries 2, 91, 92, 93, 94, 95. -/
def Obligations.HistoryWalksAndMoves : Prop :=
  ∀ s : State, s.kvcRuns = true →
    (∀ (step k : Nat) (st : AtnStep), s.atn.steps.find? (fun x => x.id == step) = some st → st.walks.any (fun w => w.1 == k) = false → k < st.seqIds.length → s.seqs ≤ st.seqId k → st.run.golden = false → s.poisoned (s.dirAddr st.bank (st.seqId k)) 8 = false → (deValid (s.dirEntry st.bank (st.seqId k)) && s.poisoned (s.listAddr (s.dirEntry st.bank (st.seqId k))) (8 * deNent (s.dirEntry st.bank (st.seqId k)))) = false → exec (.walk step k none) s = .next (s.deliverDesc st.id k (endDesc st.gen))) ∧
    (∀ (step k : Nat) (bad : Option (Nat × Bool)) (st : AtnStep) (bank : Nat), s.atn.steps.find? (fun x => x.id == step) = some st → st.walks.any (fun w => w.1 == k) = false → k < st.seqIds.length → bank = (if st.run.golden = true then 6 else st.bank) → st.seqId k < s.seqs → deValid (s.dirEntry bank (st.seqId k)) = true → s.poisoned (s.dirAddr bank (st.seqId k)) 8 = false → s.poisoned (s.listAddr (s.dirEntry bank (st.seqId k))) (8 * deNent (s.dirEntry bank (st.seqId k))) = false → exec (.walk step k bad) s = .next (((s.seqOf bank (st.seqId k)).entries.foldl (fun t e => t.emitDesc st k (st.seqId k) e (pageBad bad)) (s.pageMet bad)).deliverDesc st.id k
        (endDesc st.gen))) ∧
    (∀ (p : Nat), (s.page p).state = .moving true → s.pinned p = false → exec (.pageCopyEnd p) s = .next (s.endCopy p true).freePages) ∧
    (∀ (p : Nat), (s.page p).state = .moving false → exec (.pageCopyEnd p) s = .next (s.endCopy p false).freePages) ∧
    (∀ (p : Nat), (s.page p).state = .moving true → s.pinned p = true → exec (.pageCopyEnd p) s = .next (s.updPage p (fun x => { x with state := .resident }))) ∧
    (∀ (f : Firing) (d t k v : List Byte) (r : State × Except Nat (List Byte × List Byte × List Byte)) (i : Inst) (w : State), s.kvcEntry 0 = some (f, d) → crcOk d = true → kdRows d ≠ 0 → f.run.golden = false → r = s.appendReads f d → r.2 = .ok (t, k, v) → r.1.inst f.run.cycle = some i → w = (List.range (kdRows d)).foldl (fun u r => u.appendRow (kdFmt d) (kdDim d) (kdSize d % 16) i.tov (leAt t (2 * r) 2)
      (slice k (r * ({ fmt := kdFmt d, dim := kdDim d } : PageRec).rowBytes) ({ fmt := kdFmt d, dim := kdDim d } : PageRec).rowBytes)
      (slice v (r * ({ fmt := kdFmt d, dim := kdDim d } : PageRec).rowBytes) ({ fmt := kdFmt d, dim := kdDim d } : PageRec).rowBytes)) r.1 → exec .append s = .next ((w.spillLow w.kvc.pages.length).kvcEnd f none)) ∧
    (∀ (f : Firing) (d t : List Byte), s.kvcEntry 1 = some (f, d) → crcOk d = true → f.run.golden = false → s.ctxAllowed (kdCtx d % 16) 102 = true → s.ctxTable (kdCtx d % 16) (leAt d 8 8) (4 * kdRows d) = .ok (t, false) → exec .prefetch s = .next ((((List.range (kdRows d)).flatMap (fun r =>
                  ((s.seqOf s.kvc.current (leAt t (4 * r) 2)).entries.filter (fun e =>
                    decide (leAt t (4 * r + 2) 2 < e.2.1 + e.2.2))).map (·.1))).foldl (fun u q => u.fetchPage f.run.cycle q) s).kvcEnd f none))

/-- Link states: training starts, ends with the expected peer or another, and times out; a link falls silent or loses its
lanes (parts of R257, R261). Choices of the model that its clauses can rest on: log entries 2, 99, 102. -/
def Obligations.LinksTrainAndFall : Prop :=
  ∀ s : State,
    (∀ (port : Nat), s.bmlRuns = true → s.portEnabled port = true → bitSet (s.get F.BML_STATUS_FENCED) port = false → s.linkState port = lkDOWN → (s.lport port).tried = false → exec (.trainingStart port) s = .next (((s.setLink port lkTRAINING).updPort port (fun x => { x with tried := true })).handshake port)) ∧
    (∀ (port peer : Nat), port < 6 → s.bmlRuns = true → s.linkState port = lkTRAINING → s.pwr.refclk ≤ (s.lport port).since + 1250000 → peer % 64 = (s.put (F.BML_PORT_STAT_PEER port) peer).expectedPeer port → ∃ u, u = s.put (F.BML_PORT_STAT_PEER port) peer ∧ exec (.trainingDone port peer true) s = .next (((u.setLink port lkUP).updPort port
        (fun x => { x with lastRx := u.pwr.refclk, lastTx := u.pwr.refclk })).pumpAll port)) ∧
    (∀ (port peer : Nat) (ok : Bool), port < 6 → s.bmlRuns = true → s.linkState port = lkTRAINING → s.pwr.refclk ≤ (s.lport port).since + 1250000 → peer % 64 ≠ (s.put (F.BML_PORT_STAT_PEER port) peer).expectedPeer port → exec (.trainingDone port peer ok) s = .next ((((s.put (F.BML_PORT_STAT_PEER port) peer).dropLink port lkFAILED).put (F.BML_PORT_STAT_REASON port) 1).raise
        F.BML_EVENT_LINK_FAILED)) ∧
    (∀ (port : Nat), port < 6 → s.bmlRuns = true → s.linkState port = lkTRAINING → (s.lport port).since + 1250000 ≤ s.pwr.refclk → exec (.trainingTimeout port) s = .next (s.dropLink port lkDOWN)) ∧
    (∀ (port : Nat), s.bmlRuns = true → s.portIsUp port = true → (s.lport port).lastRx + 25 * s.get F.BML_TIMING_LINK_TIMEOUT ≤ s.pwr.refclk → exec (.linkTimeout port) s = .next (s.dropLink port lkDOWN)) ∧
    (∀ (port : Nat), s.bmlRuns = true → s.portIsUp port = true → exec (.laneLockLoss port) s = .next (s.retrain port))

/-- Flits: one in order is acknowledged and delivered, one that fails its CRC is refused, a nack replays, credits return,
keepalives measure the neighbour and are sent (parts of R259, R260, R269). Choices of the model that its clauses can
rest on: log entries 2, 99, 100, 102, 196. -/
def Obligations.LinksCarryFlits : Prop :=
  ∀ (s : State) (port : Nat), s.bmlRuns = true → s.portIsUp port = true →
    (∀ (b : List Byte) (u v : State), crcOk (padTo 72 b) = true → u = (s.updPort port (fun x => { x with lastRx := s.pwr.refclk })).ackFlits port (bitsAt (leAt (padTo 72 b) 66 2) 0 12) → bitsAt (leAt (padTo 72 b) 64 2) 13 3 = 1 → bitsAt (leAt (padTo 72 b) 64 2) 0 12 = ((u.lport port).rxSeq + 1) % 4096 → v = u.updPort port (fun x => { x with rxSeq := bitsAt (leAt (padTo 72 b) 64 2) 0 12 }) → exec (.flit port b) s = .next ((v.acceptFlit port (bitsAt (leAt (padTo 72 b) 64 2) 12 1) ((padTo 72 b).take 64)).pumpAll port)) ∧
    (∀ (b : List Byte) (u : State), crcOk (padTo 72 b) = false → u = (s.updPort port (fun x => { x with lastRx := s.pwr.refclk })).satInc (F.BML_PORT_STAT_CRC_ERR port) → exec (.flit port b) s = .next (u.sendFlit port [] ((s.updPort port (fun x => { x with lastRx := s.pwr.refclk })).lport port).txSeq 0 4)) ∧
    (∀ (ack : Nat) (u : State), u = (((s.updPort port (fun x => { x with lastRx := s.pwr.refclk })).ackFlits port ack).satInc (F.BML_PORT_STAT_REPLAYS port)).updPort port
      (fun x => { x with replays := x.replays + 1 }) → (u.lport port).replays < 16 → exec (.nackFlit port ack) s = .next ((u.lport port).replay.foldl (fun t r => t.sendFlit port r.2.2 r.1 r.2.1 1) u)) ∧
    (∀ (vc count ack : Nat), exec (.creditFlit port vc count ack) s = .next (((s.updPort port (fun x => { x with
        lastRx := s.pwr.refclk, credits := modifyAt (fun c => min 64 (c + count)) vc x.credits })).ackFlits port ack).pumpAll port)) ∧
    (∀ (ack : Nat) (peer trip : Int) (u : State), u = ((s.updPort port (fun x => { x with lastRx := s.pwr.refclk })).ackFlits port ack).pumpAll port → (peer + trip / 2 - u.now).natAbs ≤ (u.putI (F.BML_NBR_OFFSET_OFFSET port) (peer + trip / 2 - u.now)).get F.BML_TIMING_SKEW_LIMIT → exec (.keepalive port ack peer trip) s = .next (u.putI (F.BML_NBR_OFFSET_OFFSET port) (peer + trip / 2 - u.now))) ∧
    ((s.lport port).lastTx + 250 ≤ s.pwr.refclk → exec (.keepaliveTx port) s = .next (s.sendFlit port (Config.keepalivePayload s.tim.time) (s.lport port).txSeq 0 3))

/-- Experts: a dispatch command opens the layer's combine buffer and sends one packet a choice; DISPATCH is admitted or
refused; the serve entry returns results; RESULT and REFUSE fill or mark their slot; the combine deadline closes the
buffer (parts of R264 to R267). Choices of the model that its clauses can rest on: log entries 2, 98, 99, 103, 104. -/
def Obligations.ExpertsServed : Prop :=
  ∀ s : State, s.bmlRuns = true →
    (∀ (layer : Nat) (records : List Nat) (rows : List (List Byte)) (i : Inst) (u : State), s.head = some i → records.isEmpty = false → layer ≤ s.get F.BML_EXPERT_LAYERS → u = { s with bml := { s.bml with combine := s.bml.combine.filter (fun x => !(x.layer == layer && x.cycle == i.cycle))
        ++ [{ layer, cycle := i.cycle, stamp := ofInt 64 i.tov, slots := records.map (fun _ => List.replicate s.topk .empty) }] } } → exec (.dispatchCommand layer records rows) s = .next (records.zipIdx.foldl (fun t r =>
          (List.range u.topk).foldl (fun u k => u.dispatchChoice layer (ofInt 64 i.tov) r.2 k (bitsAt r.1 (11 * k) 11) (rows.getD r.2 [])) t) u)) ∧
    (∀ (u : State) (b : List Byte) (r : Nat), s.takePacket 0 = some (u, b) → u.admission b = .error r → exec .dispatch s = .next (u.routePacket (packet 2 (pkSlot b) (pkSrc b) u.deviceId (pkLayer b) (pkK b) r (pkToken b) (pkTov b) []) none 0)) ∧
    (∀ (u : State) (b : List Byte) (i : Inst) (es : List ExpertBuf), s.takePacket 0 = some (u, b) → u.admission b = .ok i → es = (if u.bml.experts.any (fun e => e.layer == pkLayer b && e.slot == pkSlot b && e.cycle == i.cycle) = true then u.bml.experts
      else u.bml.experts ++ [({ layer := pkLayer b, slot := pkSlot b, cycle := i.cycle } : ExpertBuf)]) → exec .dispatch s = .next { u with bml := { u.bml with experts := (updateFirst (fun e => e.layer == pkLayer b && e.slot == pkSlot b && e.cycle == i.cycle) (fun e => { e with rows := e.rows ++ [b] }) es) } }) ∧
    (∀ (layer slot : Nat) (rows : List (List Byte)) (i : Inst) (e : ExpertBuf) (u : State), s.head = some i → s.bml.experts.find? (fun e => e.layer == layer && e.slot == slot && e.cycle == i.cycle) = some e → i.tov + s.get F.BML_TIMING_COLLECT_CLOSE * 1000 ≤ s.tim.time → u = { s with bml := { s.bml with experts := s.bml.experts.filter (fun x => x != e) } } → exec (.serve layer slot rows) s = .next (e.rows.zipIdx.foldl (fun t b =>
            t.routePacket (packet 1 slot (pkSrc b.1) t.deviceId layer (pkK b.1) 0 (pkToken b.1) (pkTov b.1) (padTo t.hidden (rows.getD b.2 []))) none 0) u)) ∧
    (∀ (u : State) (b : List Byte) (c : Combine), s.takePacket 1 = some (u, b) → u.combineFor b = some c → exec .result s = .next (u.updCombine c.layer c.stamp (fun c => c.set (pkToken b) (pkK b) (fun _ => .filled (pkPayload b))))) ∧
    (∀ (u : State) (b : List Byte), s.takePacket 1 = some (u, b) → u.combineFor b = none → exec .result s = .next (u.satInc F.BML_COUNTS_LATE_RESULT)) ∧
    (∀ (u : State) (b : List Byte) (c : Combine), s.takePacket 2 = some (u, b) → u.combineFor b = some c → exec .refuse s = .next (u.updCombine c.layer c.stamp (fun c => c.set (pkToken b) (pkK b) (fun _ => .marked)))) ∧
    (∀ (layer : Nat) (home : List (List Byte)) (c : Combine) (u v : State), s.bml.combine.find? (fun c => c.layer == layer && !c.closed) = some c → s.replyDeadline c ≤ s.tim.time → (closeCombine home c).2.2 ≠ 0 → u = { s with bml := { s.bml with combine := updateFirst (fun x => x == c) (fun _ => (closeCombine home c).1) s.bml.combine } } → v = (u.raise F.BML_EVENT_FALLBACK).satAdd F.BML_COUNTS_FALLBACKS (closeCombine home c).2.2 → exec (.combineDeadline layer home) s = .next ((v.updInst c.cycle (fun i => { i with
        fallback := (i.fallback ++ (closeCombine home c).2.1.map (· / 16)).eraseDups })).emit (.core 0 [4, layer, c.cycle])))

/-- Remote copies: a core's copy is sent, a COPY packet is written and, when it is the last, answered; COPY_DONE, NACK and
the timeout end the source's entry (parts of R268). Choices of the model that its clauses can rest on: log entries 2,
99, 106. -/
def Obligations.RemoteCopiesRun : Prop :=
  ∀ s : State, s.bmlRuns = true →
    (∀ (core desc dest target : Nat) (x : LayOut) (u : State), core < 32 → x = s.layRead (s.coreUser core) desc none → x.code = none → u = { x.s with bml := { x.s.bml with copies := x.s.bml.copies ++ [{ core, dest, start := x.s.pwr.refclk }] } } → exec (.remoteCopy core desc dest target) s = .next (if x.bytes.isEmpty then x.s.emit (.core core [5, 0])
        else (chunks 1024 x.bytes).zipIdx.foldl (fun t c =>
          t.routePacket (packet 3 0 (dest % 64) t.deviceId 0 0 0 0 (bitsAt (target + 1024 * c.2) 0 40) c.1) none 0) u)) ∧
    (∀ (u t : State) (b : List Byte), s.takePacket 3 = some (u, b) → u.bml.aborted.contains (pkSrc b) = false → u.remoteWrite (bitsAt (pkTov b) 0 40) (pkPayload b) = .ok t → exec (.copy false) s = .next t) ∧
    (∀ (u t : State) (b : List Byte), s.takePacket 3 = some (u, b) → u.bml.aborted.contains (pkSrc b) = false → u.remoteWrite (bitsAt (pkTov b) 0 40) (pkPayload b) = .ok t → exec (.copy true) s = .next ((t.queueWrite (t.get F.BML_CTRL_RX_Q) (padTo 64 (Config.copyNotice (pkSrc b) (bitsAt (pkTov b) 0 40)))).routePacket
        (packet 4 0 (pkSrc b) t.deviceId 0 0 0 0 0 []) none 0)) ∧
    (∀ (u : State) (b : List Byte) (c : RemoteCopy), s.takePacket 4 = some (u, b) → u.copyTo (pkSrc b) = some c → exec .copyDone s = .next (u.endRemote c 0)) ∧
    (∀ (u : State) (b : List Byte) (c : RemoteCopy), s.takePacket 5 = some (u, b) → u.copyTo (pkSrc b) = some c → exec .nack s = .next (u.endRemote c (1 + leAt (pkPayload b) 0 1))) ∧
    (∀ (c : RemoteCopy), s.bml.copies.find? (fun c => decide (c.start + 25 * s.get F.BML_TIMING_COPY_TIMEOUT ≤ s.pwr.refclk)) = some c → exec .copyTimeout s = .next (s.endRemote c 1))

/-- The checker: a closed table starts the sentinel network, its output is kept for comparison and ends budget class 5, a
golden frame passes or fails by its outputs, and at Guard 256 guard tiles issue at a schedule point (parts of R275,
R278, R281, R282). Choices of the model that its clauses can rest on: log entries 2, 61, 112, 113, 114, 117, 118. -/
def Obligations.CheckerActs : Prop :=
  ∀ s : State, s.chkOn = true → s.power = 0 → (s.boot.step != .inReset) = true → s.pwr.refLost = false →
    (∀ (c : Nat) (t : PTable), s.ptable c = some t → t.closed = true → t.read = false → ∃ u, u = s.updTable c (fun t => { t with read := true }) ∧
      exec (.sentinelRun c) s = .next { u with chk := { u.chk with running := u.chk.running.filter (· != c) ++ [c] } }) ∧
    (∀ (c : Nat) (i : Inst) (cs : List SentCell), s.chk.running.contains c = true → s.inst c = some i → ∃ u, u = { s with chk := { s.chk with
        running := s.chk.running.filter (· != c), sentinels := s.chk.sentinels.filter (fun (x : Sentinel) => x.cycle != c) ++ [({ cycle := c, cells := cs } : Sentinel)] } } ∧
      exec (.sentinelDone c ⟨cs, 0⟩) s = .next ((u.put F.CHK_STATUS_SENT_CYCLE c).endBudget 5 c)) ∧
    (∀ (n : Nat) (g : Golden) (u : State), s.saf.golden.find? (fun g => g.num == n && g.due.isSome) = some g → s.goldenScan (s.goldenField g.entry 16 8) (s.goldenField g.entry 28 8) (s.goldenField g.entry 24 4) 0 0 = none → s.goldenEntryBad g.entry = false → u = ((((((s.fresh.put F.CHK_GOLDEN_LAST_ENTRY g.entry).flag F.CHK_GOLDEN_LAST_FAILED false).flag F.CHK_GOLDEN_LAST_EXTRA g.extra).put
      F.CHK_GOLDEN_LAST_FIRST_FAIL (Config.noElement s.free)).put F.CHK_GOLDEN_LAST_FRAME n).goldenLeave [g]).goldenSpan g → exec (.goldenCompareDone n false) s = .next (u.goldenPassed g)) ∧
    (∀ (n k : Nat) (e : Bool) (g : Golden) (u : State), s.saf.golden.find? (fun g => g.num == n && g.due.isSome) = some g → s.goldenScan (s.goldenField g.entry 16 8) (s.goldenField g.entry 28 8) (s.goldenField g.entry 24 4) 0 0 = some k → u = (((((((s.put F.CHK_GOLDEN_LAST_ENTRY g.entry).flag F.CHK_GOLDEN_LAST_FAILED true).flag F.CHK_GOLDEN_LAST_EXTRA g.extra).put
      F.CHK_GOLDEN_LAST_FIRST_FAIL k).put F.CHK_GOLDEN_LAST_FRAME n).goldenLeave [g]).goldenSpan g) → exec (.goldenCompareDone n e) s = .next (u.goldenFailed g)) ∧
    (∀ (cells : List SentCell) (t : Int) (u : State), s.schedNow = some t → s.boot.level = some 2 → s.on F.CHK_CTRL_GUARD_OUT = true → s.chk.guardLast = none → (s.safety != stHalted) = true → u = { s with chk := { s.chk with guardLast := some t }, glz := { s.glz with nextCycle := (s.glz.nextCycle + 1) % 2 ^ 32, past := ({ cycle := s.glz.nextCycle, tov := t, ego := s.egoCell, issueOrder := List.range 256, subs := s.subsNow } :: s.glz.past).take 8 } } → exec (.guardTileIssue cells) s = .next ((List.range 256).foldl (fun u k => u.guardIssue s.glz.nextCycle t cells k) u))

/-- SAF: detections from its monitors, its heartbeat and watchdog timers, the golden span and the repeated notice (parts
of R282 to R285, R288, R289, R376). Choices of the model that its clauses can rest on: log entries 2, 56, 110, 112,
114, 115, 197. -/
def Obligations.SupervisorActs : Prop :=
  ∀ s : State, (s.boot.step != .inReset) = true → s.pwr.refLost = false → s.power ≤ 1 →
    (s.chkOn = true → exec (.lockstep false) s = .next (({ s.raise F.CHK_EVENT_LOCKSTEP_A with chk := { s.chk with mismatch := (true, s.chk.mismatch.2) } } : State).detect cLOCKSTEP 103 0)) ∧
    (s.chkOn = true → exec (.lockstep true) s = .next (({ s.raise F.CHK_EVENT_LOCKSTEP_B with chk := { s.chk with mismatch := (s.chk.mismatch.1, true) } } : State).detect cLOCKSTEP 103 1)) ∧
    (exec .safSelf s = .next (s.detect cSAF_SELF)) ∧
    (exec .safePath s = .next (s.detect cSAFE_PATH)) ∧
    (∀ (k : Nat), exec (.env k) s = .next (s.detect cENV 0xFF k)) ∧
    (∀ (t : Nat), s.hbFrom = some t → s.saf.hbExpired = false → t + 25000 * s.get F.SAF_TIMING_HB_TIMEOUT ≤ s.pwr.refclk → exec .heartbeatTimeout s = .next (((({ s with saf := { s.saf with hbExpired := true } } : State).raise F.SAF_EVENT_HB_LOST).satInc F.SAF_HEARTBEAT_MISSES).detect cHEARTBEAT)) ∧
    (s.boot.step = .up → s.saf.wdtLast + 250000 ≤ s.pwr.refclk → exec .watchdogService s = .next { s with saf := { s.saf with wdtLast := s.pwr.refclk } }) ∧
    (s.boot.step = .up → s.saf.wdtLast + 25000 * s.get F.SAF_TIMING_WDT_TIMEOUT ≤ s.pwr.refclk → exec .watchdogExpiry s = .next (s.resetTrigger rcWATCHDOG 0)) ∧
    (∀ (d : Nat) (u : State), s.saf.dueAt = some (d, false) → s.power = 0 → d + 25 * s.get F.SAF_TIMING_GOLDEN_SPAN_MAX < s.pwr.refclk → u = { s with saf := { s.saf with dueAt := some (d, true) } } → exec .goldenSpan s = .next ((u.raise F.SAF_EVENT_GOLDEN_SPAN).detect cGOLDEN_SPAN 9 ((u.pwr.refclk - d) / 25))) ∧
    (∀ (n : Notice) (u : State), s.saf.notice = some n → 3 ≤ s.safety → s.saf.noticeAt + 25000 * s.get F.SAF_TIMING_NOTICE_REPEAT ≤ s.pwr.refclk → u = { s with saf := { s.saf with noticeAt := s.pwr.refclk } } → exec .noticeRepeat s = .next ((u.noticeOn 0 n).noticeOn 1 n))

/-- Staged commits: a request consumes its channel's shadow and is checked, a commit that passes every check becomes
pending and is answered, one that fails is answered with its reason, a cancel removes it, and its items take effect at
its instant (parts of R304 to R307). Choices of the model that its clauses can rest on: log entries 2, 66, 138, 143,
144. -/
def Obligations.CommitsStage : Prop :=
  ∀ s : State, s.takesCommits = true →
    (∀ (id : Nat) (items : List (Nat × Nat)) (ok : Bool), exec (.commitNextBoundary none id items ok) s =
      .next { s with boot := { s.boot with checking := s.boot.checking ++ [{ id, host := none, atTime := false, items, crcOk := ok }] } }) ∧
    (∀ (h : Nat × Nat × Nat) (id : Nat) (items : List (Nat × Nat)) (ok : Bool) (u : State), u = ({ s with boot := { s.boot with hostShadow := [], stageSeq := 0 } } : State).syncCommits → exec (.commitNextBoundary (some h) id items ok) s = .next { u with
      boot := { u.boot with checking := u.boot.checking ++ [{ id, host := some h, atTime := false, items := s.boot.hostShadow, crcOk := ok }] } }) ∧
    (∀ (id : Nat) (t : Int) (items : List (Nat × Nat)) (ok : Bool), exec (.commitAtTime none id t items ok) s =
      .next { s with boot := { s.boot with checking := s.boot.checking ++ [{ id, host := none, atTime := true, time := t, items, crcOk := ok }] } }) ∧
    (∀ (id k : Nat), s.commitsClosed = false → s.boot.pending.findIdx? (fun p => p.id == id && p.host.isSome == false && decide (s.tim.time < p.applyAt)) = some k → exec (.commitCancel none id true) s = .next (s.cancelFrom k)) ∧
    (∀ (id : Nat), s.commitsClosed = false → s.boot.pending.findIdx? (fun p => p.id == id && p.host.isSome == false && decide (s.tim.time < p.applyAt)) = none → exec (.commitCancel none id true) s = .next (s.sendResult { id, host := none, atTime := false, items := [], crcOk := true } true (commitResult id 9 0xFF 0 0 0))) ∧
    (∀ (c d : Commit) (r : List Commit) (u v : State), s.boot.checking = c :: r → u = { s with boot := { s.boot with checking := r } } → u.takesCommits = true → d = u.placed c → u.commitFault d = none → v = ({ u with boot := { u.boot with pending := u.boot.pending ++ [d] } } : State).syncCommits → exec .commitCheckDone s = .next (v.sendResult d true (commitResult d.id 0 0xFF 1 d.applyAt d.cycle))) ∧
    (∀ (c d : Commit) (r : List Commit) (u : State) (f : Nat × Nat), s.boot.checking = c :: r → u = { s with boot := { s.boot with checking := r } } → u.takesCommits = true → d = u.placed c → u.commitFault d = some f → exec .commitCheckDone s = .next (u.sendResult d true (commitResult d.id f.1 f.2 0 0 0))) ∧
    (s.commitsDue.isEmpty = false → (s.safety == stHalted) = false → s.pwr.refLost = false → exec .commitApply s = .next s.applyDue)

/-- Resets: each trigger that finds no sequence running resets the device with its code; one that finds a sequence of a
lower code is only recorded; POWER_ON always takes effect (parts of R355, R356, R378, R379). Choices of the model that
its clauses can rest on: log entries 2, 147, 148. -/
def Obligations.ResetsTakeEffect : Prop :=
  ∀ s : State, s.pwr.off = false → s.boot.held = false →
    (exec .powerOnReset s = .next (s.doReset rcPOWER_ON 0 0)) ∧
    (s.boot.running = none → exec .resetN s = .next (s.doReset rcRESET_N 0 0)) ∧
    (s.boot.running = none → s.pwr.mainEn = true → exec .pwrGoodLow s = .next (s.doReset rcRESET_N 0 0)) ∧
    (s.boot.running = none → exec .warm s = .next (s.abortOpen.doReset rcWARM 0 0)) ∧
    (s.boot.running = some rcPOWER_ON → exec .warm s = .next (s.put F.RST_CAUSE_SEEN (setBit (s.get F.RST_CAUSE_SEEN) (rcWARM - 1))))

/-- What a reset leaves: RST_CAUSE records the code and the safety source, the start sequence runs, the level is not
reported, device time is 0, no instance, no queue and no staged commit remains, and the queue of commands and the
fuses stay (parts of R355 to R357). Choices of the model that its clauses can rest on: log entries 2, 147, 148. -/
def Obligations.ResetLeaves : Prop :=
  ∀ s : State,
    (∀ (code src seen : Nat), (∃ t, t = s.doReset code src seen ∧ t.boot.running = some code ∧ t.boot.step = .inReset ∧ t.boot.level = none ∧ t.tim.time = 0 ∧
      t.glz.insts = [] ∧ t.queues = [] ∧ t.boot.pending = [] ∧ t.boot.checking = [] ∧ t.boot.flash = s.boot.flash ∧ t.sec.fuses = s.sec.fuses ∧
      t.pending = s.pending ∧ t.out = s.out))

/-- The start sequence: RESET_RELEASE verifies the slots and tries the accepted ones, BIST and DDR training report, and
the end of loading finishes with the first slot that passes or replaces one that fails (parts of R296, R298, R301 to
R303, R219). Choices of the model that its clauses can rest on: log entries 2, 119, 120, 121, 122, 123, 126, 143. -/
def Obligations.StartSequenceRuns : Prop :=
  ∀ s : State,
    (∀ (fb : Nat) (u v w : State), s.boot.step = .inReset → s.boot.running = some rcPOWER_ON → s.pwr.off = false → s.pwr.refLost = false → s.sec.tampered = false → u = ({ s with sec := { s.sec with provEn := false, testEn := false }, boot := { s.boot with releasedAt := s.pwr.refclk } } : State).showFuses.startRomPlls → u.sec.tampered = false → v = u.deriveKeys.takeCak → w = (v.chooseSlots fb).restoreAtPowerOn → exec (.resetRelease false false false false fb) s = .next (w.trySlots w.boot.accepted)) ∧
    (∀ (fb : Nat) (u v : State), s.boot.step = .inReset → s.boot.running = some rcWARM → s.pwr.off = false → s.pwr.refLost = false → u = ({ s with sec := { s.sec with provEn := false, testEn := false }, boot := { s.boot with releasedAt := s.pwr.refclk } } : State).showFuses.startRomPlls → u.sec.tampered = false → v = u.takeCak → exec (.resetRelease false false false false fb) s = .next (v.warmStart fb)) ∧
    (∀ (u v w : State), s.boot.step = .chosen → s.boot.bistDone = false → s.boot.running = some rcPOWER_ON → u = ({ s with boot := { s.boot with bistDone := true, cores := (List.range 32).foldl (fun m k => if bitSet 0 k = true then m else m + 2 ^ k) 0, lost := [] } } : State) → v = ((u.put F.ARR_PRESENT_MASK (2 ^ 64 - 1)).fenceTiles 0 1).fenceTiles 0 2 → w = (((v.put F.NGT_FAIL_MASK 0).put F.NGT_STATUS_BANKS_OK 64).raise F.NGT_STATUS_READY).put F.BML_STATUS_FENCED 0 → w.aliveOk = true → exec (.bistDone [] 0 0 0 0 0) s = .next w) ∧
    (∀ (m : Nat) (u : State), s.boot.step = .chosen → s.boot.ddrDone = false → s.get F.DDR_CTRL_CH_EN ≠ 0 → (List.range 8).filter (fun c => bitSet (s.get F.DDR_CTRL_CH_EN) c && bitSet m c) = [] → u = (({ s with boot := { s.boot with ddrDone := true } } : State).put F.DDR_STATUS_TRAINED (s.get F.DDR_CTRL_CH_EN)).raise F.DDR_STATUS_INSTALLED → exec (.ddrTrainingDone m) s = .next (u.zeroFill ddrBase (ddrBase + u.ddrInstalled))) ∧
    (∀ (b : Bool) (latent slot : Nat) (r : List Nat), s.loadReady = true → s.boot.accepted = slot :: r → exec (.imageLoadDone b latent) s = .next (if b = true then s.failSlot slot rsFLASH else match s.loadRest slot with
        | (_, some e) => s.failSlot slot e
        | (t, none) => t.finishLoad slot latent))

/-- Anti-rollback, quotes and identity: an advance begins, ends with the last fuse, a quote is signed with its body
captured at the start, a second request waits, and a ready quote is sent (parts of R312, R314, R315). That a command
whose condition does not hold changes nothing is the model's choice (log entry 2). -/
def Obligations.RootOfTrustCounts : Prop :=
  ∀ s : State,
    (∀ (t : Nat) (u : State), u = s.put F.SEC_ROLLBACK_CMD_TARGET (t % 128) → u.on F.SEC_STATUS_IMAGE_LOADED = true → u.sec.rollTarget = none → u.fuseSvn < t % 128 → t % 128 ≤ u.boot.start.svn → exec (.rollbackAdvance t) s = .next { (u.raise F.SEC_STATUS_ROLLBACK_BUSY) with sec := { u.sec with rollTarget := some (t % 128) } }) ∧
    (∀ (t : Nat), s.sec.rollTarget = some t → s.blowRollback.fuseSvn < t → exec .rollbackFuseBlown s = .next s.blowRollback) ∧
    (∀ (t : Nat) (u : State), s.sec.rollTarget = some t → u = s.blowRollback → (¬ u.fuseSvn < t) → exec .rollbackFuseBlown s = .next { ((u.put F.SEC_STATUS_ROLLBACK_BUSY 0).raise F.SEC_EVENT_ROLLBACK_DONE) with sec := { u.sec with rollTarget := none } }) ∧
    (∀ (port src reqId flags : Nat) (nonce : List Byte) (u : State) (q : QuoteReq), s.hostListens port = true → (s.needsMacsec port && !s.mkaLive port) = false → s.serves false true false = true → s.openRequests port < 16 → u = s.modInc (F.HST_RX_ACCEPTED port) → nonce.length = 32 → (u.sec.fuses.lifecycle = 3) = False → u.sec.tampered = false → u.on F.SEC_STATUS_IDENTITY = true → u.sec.signing = none → q = { port, src, reqId, nonce, tuned := bitSet flags 0 } → exec (.attestReq port src reqId nonce flags) s = .next (u.startQuote q)) ∧
    (∀ (port src reqId flags : Nat) (nonce : List Byte) (u : State) (x : QuoteReq × List Byte), s.hostListens port = true → (s.needsMacsec port && !s.mkaLive port) = false → s.serves false true false = true → s.openRequests port < 16 → u = s.modInc (F.HST_RX_ACCEPTED port) → nonce.length = 32 → (u.sec.fuses.lifecycle = 3) = False → u.sec.tampered = false → u.on F.SEC_STATUS_IDENTITY = true → u.sec.signing = some x → u.sec.waiting = none → exec (.attestReq port src reqId nonce flags) s = .next { u with sec := { u.sec with waiting := some { port, src, reqId, nonce, tuned := bitSet flags 0 } } }) ∧
    (∀ (q : QuoteReq) (b seed : List Byte) (u : State), s.sec.signing = some (q, b) → s.sec.seed = some seed → s.sec.waiting = none → u = ({ s with sec := { s.sec with signing := none, waiting := none } } : State).modInc F.SEC_COUNTS_QUOTES → exec .quoteReady s = .next (u.sendFrames q.port txReply q.src (unitFrames ftQuote flReply stOk q.reqId (leAt b 292 4) 0 true
        (b ++ padTo 35664 (Config.slhSign (Config.hkdf seed 0 72) b)))))

/-- Debug authentication, keys, tamper and MACsec: a challenge carries a fresh nonce, a response consumes it, a response
that fails a condition is refused and counted, the scopes gate the fuses, a tamper trip zeroises and resets, MKA keeps
a port live (parts of R316 to R321). Choices of the model that its clauses can rest on: log entries 2, 130, 131, 133,
134, 149. -/
def Obligations.DebugAndKeysAct : Prop :=
  ∀ s : State,
    (∀ (id : List Byte), s.debugPort = true → id = (if s.on F.SEC_STATUS_IDENTITY = true then sha256 s.devicePk else zeroBytes 32) → ∃ c, c = natLe 4 0xD5DB0001 ++ natLe 2 s.scopeAvail ++ zeroBytes 2 ++ padTo 32 (Config.random s.free) ++ id ∧
      exec .challengeRead s = .next { (s.fresh.emit (.challenge c)) with sec := { s.sec with challenge := some (c, s.tim.time) } }) ∧
    (∀ (b c : List Byte) (t : Int), s.debugPort = true → s.sec.response = none → s.sec.challenge = some (c, t) → exec (.responseWrite b) s = .next { s with sec := { s.sec with response := some (padTo 16280 b, c, t), challenge := none } }) ∧
    (∀ (r c : List Byte) (t : Int) (u v : State), s.sec.response = some (r, c, t) → s.sec.lockout = false → c.isEmpty = false → s.tim.time ≤ t + 60000000000 → sha256 (slice r 0 48) = s.sec.fuses.ownerHash → s.sec.fuses.debugDisable = false → u = ({ s with sec := { s.sec with response := none } } : State) → (leAt r 48 2 &&& u.scopeAvail) = leAt r 48 2 → u.debugState = true → s.sec.refusals = 0 → v = (u.raise F.SEC_EVENT_DEBUG_FAIL).satInc F.SEC_COUNTS_DEBUG_FAILS → (s.sec.fuses.lifecycle != 0) = true → exec .debugVerifyDone s = .next (if Config.slhVerify (slice r 0 48) (c ++ slice r 48 2) (slice r 56 16224) = true then
        { ((u.put F.SEC_STATUS_DEBUG_SCOPES (u.get F.SEC_STATUS_DEBUG_SCOPES ||| leAt r 48 2)).raise F.SEC_EVENT_DEBUG_GRANT) with
          sec := { u.sec with refusals := 0 } }
      else { v with sec := { u.sec with refusals := 1 } })) ∧
    (∀ (r c : List Byte) (t : Int) (u v : State), s.sec.response = some (r, c, t) → s.sec.lockout = true → u = ({ s with sec := { s.sec with response := none } } : State) → v = (u.raise F.SEC_EVENT_DEBUG_FAIL).satInc F.SEC_COUNTS_DEBUG_FAILS → exec .debugVerifyDone s = .next { (if 8 ≤ s.sec.refusals + 1 then v.raise F.SEC_EVENT_DEBUG_LOCKOUT else v) with
        sec := { s.sec with response := none, refusals := s.sec.refusals + 1, lockout := true } }) ∧
    (∀ (cak ckn k : List Byte) (i : Nat), s.scopeOpen 3 = true → s.sec.kek = some k → s.sec.fuses.caks.findIdx? (fun c => !c.valid) = some i → exec (.keyProvWrite cak ckn) s = .next (s.updFuses (fun f => { f with caks := modifyAt (fun c => { c with wrapped := Config.aesWrap k (padTo 32 cak), ckn := padTo 16 ckn, valid := true }) i f.caks }))) ∧
    (∀ (k : Nat), s.scopeOpen 3 = true → exec (.cakRevoke k) s = .next (s.updFuses (fun f => { f with caks := modifyAt (fun c => { c with revoked := true }) k f.caks }))) ∧
    (s.scopeOpen 4 = true → exec .decommission s = .next (s.updFuses (fun f => { f with lifecycle := 3 })).showFuses) ∧
    (s.scopeOpen 4 = true → exec .debugDisableBlow s = .next (s.updFuses (fun f => { f with debugDisable := true })).showFuses) ∧
    (∀ (rail : Nat) (u : State), s.watched 1 rail = true → u = ((s.zeroise.put F.SEC_TAMPER_LAST_MONITOR 1).put F.SEC_TAMPER_LAST_RAIL rail).satInc F.SEC_TAMPER_TAMPERS → exec (.tamperTrip 1 rail) s = .next ((u.life 780).eventTick.resetTrigger rcSAFETY 1)) ∧
    (∀ (p : Nat), s.mkaRuns p = true → (s.sec.mka.getD p {}).hello = none → exec (.mkaHello p) s = .next ((s.txSend p { cls := txStatus, kind := .mka 0 }).updMka p (fun m => { m with hello := some s.pwr.refclk }))) ∧
    (∀ (p k : Nat), s.mkaRuns p = true → exec (.mkpdu p 0 k) s = .next ((s.raise (portFld p F.SEC_STATUS_MKA_A F.SEC_STATUS_MKA_B)).updMka p
        (fun m => { m with live := true, sak := some (m.sak.getD 0) }))) ∧
    (∀ (p k : Nat), s.mkaRuns p = true → exec (.mkpdu p 1 k) s = .next ((s.raise (portFld p F.SEC_STATUS_MKA_A F.SEC_STATUS_MKA_B)).updMka p
        (fun m => { m with live := true, sak := some k, txPn := 1, rxPn := 0 }))) ∧
    (∀ (p : Nat), s.hostListens p = true → s.needsMacsec p = true → exec (.macsecDrop p) s = .next s.dropUnprotected)

/-- Host requests that read: STATUS_READ, TILE_READ, the error log, the start record and the lifetime record are answered
on their port (parts of R324, R326, R328, R329, R338, R365). Choices of the model that its clauses can rest on: log
entries 2, 137, 139. -/
def Obligations.HostReadsAnswered : Prop :=
  ∀ (s : State) (port : Nat), s.hostListens port = true → (s.needsMacsec port && !s.mkaLive port) = false →
    (∀ (src reqId : Nat) (u : State), s.openRequests port < 16 → u = s.modInc (F.HST_RX_ACCEPTED port) → s.serves true true false = true → exec (.statusRead port src reqId) s = .next (u.reply port src ftStatusReply stOk reqId 0 0 (u.statusReply port))) ∧
    (∀ (src reqId : Nat), s.openRequests port < 16 → s.serves true true false = true → exec (.logReadStartRecord port src reqId) s = .next ((s.modInc (F.HST_RX_ACCEPTED port)).reply port src ftLogRead stOk reqId 0 0 (s.modInc (F.HST_RX_ACCEPTED port)).startBytes)) ∧
    (∀ (src reqId : Nat), s.openRequests port < 16 → s.serves true true false = true → exec (.logReadLifetime port src reqId) s = .next ((s.modInc (F.HST_RX_ACCEPTED port)).sendFrames port txReply src (unitFrames ftLogRead flReply stOk reqId 0 0 true (s.modInc (F.HST_RX_ACCEPTED port)).lifeBytes))) ∧
    (∀ (src reqId fr n : Nat) (u v : State) (es : List LogEntry) (e : LogEntry), s.openRequests port < 16 → u = s.modInc (F.HST_RX_ACCEPTED port) → s.serves true true false = true → 0 < n → n ≤ 4096 → (fr + 2 ^ 32 - (u.obs.ring.head?.map LogEntry.index).getD (u.get F.OBS_LOG_NEXT)) % 2 ^ 32 < 2 ^ 31 → es = (u.obs.ring.drop ((fr + 2 ^ 32 - (u.obs.ring.head?.map LogEntry.index).getD (u.get F.OBS_LOG_NEXT)) % 2 ^ 32)).take n → es.getLast? = some e → v = (u.sendFrames port txReply src (logFrames stOk reqId (fr % 2 ^ 32) ((u.obs.ring.head?.map LogEntry.index).getD (u.get F.OBS_LOG_NEXT)) es)).put F.OBS_LOG_READ_MARK (e.index + 1) → exec (.logReadErrorLog port src reqId fr n) s = .next { v with obs := { v.obs with overwritten := false } }) ∧
    (∀ (src reqId cycle opt mask : Nat) (u : State), s.openRequests port < 16 → u = s.modInc (F.HST_RX_ACCEPTED port) → s.serves false false true = true → bitSet opt 0 = false → (mask % 2 ^ 256 = 0) = False → exec (.tileRead port src reqId cycle opt mask) s = .next (u.sendTiles port src reqId cycle true (u.tileOrder cycle (mask % 2 ^ 256) (bitSet opt 1)))) ∧
    (∀ (src reqId cycle opt mask : Nat) (i : Inst) (u v : State), s.openRequests port < 16 → u = s.modInc (F.HST_RX_ACCEPTED port) → s.serves false false true = true → bitSet opt 0 = true → (mask % 2 ^ 256 = 0) = False → u.inst cycle = some i → u.hst.waits.countP (fun (w : WaitRead) => w.port == port) < 4 → ((u.tileOrder cycle (mask % 2 ^ 256) (bitSet opt 1)).filter (fun t => !u.tileIssued cycle t)).isEmpty = false → v = u.sendTiles port src reqId cycle false ((u.tileOrder cycle (mask % 2 ^ 256) (bitSet opt 1)).filter (u.tileIssued cycle)) → exec (.tileRead port src reqId cycle opt mask) s = .next { v with hst := { v.hst with waits := v.hst.waits ++ [({ port, src, reqId, cycle, tiles := (u.tileOrder cycle (mask % 2 ^ 256) (bitSet opt 1)).filter (fun t => !u.tileIssued cycle t) } : WaitRead)] } })

/-- Host requests that act: staging tunables, committing and cancelling them, heartbeats, the link reset's two steps, a
frame that is not served, and a train (parts of R331, R334 to R337). Choices of the model that its clauses can rest
on: log entries 2, 137, 138, 140, 141, 142. -/
def Obligations.HostCommandsTaken : Prop :=
  ∀ (s : State) (port : Nat), s.hostListens port = true → (s.needsMacsec port && !s.mkaLive port) = false →
    (∀ (src reqId seq fl : Nat) (items : List (Nat × Nat)) (u : State), s.openRequests port < 16 → u = s.modInc (F.HST_RX_ACCEPTED port) → s.serves false false true = true → bitSet fl 0 = true → 0 < items.length → items.length ≤ 64 → seq = 0 → exec (.tuneStage port src reqId seq fl items) s = .next (({ u with boot := { u.boot with
        hostShadow := items.map (fun (it : Nat × Nat) => (it.1 % 2 ^ 16, it.2 % 2 ^ 64)), stageSeq := 1 } } : State).syncCommits.stageReply port src reqId stOk)) ∧
    (∀ (src reqId : Nat) (h : List Byte) (u : State), s.openRequests port < 16 → u = s.modInc (F.HST_RX_ACCEPTED port) → s.serves false false true = true → h.length = 32 → leAt h 4 1 = 0 → u.hst.remembered.find? (fun r => r.1 == leAt h 0 4) = none → exec (.tuneCommit port src reqId h) s = .next (u.requestCommit { id := leAt h 0 4, host := some (port, src, reqId), atTime := false, time := toSigned 64 (leAt h 8 8), items := [], crcOk := leAt h 28 4 == crc32c (h.take 28 ++ u.boot.hostShadow.flatMap itemBytes) })) ∧
    (∀ (src reqId : Nat) (h : List Byte) (u : State), s.openRequests port < 16 → u = s.modInc (F.HST_RX_ACCEPTED port) → s.serves false false true = true → h.length = 32 → leAt h 4 1 = 2 → exec (.tuneCommit port src reqId h) s = .next (u.requestCancel { id := leAt h 0 4, host := some (port, src, reqId), atTime := false, items := [], crcOk := leAt h 28 4 == crc32c (h.take 28 ++ u.boot.hostShadow.flatMap itemBytes) })) ∧
    (∀ (src reqId seq fl : Nat) (u : State), s.openRequests port < 16 → s.serves false false false = true → u = (s.modInc (F.HST_RX_ACCEPTED port)).takeHeartbeat port src → exec (.heartbeat port src reqId seq fl) s = .next (if bitSet fl 0 = true then (u.heartbeatReply port src reqId seq (Config.echoNonce u.free)).fresh else u)) ∧
    (∀ (src reqId seq n : Nat) (u : State), s.openRequests port < 16 → s.serves false false false = true → u = (s.modInc (F.HST_RX_ACCEPTED port)).takeHeartbeat port src → u.linkResetOpen port true = true → n = leAt (Config.random u.free) 0 8 → exec (.heartbeatResetReq port src reqId seq true) s = .next
        ((({ u.fresh with hst := { u.hst with nonce := some (port, n, u.tim.time) } } : State).raise F.HST_EVENT_LINK_RESET).heartbeatReply port src reqId seq n)) ∧
    (∀ (src reqId seq n : Nat) (t : Int) (u : State), s.openRequests port < 16 → s.serves false false false = true → u = (s.modInc (F.HST_RX_ACCEPTED port)).takeHeartbeat port src → u.linkResetOpen port true = true → u.hst.nonce = some (port, n, t) → u.tim.time ≤ t + 1000000000 → exec (.heartbeatResetConfirm port src reqId seq n true) s = .next ((u.raise F.HST_EVENT_LINK_RESET).resetTrigger rcLINK 0)) ∧
    (exec (.malformedFrame port true) s = .next ((s.satInc (F.HST_RX_MALFORMED port)).raise F.HST_EVENT_MALFORMED)) ∧
    (exec (.malformedFrame port false) s = .next (s.dropFrame port))

/-- A train is built for a subscriber's tiles at its launch time; a host link falls, its waits are discarded, and it comes
up awake (parts of R331, R332, R289). Choices of the model that its clauses can rest on: log entries 2, 135, 136, 140. -/
def Obligations.TrainsAndLinksAct : Prop :=
  ∀ s : State,
    (∀ (k c : Nat) (tov : Int) (off mask : Nat) (ts : List Nat) (u : State), s.tovOf c = some tov → (s.subsOf c)[k]? = some (true, off, mask) → s.on (F.HST_SUB_CFG_DELIVERY k) = false → s.hst.trains.contains (k, c) = false → tov + (off : Int) * 1000 - 50000 ≤ s.tim.time → (s.safety == stHalted) = false → s.pwr.refLost = false → ts = ((List.range 256).filter (bitSet mask)).filter (s.tileIssued c) → ts.filter (s.storeHolds c) = ts → u = (s.subPorts k).foldl (fun u p => u.queueLaunch p { time := tov + (off : Int) * 1000, dropLate := s.on (F.HST_SUB_CFG_LATE k), train := some (k, c), frames := (ts.flatMap (fun t => s.tileFrames flUnsolicited 0 c t false)).map (fun b => (s.get (F.HST_SUB_MAC_MAC k), b)) }) s → exec (.trainBuild k c) s = .next { u with hst := { u.hst with trains := (k, c) :: u.hst.trains, sent := ts.map (fun t => (k, c, t)) ++ u.hst.sent.filter (fun x => !(ts.map (fun t => (k, c, t))).contains x) } }) ∧
    (∀ (p : Nat) (left : Bool) (q : TxPort) (u v : State) (owes : Bool), p < 2 → q = (if left then { s.txPort p with cur := none } else s.txPort p) → s.on (portFld p F.HST_STATUS_LINK_A F.HST_STATUS_LINK_B) = true → owes = (q.cur.toList ++ q.queue).any (fun x => x.cls == txNotice) → u = ((s.put (portFld p F.HST_STATUS_LINK_A F.HST_STATUS_LINK_B) 0).raise F.HST_EVENT_LINK_DOWN).updTx p (fun q => { q with queue := [], cur := none, busy := 0 }) → v = { u with
        hst := { u.hst with waits := u.hst.waits.filter (fun (w : WaitRead) => w.port != p) }
        saf := { u.saf with owed := if p = 0 then (u.saf.owed.1 || owes, u.saf.owed.2) else (u.saf.owed.1, u.saf.owed.2 || owes) } } → exec (.hostLinkDown p left) s = .next (v.failover p q)) ∧
    (∀ (p : Nat), p < 2 → s.pwr.refLost = false → (s.boot.step = .inReset) = False → s.power ≤ 1 → s.saf.notice = none → exec (.hostLinkUp p) s = .next ((s.raise (portFld p F.HST_STATUS_LINK_A F.HST_STATUS_LINK_B)).put (portFld p F.HST_STATUS_ASLEEP_A F.HST_STATUS_ASLEEP_B) 0))

/-- Sleep and wake: TC10 requests, acknowledgements and time-outs silence a port; a wake event of Doze begins the wake
with its source; Doze entry ends at rest, the wake ends in Active, and a standby wake resets (parts of R340, R351 to
R353). Choices of the model that its clauses can rest on: log entries 2, 145, 151, 152, 153, 155. -/
def Obligations.SleepAndWake : Prop :=
  ∀ s : State,
    (∀ (p : Nat), p < 2 → s.on (tc10En p) = true → s.portUp p = true → s.lowPower = true → exec (.tc10SleepRequest p) s = .next (s.sleepPort p)) ∧
    (∀ (p : Nat) (t : Int), p < 2 → s.hst.sleepReq.getD p none = some t → exec (.tc10SleepAck p) s = .next (s.sleepPort p)) ∧
    (∀ (p : Nat) (t : Int), s.hst.sleepReq.getD p none = some t → t + 16000000 ≤ s.tim.time → exec (.tc10SleepTimeout p) s = .next (s.sleepPort p)) ∧
    (∀ (p : Nat), s.pwr.off = false → s.pwr.refLost = false → s.pwr.wakeSrc = none → p < 2 → s.on (tc10En p) = true → (s.power = 2) = True → exec (.tc10Wake p) s = .next (s.startWake (p + 1))) ∧
    (∀ (p : Nat), s.pwr.off = false → s.pwr.refLost = false → s.pwr.wakeSrc = none → p < 2 → s.on (tc10En p) = false → (s.power = 2) = True → exec (.linkEnergy p) s = .next (s.startWake (p + 1))) ∧
    (s.pwr.off = false → s.pwr.refLost = false → s.pwr.wakeSrc = none → s.on F.PWR_CTRL_WAKE_PIN_EN = true → (s.power = 2) = True → exec .wakeN s = .next (s.startWake 4)) ∧
    (s.pwr.off = false → s.pwr.refLost = false → s.pwr.wakeSrc = none → s.on F.PWR_CTRL_WAKE_ALARM_EN = true → (s.get F.PWR_WAKE_TIME_TIME : Int) ≤ s.tim.time → (s.power = 2) = True → exec .wakeAlarm s = .next (s.startWake 3)) ∧
    (∀ (bad : List Nat) (u : State), s.on F.PWR_STATUS_TRANSITION = true → s.power = 1 → s.pwr.refLost = false → u = (s.saveErrors bad).saveState.restInDoze → u.pwr.wakeSrc = none → exec (.dozeEntryDone bad) s = .next u ∧ u.get F.PWR_STATUS_STATE = 2 ∧ u.get F.PWR_STATUS_TRANSITION = 0 ∧ u.get F.PWR_EVENT_DOZE = 1 ∧ u.pwr.goingTo = none) ∧
    (∀ (bad : List Nat) (src : Nat) (u v : State), s.pwr.wakeSrc = some src → s.power = 2 → s.pwr.refLost = false → s.get F.CLK_STATUS_READY = s.pwr.dozeEn → u = (((s.restoreState.saveErrors bad).put F.DDR_STATUS_SELF_REFRESH 0).put F.HST_STATUS_ASLEEP_A 0).put F.HST_STATUS_ASLEEP_B 0 → v = { u with hst := { u.hst with sleepReq := [none, none] } } → exec (.wakeDone bad) s = .next (((v.put F.PWR_CTRL_TARGET 0).put F.PWR_STATUS_LAST_WAKE src).returnActive.resumeTime.restartTimers.measureTuned)) ∧
    (∀ (u : State), s.power = 3 → s.pwr.mainEn = true → s.pwr.refLost = false → s.pwr.off = false → u = s.standbyTicks s.obs.standbyIv s.obs.standbyIv → exec .standbyWake s = .next (({ u with obs := { u.obs with standbyIv := 0 } } : State).resetTrigger rcSTANDBY_WAKE 0))

/-- Clock sources, the VID code and the power rails: a PLL becomes ready, CLK_SRC is rewritten before the lock, REFCLK is
lost and recovers into a safety reset, VDD_AON falls to Off (parts of R344, R345, R348, R377, R378). Choices of the
model that its clauses can rest on: log entries 2, 128, 149, 150. -/
def Obligations.ClocksAct : Prop :=
  ∀ s : State,
    (∀ (p t : Nat) (u v : State), s.pwr.pllStart.getD p none = some t → t + 8192 ≤ s.pwr.refclk → s.pwr.refLost = false → u = s.put F.CLK_STATUS_READY (setBit (s.get F.CLK_STATUS_READY) p) → v = { u with pwr := { u.pwr with pllStart := modifyAt (fun _ => none) p u.pwr.pllStart } } → v.boot.step = .up → v.on F.PWR_STATUS_TRANSITION = false → exec (.pllReady p) s = .next v) ∧
    (∀ (v : Nat), s.boot.locked = false → exec (.clkSrcWrite v) s = .next (s.setSources (bitsAt v 0 4) (bitsAt v 8 4))) ∧
    (s.pwr.off = false → exec .refclkLoss s = .next { s with pwr := { s.pwr with refLost := true, safeN := true }, tim := { s.tim with pulse := s.tim.pulse.map (fun _ => none) } }) ∧
    (∀ (us : Nat) (u : State), s.pwr.refLost = true → u = { s with pwr := { s.pwr with refLost := false } } → exec (.refclkRecovery us) s = .next (((u.put F.RST_CAUSE_LOSS_US (satNat 32 us)).life 744).resetTrigger rcSAFETY 0)) ∧
    (s.boot.step = .up → s.power ≤ 1 → s.pwr.refLost = false → s.pwr.vidAt + 250000 ≤ s.pwr.refclk → exec (.vidStep true) s = .next { s with pwr := { s.pwr with vidAt := s.pwr.refclk, vid := min 16 (s.pwr.vid + 1) } }) ∧
    (s.boot.step = .up → s.power ≤ 1 → s.pwr.refLost = false → s.pwr.vidAt + 250000 ≤ s.pwr.refclk → exec (.vidStep false) s = .next { s with pwr := { s.pwr with vidAt := s.pwr.refclk, vid := s.pwr.vid - 1 } }) ∧
    (exec .vddAonFall s = .next { (s.doReset rcPOWER_ON 0 0) with boot := { flash := s.boot.flash, running := none }, pwr := { mainEn := false, off := true } })

/-- The error log's oldest pending entry drains into the ring, the lifetime record takes an interval, and an erase ends
(parts of R364, R366, R368). Choices of the model that its clauses can rest on: log entries 2, 127, 157, 158, 159. -/
def Obligations.RecordsKept : Prop :=
  ∀ s : State, s.pwr.refLost = false → s.pwr.off = false →
    (exec .errorLogDrain s = .next s.logDrain) ∧
    (∀ (t d f : Nat) (u : State), (s.power = 3) = False → u = ((s.lifeTick 4 1).lifeTick (16 + 4 * (t % 16)) 1).lifeTick (80 + 4 * (d % 16)) 1 → exec (.lifetimeInterval true t d f) s = .next ((u.put F.OBS_RING_SUSPENDED 0).ringAppend (t % 16) (d % 16) true 1 f)) ∧
    (∀ (t d f : Nat), (s.power = 3) = True → exec (.lifetimeInterval true t d f) s = .next { s with obs := { s.obs with standbyIv := s.obs.standbyIv + 1 } }) ∧
    (∀ (k r : Nat) (u : State), s.obs.erasing = some k → s.obs.logRing = some r → u = (s.flashErase (r + k * 65536)).put F.OBS_RING_ERASING 0 → exec .sectorEraseDone s = .next { u with obs := { u.obs with erasing := none } })

/-- What the commands that only read, count or send for device time leave unchanged: everything but TIM's state, the
registers and what the device has sent, and for those that send on a port its MACsec packet numbers (parts of R15,
R19, R24, R26 to R32). Choices of the model that its clauses can rest on: log entries 2, 16, 164. -/
def Obligations.TimeCommandsFrame : Prop :=
  ∀ s : State,
    (∀  (t : State), exec .timNowLowRead s = .next t → t = { s with tim := t.tim, regs := t.regs, out := t.out }) ∧
    (∀ (p : Nat) (t : State), exec (.signaling p) s = .next t → t = { s with tim := t.tim, regs := t.regs, out := t.out }) ∧
    (∀ (p : Nat) (b : Bool) (t : State), exec (.sensorPtpRx p b) s = .next t → t = { s with tim := t.tim, regs := t.regs, out := t.out }) ∧
    (∀  (t : State), exec .slewComplete s = .next t → t = { s with tim := t.tim, regs := t.regs, out := t.out }) ∧
    (∀  (t : State), exec .holdoverLimit s = .next t → t = { s with tim := t.tim, regs := t.regs, out := t.out }) ∧
    (∀ (p : Nat) (t : State), exec (.sensorAnnounceTx p) s = .next t → t = { s with tim := t.tim, regs := t.regs, out := t.out, sec := t.sec }) ∧
    (∀ (p : Nat) (t : State), exec (.sensorSyncTx p) s = .next t → t = { s with tim := t.tim, regs := t.regs, out := t.out, sec := t.sec }) ∧
    (∀ (p : Nat) (t : State), exec (.sensorPdelayTx p) s = .next t → t = { s with tim := t.tim, regs := t.regs, out := t.out, sec := t.sec }) ∧
    (∀ (p : Nat) (t : State), exec (.hostPdelayTx p) s = .next t → t = { s with tim := t.tim, regs := t.regs, out := t.out, sec := t.sec }) ∧
    (∀ (p dst : Nat) (ti : Int) (dl : Bool) (pl : List Byte) (t : State), exec (.launchRequest p ti dl dst pl) s = .next t → t = { s with tim := t.tim, regs := t.regs, out := t.out }) ∧
    (∀ (o : Nat) (t : State), exec (.triggerEdge o) s = .next t → t = { s with tim := t.tim, regs := t.regs, out := t.out }) ∧
    (∀ (o : Nat) (t : State), exec (.triggerPulseEnd o) s = .next t → t = { s with tim := t.tim, regs := t.regs, out := t.out })

/-- What the root of trust's own commands leave unchanged: everything but SEC's state, the registers, what the device has
sent and the counter of free values; an MKA hello is sent on its port (parts of R312, R316 to R319). Choices of the
model that its clauses can rest on: log entries 2, 130, 131, 134, 149. -/
def Obligations.SecurityCommandsFrame : Prop :=
  ∀ s : State,
    (∀ (k : Nat) (t : State), exec (.rollbackAdvance k) s = .next t → t = { s with sec := t.sec, regs := t.regs, out := t.out, free := t.free }) ∧
    (∀  (t : State), exec .rollbackFuseBlown s = .next t → t = { s with sec := t.sec, regs := t.regs, out := t.out, free := t.free }) ∧
    (∀  (t : State), exec .challengeRead s = .next t → t = { s with sec := t.sec, regs := t.regs, out := t.out, free := t.free }) ∧
    (∀ (b : List Byte) (t : State), exec (.responseWrite b) s = .next t → t = { s with sec := t.sec, regs := t.regs, out := t.out, free := t.free }) ∧
    (∀  (t : State), exec .debugVerifyDone s = .next t → t = { s with sec := t.sec, regs := t.regs, out := t.out, free := t.free }) ∧
    (∀ (k n : List Byte) (t : State), exec (.keyProvWrite k n) s = .next t → t = { s with sec := t.sec, regs := t.regs, out := t.out, free := t.free }) ∧
    (∀ (k : Nat) (t : State), exec (.cakRevoke k) s = .next t → t = { s with sec := t.sec, regs := t.regs, out := t.out, free := t.free }) ∧
    (∀  (t : State), exec .decommission s = .next t → t = { s with sec := t.sec, regs := t.regs, out := t.out, free := t.free }) ∧
    (∀  (t : State), exec .debugDisableBlow s = .next t → t = { s with sec := t.sec, regs := t.regs, out := t.out, free := t.free }) ∧
    (∀ (p : Nat) (t : State), exec (.mkaHello p) s = .next t → t = { s with tim := t.tim, regs := t.regs, out := t.out, sec := t.sec }) ∧
    (∀ (p k n : Nat) (t : State), exec (.mkpdu p k n) s = .next t → t = { s with sec := t.sec, regs := t.regs, out := t.out, free := t.free }) ∧
    (∀ (p : Nat) (t : State), exec (.macsecDrop p) s = .next t → t = { s with sec := t.sec, regs := t.regs, out := t.out, free := t.free })

/-- What a request for a commit, a sleep request and a link's credit leave unchanged: a request consumes only its shadow
and joins the commits under check, TC10 silences only its port, a REFCLK loss forces only the levels (parts of R304,
R340, R348, R377). Choices of the model that its clauses can rest on: log entries 2, 128, 145, 149, 155. -/
def Obligations.StagingCommandsFrame : Prop :=
  ∀ s : State,
    (∀ (h : Option (Nat × Nat × Nat)) (k : Nat) (l : List (Nat × Nat)) (ok : Bool) (t : State), exec (.commitNextBoundary h k l ok) s = .next t → t = { s with boot := t.boot, regs := t.regs }) ∧
    (∀ (h : Option (Nat × Nat × Nat)) (k : Nat) (ti : Int) (l : List (Nat × Nat)) (ok : Bool) (t : State), exec (.commitAtTime h k ti l ok) s = .next t → t = { s with boot := t.boot, regs := t.regs }) ∧
    (∀ (p : Nat) (t : State), exec (.tc10SleepRequest p) s = .next t → t = { s with regs := t.regs, hst := t.hst }) ∧
    (∀ (p : Nat) (t : State), exec (.tc10SleepAck p) s = .next t → t = { s with regs := t.regs, hst := t.hst }) ∧
    (∀ (p : Nat) (t : State), exec (.tc10SleepTimeout p) s = .next t → t = { s with regs := t.regs, hst := t.hst }) ∧
    (∀  (t : State), exec .refclkLoss s = .next t → t = { s with pwr := t.pwr, tim := t.tim }) ∧
    (∀ (b : Bool) (t : State), exec (.vidStep b) s = .next t → t = { s with pwr := t.pwr }) ∧
    (∀  (t : State), exec .watchdogService s = .next t → t = { s with saf := t.saf }) ∧
    (∀  (t : State), exec .wakeN s = .next t → t = { s with regs := t.regs, pwr := t.pwr, out := t.out })
end

