-- ==== Sys2Proof/Laws/Sparse.lean ====
section
/-! SUPPORT. The sparse map: reading after writing, and the canonical form kept by every write. -/

namespace Sys2Proof.Machine

variable {α : Type} [DecidableEq α] {d : Nat → α} {l : List (Nat × α)} {a b lo : Nat} {v : α}

theorem sparseGet_sparseIns_same : sparseGet d (sparseIns a v (l.filter (fun p => p.1 != a))) a = v := by
  induction l with
  | nil => simp [sparseIns, sparseGet]
  | cons p r ih =>
    by_cases h : p.1 = a
    · simpa [h] using ih
    · have hb : (p.1 != a) = true := by simp [h]
      rw [List.filter_cons, if_pos hb, sparseIns]
      split
      · simp [sparseGet]
      · rw [sparseGet, if_neg h]; exact ih

theorem sparseGet_filter_self : sparseGet d (l.filter (fun p => p.1 != a)) a = d a := by
  induction l with
  | nil => rfl
  | cons p r ih =>
    by_cases h : p.1 = a
    · simpa [h] using ih
    · have hb : (p.1 != a) = true := by simp [h]
      rw [List.filter_cons, if_pos hb, sparseGet, if_neg h]; exact ih

theorem sparseGet_filter_ne (h : b ≠ a) : sparseGet d (l.filter (fun p => p.1 != a)) b = sparseGet d l b := by
  induction l with
  | nil => rfl
  | cons p r ih =>
    by_cases hp : p.1 = a
    · have hb : ¬ (p.1 != a) = true := by simp [hp]
      rw [List.filter_cons, if_neg hb, sparseGet, if_neg (by omega)]; exact ih
    · have hb : (p.1 != a) = true := by simp [hp]
      rw [List.filter_cons, if_pos hb, sparseGet, sparseGet]
      split
      · rfl
      · exact ih

theorem sparseGet_sparseIns_ne (h : b ≠ a) : sparseGet d (sparseIns a v l) b = sparseGet d l b := by
  induction l with
  | nil => simp [sparseIns, sparseGet, Ne.symm h]
  | cons p r ih =>
    rw [sparseIns]
    split
    · rw [sparseGet, if_neg (Ne.symm h)]
    · rw [sparseGet, sparseGet, ih]

/-- A map reads back what was written. -/
@[simp] theorem sparseGet_sparseSet_same : sparseGet d (sparseSet d l a v) a = v := by
  unfold sparseSet
  split
  · next h => rw [sparseGet_filter_self, h]
  · exact sparseGet_sparseIns_same

/-- A write leaves every other key alone. -/
theorem sparseGet_sparseSet_ne (h : b ≠ a) : sparseGet d (sparseSet d l a v) b = sparseGet d l b := by
  unfold sparseSet
  split
  · exact sparseGet_filter_ne h
  · rw [sparseGet_sparseIns_ne h, sparseGet_filter_ne h]

/-! ## The canonical form -/

theorem sparseWf_mono (h : sparseWf d b l = true) (hab : a ≤ b) : sparseWf d a l = true := by
  cases l with
  | nil => rfl
  | cons p r =>
    simp only [sparseWf, Bool.and_eq_true, decide_eq_true_eq] at h ⊢
    exact ⟨⟨Nat.le_trans hab h.1.1, h.1.2⟩, h.2⟩

theorem sparseWf_filter (q : Nat × α → Bool) (h : sparseWf d lo l = true) : sparseWf d lo (l.filter q) = true := by
  induction l generalizing lo with
  | nil => rfl
  | cons p r ih =>
    simp only [sparseWf, Bool.and_eq_true, decide_eq_true_eq] at h
    rw [List.filter_cons]
    split
    · simp only [sparseWf, Bool.and_eq_true, decide_eq_true_eq]
      exact ⟨h.1, ih h.2⟩
    · exact sparseWf_mono (ih h.2) (Nat.le_succ_of_le h.1.1)

theorem sparseWf_sparseIns (h : sparseWf d lo l = true) (hn : ∀ p ∈ l, p.1 ≠ a) (hlo : lo ≤ a) (hv : v ≠ d a) :
    sparseWf d lo (sparseIns a v l) = true := by
  induction l generalizing lo with
  | nil => simp [sparseIns, sparseWf, hlo, hv]
  | cons p r ih =>
    have hp := hn p (by simp)
    rw [sparseIns]
    simp only [sparseWf, Bool.and_eq_true, decide_eq_true_eq] at h
    split
    · next hlt =>
      simp only [sparseWf, Bool.and_eq_true, decide_eq_true_eq]
      exact ⟨⟨hlo, by simpa using hv⟩, ⟨hlt, h.1.2⟩, h.2⟩
    · next hlt =>
      simp only [sparseWf, Bool.and_eq_true, decide_eq_true_eq]
      exact ⟨h.1, ih h.2 (fun q hq => hn q (by simp [hq])) (by omega)⟩

/-- Every write keeps the canonical form. -/
theorem sparseWf_sparseSet (h : sparseWf d 0 l = true) : sparseWf d 0 (sparseSet d l a v) = true := by
  unfold sparseSet
  have hf := sparseWf_filter (fun p : Nat × α => p.1 != a) h
  split
  · exact hf
  · next hv =>
    refine sparseWf_sparseIns hf ?_ (Nat.zero_le _) hv
    intro p hp
    simpa using (List.mem_filter.mp hp).2

end Sys2Proof.Machine
end

