-- ==== Sys2Proof/Laws/Canonical.lean ====
section
/-! SUPPORT. The canonical form of a state's sparse maps (Safety.lean): what every proof that a function keeps it uses. -/

namespace Sys2Proof.Machine

/-- What an outcome's next state is. -/
def OutCanonical : Host.Outcome State Fault Refusal → Prop
  | .next t => t.Canonical
  | _ => True

def OptCanonical : Option State → Prop
  | some t => t.Canonical
  | none => True

def ExCanonical : Except Nat State → Prop
  | .ok t => t.Canonical
  | .error _ => True

/-- An update of any other field keeps it. -/
theorem State.canonical_mk {s : State} {pending : List Instr} {tim ing glz pts lft spc spcGold slv tgs arr lay atn kvc bml mem saf chk
    boot sec hst pwr obs out free} (h : s.Canonical) (hm : mem.bytes = s.mem.bytes) (hb : boot.flash = s.boot.flash) :
    (State.mk pending s.regs tim ing s.queues glz pts lft spc spcGold slv tgs arr lay atn kvc bml mem saf chk boot sec hst pwr obs out
      free).Canonical :=
  ⟨h.regs, h.queues, by rw [hm]; exact h.mem, by rw [hb]; exact h.flash⟩

theorem foldl_canonical {α : Type} {s : State} {l : List α} {g : State → α → State}
    (hg : ∀ (t : State) (x : α), t.Canonical → (g t x).Canonical) (h : s.Canonical) : (l.foldl g s).Canonical := by
  induction l generalizing s with
  | nil => exact h
  | cons x r ih => exact ih (hg s x h)

/-- What each step of a fold keeps, the fold keeps. -/
theorem foldl_keeps {α β : Type} {P : β → Prop} {b : β} {l : List α} {g : β → α → β}
    (hg : ∀ (t : β) (x : α), P t → P (g t x)) (h : P b) : P (l.foldl g b) := by
  induction l generalizing b with
  | nil => exact h
  | cons x r ih => exact ih (hg b x h)

theorem canonical_of_some {o : Option State} {t : State} (e : o = some t) (h : OptCanonical o) : t.Canonical := by
  subst e; exact h

theorem canonical_of_ok {o : Except Nat State} {t : State} (e : o = .ok t) (h : ExCanonical o) : t.Canonical := by
  subst e; exact h

theorem canonical_of_pair {α : Type} {p : State × α} {t : State} {x : α} (e : p = (t, x)) (h : p.1.Canonical) : t.Canonical := by
  subst e; exact h

theorem canonical_of_some_pair {α : Type} {p : Option (State × α)} {t : State} {x : α} (e : p = some (t, x))
    (h : OptCanonical (p.map Prod.fst)) : t.Canonical := by
  subst e; exact h

/-- A state bound by a let is good for what follows it. -/
theorem canonical_cut {s : State} {P : Prop} (h : s.Canonical) (k : s.Canonical → P) : P := k h

theorem mem_let {P : Prop} (_ : Mem) (h : P) : P := h
theorem boot_let {P : Prop} (_ : Boot) (h : P) : P := h

theorem canonical_next {t : State} (h : t.Canonical) : OutCanonical (.next t) := h

theorem canonical_none : OptCanonical none := trivial

theorem pair_canonical {α : Type} {s : State} {x : α} (h : s.Canonical) : (s, x).1.Canonical := h

theorem canonical_some3 {α β : Type} {t : State} {x : α} {y : β} (h : t.Canonical) :
    OptCanonical (Option.map Prod.fst (some (t, x, y))) := h

def PairGood {α : Type} (y : State × α) : Prop := y.1.Canonical

theorem PairGood.intro {α : Type} {y : State × α} (h : y.1.Canonical) : PairGood y := h

theorem PairGood.out {α : Type} {y : State × α} (h : PairGood y) : y.1.Canonical := h

theorem canonical_map_none {α : Type} : OptCanonical (Option.map Prod.fst (none : Option (State × α))) := trivial

theorem canonical_map_some {α : Type} {t : State} {x : α} (h : t.Canonical) :
    OptCanonical (Option.map Prod.fst (some (t, x))) := h

theorem canonical_emap_error {α : Type} {e : Nat} :
    ExCanonical (Except.map Prod.fst (.error e : Except Nat (State × α))) := trivial

theorem canonical_of_emap {α : Type} {p : Except Nat (State × α)} {t : State} {x : α} (e : p = .ok (t, x))
    (h : ExCanonical (Except.map Prod.fst p)) : t.Canonical := by
  subst e; exact h

theorem canonical_emap_ok {α : Type} {t : State} {x : α} (h : t.Canonical) :
    ExCanonical (Except.map Prod.fst (.ok (t, x) : Except Nat (State × α))) := h

theorem canonical_error {n : Nat} : ExCanonical (.error n) := trivial

theorem canonical_map {o : Option State} {f : State → State} (hf : ∀ t : State, t.Canonical → (f t).Canonical) (h : OptCanonical o) :
    OptCanonical (o.map f) := by
  cases o with
  | none => exact trivial
  | some t => exact hf t h

theorem canonical_some {t : State} (h : t.Canonical) : OptCanonical (some t) := h

theorem canonical_ok {t : State} (h : t.Canonical) : ExCanonical (.ok t) := h

end Sys2Proof.Machine
end

