-- ==== Sys2Proof/Laws/CanonicalState.lean ====
section
/-! SUPPORT. The canonical form is kept by every operation of Machine/State.lean. -/

namespace Sys2Proof.Machine

theorem State.reset_canonical   :
    (State.reset).Canonical := by
  exact ⟨rfl, rfl, rfl, rfl⟩

end Sys2Proof.Machine
end

