-- ==== Sys2Proof/Laws/CanonicalOps.lean ====
section
/-! SUPPORT. The canonical form is kept by every operation of Machine/Ops.lean. -/

namespace Sys2Proof.Machine

theorem State.setReg_canonical {x1 : State} {x2} {x3} (h1 : x1.Canonical) :
    (State.setReg x1 x2 x3).Canonical := by
  exact ⟨sparseWf_sparseSet h1.regs, h1.queues, h1.mem, h1.flash⟩

theorem State.put_canonical {x1 : State} {x2} {x3} (h1 : x1.Canonical) :
    (State.put x1 x2 x3).Canonical := by
  unfold State.put
  repeat' first | with_reducible assumption | (refine fun (_ : State) (_ : State.Canonical _) => ?_) | (extract_lets +onlyGivenNames s; refine canonical_cut (s := s) ?_ (fun _ => ?_); rotate_left; clear_value s; rotate_left; subst s) | (extract_lets +onlyGivenNames s; refine mem_let s ?_; subst s) | (extract_lets +onlyGivenNames s; refine boot_let s ?_; subst s) | (extract_lets +onlyGivenNames s; clear_value s) | split | extract_lets | with_reducible apply State.setReg_canonical | refine State.canonical_mk ?_ rfl rfl

theorem State.raise_canonical {x1 : State} {x2} (h1 : x1.Canonical) :
    (State.raise x1 x2).Canonical := by
  unfold State.raise
  repeat' first | with_reducible assumption | (refine fun (_ : State) (_ : State.Canonical _) => ?_) | (extract_lets +onlyGivenNames s; refine canonical_cut (s := s) ?_ (fun _ => ?_); rotate_left; clear_value s; rotate_left; subst s) | (extract_lets +onlyGivenNames s; refine mem_let s ?_; subst s) | (extract_lets +onlyGivenNames s; refine boot_let s ?_; subst s) | (extract_lets +onlyGivenNames s; clear_value s) | split | extract_lets | with_reducible apply State.put_canonical | refine State.canonical_mk ?_ rfl rfl

theorem State.flag_canonical {x1 : State} {x2} {x3} (h1 : x1.Canonical) :
    (State.flag x1 x2 x3).Canonical := by
  unfold State.flag
  repeat' first | with_reducible assumption | (refine fun (_ : State) (_ : State.Canonical _) => ?_) | (extract_lets +onlyGivenNames s; refine canonical_cut (s := s) ?_ (fun _ => ?_); rotate_left; clear_value s; rotate_left; subst s) | (extract_lets +onlyGivenNames s; refine mem_let s ?_; subst s) | (extract_lets +onlyGivenNames s; refine boot_let s ?_; subst s) | (extract_lets +onlyGivenNames s; clear_value s) | split | extract_lets | with_reducible apply State.put_canonical | refine State.canonical_mk ?_ rfl rfl

theorem State.putI_canonical {x1 : State} {x2} {x3} (h1 : x1.Canonical) :
    (State.putI x1 x2 x3).Canonical := by
  unfold State.putI
  repeat' first | with_reducible assumption | (refine fun (_ : State) (_ : State.Canonical _) => ?_) | (extract_lets +onlyGivenNames s; refine canonical_cut (s := s) ?_ (fun _ => ?_); rotate_left; clear_value s; rotate_left; subst s) | (extract_lets +onlyGivenNames s; refine mem_let s ?_; subst s) | (extract_lets +onlyGivenNames s; refine boot_let s ?_; subst s) | (extract_lets +onlyGivenNames s; clear_value s) | split | extract_lets | with_reducible apply State.put_canonical | refine State.canonical_mk ?_ rfl rfl

theorem State.satAdd_canonical {x1 : State} {x2} {x3} (h1 : x1.Canonical) :
    (State.satAdd x1 x2 x3).Canonical := by
  unfold State.satAdd
  repeat' first | with_reducible assumption | (refine fun (_ : State) (_ : State.Canonical _) => ?_) | (extract_lets +onlyGivenNames s; refine canonical_cut (s := s) ?_ (fun _ => ?_); rotate_left; clear_value s; rotate_left; subst s) | (extract_lets +onlyGivenNames s; refine mem_let s ?_; subst s) | (extract_lets +onlyGivenNames s; refine boot_let s ?_; subst s) | (extract_lets +onlyGivenNames s; clear_value s) | split | extract_lets | with_reducible apply State.put_canonical | refine State.canonical_mk ?_ rfl rfl

theorem State.satInc_canonical {x1 : State} {x2} (h1 : x1.Canonical) :
    (State.satInc x1 x2).Canonical := by
  unfold State.satInc
  repeat' first | with_reducible assumption | (refine fun (_ : State) (_ : State.Canonical _) => ?_) | (extract_lets +onlyGivenNames s; refine canonical_cut (s := s) ?_ (fun _ => ?_); rotate_left; clear_value s; rotate_left; subst s) | (extract_lets +onlyGivenNames s; refine mem_let s ?_; subst s) | (extract_lets +onlyGivenNames s; refine boot_let s ?_; subst s) | (extract_lets +onlyGivenNames s; clear_value s) | split | extract_lets | with_reducible apply State.satAdd_canonical | refine State.canonical_mk ?_ rfl rfl

theorem State.modAdd_canonical {x1 : State} {x2} {x3} (h1 : x1.Canonical) :
    (State.modAdd x1 x2 x3).Canonical := by
  unfold State.modAdd
  repeat' first | with_reducible assumption | (refine fun (_ : State) (_ : State.Canonical _) => ?_) | (extract_lets +onlyGivenNames s; refine canonical_cut (s := s) ?_ (fun _ => ?_); rotate_left; clear_value s; rotate_left; subst s) | (extract_lets +onlyGivenNames s; refine mem_let s ?_; subst s) | (extract_lets +onlyGivenNames s; refine boot_let s ?_; subst s) | (extract_lets +onlyGivenNames s; clear_value s) | split | extract_lets | with_reducible apply State.put_canonical | refine State.canonical_mk ?_ rfl rfl

theorem State.modInc_canonical {x1 : State} {x2} (h1 : x1.Canonical) :
    (State.modInc x1 x2).Canonical := by
  unfold State.modInc
  repeat' first | with_reducible assumption | (refine fun (_ : State) (_ : State.Canonical _) => ?_) | (extract_lets +onlyGivenNames s; refine canonical_cut (s := s) ?_ (fun _ => ?_); rotate_left; clear_value s; rotate_left; subst s) | (extract_lets +onlyGivenNames s; refine mem_let s ?_; subst s) | (extract_lets +onlyGivenNames s; refine boot_let s ?_; subst s) | (extract_lets +onlyGivenNames s; clear_value s) | split | extract_lets | with_reducible apply State.modAdd_canonical | refine State.canonical_mk ?_ rfl rfl

theorem State.emit_canonical {x1 : State} {x2} (h1 : x1.Canonical) :
    (State.emit x1 x2).Canonical := by
  unfold State.emit
  repeat' first | with_reducible assumption | (refine fun (_ : State) (_ : State.Canonical _) => ?_) | (extract_lets +onlyGivenNames s; refine canonical_cut (s := s) ?_ (fun _ => ?_); rotate_left; clear_value s; rotate_left; subst s) | (extract_lets +onlyGivenNames s; refine mem_let s ?_; subst s) | (extract_lets +onlyGivenNames s; refine boot_let s ?_; subst s) | (extract_lets +onlyGivenNames s; clear_value s) | split | extract_lets | refine State.canonical_mk ?_ rfl rfl

theorem State.fresh_canonical {x1 : State} (h1 : x1.Canonical) :
    (State.fresh x1).Canonical := by
  unfold State.fresh
  repeat' first | with_reducible assumption | (refine fun (_ : State) (_ : State.Canonical _) => ?_) | (extract_lets +onlyGivenNames s; refine canonical_cut (s := s) ?_ (fun _ => ?_); rotate_left; clear_value s; rotate_left; subst s) | (extract_lets +onlyGivenNames s; refine mem_let s ?_; subst s) | (extract_lets +onlyGivenNames s; refine boot_let s ?_; subst s) | (extract_lets +onlyGivenNames s; clear_value s) | split | extract_lets | refine State.canonical_mk ?_ rfl rfl

theorem writeCells_wf {l : List Byte} {m : List Host.Cell} {a : Nat} (h : Memory.wf m = true) : Memory.wf (writeCells m a l) = true := by
  induction l generalizing m a with
  | nil => exact h
  | cons b r ih => exact ih (sparseWf_sparseSet h)

theorem State.writeBytes_canonical {x1 : State} {x2} {x3} (h1 : x1.Canonical) :
    (State.writeBytes x1 x2 x3).Canonical := by
  unfold State.writeBytes
  split
  · exact ⟨h1.regs, h1.queues, writeCells_wf h1.mem, h1.flash⟩
  · exact h1

theorem State.writeLe_canonical {x1 : State} {x2} {x3} {x4} (h1 : x1.Canonical) :
    (State.writeLe x1 x2 x3 x4).Canonical := by
  unfold State.writeLe
  repeat' first | with_reducible assumption | (refine fun (_ : State) (_ : State.Canonical _) => ?_) | (extract_lets +onlyGivenNames s; refine canonical_cut (s := s) ?_ (fun _ => ?_); rotate_left; clear_value s; rotate_left; subst s) | (extract_lets +onlyGivenNames s; refine mem_let s ?_; subst s) | (extract_lets +onlyGivenNames s; refine boot_let s ?_; subst s) | (extract_lets +onlyGivenNames s; clear_value s) | split | extract_lets | with_reducible apply State.writeBytes_canonical | refine State.canonical_mk ?_ rfl rfl

theorem State.zeroFill_canonical {x1 : State} {x2} {x3} (h1 : x1.Canonical) :
    (State.zeroFill x1 x2 x3).Canonical := by
  exact ⟨h1.regs, h1.queues, sparseWf_filter _ h1.mem, h1.flash⟩

theorem State.poisonWord_canonical {x1 : State} {x2} (h1 : x1.Canonical) :
    (State.poisonWord x1 x2).Canonical := by
  unfold State.poisonWord
  repeat' first | with_reducible assumption | (refine fun (_ : State) (_ : State.Canonical _) => ?_) | (extract_lets +onlyGivenNames s; refine canonical_cut (s := s) ?_ (fun _ => ?_); rotate_left; clear_value s; rotate_left; subst s) | (extract_lets +onlyGivenNames s; refine mem_let s ?_; subst s) | (extract_lets +onlyGivenNames s; refine boot_let s ?_; subst s) | (extract_lets +onlyGivenNames s; clear_value s) | split | extract_lets | refine State.canonical_mk ?_ rfl rfl

end Sys2Proof.Machine
end

