-- ==== Sys2Proof/Laws/CanonicalLog.lean ====
section
/-! SUPPORT. The canonical form is kept by every operation of Machine/Log.lean. -/

namespace Sys2Proof.Machine

theorem State.counterWrapped_canonical {x1 : State} {x2} (h1 : x1.Canonical) :
    (State.counterWrapped x1 x2).Canonical := by
  unfold State.counterWrapped
  repeat' first | with_reducible assumption | (refine fun (_ : State) (_ : State.Canonical _) => ?_) | (extract_lets +onlyGivenNames s; refine canonical_cut (s := s) ?_ (fun _ => ?_); rotate_left; clear_value s; rotate_left; subst s) | (extract_lets +onlyGivenNames s; refine mem_let s ?_; subst s) | (extract_lets +onlyGivenNames s; refine boot_let s ?_; subst s) | (extract_lets +onlyGivenNames s; clear_value s) | split | extract_lets | with_reducible apply State.raise_canonical | refine State.canonical_mk ?_ rfl rfl

theorem State.counterAdd_canonical {x1 : State} {x2} {x3} (h1 : x1.Canonical) :
    (State.counterAdd x1 x2 x3).Canonical := by
  unfold State.counterAdd
  repeat' first | with_reducible assumption | (refine fun (_ : State) (_ : State.Canonical _) => ?_) | (extract_lets +onlyGivenNames s; refine canonical_cut (s := s) ?_ (fun _ => ?_); rotate_left; clear_value s; rotate_left; subst s) | (extract_lets +onlyGivenNames s; refine mem_let s ?_; subst s) | (extract_lets +onlyGivenNames s; refine boot_let s ?_; subst s) | (extract_lets +onlyGivenNames s; clear_value s) | split | extract_lets | with_reducible apply State.put_canonical | with_reducible apply State.counterWrapped_canonical | refine State.canonical_mk ?_ rfl rfl

theorem State.count_canonical {x1 : State} {x2} {x3} {x4} {x5} {x6} {x7} (h1 : x1.Canonical) :
    (State.count x1 x2 x3 x4 x5 x6 x7).Canonical := by
  unfold State.count
  repeat' first | with_reducible assumption | (refine fun (_ : State) (_ : State.Canonical _) => ?_) | (extract_lets +onlyGivenNames s; refine canonical_cut (s := s) ?_ (fun _ => ?_); rotate_left; clear_value s; rotate_left; subst s) | (extract_lets +onlyGivenNames s; refine mem_let s ?_; subst s) | (extract_lets +onlyGivenNames s; refine boot_let s ?_; subst s) | (extract_lets +onlyGivenNames s; clear_value s) | split | extract_lets | with_reducible apply State.counterAdd_canonical | (with_reducible apply foldl_canonical; intro _ _ _) | refine State.canonical_mk ?_ rfl rfl

theorem State.lifeSet_canonical {x1 : State} {x2} {x3} {x4} (h1 : x1.Canonical) :
    (State.lifeSet x1 x2 x3 x4).Canonical := by
  unfold State.lifeSet
  repeat' first | with_reducible assumption | (refine fun (_ : State) (_ : State.Canonical _) => ?_) | (extract_lets +onlyGivenNames s; refine canonical_cut (s := s) ?_ (fun _ => ?_); rotate_left; clear_value s; rotate_left; subst s) | (extract_lets +onlyGivenNames s; refine mem_let s ?_; subst s) | (extract_lets +onlyGivenNames s; refine boot_let s ?_; subst s) | (extract_lets +onlyGivenNames s; clear_value s) | split | extract_lets | refine State.canonical_mk ?_ rfl rfl

theorem State.life_canonical {x1 : State} {x2} {x3} (h1 : x1.Canonical) :
    (State.life x1 x2 x3).Canonical := by
  unfold State.life
  repeat' first | with_reducible assumption | (refine fun (_ : State) (_ : State.Canonical _) => ?_) | (extract_lets +onlyGivenNames s; refine canonical_cut (s := s) ?_ (fun _ => ?_); rotate_left; clear_value s; rotate_left; subst s) | (extract_lets +onlyGivenNames s; refine mem_let s ?_; subst s) | (extract_lets +onlyGivenNames s; refine boot_let s ?_; subst s) | (extract_lets +onlyGivenNames s; clear_value s) | split | extract_lets | with_reducible apply State.lifeSet_canonical | refine State.canonical_mk ?_ rfl rfl

theorem State.lifeTick_canonical {x1 : State} {x2} {x3} (h1 : x1.Canonical) :
    (State.lifeTick x1 x2 x3).Canonical := by
  unfold State.lifeTick
  repeat' first | with_reducible assumption | (refine fun (_ : State) (_ : State.Canonical _) => ?_) | (extract_lets +onlyGivenNames s; refine canonical_cut (s := s) ?_ (fun _ => ?_); rotate_left; clear_value s; rotate_left; subst s) | (extract_lets +onlyGivenNames s; refine mem_let s ?_; subst s) | (extract_lets +onlyGivenNames s; refine boot_let s ?_; subst s) | (extract_lets +onlyGivenNames s; clear_value s) | split | extract_lets | refine State.canonical_mk ?_ rfl rfl

theorem State.lifeOr_canonical {x1 : State} {x2} {x3} (h1 : x1.Canonical) :
    (State.lifeOr x1 x2 x3).Canonical := by
  unfold State.lifeOr
  repeat' first | with_reducible assumption | (refine fun (_ : State) (_ : State.Canonical _) => ?_) | (extract_lets +onlyGivenNames s; refine canonical_cut (s := s) ?_ (fun _ => ?_); rotate_left; clear_value s; rotate_left; subst s) | (extract_lets +onlyGivenNames s; refine mem_let s ?_; subst s) | (extract_lets +onlyGivenNames s; refine boot_let s ?_; subst s) | (extract_lets +onlyGivenNames s; clear_value s) | split | extract_lets | refine State.canonical_mk ?_ rfl rfl

theorem flashCells_wf {l : List Byte} {m : List (Nat × BitVec 8)} {a : Nat} (h : sparseWf flashUnlisted 0 m = true) :
    sparseWf flashUnlisted 0 (flashCells m a l) = true := by
  induction l generalizing m a with
  | nil => exact h
  | cons b r ih => exact ih (sparseWf_sparseSet h)

theorem State.flashWrite_canonical {x1 : State} {x2} {x3} (h1 : x1.Canonical) :
    (State.flashWrite x1 x2 x3).Canonical :=
  ⟨h1.regs, h1.queues, h1.mem, flashCells_wf h1.flash⟩

theorem State.flashErase_canonical {x1 : State} {x2} (h1 : x1.Canonical) :
    (State.flashErase x1 x2).Canonical := by
  exact ⟨h1.regs, h1.queues, h1.mem, sparseWf_filter _ h1.flash⟩

theorem State.beginSector_canonical {x1 : State} {x2} {x3} (h1 : x1.Canonical) :
    (State.beginSector x1 x2 x3).Canonical := by
  unfold State.beginSector
  repeat' first | with_reducible assumption | (refine fun (_ : State) (_ : State.Canonical _) => ?_) | (extract_lets +onlyGivenNames s; refine canonical_cut (s := s) ?_ (fun _ => ?_); rotate_left; clear_value s; rotate_left; subst s) | (extract_lets +onlyGivenNames s; refine mem_let s ?_; subst s) | (extract_lets +onlyGivenNames s; refine boot_let s ?_; subst s) | (extract_lets +onlyGivenNames s; clear_value s) | split | extract_lets | with_reducible apply State.put_canonical | with_reducible apply State.raise_canonical | with_reducible apply State.flashWrite_canonical | refine State.canonical_mk ?_ rfl rfl

theorem State.log_canonical {x1 : State} {x2} {x3} {x4} {x5} {x6} (h1 : x1.Canonical) :
    (State.log x1 x2 x3 x4 x5 x6).Canonical := by
  unfold State.log
  repeat' first | with_reducible assumption | (refine fun (_ : State) (_ : State.Canonical _) => ?_) | (extract_lets +onlyGivenNames s; refine canonical_cut (s := s) ?_ (fun _ => ?_); rotate_left; clear_value s; rotate_left; subst s) | (extract_lets +onlyGivenNames s; refine mem_let s ?_; subst s) | (extract_lets +onlyGivenNames s; refine boot_let s ?_; subst s) | (extract_lets +onlyGivenNames s; clear_value s) | split | extract_lets | with_reducible apply State.raise_canonical | with_reducible apply State.satInc_canonical | with_reducible apply State.modInc_canonical | with_reducible apply State.count_canonical | refine State.canonical_mk ?_ rfl rfl

theorem State.ringAppend_canonical {x1 : State} {x2} {x3} {x4} {x5} {x6} (h1 : x1.Canonical) :
    (State.ringAppend x1 x2 x3 x4 x5 x6).Canonical := by
  unfold State.ringAppend
  repeat' first | with_reducible assumption | (refine fun (_ : State) (_ : State.Canonical _) => ?_) | (extract_lets +onlyGivenNames s; refine canonical_cut (s := s) ?_ (fun _ => ?_); rotate_left; clear_value s; rotate_left; subst s) | (extract_lets +onlyGivenNames s; refine mem_let s ?_; subst s) | (extract_lets +onlyGivenNames s; refine boot_let s ?_; subst s) | (extract_lets +onlyGivenNames s; clear_value s) | split | extract_lets | with_reducible apply State.raise_canonical | with_reducible apply State.modAdd_canonical | with_reducible apply State.lifeSet_canonical | with_reducible apply State.flashWrite_canonical | with_reducible apply State.beginSector_canonical | with_reducible apply State.log_canonical | refine State.canonical_mk ?_ rfl rfl

theorem State.eventTick_canonical {x1 : State} (h1 : x1.Canonical) :
    (State.eventTick x1).Canonical := by
  unfold State.eventTick
  repeat' first | with_reducible assumption | (refine fun (_ : State) (_ : State.Canonical _) => ?_) | (extract_lets +onlyGivenNames s; refine canonical_cut (s := s) ?_ (fun _ => ?_); rotate_left; clear_value s; rotate_left; subst s) | (extract_lets +onlyGivenNames s; refine mem_let s ?_; subst s) | (extract_lets +onlyGivenNames s; refine boot_let s ?_; subst s) | (extract_lets +onlyGivenNames s; clear_value s) | split | extract_lets | with_reducible apply State.ringAppend_canonical | refine State.canonical_mk ?_ rfl rfl

theorem State.logDrain_canonical {x1 : State} (h1 : x1.Canonical) :
    (State.logDrain x1).Canonical := by
  unfold State.logDrain
  repeat' first | with_reducible assumption | (refine fun (_ : State) (_ : State.Canonical _) => ?_) | (extract_lets +onlyGivenNames s; refine canonical_cut (s := s) ?_ (fun _ => ?_); rotate_left; clear_value s; rotate_left; subst s) | (extract_lets +onlyGivenNames s; refine mem_let s ?_; subst s) | (extract_lets +onlyGivenNames s; refine boot_let s ?_; subst s) | (extract_lets +onlyGivenNames s; clear_value s) | split | extract_lets | with_reducible apply State.raise_canonical | with_reducible apply State.satInc_canonical | refine State.canonical_mk ?_ rfl rfl

end Sys2Proof.Machine
end

