-- ==== Sys2Proof/Laws/CanonicalFrames.lean ====
section
/-! SUPPORT. The canonical form is kept by every operation of Machine/Frames.lean. -/

namespace Sys2Proof.Machine

theorem State.countPn_canonical {x1 : State} {x2} (h1 : x1.Canonical) :
    (State.countPn x1 x2).Canonical := by
  unfold State.countPn
  repeat' first | with_reducible assumption | (refine fun (_ : State) (_ : State.Canonical _) => ?_) | (extract_lets +onlyGivenNames s; refine canonical_cut (s := s) ?_ (fun _ => ?_); rotate_left; clear_value s; rotate_left; subst s) | (extract_lets +onlyGivenNames s; refine mem_let s ?_; subst s) | (extract_lets +onlyGivenNames s; refine boot_let s ?_; subst s) | (extract_lets +onlyGivenNames s; clear_value s) | split | extract_lets | refine State.canonical_mk ?_ rfl rfl

theorem State.updTx_canonical {x1 : State} {x2} {x3} (h1 : x1.Canonical) :
    (State.updTx x1 x2 x3).Canonical := by
  unfold State.updTx
  repeat' first | with_reducible assumption | (refine fun (_ : State) (_ : State.Canonical _) => ?_) | (extract_lets +onlyGivenNames s; refine canonical_cut (s := s) ?_ (fun _ => ?_); rotate_left; clear_value s; rotate_left; subst s) | (extract_lets +onlyGivenNames s; refine mem_let s ?_; subst s) | (extract_lets +onlyGivenNames s; refine boot_let s ?_; subst s) | (extract_lets +onlyGivenNames s; clear_value s) | split | extract_lets | refine State.canonical_mk ?_ rfl rfl

theorem State.judgeHead_canonical {x1 : State} {x2} (h1 : x1.Canonical) :
    (State.judgeHead x1 x2).Canonical := by
  unfold State.judgeHead
  repeat' first | with_reducible assumption | (refine fun (_ : State) (_ : State.Canonical _) => ?_) | (extract_lets +onlyGivenNames s; refine canonical_cut (s := s) ?_ (fun _ => ?_); rotate_left; clear_value s; rotate_left; subst s) | (extract_lets +onlyGivenNames s; refine mem_let s ?_; subst s) | (extract_lets +onlyGivenNames s; refine boot_let s ?_; subst s) | (extract_lets +onlyGivenNames s; clear_value s) | split | extract_lets | refine State.canonical_mk ?_ rfl rfl

theorem State.ptpDeparts_canonical {x1 : State} {x2} {x3} {x4} (h1 : x1.Canonical) :
    (State.ptpDeparts x1 x2 x3 x4).Canonical := by
  unfold State.ptpDeparts
  repeat' first | with_reducible assumption | (refine fun (_ : State) (_ : State.Canonical _) => ?_) | (extract_lets +onlyGivenNames s; refine canonical_cut (s := s) ?_ (fun _ => ?_); rotate_left; clear_value s; rotate_left; subst s) | (extract_lets +onlyGivenNames s; refine mem_let s ?_; subst s) | (extract_lets +onlyGivenNames s; refine boot_let s ?_; subst s) | (extract_lets +onlyGivenNames s; clear_value s) | split | extract_lets | with_reducible apply State.emit_canonical | with_reducible apply State.updTx_canonical | refine State.canonical_mk ?_ rfl rfl

theorem State.departs_canonical {x1 : State} {x2} {x3} (h1 : x1.Canonical) :
    (State.departs x1 x2 x3).Canonical := by
  unfold State.departs
  repeat' first | with_reducible assumption | (refine fun (_ : State) (_ : State.Canonical _) => ?_) | (extract_lets +onlyGivenNames s; refine canonical_cut (s := s) ?_ (fun _ => ?_); rotate_left; clear_value s; rotate_left; subst s) | (extract_lets +onlyGivenNames s; refine mem_let s ?_; subst s) | (extract_lets +onlyGivenNames s; refine boot_let s ?_; subst s) | (extract_lets +onlyGivenNames s; clear_value s) | split | extract_lets | with_reducible apply State.satInc_canonical | with_reducible apply State.modInc_canonical | with_reducible apply State.emit_canonical | with_reducible apply State.count_canonical | with_reducible apply State.countPn_canonical | with_reducible apply State.ptpDeparts_canonical | refine State.canonical_mk ?_ rfl rfl

theorem State.txTake_canonical {x1 : State} {x2} (h1 : x1.Canonical) :
    (State.txTake x1 x2).Canonical := by
  unfold State.txTake
  repeat' first | with_reducible assumption | (refine fun (_ : State) (_ : State.Canonical _) => ?_) | (extract_lets +onlyGivenNames s; refine canonical_cut (s := s) ?_ (fun _ => ?_); rotate_left; clear_value s; rotate_left; subst s) | (extract_lets +onlyGivenNames s; refine mem_let s ?_; subst s) | (extract_lets +onlyGivenNames s; refine boot_let s ?_; subst s) | (extract_lets +onlyGivenNames s; clear_value s) | split | extract_lets | with_reducible apply State.updTx_canonical | with_reducible apply State.judgeHead_canonical | with_reducible apply State.departs_canonical | refine State.canonical_mk ?_ rfl rfl

theorem State.txSend_canonical {x1 : State} {x2} {x3} (h1 : x1.Canonical) :
    (State.txSend x1 x2 x3).Canonical := by
  unfold State.txSend
  repeat' first | with_reducible assumption | (refine fun (_ : State) (_ : State.Canonical _) => ?_) | (extract_lets +onlyGivenNames s; refine canonical_cut (s := s) ?_ (fun _ => ?_); rotate_left; clear_value s; rotate_left; subst s) | (extract_lets +onlyGivenNames s; refine mem_let s ?_; subst s) | (extract_lets +onlyGivenNames s; refine boot_let s ?_; subst s) | (extract_lets +onlyGivenNames s; clear_value s) | split | extract_lets | with_reducible apply State.updTx_canonical | with_reducible apply State.txTake_canonical | refine State.canonical_mk ?_ rfl rfl

theorem State.sendFrame_canonical {x1 : State} {x2} {x3} {x4} {x5} (h1 : x1.Canonical) :
    (State.sendFrame x1 x2 x3 x4 x5).Canonical := by
  unfold State.sendFrame
  repeat' first | with_reducible assumption | (refine fun (_ : State) (_ : State.Canonical _) => ?_) | (extract_lets +onlyGivenNames s; refine canonical_cut (s := s) ?_ (fun _ => ?_); rotate_left; clear_value s; rotate_left; subst s) | (extract_lets +onlyGivenNames s; refine mem_let s ?_; subst s) | (extract_lets +onlyGivenNames s; refine boot_let s ?_; subst s) | (extract_lets +onlyGivenNames s; clear_value s) | split | extract_lets | with_reducible apply State.txSend_canonical | refine State.canonical_mk ?_ rfl rfl

theorem State.sendFrames_canonical {x1 : State} {x2} {x3} {x4} {x5} (h1 : x1.Canonical) :
    (State.sendFrames x1 x2 x3 x4 x5).Canonical := by
  revert h1
  fun_induction State.sendFrames x1 x2 x3 x4 x5 <;> intro h1
  all_goals repeat' first | with_reducible assumption | (refine (by with_reducible assumption : State.Canonical _ → State.Canonical _) ?_) | (refine fun (_ : State) (_ : State.Canonical _) => ?_) | (extract_lets +onlyGivenNames s; refine canonical_cut (s := s) ?_ (fun _ => ?_); rotate_left; clear_value s; rotate_left; subst s) | (extract_lets +onlyGivenNames s; refine mem_let s ?_; subst s) | (extract_lets +onlyGivenNames s; refine boot_let s ?_; subst s) | (extract_lets +onlyGivenNames s; clear_value s) | split | extract_lets | with_reducible apply State.sendFrame_canonical | refine State.canonical_mk ?_ rfl rfl

theorem State.reply_canonical {x1 : State} {x2} {x3} {x4} {x5} {x6} {x7} {x8} {x9} (h1 : x1.Canonical) :
    (State.reply x1 x2 x3 x4 x5 x6 x7 x8 x9).Canonical := by
  unfold State.reply
  repeat' first | with_reducible assumption | (refine fun (_ : State) (_ : State.Canonical _) => ?_) | (extract_lets +onlyGivenNames s; refine canonical_cut (s := s) ?_ (fun _ => ?_); rotate_left; clear_value s; rotate_left; subst s) | (extract_lets +onlyGivenNames s; refine mem_let s ?_; subst s) | (extract_lets +onlyGivenNames s; refine boot_let s ?_; subst s) | (extract_lets +onlyGivenNames s; clear_value s) | split | extract_lets | with_reducible apply State.sendFrame_canonical | refine State.canonical_mk ?_ rfl rfl

theorem State.noticeOn_canonical {x1 : State} {x2} {x3} (h1 : x1.Canonical) :
    (State.noticeOn x1 x2 x3).Canonical := by
  unfold State.noticeOn
  repeat' first | with_reducible assumption | (refine fun (_ : State) (_ : State.Canonical _) => ?_) | (extract_lets +onlyGivenNames s; refine canonical_cut (s := s) ?_ (fun _ => ?_); rotate_left; clear_value s; rotate_left; subst s) | (extract_lets +onlyGivenNames s; refine mem_let s ?_; subst s) | (extract_lets +onlyGivenNames s; refine boot_let s ?_; subst s) | (extract_lets +onlyGivenNames s; clear_value s) | split | extract_lets | with_reducible apply State.txSend_canonical | (with_reducible apply foldl_canonical; intro _ _ _) | refine State.canonical_mk ?_ rfl rfl

theorem State.sendNotice_canonical {x1 : State} {x2} (h1 : x1.Canonical) :
    (State.sendNotice x1 x2).Canonical := by
  unfold State.sendNotice
  repeat' first | with_reducible assumption | (refine fun (_ : State) (_ : State.Canonical _) => ?_) | (extract_lets +onlyGivenNames s; refine canonical_cut (s := s) ?_ (fun _ => ?_); rotate_left; clear_value s; rotate_left; subst s) | (extract_lets +onlyGivenNames s; refine mem_let s ?_; subst s) | (extract_lets +onlyGivenNames s; refine boot_let s ?_; subst s) | (extract_lets +onlyGivenNames s; clear_value s) | split | extract_lets | with_reducible apply State.noticeOn_canonical | refine State.canonical_mk ?_ rfl rfl

end Sys2Proof.Machine
end

