-- ==== Sys2Proof/Laws/CanonicalTables.lean ====
section
/-! SUPPORT. The canonical form is kept by every operation of Machine/Tables.lean. -/

namespace Sys2Proof.Machine

theorem State.updTable_canonical {x1 : State} {x2} {x3} (h1 : x1.Canonical) :
    (State.updTable x1 x2 x3).Canonical := by
  unfold State.updTable
  repeat' first | with_reducible assumption | (refine fun (_ : State) (_ : State.Canonical _) => ?_) | (extract_lets +onlyGivenNames s; refine canonical_cut (s := s) ?_ (fun _ => ?_); rotate_left; clear_value s; rotate_left; subst s) | (extract_lets +onlyGivenNames s; refine mem_let s ?_; subst s) | (extract_lets +onlyGivenNames s; refine boot_let s ?_; subst s) | (extract_lets +onlyGivenNames s; clear_value s) | split | extract_lets | refine State.canonical_mk ?_ rfl rfl

theorem State.updWin_canonical {x1 : State} {x2} {x3} (h1 : x1.Canonical) :
    (State.updWin x1 x2 x3).Canonical := by
  unfold State.updWin
  repeat' first | with_reducible assumption | (refine fun (_ : State) (_ : State.Canonical _) => ?_) | (extract_lets +onlyGivenNames s; refine canonical_cut (s := s) ?_ (fun _ => ?_); rotate_left; clear_value s; rotate_left; subst s) | (extract_lets +onlyGivenNames s; refine mem_let s ?_; subst s) | (extract_lets +onlyGivenNames s; refine boot_let s ?_; subst s) | (extract_lets +onlyGivenNames s; clear_value s) | split | extract_lets | refine State.canonical_mk ?_ rfl rfl

theorem State.giveTables_canonical {x1} {x2 : State} (h2 : x2.Canonical) :
    (State.giveTables x1 x2).Canonical := by
  revert h2
  fun_induction State.giveTables x1 x2 <;> intro h2
  all_goals repeat' first | with_reducible assumption | (refine (by with_reducible assumption : State.Canonical _ → State.Canonical _) ?_) | (refine fun (_ : State) (_ : State.Canonical _) => ?_) | (extract_lets +onlyGivenNames s; refine canonical_cut (s := s) ?_ (fun _ => ?_); rotate_left; clear_value s; rotate_left; subst s) | (extract_lets +onlyGivenNames s; refine mem_let s ?_; subst s) | (extract_lets +onlyGivenNames s; refine boot_let s ?_; subst s) | (extract_lets +onlyGivenNames s; clear_value s) | split | extract_lets | with_reducible apply State.updWin_canonical | refine State.canonical_mk ?_ rfl rfl

theorem State.openPtsWindow_canonical {x1 : State} {x2} (h1 : x1.Canonical) :
    (State.openPtsWindow x1 x2).Canonical := by
  unfold State.openPtsWindow
  repeat' first | with_reducible assumption | (refine fun (_ : State) (_ : State.Canonical _) => ?_) | (extract_lets +onlyGivenNames s; refine canonical_cut (s := s) ?_ (fun _ => ?_); rotate_left; clear_value s; rotate_left; subst s) | (extract_lets +onlyGivenNames s; refine mem_let s ?_; subst s) | (extract_lets +onlyGivenNames s; refine boot_let s ?_; subst s) | (extract_lets +onlyGivenNames s; clear_value s) | split | extract_lets | with_reducible apply State.raise_canonical | with_reducible apply State.giveTables_canonical | refine State.canonical_mk ?_ rfl rfl

theorem State.freeTable_canonical {x1 : State} {x2} (h1 : x1.Canonical) :
    (State.freeTable x1 x2).Canonical := by
  unfold State.freeTable
  repeat' first | with_reducible assumption | (refine fun (_ : State) (_ : State.Canonical _) => ?_) | (extract_lets +onlyGivenNames s; refine canonical_cut (s := s) ?_ (fun _ => ?_); rotate_left; clear_value s; rotate_left; subst s) | (extract_lets +onlyGivenNames s; refine mem_let s ?_; subst s) | (extract_lets +onlyGivenNames s; refine boot_let s ?_; subst s) | (extract_lets +onlyGivenNames s; clear_value s) | split | extract_lets | with_reducible apply State.giveTables_canonical | refine State.canonical_mk ?_ rfl rfl

theorem State.discardPoints_canonical {x1 : State} {x2} (h1 : x1.Canonical) :
    (State.discardPoints x1 x2).Canonical := by
  unfold State.discardPoints
  repeat' first | with_reducible assumption | (refine fun (_ : State) (_ : State.Canonical _) => ?_) | (extract_lets +onlyGivenNames s; refine canonical_cut (s := s) ?_ (fun _ => ?_); rotate_left; clear_value s; rotate_left; subst s) | (extract_lets +onlyGivenNames s; refine mem_let s ?_; subst s) | (extract_lets +onlyGivenNames s; refine boot_let s ?_; subst s) | (extract_lets +onlyGivenNames s; clear_value s) | split | extract_lets | with_reducible apply State.freeTable_canonical | refine State.canonical_mk ?_ rfl rfl

theorem State.restartPoints_canonical {x1 : State} {x2} (h1 : x1.Canonical) :
    (State.restartPoints x1 x2).Canonical := by
  unfold State.restartPoints
  repeat' first | with_reducible assumption | (refine fun (_ : State) (_ : State.Canonical _) => ?_) | (extract_lets +onlyGivenNames s; refine canonical_cut (s := s) ?_ (fun _ => ?_); rotate_left; clear_value s; rotate_left; subst s) | (extract_lets +onlyGivenNames s; refine mem_let s ?_; subst s) | (extract_lets +onlyGivenNames s; refine boot_let s ?_; subst s) | (extract_lets +onlyGivenNames s; clear_value s) | split | extract_lets | with_reducible apply State.giveTables_canonical | refine State.canonical_mk ?_ rfl rfl

end Sys2Proof.Machine
end

