-- ==== Sys2Proof/Laws/CanonicalSolverWindow.lean ====
section
/-! SUPPORT. The canonical form is kept by every operation of Machine/SolverWindow.lean. -/

namespace Sys2Proof.Machine

theorem State.holdSolver_canonical {x1 : State} (h1 : x1.Canonical) :
    (State.holdSolver x1).Canonical := by
  unfold State.holdSolver
  repeat' first | with_reducible assumption | (refine fun (_ : State) (_ : State.Canonical _) => ?_) | (extract_lets +onlyGivenNames s; refine canonical_cut (s := s) ?_ (fun _ => ?_); rotate_left; clear_value s; rotate_left; subst s) | (extract_lets +onlyGivenNames s; refine mem_let s ?_; subst s) | (extract_lets +onlyGivenNames s; refine boot_let s ?_; subst s) | (extract_lets +onlyGivenNames s; clear_value s) | split | extract_lets | refine State.canonical_mk ?_ rfl rfl

theorem State.egoIdle_canonical {x1 : State} (h1 : x1.Canonical) :
    (State.egoIdle x1).Canonical := by
  unfold State.egoIdle
  repeat' first | with_reducible assumption | (refine fun (_ : State) (_ : State.Canonical _) => ?_) | (extract_lets +onlyGivenNames s; refine canonical_cut (s := s) ?_ (fun _ => ?_); rotate_left; clear_value s; rotate_left; subst s) | (extract_lets +onlyGivenNames s; refine mem_let s ?_; subst s) | (extract_lets +onlyGivenNames s; refine boot_let s ?_; subst s) | (extract_lets +onlyGivenNames s; clear_value s) | split | extract_lets | with_reducible apply State.put_canonical | refine State.canonical_mk ?_ rfl rfl

theorem State.rebaseSolver_canonical {x1 : State} {x2} (h1 : x1.Canonical) :
    (State.rebaseSolver x1 x2).Canonical := by
  unfold State.rebaseSolver
  repeat' first | with_reducible assumption | (refine fun (_ : State) (_ : State.Canonical _) => ?_) | (extract_lets +onlyGivenNames s; refine canonical_cut (s := s) ?_ (fun _ => ?_); rotate_left; clear_value s; rotate_left; subst s) | (extract_lets +onlyGivenNames s; refine mem_let s ?_; subst s) | (extract_lets +onlyGivenNames s; refine boot_let s ?_; subst s) | (extract_lets +onlyGivenNames s; clear_value s) | split | extract_lets | refine State.canonical_mk ?_ rfl rfl

theorem State.coldSolver_canonical {x1 : State} (h1 : x1.Canonical) :
    (State.coldSolver x1).Canonical := by
  unfold State.coldSolver
  repeat' first | with_reducible assumption | (refine fun (_ : State) (_ : State.Canonical _) => ?_) | (extract_lets +onlyGivenNames s; refine canonical_cut (s := s) ?_ (fun _ => ?_); rotate_left; clear_value s; rotate_left; subst s) | (extract_lets +onlyGivenNames s; refine mem_let s ?_; subst s) | (extract_lets +onlyGivenNames s; refine boot_let s ?_; subst s) | (extract_lets +onlyGivenNames s; clear_value s) | split | extract_lets | with_reducible apply State.egoIdle_canonical | refine State.canonical_mk ?_ rfl rfl

end Sys2Proof.Machine
end

