-- ==== Sys2Proof/Laws/CanonicalHistTable.lean ====
section
/-! SUPPORT. The canonical form is kept by every operation of Machine/HistTable.lean. -/

namespace Sys2Proof.Machine

theorem State.setPage_canonical {x1 : State} {x2} {x3} (h1 : x1.Canonical) :
    (State.setPage x1 x2 x3).Canonical := by
  unfold State.setPage
  repeat' first | with_reducible assumption | (refine fun (_ : State) (_ : State.Canonical _) => ?_) | (extract_lets +onlyGivenNames s; refine canonical_cut (s := s) ?_ (fun _ => ?_); rotate_left; clear_value s; rotate_left; subst s) | (extract_lets +onlyGivenNames s; refine mem_let s ?_; subst s) | (extract_lets +onlyGivenNames s; refine boot_let s ?_; subst s) | (extract_lets +onlyGivenNames s; clear_value s) | split | extract_lets | refine State.canonical_mk ?_ rfl rfl

theorem State.updPage_canonical {x1 : State} {x2} {x3} (h1 : x1.Canonical) :
    (State.updPage x1 x2 x3).Canonical := by
  unfold State.updPage
  repeat' first | with_reducible assumption | (refine fun (_ : State) (_ : State.Canonical _) => ?_) | (extract_lets +onlyGivenNames s; refine canonical_cut (s := s) ?_ (fun _ => ?_); rotate_left; clear_value s; rotate_left; subst s) | (extract_lets +onlyGivenNames s; refine mem_let s ?_; subst s) | (extract_lets +onlyGivenNames s; refine boot_let s ?_; subst s) | (extract_lets +onlyGivenNames s; clear_value s) | split | extract_lets | with_reducible apply State.setPage_canonical | refine State.canonical_mk ?_ rfl rfl

theorem State.writeSeq_canonical {x1 : State} {x2} {x3} (h1 : x1.Canonical) :
    OptCanonical (State.writeSeq x1 x2 x3) := by
  unfold State.writeSeq
  repeat' first | with_reducible assumption | with_reducible exact canonical_none | with_reducible apply canonical_some | (with_reducible apply canonical_map; intro _ _) | (refine fun (_ : State) (_ : State.Canonical _) => ?_) | (extract_lets +onlyGivenNames s; refine canonical_cut (s := s) ?_ (fun _ => ?_); rotate_left; clear_value s; rotate_left; subst s) | (extract_lets +onlyGivenNames s; refine mem_let s ?_; subst s) | (extract_lets +onlyGivenNames s; refine boot_let s ?_; subst s) | (extract_lets +onlyGivenNames s; clear_value s) | split | extract_lets | with_reducible apply State.writeBytes_canonical | with_reducible apply State.writeLe_canonical | refine State.canonical_mk ?_ rfl rfl

theorem State.writeSeqs_canonical {x1 : State} {x2} (h1 : x1.Canonical) :
    OptCanonical (State.writeSeqs x1 x2) := by
  revert h1
  fun_induction State.writeSeqs x1 x2 <;> intro h1
  all_goals repeat' first | with_reducible assumption | (refine (by with_reducible assumption : State.Canonical _ → OptCanonical _) ?_) | with_reducible exact canonical_none | with_reducible apply canonical_some | (with_reducible apply canonical_map; intro _ _) | (refine fun (_ : State) (_ : State.Canonical _) => ?_) | (extract_lets +onlyGivenNames s; refine canonical_cut (s := s) ?_ (fun _ => ?_); rotate_left; clear_value s; rotate_left; subst s) | (extract_lets +onlyGivenNames s; refine mem_let s ?_; subst s) | (extract_lets +onlyGivenNames s; refine boot_let s ?_; subst s) | (extract_lets +onlyGivenNames s; clear_value s) | split | extract_lets | with_reducible apply State.writeSeq_canonical | (refine canonical_of_some (by with_reducible assumption) ?_) | refine State.canonical_mk ?_ rfl rfl

theorem State.replaceShadow_canonical {x1 : State} {x2} (h1 : x1.Canonical) :
    OptCanonical (State.replaceShadow x1 x2) := by
  unfold State.replaceShadow
  repeat' first | with_reducible assumption | with_reducible exact canonical_none | with_reducible apply canonical_some | (with_reducible apply canonical_map; intro _ _) | (refine fun (_ : State) (_ : State.Canonical _) => ?_) | (extract_lets +onlyGivenNames s; refine canonical_cut (s := s) ?_ (fun _ => ?_); rotate_left; clear_value s; rotate_left; subst s) | (extract_lets +onlyGivenNames s; refine mem_let s ?_; subst s) | (extract_lets +onlyGivenNames s; refine boot_let s ?_; subst s) | (extract_lets +onlyGivenNames s; clear_value s) | split | extract_lets | with_reducible apply State.writeLe_canonical | with_reducible apply State.updPage_canonical | with_reducible apply State.writeSeqs_canonical | (with_reducible apply foldl_canonical; intro _ _ _) | (refine canonical_of_some (by with_reducible assumption) ?_) | refine State.canonical_mk ?_ rfl rfl

theorem State.stage_canonical {x1 : State} {x2} {x3} (h1 : x1.Canonical) :
    OptCanonical (State.stage x1 x2 x3) := by
  unfold State.stage
  repeat' first | with_reducible assumption | with_reducible exact canonical_none | with_reducible apply canonical_some | (with_reducible apply canonical_map; intro _ _) | (refine fun (_ : State) (_ : State.Canonical _) => ?_) | (extract_lets +onlyGivenNames s; refine canonical_cut (s := s) ?_ (fun _ => ?_); rotate_left; clear_value s; rotate_left; subst s) | (extract_lets +onlyGivenNames s; refine mem_let s ?_; subst s) | (extract_lets +onlyGivenNames s; refine boot_let s ?_; subst s) | (extract_lets +onlyGivenNames s; clear_value s) | split | extract_lets | with_reducible apply State.replaceShadow_canonical | (refine canonical_of_some (by with_reducible assumption) ?_) | refine State.canonical_mk ?_ rfl rfl

theorem State.dropPages_canonical {x1 : State} {x2} (h1 : x1.Canonical) :
    (State.dropPages x1 x2).Canonical := by
  unfold State.dropPages
  repeat' first | with_reducible assumption | (refine fun (_ : State) (_ : State.Canonical _) => ?_) | (extract_lets +onlyGivenNames s; refine canonical_cut (s := s) ?_ (fun _ => ?_); rotate_left; clear_value s; rotate_left; subst s) | (extract_lets +onlyGivenNames s; refine mem_let s ?_; subst s) | (extract_lets +onlyGivenNames s; refine boot_let s ?_; subst s) | (extract_lets +onlyGivenNames s; clear_value s) | split | extract_lets | with_reducible apply State.setPage_canonical | (with_reducible apply foldl_canonical; intro _ _ _) | refine State.canonical_mk ?_ rfl rfl

theorem State.freePages_canonical {x1 : State} (h1 : x1.Canonical) :
    (State.freePages x1).Canonical := by
  unfold State.freePages
  repeat' first | with_reducible assumption | (refine fun (_ : State) (_ : State.Canonical _) => ?_) | (extract_lets +onlyGivenNames s; refine canonical_cut (s := s) ?_ (fun _ => ?_); rotate_left; clear_value s; rotate_left; subst s) | (extract_lets +onlyGivenNames s; refine mem_let s ?_; subst s) | (extract_lets +onlyGivenNames s; refine boot_let s ?_; subst s) | (extract_lets +onlyGivenNames s; clear_value s) | split | extract_lets | with_reducible apply State.setPage_canonical | (with_reducible apply foldl_canonical; intro _ _ _) | refine State.canonical_mk ?_ rfl rfl

theorem State.unpinInstance_canonical {x1 : State} {x2} (h1 : x1.Canonical) :
    (State.unpinInstance x1 x2).Canonical := by
  unfold State.unpinInstance
  repeat' first | with_reducible assumption | (refine fun (_ : State) (_ : State.Canonical _) => ?_) | (extract_lets +onlyGivenNames s; refine canonical_cut (s := s) ?_ (fun _ => ?_); rotate_left; clear_value s; rotate_left; subst s) | (extract_lets +onlyGivenNames s; refine mem_let s ?_; subst s) | (extract_lets +onlyGivenNames s; refine boot_let s ?_; subst s) | (extract_lets +onlyGivenNames s; clear_value s) | split | extract_lets | with_reducible apply State.freePages_canonical | refine State.canonical_mk ?_ rfl rfl

theorem State.dropPending_canonical {x1 : State} (h1 : x1.Canonical) :
    (State.dropPending x1).Canonical := by
  unfold State.dropPending
  repeat' first | with_reducible assumption | (refine fun (_ : State) (_ : State.Canonical _) => ?_) | (extract_lets +onlyGivenNames s; refine canonical_cut (s := s) ?_ (fun _ => ?_); rotate_left; clear_value s; rotate_left; subst s) | (extract_lets +onlyGivenNames s; refine mem_let s ?_; subst s) | (extract_lets +onlyGivenNames s; refine boot_let s ?_; subst s) | (extract_lets +onlyGivenNames s; clear_value s) | split | extract_lets | with_reducible apply State.dropPages_canonical | refine State.canonical_mk ?_ rfl rfl

theorem State.commitAppends_canonical {x1 : State} {x2} (h1 : x1.Canonical) :
    (State.commitAppends x1 x2).Canonical := by
  unfold State.commitAppends
  repeat' first | with_reducible assumption | (refine fun (_ : State) (_ : State.Canonical _) => ?_) | (extract_lets +onlyGivenNames s; refine canonical_cut (s := s) ?_ (fun _ => ?_); rotate_left; clear_value s; rotate_left; subst s) | (extract_lets +onlyGivenNames s; refine mem_let s ?_; subst s) | (extract_lets +onlyGivenNames s; refine boot_let s ?_; subst s) | (extract_lets +onlyGivenNames s; clear_value s) | split | extract_lets | with_reducible apply State.stage_canonical | with_reducible apply State.unpinInstance_canonical | with_reducible apply State.dropPending_canonical | (refine canonical_of_some (by with_reducible assumption) ?_) | refine State.canonical_mk ?_ rfl rfl

theorem State.rebaseHistory_canonical {x1 : State} {x2} (h1 : x1.Canonical) :
    (State.rebaseHistory x1 x2).Canonical := by
  unfold State.rebaseHistory
  repeat' first | with_reducible assumption | (refine fun (_ : State) (_ : State.Canonical _) => ?_) | (extract_lets +onlyGivenNames s; refine canonical_cut (s := s) ?_ (fun _ => ?_); rotate_left; clear_value s; rotate_left; subst s) | (extract_lets +onlyGivenNames s; refine mem_let s ?_; subst s) | (extract_lets +onlyGivenNames s; refine boot_let s ?_; subst s) | (extract_lets +onlyGivenNames s; clear_value s) | split | extract_lets | refine State.canonical_mk ?_ rfl rfl

theorem State.copyGeneration0_canonical {x1 : State} (h1 : x1.Canonical) :
    (State.copyGeneration0 x1).Canonical := by
  unfold State.copyGeneration0
  repeat' first | with_reducible assumption | (refine fun (_ : State) (_ : State.Canonical _) => ?_) | (extract_lets +onlyGivenNames s; refine canonical_cut (s := s) ?_ (fun _ => ?_); rotate_left; clear_value s; rotate_left; subst s) | (extract_lets +onlyGivenNames s; refine mem_let s ?_; subst s) | (extract_lets +onlyGivenNames s; refine boot_let s ?_; subst s) | (extract_lets +onlyGivenNames s; clear_value s) | split | extract_lets | with_reducible apply State.writeBytes_canonical | refine State.canonical_mk ?_ rfl rfl

theorem State.startHistory_canonical {x1 : State} {x2} (h1 : x1.Canonical) :
    (State.startHistory x1 x2).Canonical := by
  unfold State.startHistory
  repeat' first | with_reducible assumption | (refine fun (_ : State) (_ : State.Canonical _) => ?_) | (extract_lets +onlyGivenNames s; refine canonical_cut (s := s) ?_ (fun _ => ?_); rotate_left; clear_value s; rotate_left; subst s) | (extract_lets +onlyGivenNames s; refine mem_let s ?_; subst s) | (extract_lets +onlyGivenNames s; refine boot_let s ?_; subst s) | (extract_lets +onlyGivenNames s; clear_value s) | split | extract_lets | with_reducible apply State.copyGeneration0_canonical | refine State.canonical_mk ?_ rfl rfl

theorem State.reloadHistory_canonical {x1 : State} (h1 : x1.Canonical) :
    (State.reloadHistory x1).Canonical := by
  unfold State.reloadHistory
  repeat' first | with_reducible assumption | (refine fun (_ : State) (_ : State.Canonical _) => ?_) | (extract_lets +onlyGivenNames s; refine canonical_cut (s := s) ?_ (fun _ => ?_); rotate_left; clear_value s; rotate_left; subst s) | (extract_lets +onlyGivenNames s; refine mem_let s ?_; subst s) | (extract_lets +onlyGivenNames s; refine boot_let s ?_; subst s) | (extract_lets +onlyGivenNames s; clear_value s) | split | extract_lets | with_reducible apply State.writeBytes_canonical | with_reducible apply State.writeSeqs_canonical | with_reducible apply State.copyGeneration0_canonical | (refine canonical_of_some (by with_reducible assumption) ?_) | refine State.canonical_mk ?_ rfl rfl

end Sys2Proof.Machine
end

