-- ==== Sys2Proof/Laws/CanonicalDiscard.lean ====
section
/-! SUPPORT. The canonical form is kept by every operation of Machine/Discard.lean. -/

namespace Sys2Proof.Machine

theorem State.rebaseRecord_canonical {x1 : State} {x2} {x3} {x4} (h1 : x1.Canonical) :
    (State.rebaseRecord x1 x2 x3 x4).Canonical := by
  unfold State.rebaseRecord
  repeat' first | with_reducible assumption | (refine fun (_ : State) (_ : State.Canonical _) => ?_) | (extract_lets +onlyGivenNames s; refine canonical_cut (s := s) ?_ (fun _ => ?_); rotate_left; clear_value s; rotate_left; subst s) | (extract_lets +onlyGivenNames s; refine mem_let s ?_; subst s) | (extract_lets +onlyGivenNames s; refine boot_let s ?_; subst s) | (extract_lets +onlyGivenNames s; clear_value s) | split | extract_lets | with_reducible apply State.writeBytes_canonical | refine State.canonical_mk ?_ rfl rfl

theorem State.discardArray_canonical {x1 : State} {x2} (h1 : x1.Canonical) :
    (State.discardArray x1 x2).Canonical := by
  unfold State.discardArray
  repeat' first | with_reducible assumption | (refine fun (_ : State) (_ : State.Canonical _) => ?_) | (extract_lets +onlyGivenNames s; refine canonical_cut (s := s) ?_ (fun _ => ?_); rotate_left; clear_value s; rotate_left; subst s) | (extract_lets +onlyGivenNames s; refine mem_let s ?_; subst s) | (extract_lets +onlyGivenNames s; refine boot_let s ?_; subst s) | (extract_lets +onlyGivenNames s; clear_value s) | split | extract_lets | refine State.canonical_mk ?_ rfl rfl

theorem State.discardSteps_canonical {x1 : State} {x2} (h1 : x1.Canonical) :
    (State.discardSteps x1 x2).Canonical := by
  unfold State.discardSteps
  repeat' first | with_reducible assumption | (refine fun (_ : State) (_ : State.Canonical _) => ?_) | (extract_lets +onlyGivenNames s; refine canonical_cut (s := s) ?_ (fun _ => ?_); rotate_left; clear_value s; rotate_left; subst s) | (extract_lets +onlyGivenNames s; refine mem_let s ?_; subst s) | (extract_lets +onlyGivenNames s; refine boot_let s ?_; subst s) | (extract_lets +onlyGivenNames s; clear_value s) | split | extract_lets | refine State.canonical_mk ?_ rfl rfl

theorem State.discardEngines_canonical {x1 : State} {x2} (h1 : x1.Canonical) :
    (State.discardEngines x1 x2).Canonical := by
  unfold State.discardEngines
  repeat' first | with_reducible assumption | (refine fun (_ : State) (_ : State.Canonical _) => ?_) | (extract_lets +onlyGivenNames s; refine canonical_cut (s := s) ?_ (fun _ => ?_); rotate_left; clear_value s; rotate_left; subst s) | (extract_lets +onlyGivenNames s; refine mem_let s ?_; subst s) | (extract_lets +onlyGivenNames s; refine boot_let s ?_; subst s) | (extract_lets +onlyGivenNames s; clear_value s) | split | extract_lets | with_reducible apply State.discardPoints_canonical | with_reducible apply State.unpinInstance_canonical | with_reducible apply State.discardArray_canonical | with_reducible apply State.discardSteps_canonical | refine State.canonical_mk ?_ rfl rfl

theorem State.dropLift_canonical {x1 : State} {x2} (h1 : x1.Canonical) :
    (State.dropLift x1 x2).Canonical := by
  unfold State.dropLift
  repeat' first | with_reducible assumption | (refine fun (_ : State) (_ : State.Canonical _) => ?_) | (extract_lets +onlyGivenNames s; refine canonical_cut (s := s) ?_ (fun _ => ?_); rotate_left; clear_value s; rotate_left; subst s) | (extract_lets +onlyGivenNames s; refine mem_let s ?_; subst s) | (extract_lets +onlyGivenNames s; refine boot_let s ?_; subst s) | (extract_lets +onlyGivenNames s; clear_value s) | split | extract_lets | refine State.canonical_mk ?_ rfl rfl

theorem State.relift_canonical {x1 : State} {x2} (h1 : x1.Canonical) :
    (State.relift x1 x2).Canonical := by
  unfold State.relift
  repeat' first | with_reducible assumption | (refine fun (_ : State) (_ : State.Canonical _) => ?_) | (extract_lets +onlyGivenNames s; refine canonical_cut (s := s) ?_ (fun _ => ?_); rotate_left; clear_value s; rotate_left; subst s) | (extract_lets +onlyGivenNames s; refine mem_let s ?_; subst s) | (extract_lets +onlyGivenNames s; refine boot_let s ?_; subst s) | (extract_lets +onlyGivenNames s; clear_value s) | split | extract_lets | refine State.canonical_mk ?_ rfl rfl

theorem State.clearMaps_canonical {x1 : State} {x2} (h1 : x1.Canonical) :
    (State.clearMaps x1 x2).Canonical := by
  unfold State.clearMaps
  repeat' first | with_reducible assumption | (refine fun (_ : State) (_ : State.Canonical _) => ?_) | (extract_lets +onlyGivenNames s; refine canonical_cut (s := s) ?_ (fun _ => ?_); rotate_left; clear_value s; rotate_left; subst s) | (extract_lets +onlyGivenNames s; refine mem_let s ?_; subst s) | (extract_lets +onlyGivenNames s; refine boot_let s ?_; subst s) | (extract_lets +onlyGivenNames s; clear_value s) | split | extract_lets | with_reducible apply State.writeBytes_canonical | (with_reducible apply foldl_canonical; intro _ _ _) | refine State.canonical_mk ?_ rfl rfl

theorem State.openLayout_canonical {x1 : State} {x2} (h1 : x1.Canonical) :
    (State.openLayout x1 x2).Canonical := by
  unfold State.openLayout
  repeat' first | with_reducible assumption | (refine fun (_ : State) (_ : State.Canonical _) => ?_) | (extract_lets +onlyGivenNames s; refine canonical_cut (s := s) ?_ (fun _ => ?_); rotate_left; clear_value s; rotate_left; subst s) | (extract_lets +onlyGivenNames s; refine mem_let s ?_; subst s) | (extract_lets +onlyGivenNames s; refine boot_let s ?_; subst s) | (extract_lets +onlyGivenNames s; clear_value s) | split | extract_lets | with_reducible apply State.clearMaps_canonical | refine State.canonical_mk ?_ rfl rfl

theorem State.rerunEngines_canonical {x1 : State} {x2} (h1 : x1.Canonical) :
    (State.rerunEngines x1 x2).Canonical := by
  unfold State.rerunEngines
  repeat' first | with_reducible assumption | (refine fun (_ : State) (_ : State.Canonical _) => ?_) | (extract_lets +onlyGivenNames s; refine canonical_cut (s := s) ?_ (fun _ => ?_); rotate_left; clear_value s; rotate_left; subst s) | (extract_lets +onlyGivenNames s; refine mem_let s ?_; subst s) | (extract_lets +onlyGivenNames s; refine boot_let s ?_; subst s) | (extract_lets +onlyGivenNames s; clear_value s) | split | extract_lets | with_reducible apply State.restartPoints_canonical | with_reducible apply State.discardEngines_canonical | with_reducible apply State.relift_canonical | refine State.canonical_mk ?_ rfl rfl

theorem State.finalEngines_canonical {x1 : State} {x2} (h1 : x1.Canonical) :
    (State.finalEngines x1 x2).Canonical := by
  unfold State.finalEngines
  repeat' first | with_reducible assumption | (refine fun (_ : State) (_ : State.Canonical _) => ?_) | (extract_lets +onlyGivenNames s; refine canonical_cut (s := s) ?_ (fun _ => ?_); rotate_left; clear_value s; rotate_left; subst s) | (extract_lets +onlyGivenNames s; refine mem_let s ?_; subst s) | (extract_lets +onlyGivenNames s; refine boot_let s ?_; subst s) | (extract_lets +onlyGivenNames s; clear_value s) | split | extract_lets | with_reducible apply State.put_canonical | with_reducible apply State.raise_canonical | with_reducible apply State.satAdd_canonical | with_reducible apply State.commitAppends_canonical | with_reducible apply State.discardEngines_canonical | with_reducible apply State.dropLift_canonical | refine State.canonical_mk ?_ rfl rfl

theorem State.rebaseEngines_canonical {x1 : State} {x2} (h1 : x1.Canonical) :
    (State.rebaseEngines x1 x2).Canonical := by
  unfold State.rebaseEngines
  repeat' first | with_reducible assumption | (refine fun (_ : State) (_ : State.Canonical _) => ?_) | (extract_lets +onlyGivenNames s; refine canonical_cut (s := s) ?_ (fun _ => ?_); rotate_left; clear_value s; rotate_left; subst s) | (extract_lets +onlyGivenNames s; refine mem_let s ?_; subst s) | (extract_lets +onlyGivenNames s; refine boot_let s ?_; subst s) | (extract_lets +onlyGivenNames s; clear_value s) | split | extract_lets | with_reducible apply State.rebaseSolver_canonical | with_reducible apply State.rebaseHistory_canonical | refine State.canonical_mk ?_ rfl rfl

theorem State.discardAllInstances_canonical {x1 : State} (h1 : x1.Canonical) :
    (State.discardAllInstances x1).Canonical := by
  unfold State.discardAllInstances
  repeat' first | with_reducible assumption | (refine fun (_ : State) (_ : State.Canonical _) => ?_) | (extract_lets +onlyGivenNames s; refine canonical_cut (s := s) ?_ (fun _ => ?_); rotate_left; clear_value s; rotate_left; subst s) | (extract_lets +onlyGivenNames s; refine mem_let s ?_; subst s) | (extract_lets +onlyGivenNames s; refine boot_let s ?_; subst s) | (extract_lets +onlyGivenNames s; clear_value s) | split | extract_lets | with_reducible apply State.put_canonical | with_reducible apply State.dropPending_canonical | with_reducible apply State.discardEngines_canonical | with_reducible apply State.dropLift_canonical | (with_reducible apply foldl_canonical; intro _ _ _) | refine State.canonical_mk ?_ rfl rfl

theorem State.haltHost_canonical {x1 : State} (h1 : x1.Canonical) :
    (State.haltHost x1).Canonical := by
  unfold State.haltHost
  repeat' first | with_reducible assumption | (refine fun (_ : State) (_ : State.Canonical _) => ?_) | (extract_lets +onlyGivenNames s; refine canonical_cut (s := s) ?_ (fun _ => ?_); rotate_left; clear_value s; rotate_left; subst s) | (extract_lets +onlyGivenNames s; refine mem_let s ?_; subst s) | (extract_lets +onlyGivenNames s; refine boot_let s ?_; subst s) | (extract_lets +onlyGivenNames s; clear_value s) | split | extract_lets | refine State.canonical_mk ?_ rfl rfl

end Sys2Proof.Machine
end

