-- ==== Sys2Proof/Laws/CanonicalDetect.lean ====
section
/-! SUPPORT. The canonical form is kept by every operation of Machine/Detect.lean. -/

namespace Sys2Proof.Machine

theorem State.armGolden_canonical {x1 : State} {x2} {x3} (h1 : x1.Canonical) :
    (State.armGolden x1 x2 x3).Canonical := by
  unfold State.armGolden
  repeat' first | with_reducible assumption | (refine fun (_ : State) (_ : State.Canonical _) => ?_) | (extract_lets +onlyGivenNames s; refine canonical_cut (s := s) ?_ (fun _ => ?_); rotate_left; clear_value s; rotate_left; subst s) | (extract_lets +onlyGivenNames s; refine mem_let s ?_; subst s) | (extract_lets +onlyGivenNames s; refine boot_let s ?_; subst s) | (extract_lets +onlyGivenNames s; clear_value s) | split | extract_lets | with_reducible apply State.satAdd_canonical | refine State.canonical_mk ?_ rfl rfl

theorem State.armExtra_canonical {x1 : State} (h1 : x1.Canonical) :
    (State.armExtra x1).Canonical := by
  unfold State.armExtra
  repeat' first | with_reducible assumption | (refine fun (_ : State) (_ : State.Canonical _) => ?_) | (extract_lets +onlyGivenNames s; refine canonical_cut (s := s) ?_ (fun _ => ?_); rotate_left; clear_value s; rotate_left; subst s) | (extract_lets +onlyGivenNames s; refine mem_let s ?_; subst s) | (extract_lets +onlyGivenNames s; refine boot_let s ?_; subst s) | (extract_lets +onlyGivenNames s; clear_value s) | split | extract_lets | with_reducible apply State.armGolden_canonical | refine State.canonical_mk ?_ rfl rfl

theorem State.armAtTov_canonical {x1 : State} {x2} (h1 : x1.Canonical) :
    (State.armAtTov x1 x2).Canonical := by
  revert h1
  fun_induction State.armAtTov x1 x2 <;> intro h1
  all_goals repeat' first | with_reducible assumption | (refine (by with_reducible assumption : State.Canonical _ → State.Canonical _) ?_) | (refine fun (_ : State) (_ : State.Canonical _) => ?_) | (extract_lets +onlyGivenNames s; refine canonical_cut (s := s) ?_ (fun _ => ?_); rotate_left; clear_value s; rotate_left; subst s) | (extract_lets +onlyGivenNames s; refine mem_let s ?_; subst s) | (extract_lets +onlyGivenNames s; refine boot_let s ?_; subst s) | (extract_lets +onlyGivenNames s; clear_value s) | split | extract_lets | with_reducible apply State.armGolden_canonical | refine State.canonical_mk ?_ rfl rfl

theorem State.changeState_canonical {x1 : State} {x2} {x3} {x4} {x5} (h1 : x1.Canonical) :
    (State.changeState x1 x2 x3 x4 x5).Canonical := by
  unfold State.changeState
  repeat' first | with_reducible assumption | (refine fun (_ : State) (_ : State.Canonical _) => ?_) | (extract_lets +onlyGivenNames s; refine canonical_cut (s := s) ?_ (fun _ => ?_); rotate_left; clear_value s; rotate_left; subst s) | (extract_lets +onlyGivenNames s; refine mem_let s ?_; subst s) | (extract_lets +onlyGivenNames s; refine boot_let s ?_; subst s) | (extract_lets +onlyGivenNames s; clear_value s) | split | extract_lets | with_reducible apply State.put_canonical | with_reducible apply State.raise_canonical | with_reducible apply State.satInc_canonical | with_reducible apply State.life_canonical | with_reducible apply State.eventTick_canonical | with_reducible apply State.sendNotice_canonical | with_reducible apply State.discardAllInstances_canonical | with_reducible apply State.haltHost_canonical | refine State.canonical_mk ?_ rfl rfl

theorem State.returnTo_canonical {x1 : State} {x2} (h1 : x1.Canonical) :
    (State.returnTo x1 x2).Canonical := by
  unfold State.returnTo
  repeat' first | with_reducible assumption | (refine fun (_ : State) (_ : State.Canonical _) => ?_) | (extract_lets +onlyGivenNames s; refine canonical_cut (s := s) ?_ (fun _ => ?_); rotate_left; clear_value s; rotate_left; subst s) | (extract_lets +onlyGivenNames s; refine mem_let s ?_; subst s) | (extract_lets +onlyGivenNames s; refine boot_let s ?_; subst s) | (extract_lets +onlyGivenNames s; clear_value s) | split | extract_lets | with_reducible apply State.log_canonical | with_reducible apply State.changeState_canonical | refine State.canonical_mk ?_ rfl rfl

theorem State.respond_canonical {x1 : State} {x2} {x3} {x4} (h1 : x1.Canonical) :
    (State.respond x1 x2 x3 x4).Canonical := by
  unfold State.respond
  repeat' first | with_reducible assumption | (refine fun (_ : State) (_ : State.Canonical _) => ?_) | (extract_lets +onlyGivenNames s; refine canonical_cut (s := s) ?_ (fun _ => ?_); rotate_left; clear_value s; rotate_left; subst s) | (extract_lets +onlyGivenNames s; refine mem_let s ?_; subst s) | (extract_lets +onlyGivenNames s; refine boot_let s ?_; subst s) | (extract_lets +onlyGivenNames s; clear_value s) | split | extract_lets | with_reducible apply State.raise_canonical | with_reducible apply State.satInc_canonical | with_reducible apply State.armExtra_canonical | with_reducible apply State.changeState_canonical | refine State.canonical_mk ?_ rfl rfl

theorem State.recordFault_canonical {x1 : State} {x2} {x3} {x4} (h1 : x1.Canonical) :
    (State.recordFault x1 x2 x3 x4).Canonical := by
  unfold State.recordFault
  repeat' first | with_reducible assumption | (refine fun (_ : State) (_ : State.Canonical _) => ?_) | (extract_lets +onlyGivenNames s; refine canonical_cut (s := s) ?_ (fun _ => ?_); rotate_left; clear_value s; rotate_left; subst s) | (extract_lets +onlyGivenNames s; refine mem_let s ?_; subst s) | (extract_lets +onlyGivenNames s; refine boot_let s ?_; subst s) | (extract_lets +onlyGivenNames s; clear_value s) | split | extract_lets | with_reducible apply State.put_canonical | with_reducible apply State.putI_canonical | with_reducible apply State.log_canonical | refine State.canonical_mk ?_ rfl rfl

theorem State.detectOne_canonical {x1 : State} {x2} {x3} {x4} (h1 : x1.Canonical) :
    (State.detectOne x1 x2 x3 x4).Canonical := by
  unfold State.detectOne
  repeat' first | with_reducible assumption | (refine fun (_ : State) (_ : State.Canonical _) => ?_) | (extract_lets +onlyGivenNames s; refine canonical_cut (s := s) ?_ (fun _ => ?_); rotate_left; clear_value s; rotate_left; subst s) | (extract_lets +onlyGivenNames s; refine mem_let s ?_; subst s) | (extract_lets +onlyGivenNames s; refine boot_let s ?_; subst s) | (extract_lets +onlyGivenNames s; clear_value s) | split | extract_lets | with_reducible apply State.respond_canonical | with_reducible apply State.recordFault_canonical | refine State.canonical_mk ?_ rfl rfl

theorem State.containRate_canonical {x1 : State} (h1 : x1.Canonical) :
    (State.containRate x1).Canonical := by
  unfold State.containRate
  repeat' first | with_reducible assumption | (refine fun (_ : State) (_ : State.Canonical _) => ?_) | (extract_lets +onlyGivenNames s; refine canonical_cut (s := s) ?_ (fun _ => ?_); rotate_left; clear_value s; rotate_left; subst s) | (extract_lets +onlyGivenNames s; refine mem_let s ?_; subst s) | (extract_lets +onlyGivenNames s; refine boot_let s ?_; subst s) | (extract_lets +onlyGivenNames s; clear_value s) | split | extract_lets | with_reducible apply State.detectOne_canonical | refine State.canonical_mk ?_ rfl rfl

theorem State.detect_canonical {x1 : State} {x2} {x3} {x4} (h1 : x1.Canonical) :
    (State.detect x1 x2 x3 x4).Canonical := by
  unfold State.detect
  repeat' first | with_reducible assumption | (refine fun (_ : State) (_ : State.Canonical _) => ?_) | (extract_lets +onlyGivenNames s; refine canonical_cut (s := s) ?_ (fun _ => ?_); rotate_left; clear_value s; rotate_left; subst s) | (extract_lets +onlyGivenNames s; refine mem_let s ?_; subst s) | (extract_lets +onlyGivenNames s; refine boot_let s ?_; subst s) | (extract_lets +onlyGivenNames s; clear_value s) | split | extract_lets | with_reducible apply State.detectOne_canonical | with_reducible apply State.containRate_canonical | refine State.canonical_mk ?_ rfl rfl

end Sys2Proof.Machine
end

