-- ==== Sys2Proof/Laws/CanonicalMemory.lean ====
section
/-! SUPPORT. The canonical form is kept by every operation of Machine/Memory.lean. -/

namespace Sys2Proof.Machine

theorem State.memErr_canonical {x1 : State} {x2} {x3} (h1 : x1.Canonical) :
    (State.memErr x1 x2 x3).Canonical := by
  unfold State.memErr
  repeat' first | with_reducible assumption | (refine fun (_ : State) (_ : State.Canonical _) => ?_) | (extract_lets +onlyGivenNames s; refine canonical_cut (s := s) ?_ (fun _ => ?_); rotate_left; clear_value s; rotate_left; subst s) | (extract_lets +onlyGivenNames s; refine mem_let s ?_; subst s) | (extract_lets +onlyGivenNames s; refine boot_let s ?_; subst s) | (extract_lets +onlyGivenNames s; clear_value s) | split | extract_lets | with_reducible apply State.put_canonical | refine State.canonical_mk ?_ rfl rfl

theorem State.eccCorrected_canonical {x1 : State} {x2} {x3} (h1 : x1.Canonical) :
    (State.eccCorrected x1 x2 x3).Canonical := by
  unfold State.eccCorrected
  repeat' first | with_reducible assumption | (refine fun (_ : State) (_ : State.Canonical _) => ?_) | (extract_lets +onlyGivenNames s; refine canonical_cut (s := s) ?_ (fun _ => ?_); rotate_left; clear_value s; rotate_left; subst s) | (extract_lets +onlyGivenNames s; refine mem_let s ?_; subst s) | (extract_lets +onlyGivenNames s; refine boot_let s ?_; subst s) | (extract_lets +onlyGivenNames s; clear_value s) | split | extract_lets | with_reducible apply State.raise_canonical | with_reducible apply State.satInc_canonical | with_reducible apply State.count_canonical | with_reducible apply State.life_canonical | with_reducible apply State.memErr_canonical | refine State.canonical_mk ?_ rfl rfl

theorem State.countUncorr_canonical {x1 : State} {x2} (h1 : x1.Canonical) :
    (State.countUncorr x1 x2).Canonical := by
  unfold State.countUncorr
  repeat' first | with_reducible assumption | (refine fun (_ : State) (_ : State.Canonical _) => ?_) | (extract_lets +onlyGivenNames s; refine canonical_cut (s := s) ?_ (fun _ => ?_); rotate_left; clear_value s; rotate_left; subst s) | (extract_lets +onlyGivenNames s; refine mem_let s ?_; subst s) | (extract_lets +onlyGivenNames s; refine boot_let s ?_; subst s) | (extract_lets +onlyGivenNames s; clear_value s) | split | extract_lets | with_reducible apply State.satInc_canonical | with_reducible apply State.count_canonical | with_reducible apply State.life_canonical | refine State.canonical_mk ?_ rfl rfl

theorem State.eccUncorr_canonical {x1 : State} {x2} (h1 : x1.Canonical) :
    (State.eccUncorr x1 x2).Canonical := by
  unfold State.eccUncorr
  repeat' first | with_reducible assumption | (refine fun (_ : State) (_ : State.Canonical _) => ?_) | (extract_lets +onlyGivenNames s; refine canonical_cut (s := s) ?_ (fun _ => ?_); rotate_left; clear_value s; rotate_left; subst s) | (extract_lets +onlyGivenNames s; refine mem_let s ?_; subst s) | (extract_lets +onlyGivenNames s; refine boot_let s ?_; subst s) | (extract_lets +onlyGivenNames s; clear_value s) | split | extract_lets | with_reducible apply State.raise_canonical | with_reducible apply State.poisonWord_canonical | with_reducible apply State.log_canonical | with_reducible apply State.detect_canonical | with_reducible apply State.memErr_canonical | with_reducible apply State.countUncorr_canonical | refine State.canonical_mk ?_ rfl rfl

theorem State.reportBad_canonical {x1 : State} {x2} {x3} (h1 : x1.Canonical) :
    (State.reportBad x1 x2 x3).Canonical := by
  unfold State.reportBad
  repeat' first | with_reducible assumption | (refine fun (_ : State) (_ : State.Canonical _) => ?_) | (extract_lets +onlyGivenNames s; refine canonical_cut (s := s) ?_ (fun _ => ?_); rotate_left; clear_value s; rotate_left; subst s) | (extract_lets +onlyGivenNames s; refine mem_let s ?_; subst s) | (extract_lets +onlyGivenNames s; refine boot_let s ?_; subst s) | (extract_lets +onlyGivenNames s; clear_value s) | split | extract_lets | with_reducible apply State.eccUncorr_canonical | (with_reducible apply foldl_canonical; intro _ _ _) | refine State.canonical_mk ?_ rfl rfl

theorem State.hole_canonical {x1 : State} {x2} (h1 : x1.Canonical) :
    (State.hole x1 x2).Canonical := by
  unfold State.hole
  repeat' first | with_reducible assumption | (refine fun (_ : State) (_ : State.Canonical _) => ?_) | (extract_lets +onlyGivenNames s; refine canonical_cut (s := s) ?_ (fun _ => ?_); rotate_left; clear_value s; rotate_left; subst s) | (extract_lets +onlyGivenNames s; refine mem_let s ?_; subst s) | (extract_lets +onlyGivenNames s; refine boot_let s ?_; subst s) | (extract_lets +onlyGivenNames s; clear_value s) | split | extract_lets | with_reducible apply State.put_canonical | with_reducible apply State.raise_canonical | with_reducible apply State.log_canonical | refine State.canonical_mk ?_ rfl rfl

theorem execEccWriteBack_canonical {x1} {x2 : State} (h2 : x2.Canonical) :
    OutCanonical (execEccWriteBack x1 x2) := by
  unfold execEccWriteBack
  repeat' first | with_reducible assumption | with_reducible apply canonical_next | (refine fun (_ : State) (_ : State.Canonical _) => ?_) | (extract_lets +onlyGivenNames s; refine canonical_cut (s := s) ?_ (fun _ => ?_); rotate_left; clear_value s; rotate_left; subst s) | (extract_lets +onlyGivenNames s; refine mem_let s ?_; subst s) | (extract_lets +onlyGivenNames s; refine boot_let s ?_; subst s) | (extract_lets +onlyGivenNames s; clear_value s) | split | extract_lets | refine State.canonical_mk ?_ rfl rfl

theorem State.advanceScrub_canonical {x1 : State} {x2} (h1 : x1.Canonical) :
    (State.advanceScrub x1 x2).Canonical := by
  unfold State.advanceScrub
  repeat' first | with_reducible assumption | (refine fun (_ : State) (_ : State.Canonical _) => ?_) | (extract_lets +onlyGivenNames s; refine canonical_cut (s := s) ?_ (fun _ => ?_); rotate_left; clear_value s; rotate_left; subst s) | (extract_lets +onlyGivenNames s; refine mem_let s ?_; subst s) | (extract_lets +onlyGivenNames s; refine boot_let s ?_; subst s) | (extract_lets +onlyGivenNames s; clear_value s) | split | extract_lets | refine State.canonical_mk ?_ rfl rfl

theorem execScrub_canonical {x1} {x2} {x3 : State} (h3 : x3.Canonical) :
    OutCanonical (execScrub x1 x2 x3) := by
  unfold execScrub
  repeat' first | with_reducible assumption | with_reducible apply canonical_next | (refine fun (_ : State) (_ : State.Canonical _) => ?_) | (extract_lets +onlyGivenNames s; refine canonical_cut (s := s) ?_ (fun _ => ?_); rotate_left; clear_value s; rotate_left; subst s) | (extract_lets +onlyGivenNames s; refine mem_let s ?_; subst s) | (extract_lets +onlyGivenNames s; refine boot_let s ?_; subst s) | (extract_lets +onlyGivenNames s; clear_value s) | split | extract_lets | with_reducible apply State.raise_canonical | with_reducible apply State.poisonWord_canonical | with_reducible apply State.memErr_canonical | with_reducible apply State.eccCorrected_canonical | with_reducible apply State.countUncorr_canonical | with_reducible apply State.advanceScrub_canonical | refine State.canonical_mk ?_ rfl rfl

theorem execDdrScrub_canonical {x1} {x2} {x3 : State} (h3 : x3.Canonical) :
    OutCanonical (execDdrScrub x1 x2 x3) := by
  unfold execDdrScrub
  repeat' first | with_reducible assumption | with_reducible apply canonical_next | (refine fun (_ : State) (_ : State.Canonical _) => ?_) | (extract_lets +onlyGivenNames s; refine canonical_cut (s := s) ?_ (fun _ => ?_); rotate_left; clear_value s; rotate_left; subst s) | (extract_lets +onlyGivenNames s; refine mem_let s ?_; subst s) | (extract_lets +onlyGivenNames s; refine boot_let s ?_; subst s) | (extract_lets +onlyGivenNames s; clear_value s) | split | extract_lets | with_reducible apply State.eccCorrected_canonical | with_reducible apply State.eccUncorr_canonical | refine State.canonical_mk ?_ rfl rfl

theorem execAlertN_canonical {x1} {x2} {x3} {x4 : State} (h4 : x4.Canonical) :
    OutCanonical (execAlertN x1 x2 x3 x4) := by
  unfold execAlertN
  repeat' first | with_reducible assumption | with_reducible apply canonical_next | (refine fun (_ : State) (_ : State.Canonical _) => ?_) | (extract_lets +onlyGivenNames s; refine canonical_cut (s := s) ?_ (fun _ => ?_); rotate_left; clear_value s; rotate_left; subst s) | (extract_lets +onlyGivenNames s; refine mem_let s ?_; subst s) | (extract_lets +onlyGivenNames s; refine boot_let s ?_; subst s) | (extract_lets +onlyGivenNames s; clear_value s) | split | extract_lets | with_reducible apply State.put_canonical | with_reducible apply State.raise_canonical | with_reducible apply State.satInc_canonical | with_reducible apply State.poisonWord_canonical | with_reducible apply State.log_canonical | with_reducible apply State.detect_canonical | with_reducible apply State.memErr_canonical | refine State.canonical_mk ?_ rfl rfl

end Sys2Proof.Machine
end

