-- ==== Sys2Proof/Laws/CanonicalLayout.lean ====
section
/-! SUPPORT. The canonical form is kept by every operation of Machine/Layout.lean. -/

namespace Sys2Proof.Machine

theorem State.writePieces_canonical {x1 : State} {x2} {x3} (h1 : x1.Canonical) :
    (State.writePieces x1 x2 x3).Canonical := by
  revert h1
  fun_induction State.writePieces x1 x2 x3 <;> intro h1
  all_goals repeat' first | with_reducible assumption | (refine (by with_reducible assumption : State.Canonical _ → State.Canonical _) ?_) | (refine fun (_ : State) (_ : State.Canonical _) => ?_) | (extract_lets +onlyGivenNames s; refine canonical_cut (s := s) ?_ (fun _ => ?_); rotate_left; clear_value s; rotate_left; subst s) | (extract_lets +onlyGivenNames s; refine mem_let s ?_; subst s) | (extract_lets +onlyGivenNames s; refine boot_let s ?_; subst s) | (extract_lets +onlyGivenNames s; clear_value s) | split | extract_lets | with_reducible apply State.writeBytes_canonical | refine State.canonical_mk ?_ rfl rfl

theorem State.ctxWrite_canonical {x1 : State} {x2} {x3} {x4} (h1 : x1.Canonical) :
    ExCanonical (State.ctxWrite x1 x2 x3 x4) := by
  unfold State.ctxWrite
  repeat' first | with_reducible assumption | with_reducible exact canonical_error | with_reducible apply canonical_ok | (refine fun (_ : State) (_ : State.Canonical _) => ?_) | (extract_lets +onlyGivenNames s; refine canonical_cut (s := s) ?_ (fun _ => ?_); rotate_left; clear_value s; rotate_left; subst s) | (extract_lets +onlyGivenNames s; refine mem_let s ?_; subst s) | (extract_lets +onlyGivenNames s; refine boot_let s ?_; subst s) | (extract_lets +onlyGivenNames s; clear_value s) | split | extract_lets | with_reducible apply State.writePieces_canonical | refine State.canonical_mk ?_ rfl rfl

theorem layout_mk_canonical {s : State} {c b p k n l} (h : s.Canonical) : (LayOut.mk s c b p k n l).s.Canonical := h

theorem State.poisonPieces_canonical {x1 : State} {x2} (h1 : x1.Canonical) : (State.poisonPieces x1 x2).Canonical :=
  foldl_canonical (fun _ _ h => foldl_canonical (fun _ _ h => State.poisonWord_canonical h) h) h1

theorem State.layFail_canonical {x1 : State} {x2} {x3} {x4} {x5} (h1 : x1.Canonical) :
    (State.layFail x1 x2 x3 x4 x5).Canonical := by
  unfold State.layFail
  repeat' first | with_reducible assumption | (refine fun (_ : State) (_ : State.Canonical _) => ?_) | (extract_lets +onlyGivenNames s; refine canonical_cut (s := s) ?_ (fun _ => ?_); rotate_left; clear_value s; rotate_left; subst s) | (extract_lets +onlyGivenNames s; refine mem_let s ?_; subst s) | (extract_lets +onlyGivenNames s; refine boot_let s ?_; subst s) | (extract_lets +onlyGivenNames s; clear_value s) | split | extract_lets | with_reducible apply State.put_canonical | with_reducible apply State.raise_canonical | with_reducible apply State.satInc_canonical | with_reducible apply State.log_canonical | with_reducible apply State.detect_canonical | refine State.canonical_mk ?_ rfl rfl

theorem layReadAt_canonical {x1} {x2} {x3} {x4} {x5} (h4 : x4.s.Canonical) :
    (layReadAt x1 x2 x3 x4 x5).s.Canonical := by
  unfold layReadAt
  split
  · exact h4
  extract_lets pad
  have hpad : ∀ y : LayRun, y.s.Canonical → (pad y).s.Canonical := by
    intro y h
    simp only [pad]
    split <;> exact h
  split
  · exact hpad _ h4
  split
  · exact h4
  · exact hpad _ h4
  extract_lets a
  split
  · exact h4
  · show State.Canonical (if _ then _ else _)
    split
    · exact h4
    · exact foldl_canonical (fun _ _ h => State.reportBad_canonical (State.count_canonical h)) h4

theorem State.mark_canonical {x1 : State} {x2} (h1 : x1.Canonical) :
    (State.mark x1 x2).Canonical := by
  unfold State.mark
  repeat' first | with_reducible assumption | (refine fun (_ : State) (_ : State.Canonical _) => ?_) | (extract_lets +onlyGivenNames s; refine canonical_cut (s := s) ?_ (fun _ => ?_); rotate_left; clear_value s; rotate_left; subst s) | (extract_lets +onlyGivenNames s; refine mem_let s ?_; subst s) | (extract_lets +onlyGivenNames s; refine boot_let s ?_; subst s) | (extract_lets +onlyGivenNames s; clear_value s) | split | extract_lets | with_reducible apply State.writeBytes_canonical | refine State.canonical_mk ?_ rfl rfl

theorem LayRun.store_canonical {x1} {x2} {x3} {x4} {x5} {x6} {x7} {x8} (h1 : x1.s.Canonical) :
    (LayRun.store x1 x2 x3 x4 x5 x6 x7 x8).s.Canonical := by
  unfold LayRun.store
  have hs := foldl_canonical (l := x3) (g := fun (t : State) (p : Nat × Nat) =>
    t.count 1 (if inNougat p.1 then 1 else 3) 1 (some x2) (some p.1)) (fun _ _ h => State.count_canonical h) h1
  generalize x3.foldl _ x1.s = s at hs ⊢
  extract_lets s1 adds c s2 s3 s4
  have h2 : State.Canonical s2 := State.writePieces_canonical hs
  have h3 : State.Canonical s3 := by
    subst s3
    split
    · exact State.poisonPieces_canonical h2
    · exact h2
  split
  · show State.Canonical (List.foldl _ _ _)
    exact foldl_canonical (fun _ _ h => State.reportBad_canonical h) hs
  show State.Canonical s4
  subst s4
  split
  · exact State.mark_canonical h3
  · exact h3

theorem layWriteAt_canonical {x1} {x2} {x3} {x4} {x5} {x6} (h5 : x5.s.Canonical) :
    (layWriteAt x1 x2 x3 x4 x5 x6).s.Canonical := by
  unfold layWriteAt
  repeat' first
    | with_reducible assumption
    | with_reducible exact LayRun.store_canonical h5
    | split
    | extract_lets
    | exact h5

theorem LayRun.close_canonical {x1} {x2} {x3} {x4} (h1 : x1.s.Canonical) :
    (LayRun.close x1 x2 x3 x4).s.Canonical := by
  unfold LayRun.close
  split
  · exact State.layFail_canonical h1
  · show State.Canonical (if _ then _ else _)
    split
    · exact State.modInc_canonical h1
    · exact h1

theorem foldl_run_canonical {α : Type} {x : LayRun} {l : List α} {g : LayRun → α → LayRun}
    (hg : ∀ (t : LayRun) (a : α), t.s.Canonical → (g t a).s.Canonical) (h : x.s.Canonical) : (l.foldl g x).s.Canonical := by
  induction l generalizing x with
  | nil => exact h
  | cons a r ih => exact ih (hg x a h)

theorem State.layReadDesc_canonical {x1 : State} {x2} {x3} {x4} {x5} {x6} (h1 : x1.Canonical) :
    (State.layReadDesc x1 x2 x3 x4 x5 x6).s.Canonical := by
  unfold State.layReadDesc
  split
  · exact layout_mk_canonical (State.layFail_canonical h1)
  · refine LayRun.close_canonical (foldl_run_canonical (fun _ _ h => layReadAt_canonical h) ?_)
    exact h1

theorem State.layRead_canonical {x1 : State} {x2} {x3} {x4} {x5} {x6} (h1 : x1.Canonical) :
    (State.layRead x1 x2 x3 x4 x5 x6).s.Canonical := by
  unfold State.layRead
  exact State.layReadDesc_canonical h1

theorem State.layWriteDesc_canonical {x1 : State} {x2} {x3} {x4} {x5} {x6} {x7} {x8} {x9} (h1 : x1.Canonical) :
    (State.layWriteDesc x1 x2 x3 x4 x5 x6 x7 x8 x9).s.Canonical := by
  unfold State.layWriteDesc
  split
  · exact layout_mk_canonical (State.layFail_canonical h1)
  · refine LayRun.close_canonical (foldl_run_canonical (fun _ _ h => layWriteAt_canonical h) ?_)
    exact h1

theorem State.layWrite_canonical {x1 : State} {x2} {x3} {x4} {x5} {x6} {x7} {x8} {x9} (h1 : x1.Canonical) :
    (State.layWrite x1 x2 x3 x4 x5 x6 x7 x8 x9).s.Canonical := by
  unfold State.layWrite
  exact State.layWriteDesc_canonical h1

theorem LayOut.thenWrite_canonical {x1} {x2} {x3} (h1 : x1.s.Canonical) :
    (LayOut.thenWrite x1 x2 x3).s.Canonical := by
  unfold LayOut.thenWrite
  split
  · exact h1
  · exact State.layWrite_canonical h1

theorem State.layCopy_canonical {x1 : State} {x2} {x3} {x4} (h1 : x1.Canonical) :
    (State.layCopy x1 x2 x3 x4).s.Canonical := by
  rw [State.layCopy]
  generalize x1.readBytes x3 128 = r
  generalize x1.readBytes (x3 + 128) 128 = w
  split
  · exact layout_mk_canonical (State.layFail_canonical h1)
  · exact layout_mk_canonical (State.layFail_canonical h1)
  split
  · exact layout_mk_canonical (State.layFail_canonical h1)
  · exact LayOut.thenWrite_canonical (State.layRead_canonical h1)

end Sys2Proof.Machine
end

