-- ==== Sys2Proof/Laws/CanonicalQueue.lean ====
section
/-! SUPPORT. The canonical form is kept by every operation of Machine/Queue.lean. -/

namespace Sys2Proof.Machine

theorem State.setQueue_canonical {x1 : State} {x2} {x3} (h1 : x1.Canonical) :
    (State.setQueue x1 x2 x3).Canonical := by
  exact ⟨h1.regs, sparseWf_sparseSet h1.queues, h1.mem, h1.flash⟩

theorem State.storeQueue_canonical {x1 : State} {x2} {x3} (h1 : x1.Canonical) :
    (State.storeQueue x1 x2 x3).Canonical := by
  unfold State.storeQueue
  repeat' first | with_reducible assumption | (refine fun (_ : State) (_ : State.Canonical _) => ?_) | (extract_lets +onlyGivenNames s; refine canonical_cut (s := s) ?_ (fun _ => ?_); rotate_left; clear_value s; rotate_left; subst s) | (extract_lets +onlyGivenNames s; refine mem_let s ?_; subst s) | (extract_lets +onlyGivenNames s; refine boot_let s ?_; subst s) | (extract_lets +onlyGivenNames s; clear_value s) | split | extract_lets | with_reducible apply State.writeBytes_canonical | with_reducible apply State.setQueue_canonical | (with_reducible apply foldl_canonical; intro _ _ _) | refine State.canonical_mk ?_ rfl rfl

theorem State.startTimer_canonical {x1 : State} {x2} (h1 : x1.Canonical) :
    (State.startTimer x1 x2).Canonical := by
  unfold State.startTimer
  repeat' first | with_reducible assumption | (refine fun (_ : State) (_ : State.Canonical _) => ?_) | (extract_lets +onlyGivenNames s; refine canonical_cut (s := s) ?_ (fun _ => ?_); rotate_left; clear_value s; rotate_left; subst s) | (extract_lets +onlyGivenNames s; refine mem_let s ?_; subst s) | (extract_lets +onlyGivenNames s; refine boot_let s ?_; subst s) | (extract_lets +onlyGivenNames s; clear_value s) | split | extract_lets | with_reducible apply State.setQueue_canonical | refine State.canonical_mk ?_ rfl rfl

theorem State.sqErr_canonical {x1 : State} {x2} {x3} (h1 : x1.Canonical) :
    (State.sqErr x1 x2 x3).Canonical := by
  unfold State.sqErr
  repeat' first | with_reducible assumption | (refine fun (_ : State) (_ : State.Canonical _) => ?_) | (extract_lets +onlyGivenNames s; refine canonical_cut (s := s) ?_ (fun _ => ?_); rotate_left; clear_value s; rotate_left; subst s) | (extract_lets +onlyGivenNames s; refine mem_let s ?_; subst s) | (extract_lets +onlyGivenNames s; refine boot_let s ?_; subst s) | (extract_lets +onlyGivenNames s; clear_value s) | split | extract_lets | with_reducible apply State.put_canonical | with_reducible apply State.raise_canonical | refine State.canonical_mk ?_ rfl rfl

theorem State.dropItem_canonical {x1 : State} {x2} {x3} (h1 : x1.Canonical) :
    (State.dropItem x1 x2 x3).Canonical := by
  unfold State.dropItem
  repeat' first | with_reducible assumption | (refine fun (_ : State) (_ : State.Canonical _) => ?_) | (extract_lets +onlyGivenNames s; refine canonical_cut (s := s) ?_ (fun _ => ?_); rotate_left; clear_value s; rotate_left; subst s) | (extract_lets +onlyGivenNames s; refine mem_let s ?_; subst s) | (extract_lets +onlyGivenNames s; refine boot_let s ?_; subst s) | (extract_lets +onlyGivenNames s; clear_value s) | split | extract_lets | with_reducible apply State.satInc_canonical | with_reducible apply State.count_canonical | with_reducible apply State.setQueue_canonical | with_reducible apply State.storeQueue_canonical | with_reducible apply State.sqErr_canonical | refine State.canonical_mk ?_ rfl rfl

theorem State.storePending_canonical {x1 : State} {x2} (h1 : x1.Canonical) :
    (State.storePending x1 x2).Canonical := by
  unfold State.storePending
  repeat' first | with_reducible assumption | (refine fun (_ : State) (_ : State.Canonical _) => ?_) | (extract_lets +onlyGivenNames s; refine canonical_cut (s := s) ?_ (fun _ => ?_); rotate_left; clear_value s; rotate_left; subst s) | (extract_lets +onlyGivenNames s; refine mem_let s ?_; subst s) | (extract_lets +onlyGivenNames s; refine boot_let s ?_; subst s) | (extract_lets +onlyGivenNames s; clear_value s) | split | extract_lets | with_reducible apply State.storeQueue_canonical | refine State.canonical_mk ?_ rfl rfl

theorem State.queueWrite_canonical {x1 : State} {x2} {x3} (h1 : x1.Canonical) :
    (State.queueWrite x1 x2 x3).Canonical := by
  unfold State.queueWrite
  repeat' first | with_reducible assumption | (refine fun (_ : State) (_ : State.Canonical _) => ?_) | (extract_lets +onlyGivenNames s; refine canonical_cut (s := s) ?_ (fun _ => ?_); rotate_left; clear_value s; rotate_left; subst s) | (extract_lets +onlyGivenNames s; refine mem_let s ?_; subst s) | (extract_lets +onlyGivenNames s; refine boot_let s ?_; subst s) | (extract_lets +onlyGivenNames s; clear_value s) | split | extract_lets | with_reducible apply State.modInc_canonical | with_reducible apply State.count_canonical | with_reducible apply State.storeQueue_canonical | with_reducible apply State.startTimer_canonical | with_reducible apply State.dropItem_canonical | with_reducible apply State.storePending_canonical | refine State.canonical_mk ?_ rfl rfl

theorem State.queueFlush_canonical {x1 : State} {x2} (h1 : x1.Canonical) :
    (State.queueFlush x1 x2).Canonical := by
  unfold State.queueFlush
  repeat' first | with_reducible assumption | (refine fun (_ : State) (_ : State.Canonical _) => ?_) | (extract_lets +onlyGivenNames s; refine canonical_cut (s := s) ?_ (fun _ => ?_); rotate_left; clear_value s; rotate_left; subst s) | (extract_lets +onlyGivenNames s; refine mem_let s ?_; subst s) | (extract_lets +onlyGivenNames s; refine boot_let s ?_; subst s) | (extract_lets +onlyGivenNames s; clear_value s) | split | extract_lets | with_reducible apply State.storeQueue_canonical | refine State.canonical_mk ?_ rfl rfl

theorem State.markErr_canonical {x1 : State} {x2} {x3} (h1 : x1.Canonical) :
    (State.markErr x1 x2 x3).Canonical := by
  unfold State.markErr
  repeat' first | with_reducible assumption | (refine fun (_ : State) (_ : State.Canonical _) => ?_) | (extract_lets +onlyGivenNames s; refine canonical_cut (s := s) ?_ (fun _ => ?_); rotate_left; clear_value s; rotate_left; subst s) | (extract_lets +onlyGivenNames s; refine mem_let s ?_; subst s) | (extract_lets +onlyGivenNames s; refine boot_let s ?_; subst s) | (extract_lets +onlyGivenNames s; clear_value s) | split | extract_lets | with_reducible apply State.log_canonical | with_reducible apply State.sqErr_canonical | refine State.canonical_mk ?_ rfl rfl

theorem State.queueMark_canonical {x1 : State} {x2} {x3} (h1 : x1.Canonical) :
    (State.queueMark x1 x2 x3).Canonical := by
  unfold State.queueMark
  repeat' first | with_reducible assumption | (refine fun (_ : State) (_ : State.Canonical _) => ?_) | (extract_lets +onlyGivenNames s; refine canonical_cut (s := s) ?_ (fun _ => ?_); rotate_left; clear_value s; rotate_left; subst s) | (extract_lets +onlyGivenNames s; refine mem_let s ?_; subst s) | (extract_lets +onlyGivenNames s; refine boot_let s ?_; subst s) | (extract_lets +onlyGivenNames s; clear_value s) | split | extract_lets | with_reducible apply State.setQueue_canonical | with_reducible apply State.markErr_canonical | refine State.canonical_mk ?_ rfl rfl

theorem State.queueRewind_canonical {x1 : State} {x2} {x3} (h1 : x1.Canonical) :
    (State.queueRewind x1 x2 x3).Canonical := by
  unfold State.queueRewind
  repeat' first | with_reducible assumption | (refine fun (_ : State) (_ : State.Canonical _) => ?_) | (extract_lets +onlyGivenNames s; refine canonical_cut (s := s) ?_ (fun _ => ?_); rotate_left; clear_value s; rotate_left; subst s) | (extract_lets +onlyGivenNames s; refine mem_let s ?_; subst s) | (extract_lets +onlyGivenNames s; refine boot_let s ?_; subst s) | (extract_lets +onlyGivenNames s; clear_value s) | split | extract_lets | with_reducible apply State.count_canonical | with_reducible apply State.setQueue_canonical | with_reducible apply State.markErr_canonical | refine State.canonical_mk ?_ rfl rfl

theorem State.queueRelease_canonical {x1 : State} {x2} {x3} (h1 : x1.Canonical) :
    (State.queueRelease x1 x2 x3).Canonical := by
  unfold State.queueRelease
  repeat' first | with_reducible assumption | (refine fun (_ : State) (_ : State.Canonical _) => ?_) | (extract_lets +onlyGivenNames s; refine canonical_cut (s := s) ?_ (fun _ => ?_); rotate_left; clear_value s; rotate_left; subst s) | (extract_lets +onlyGivenNames s; refine mem_let s ?_; subst s) | (extract_lets +onlyGivenNames s; refine boot_let s ?_; subst s) | (extract_lets +onlyGivenNames s; clear_value s) | split | extract_lets | with_reducible apply State.storeQueue_canonical | with_reducible apply State.markErr_canonical | refine State.canonical_mk ?_ rfl rfl

theorem State.deliverWord_canonical {x1 : State} {x2} {x3} {x4} (h1 : x1.Canonical) :
    (State.deliverWord x1 x2 x3 x4).Canonical := by
  unfold State.deliverWord
  repeat' first | with_reducible assumption | (refine fun (_ : State) (_ : State.Canonical _) => ?_) | (extract_lets +onlyGivenNames s; refine canonical_cut (s := s) ?_ (fun _ => ?_); rotate_left; clear_value s; rotate_left; subst s) | (extract_lets +onlyGivenNames s; refine mem_let s ?_; subst s) | (extract_lets +onlyGivenNames s; refine boot_let s ?_; subst s) | (extract_lets +onlyGivenNames s; clear_value s) | split | extract_lets | with_reducible apply State.put_canonical | with_reducible apply State.raise_canonical | with_reducible apply State.satInc_canonical | with_reducible apply State.log_canonical | with_reducible apply State.detect_canonical | refine State.canonical_mk ?_ rfl rfl

theorem State.queueRead_canonical {x1 : State} {x2} {x3} (h1 : x1.Canonical) :
    (State.queueRead x1 x2 x3).Canonical := by
  unfold State.queueRead
  repeat' first | with_reducible assumption | (refine fun (_ : State) (_ : State.Canonical _) => ?_) | (extract_lets +onlyGivenNames s; refine canonical_cut (s := s) ?_ (fun _ => ?_); rotate_left; clear_value s; rotate_left; subst s) | (extract_lets +onlyGivenNames s; refine mem_let s ?_; subst s) | (extract_lets +onlyGivenNames s; refine boot_let s ?_; subst s) | (extract_lets +onlyGivenNames s; clear_value s) | split | extract_lets | with_reducible apply State.emit_canonical | with_reducible apply State.count_canonical | with_reducible apply State.storeQueue_canonical | with_reducible apply State.startTimer_canonical | with_reducible apply State.deliverWord_canonical | refine State.canonical_mk ?_ rfl rfl

theorem State.sendQueueNotice_canonical {x1 : State} {x2} (h1 : x1.Canonical) :
    (State.sendQueueNotice x1 x2).Canonical := by
  unfold State.sendQueueNotice
  repeat' first | with_reducible assumption | (refine fun (_ : State) (_ : State.Canonical _) => ?_) | (extract_lets +onlyGivenNames s; refine canonical_cut (s := s) ?_ (fun _ => ?_); rotate_left; clear_value s; rotate_left; subst s) | (extract_lets +onlyGivenNames s; refine mem_let s ?_; subst s) | (extract_lets +onlyGivenNames s; refine boot_let s ?_; subst s) | (extract_lets +onlyGivenNames s; clear_value s) | split | extract_lets | with_reducible apply State.emit_canonical | refine State.canonical_mk ?_ rfl rfl

theorem State.queueTimeout_canonical {x1 : State} {x2} (h1 : x1.Canonical) :
    (State.queueTimeout x1 x2).Canonical := by
  unfold State.queueTimeout
  repeat' first | with_reducible assumption | (refine fun (_ : State) (_ : State.Canonical _) => ?_) | (extract_lets +onlyGivenNames s; refine canonical_cut (s := s) ?_ (fun _ => ?_); rotate_left; clear_value s; rotate_left; subst s) | (extract_lets +onlyGivenNames s; refine mem_let s ?_; subst s) | (extract_lets +onlyGivenNames s; refine boot_let s ?_; subst s) | (extract_lets +onlyGivenNames s; clear_value s) | split | extract_lets | with_reducible apply State.satInc_canonical | with_reducible apply State.setQueue_canonical | with_reducible apply State.storeQueue_canonical | with_reducible apply State.sendQueueNotice_canonical | refine State.canonical_mk ?_ rfl rfl

theorem State.queueReset_canonical {x1 : State} {x2} (h1 : x1.Canonical) :
    (State.queueReset x1 x2).Canonical := by
  unfold State.queueReset
  repeat' first | with_reducible assumption | (refine fun (_ : State) (_ : State.Canonical _) => ?_) | (extract_lets +onlyGivenNames s; refine canonical_cut (s := s) ?_ (fun _ => ?_); rotate_left; clear_value s; rotate_left; subst s) | (extract_lets +onlyGivenNames s; refine mem_let s ?_; subst s) | (extract_lets +onlyGivenNames s; refine boot_let s ?_; subst s) | (extract_lets +onlyGivenNames s; clear_value s) | split | extract_lets | with_reducible apply State.satInc_canonical | with_reducible apply State.log_canonical | with_reducible apply State.detect_canonical | with_reducible apply State.setQueue_canonical | with_reducible apply State.sqErr_canonical | refine State.canonical_mk ?_ rfl rfl

theorem State.emptyQueues_canonical {x1 : State} (h1 : x1.Canonical) :
    (State.emptyQueues x1).Canonical := by
  exact ⟨h1.regs, rfl, h1.mem, h1.flash⟩

theorem State.deliverWords_canonical {x1 : State} {x2} {x3} {x4} (h1 : x1.Canonical) :
    (State.deliverWords x1 x2 x3 x4).Canonical := by
  revert h1
  fun_induction State.deliverWords x1 x2 x3 x4 <;> intro h1
  all_goals repeat' first | with_reducible assumption | (refine (by with_reducible assumption : State.Canonical _ → State.Canonical _) ?_) | (refine fun (_ : State) (_ : State.Canonical _) => ?_) | (extract_lets +onlyGivenNames s; refine canonical_cut (s := s) ?_ (fun _ => ?_); rotate_left; clear_value s; rotate_left; subst s) | (extract_lets +onlyGivenNames s; refine mem_let s ?_; subst s) | (extract_lets +onlyGivenNames s; refine boot_let s ?_; subst s) | (extract_lets +onlyGivenNames s; clear_value s) | split | extract_lets | with_reducible apply State.deliverWord_canonical | refine State.canonical_mk ?_ rfl rfl

theorem State.passBytes_canonical {x1 : State} {x2} {x3} {x4} {x5} (h1 : x1.Canonical) :
    (State.passBytes x1 x2 x3 x4 x5).Canonical := by
  unfold State.passBytes
  repeat' first | with_reducible assumption | (refine fun (_ : State) (_ : State.Canonical _) => ?_) | (extract_lets +onlyGivenNames s; refine canonical_cut (s := s) ?_ (fun _ => ?_); rotate_left; clear_value s; rotate_left; subst s) | (extract_lets +onlyGivenNames s; refine mem_let s ?_; subst s) | (extract_lets +onlyGivenNames s; refine boot_let s ?_; subst s) | (extract_lets +onlyGivenNames s; clear_value s) | split | extract_lets | with_reducible apply State.storeQueue_canonical | with_reducible apply State.startTimer_canonical | with_reducible apply State.deliverWords_canonical | refine State.canonical_mk ?_ rfl rfl

theorem State.takeItem_canonical {x1 : State} {x2} {x3} (h1 : x1.Canonical) :
    (State.takeItem x1 x2 x3).1.Canonical := by
  rw [State.takeItem]
  repeat' first | with_reducible assumption | (refine fun (_ : State) (_ : State.Canonical _) => ?_) | (extract_lets +onlyGivenNames s; refine canonical_cut (s := s) ?_ (fun _ => ?_); rotate_left; clear_value s; rotate_left; subst s) | (extract_lets +onlyGivenNames s; refine mem_let s ?_; subst s) | (extract_lets +onlyGivenNames s; refine boot_let s ?_; subst s) | (extract_lets +onlyGivenNames s; clear_value s) | split | extract_lets | with_reducible apply State.passBytes_canonical | refine State.canonical_mk ?_ rfl rfl

theorem State.takeBytes_canonical {x1 : State} {x2} {x3} {x4} (h1 : x1.Canonical) :
    (State.takeBytes x1 x2 x3 x4).1.Canonical := by
  rw [State.takeBytes]
  repeat' first | with_reducible assumption | (refine fun (_ : State) (_ : State.Canonical _) => ?_) | (extract_lets +onlyGivenNames s; refine canonical_cut (s := s) ?_ (fun _ => ?_); rotate_left; clear_value s; rotate_left; subst s) | (extract_lets +onlyGivenNames s; refine mem_let s ?_; subst s) | (extract_lets +onlyGivenNames s; refine boot_let s ?_; subst s) | (extract_lets +onlyGivenNames s; clear_value s) | split | extract_lets | with_reducible apply State.passBytes_canonical | refine State.canonical_mk ?_ rfl rfl

end Sys2Proof.Machine
end

