-- ==== Sys2Proof/Laws/CanonicalResults.lean ====
section
/-! SUPPORT. The canonical form is kept by every operation of Machine/Results.lean. -/

namespace Sys2Proof.Machine

theorem State.syncCommits_canonical {x1 : State} (h1 : x1.Canonical) :
    (State.syncCommits x1).Canonical := by
  unfold State.syncCommits
  repeat' first | with_reducible assumption | (refine fun (_ : State) (_ : State.Canonical _) => ?_) | (extract_lets +onlyGivenNames s; refine canonical_cut (s := s) ?_ (fun _ => ?_); rotate_left; clear_value s; rotate_left; subst s) | (extract_lets +onlyGivenNames s; refine mem_let s ?_; subst s) | (extract_lets +onlyGivenNames s; refine boot_let s ?_; subst s) | (extract_lets +onlyGivenNames s; clear_value s) | split | extract_lets | with_reducible apply State.put_canonical | refine State.canonical_mk ?_ rfl rfl

theorem State.remember_canonical {x1 : State} {x2} {x3} (h1 : x1.Canonical) :
    (State.remember x1 x2 x3).Canonical := by
  unfold State.remember
  repeat' first | with_reducible assumption | (refine fun (_ : State) (_ : State.Canonical _) => ?_) | (extract_lets +onlyGivenNames s; refine canonical_cut (s := s) ?_ (fun _ => ?_); rotate_left; clear_value s; rotate_left; subst s) | (extract_lets +onlyGivenNames s; refine mem_let s ?_; subst s) | (extract_lets +onlyGivenNames s; refine boot_let s ?_; subst s) | (extract_lets +onlyGivenNames s; clear_value s) | split | extract_lets | refine State.canonical_mk ?_ rfl rfl

theorem State.sendResult_canonical {x1 : State} {x2} {x3} {x4} (h1 : x1.Canonical) :
    (State.sendResult x1 x2 x3 x4).Canonical := by
  unfold State.sendResult
  repeat' first | with_reducible assumption | (refine fun (_ : State) (_ : State.Canonical _) => ?_) | (extract_lets +onlyGivenNames s; refine canonical_cut (s := s) ?_ (fun _ => ?_); rotate_left; clear_value s; rotate_left; subst s) | (extract_lets +onlyGivenNames s; refine mem_let s ?_; subst s) | (extract_lets +onlyGivenNames s; refine boot_let s ?_; subst s) | (extract_lets +onlyGivenNames s; clear_value s) | split | extract_lets | with_reducible apply State.sendFrame_canonical | with_reducible apply State.reply_canonical | with_reducible apply State.queueWrite_canonical | with_reducible apply State.remember_canonical | refine State.canonical_mk ?_ rfl rfl

theorem State.cancelFrom_canonical {x1 : State} {x2} (h1 : x1.Canonical) :
    (State.cancelFrom x1 x2).Canonical := by
  unfold State.cancelFrom
  repeat' first | with_reducible assumption | (refine fun (_ : State) (_ : State.Canonical _) => ?_) | (extract_lets +onlyGivenNames s; refine canonical_cut (s := s) ?_ (fun _ => ?_); rotate_left; clear_value s; rotate_left; subst s) | (extract_lets +onlyGivenNames s; refine mem_let s ?_; subst s) | (extract_lets +onlyGivenNames s; refine boot_let s ?_; subst s) | (extract_lets +onlyGivenNames s; clear_value s) | split | extract_lets | with_reducible apply State.syncCommits_canonical | with_reducible apply State.sendResult_canonical | (with_reducible apply foldl_canonical; intro _ _ _) | refine State.canonical_mk ?_ rfl rfl

theorem State.abortOpen_canonical {x1 : State} (h1 : x1.Canonical) :
    (State.abortOpen x1).Canonical := by
  unfold State.abortOpen
  repeat' first | with_reducible assumption | (refine fun (_ : State) (_ : State.Canonical _) => ?_) | (extract_lets +onlyGivenNames s; refine canonical_cut (s := s) ?_ (fun _ => ?_); rotate_left; clear_value s; rotate_left; subst s) | (extract_lets +onlyGivenNames s; refine mem_let s ?_; subst s) | (extract_lets +onlyGivenNames s; refine boot_let s ?_; subst s) | (extract_lets +onlyGivenNames s; clear_value s) | split | extract_lets | with_reducible apply State.reply_canonical | (with_reducible apply foldl_canonical; intro _ _ _) | refine State.canonical_mk ?_ rfl rfl

theorem State.dozeStart_canonical {x1 : State} (h1 : x1.Canonical) :
    (State.dozeStart x1).Canonical := by
  unfold State.dozeStart
  repeat' first | with_reducible assumption | (refine fun (_ : State) (_ : State.Canonical _) => ?_) | (extract_lets +onlyGivenNames s; refine canonical_cut (s := s) ?_ (fun _ => ?_); rotate_left; clear_value s; rotate_left; subst s) | (extract_lets +onlyGivenNames s; refine mem_let s ?_; subst s) | (extract_lets +onlyGivenNames s; refine boot_let s ?_; subst s) | (extract_lets +onlyGivenNames s; clear_value s) | split | extract_lets | with_reducible apply State.raise_canonical | with_reducible apply State.emit_canonical | with_reducible apply State.cancelFrom_canonical | with_reducible apply State.abortOpen_canonical | (with_reducible apply foldl_canonical; intro _ _ _) | refine State.canonical_mk ?_ rfl rfl

theorem State.standbyEntry_canonical {x1 : State} (h1 : x1.Canonical) :
    (State.standbyEntry x1).Canonical := by
  unfold State.standbyEntry
  repeat' first | with_reducible assumption | (refine fun (_ : State) (_ : State.Canonical _) => ?_) | (extract_lets +onlyGivenNames s; refine canonical_cut (s := s) ?_ (fun _ => ?_); rotate_left; clear_value s; rotate_left; subst s) | (extract_lets +onlyGivenNames s; refine mem_let s ?_; subst s) | (extract_lets +onlyGivenNames s; refine boot_let s ?_; subst s) | (extract_lets +onlyGivenNames s; clear_value s) | split | extract_lets | with_reducible apply State.put_canonical | with_reducible apply State.eventTick_canonical | with_reducible apply State.cancelFrom_canonical | with_reducible apply State.abortOpen_canonical | refine State.canonical_mk ?_ rfl rfl

theorem State.deeper_canonical {x1 : State} {x2} (h1 : x1.Canonical) :
    (State.deeper x1 x2).Canonical := by
  unfold State.deeper
  repeat' first | with_reducible assumption | (refine fun (_ : State) (_ : State.Canonical _) => ?_) | (extract_lets +onlyGivenNames s; refine canonical_cut (s := s) ?_ (fun _ => ?_); rotate_left; clear_value s; rotate_left; subst s) | (extract_lets +onlyGivenNames s; refine mem_let s ?_; subst s) | (extract_lets +onlyGivenNames s; refine boot_let s ?_; subst s) | (extract_lets +onlyGivenNames s; clear_value s) | split | extract_lets | with_reducible apply State.dozeStart_canonical | with_reducible apply State.standbyEntry_canonical | refine State.canonical_mk ?_ rfl rfl

end Sys2Proof.Machine
end

