-- ==== Sys2Proof/Laws/CanonicalFlight.lean ====
section
/-! SUPPORT. The canonical form is kept by every operation of Machine/Flight.lean. -/

namespace Sys2Proof.Machine

theorem State.updInst_canonical {x1 : State} {x2} {x3} (h1 : x1.Canonical) :
    (State.updInst x1 x2 x3).Canonical := by
  unfold State.updInst
  repeat' first | with_reducible assumption | (refine fun (_ : State) (_ : State.Canonical _) => ?_) | (extract_lets +onlyGivenNames s; refine canonical_cut (s := s) ?_ (fun _ => ?_); rotate_left; clear_value s; rotate_left; subst s) | (extract_lets +onlyGivenNames s; refine mem_let s ?_; subst s) | (extract_lets +onlyGivenNames s; refine boot_let s ?_; subst s) | (extract_lets +onlyGivenNames s; clear_value s) | split | extract_lets | refine State.canonical_mk ?_ rfl rfl

theorem State.syncHead_canonical {x1 : State} (h1 : x1.Canonical) :
    (State.syncHead x1).Canonical := by
  unfold State.syncHead
  repeat' first | with_reducible assumption | (refine fun (_ : State) (_ : State.Canonical _) => ?_) | (extract_lets +onlyGivenNames s; refine canonical_cut (s := s) ?_ (fun _ => ?_); rotate_left; clear_value s; rotate_left; subst s) | (extract_lets +onlyGivenNames s; refine mem_let s ?_; subst s) | (extract_lets +onlyGivenNames s; refine boot_let s ?_; subst s) | (extract_lets +onlyGivenNames s; clear_value s) | split | extract_lets | with_reducible apply State.put_canonical | with_reducible apply State.putI_canonical | (with_reducible apply foldl_canonical; intro _ _ _) | refine State.canonical_mk ?_ rfl rfl

theorem State.startBudget_canonical {x1 : State} {x2} {x3} {x4} (h1 : x1.Canonical) :
    (State.startBudget x1 x2 x3 x4).Canonical := by
  unfold State.startBudget
  repeat' first | with_reducible assumption | (refine fun (_ : State) (_ : State.Canonical _) => ?_) | (extract_lets +onlyGivenNames s; refine canonical_cut (s := s) ?_ (fun _ => ?_); rotate_left; clear_value s; rotate_left; subst s) | (extract_lets +onlyGivenNames s; refine mem_let s ?_; subst s) | (extract_lets +onlyGivenNames s; refine boot_let s ?_; subst s) | (extract_lets +onlyGivenNames s; clear_value s) | split | extract_lets | refine State.canonical_mk ?_ rfl rfl

theorem State.endBudget_canonical {x1 : State} {x2} {x3} (h1 : x1.Canonical) :
    (State.endBudget x1 x2 x3).Canonical := by
  unfold State.endBudget
  repeat' first | with_reducible assumption | (refine fun (_ : State) (_ : State.Canonical _) => ?_) | (extract_lets +onlyGivenNames s; refine canonical_cut (s := s) ?_ (fun _ => ?_); rotate_left; clear_value s; rotate_left; subst s) | (extract_lets +onlyGivenNames s; refine mem_let s ?_; subst s) | (extract_lets +onlyGivenNames s; refine boot_let s ?_; subst s) | (extract_lets +onlyGivenNames s; clear_value s) | split | extract_lets | refine State.canonical_mk ?_ rfl rfl

theorem State.startSteps_canonical {x1 : State} (h1 : x1.Canonical) :
    (State.startSteps x1).Canonical := by
  unfold State.startSteps
  repeat' first | with_reducible assumption | (refine fun (_ : State) (_ : State.Canonical _) => ?_) | (extract_lets +onlyGivenNames s; refine canonical_cut (s := s) ?_ (fun _ => ?_); rotate_left; clear_value s; rotate_left; subst s) | (extract_lets +onlyGivenNames s; refine mem_let s ?_; subst s) | (extract_lets +onlyGivenNames s; refine boot_let s ?_; subst s) | (extract_lets +onlyGivenNames s; clear_value s) | split | extract_lets | with_reducible apply State.startBudget_canonical | (with_reducible apply foldl_canonical; intro _ _ _) | refine State.canonical_mk ?_ rfl rfl

theorem State.syncOps_canonical {x1 : State} (h1 : x1.Canonical) :
    (State.syncOps x1).Canonical := by
  unfold State.syncOps
  repeat' first | with_reducible assumption | (refine fun (_ : State) (_ : State.Canonical _) => ?_) | (extract_lets +onlyGivenNames s; refine canonical_cut (s := s) ?_ (fun _ => ?_); rotate_left; clear_value s; rotate_left; subst s) | (extract_lets +onlyGivenNames s; refine mem_let s ?_; subst s) | (extract_lets +onlyGivenNames s; refine boot_let s ?_; subst s) | (extract_lets +onlyGivenNames s; clear_value s) | split | extract_lets | with_reducible apply State.put_canonical | with_reducible apply State.startSteps_canonical | refine State.canonical_mk ?_ rfl rfl

set_option maxRecDepth 4000 in
theorem State.admitWaiting_canonical {x1 : State} (h1 : x1.Canonical) :
    (State.admitWaiting x1).Canonical := by
  unfold State.admitWaiting
  extract_lets +onlyGivenNames r
  have hr : PairGood r := by
    refine foldl_keeps (P := PairGood) ?_ (PairGood.intro (y := (x1, [])) h1)
    intro t k h
    split
    · exact PairGood.intro (pair_canonical (State.canonical_mk h.out rfl rfl))
    · exact PairGood.intro (pair_canonical h.out)
  clear_value r
  exact State.canonical_mk hr.out rfl rfl

end Sys2Proof.Machine
end

