-- ==== Sys2Proof/Laws/CanonicalArray.lean ====
section
/-! SUPPORT. The canonical form is kept by every operation of Machine/Array.lean. -/

namespace Sys2Proof.Machine

theorem State.arrEvent_canonical {x1 : State} {x2} {x3} {x4} (h1 : x1.Canonical) :
    (State.arrEvent x1 x2 x3 x4).Canonical := by
  unfold State.arrEvent
  repeat' first | with_reducible assumption | (refine fun (_ : State) (_ : State.Canonical _) => ?_) | (extract_lets +onlyGivenNames s; refine canonical_cut (s := s) ?_ (fun _ => ?_); rotate_left; clear_value s; rotate_left; subst s) | (extract_lets +onlyGivenNames s; refine mem_let s ?_; subst s) | (extract_lets +onlyGivenNames s; refine boot_let s ?_; subst s) | (extract_lets +onlyGivenNames s; clear_value s) | split | extract_lets | with_reducible apply State.put_canonical | with_reducible apply State.raise_canonical | refine State.canonical_mk ?_ rfl rfl

theorem State.setOps_canonical {x1 : State} {x2} (h1 : x1.Canonical) :
    (State.setOps x1 x2).Canonical := by
  unfold State.setOps
  repeat' first | with_reducible assumption | (refine fun (_ : State) (_ : State.Canonical _) => ?_) | (extract_lets +onlyGivenNames s; refine canonical_cut (s := s) ?_ (fun _ => ?_); rotate_left; clear_value s; rotate_left; subst s) | (extract_lets +onlyGivenNames s; refine mem_let s ?_; subst s) | (extract_lets +onlyGivenNames s; refine boot_let s ?_; subst s) | (extract_lets +onlyGivenNames s; clear_value s) | split | extract_lets | refine State.canonical_mk ?_ rfl rfl

theorem State.updOp_canonical {x1 : State} {x2} (h1 : x1.Canonical) :
    (State.updOp x1 x2).Canonical := by
  unfold State.updOp
  repeat' first | with_reducible assumption | (refine fun (_ : State) (_ : State.Canonical _) => ?_) | (extract_lets +onlyGivenNames s; refine canonical_cut (s := s) ?_ (fun _ => ?_); rotate_left; clear_value s; rotate_left; subst s) | (extract_lets +onlyGivenNames s; refine mem_let s ?_; subst s) | (extract_lets +onlyGivenNames s; refine boot_let s ?_; subst s) | (extract_lets +onlyGivenNames s; clear_value s) | split | extract_lets | with_reducible apply State.setOps_canonical | refine State.canonical_mk ?_ rfl rfl

theorem State.freeSetOf_canonical {x1 : State} {x2} (h1 : x1.Canonical) :
    (State.freeSetOf x1 x2).Canonical := by
  unfold State.freeSetOf
  repeat' first | with_reducible assumption | (refine fun (_ : State) (_ : State.Canonical _) => ?_) | (extract_lets +onlyGivenNames s; refine canonical_cut (s := s) ?_ (fun _ => ?_); rotate_left; clear_value s; rotate_left; subst s) | (extract_lets +onlyGivenNames s; refine mem_let s ?_; subst s) | (extract_lets +onlyGivenNames s; refine boot_let s ?_; subst s) | (extract_lets +onlyGivenNames s; clear_value s) | split | extract_lets | refine State.canonical_mk ?_ rfl rfl

theorem State.keepBufs_canonical {x1 : State} {x2} (h1 : x1.Canonical) :
    (State.keepBufs x1 x2).Canonical := by
  unfold State.keepBufs
  repeat' first | with_reducible assumption | (refine fun (_ : State) (_ : State.Canonical _) => ?_) | (extract_lets +onlyGivenNames s; refine canonical_cut (s := s) ?_ (fun _ => ?_); rotate_left; clear_value s; rotate_left; subst s) | (extract_lets +onlyGivenNames s; refine mem_let s ?_; subst s) | (extract_lets +onlyGivenNames s; refine boot_let s ?_; subst s) | (extract_lets +onlyGivenNames s; clear_value s) | split | extract_lets | refine State.canonical_mk ?_ rfl rfl

theorem State.arrError_canonical {x1 : State} {x2} {x3} (h1 : x1.Canonical) :
    (State.arrError x1 x2 x3).Canonical := by
  unfold State.arrError
  repeat' first | with_reducible assumption | (refine fun (_ : State) (_ : State.Canonical _) => ?_) | (extract_lets +onlyGivenNames s; refine canonical_cut (s := s) ?_ (fun _ => ?_); rotate_left; clear_value s; rotate_left; subst s) | (extract_lets +onlyGivenNames s; refine mem_let s ?_; subst s) | (extract_lets +onlyGivenNames s; refine boot_let s ?_; subst s) | (extract_lets +onlyGivenNames s; clear_value s) | split | extract_lets | with_reducible apply State.updOp_canonical | with_reducible apply State.freeSetOf_canonical | with_reducible apply State.keepBufs_canonical | refine State.canonical_mk ?_ rfl rfl

theorem State.arrCorrected_canonical {x1 : State} {x2} (h1 : x1.Canonical) :
    (State.arrCorrected x1 x2).Canonical := by
  unfold State.arrCorrected
  repeat' first | with_reducible assumption | (refine fun (_ : State) (_ : State.Canonical _) => ?_) | (extract_lets +onlyGivenNames s; refine canonical_cut (s := s) ?_ (fun _ => ?_); rotate_left; clear_value s; rotate_left; subst s) | (extract_lets +onlyGivenNames s; refine mem_let s ?_; subst s) | (extract_lets +onlyGivenNames s; refine boot_let s ?_; subst s) | (extract_lets +onlyGivenNames s; clear_value s) | split | extract_lets | with_reducible apply State.satInc_canonical | with_reducible apply State.count_canonical | with_reducible apply State.life_canonical | with_reducible apply State.arrEvent_canonical | refine State.canonical_mk ?_ rfl rfl

theorem State.arrUncorrected_canonical {x1 : State} {x2} (h1 : x1.Canonical) :
    (State.arrUncorrected x1 x2).Canonical := by
  unfold State.arrUncorrected
  repeat' first | with_reducible assumption | (refine fun (_ : State) (_ : State.Canonical _) => ?_) | (extract_lets +onlyGivenNames s; refine canonical_cut (s := s) ?_ (fun _ => ?_); rotate_left; clear_value s; rotate_left; subst s) | (extract_lets +onlyGivenNames s; refine mem_let s ?_; subst s) | (extract_lets +onlyGivenNames s; refine boot_let s ?_; subst s) | (extract_lets +onlyGivenNames s; clear_value s) | split | extract_lets | with_reducible apply State.satInc_canonical | with_reducible apply State.count_canonical | with_reducible apply State.log_canonical | with_reducible apply State.detect_canonical | with_reducible apply State.arrEvent_canonical | with_reducible apply State.arrError_canonical | refine State.canonical_mk ?_ rfl rfl

theorem State.stageFailed_canonical {x1 : State} {x2} (h1 : x1.Canonical) :
    (State.stageFailed x1 x2).Canonical := by
  unfold State.stageFailed
  repeat' first | with_reducible assumption | (refine fun (_ : State) (_ : State.Canonical _) => ?_) | (extract_lets +onlyGivenNames s; refine canonical_cut (s := s) ?_ (fun _ => ?_); rotate_left; clear_value s; rotate_left; subst s) | (extract_lets +onlyGivenNames s; refine mem_let s ?_; subst s) | (extract_lets +onlyGivenNames s; refine boot_let s ?_; subst s) | (extract_lets +onlyGivenNames s; clear_value s) | split | extract_lets | with_reducible apply State.raise_canonical | refine State.canonical_mk ?_ rfl rfl

set_option maxRecDepth 4000 in
theorem State.loadHalf_canonical {x1 : State} {x2} {x3} (h1 : x1.Canonical) :
    (State.loadHalf x1 x2 x3).Canonical := by
  unfold State.loadHalf
  repeat' first | with_reducible assumption | (refine fun (_ : State) (_ : State.Canonical _) => ?_) | (extract_lets +onlyGivenNames s; refine canonical_cut (s := s) ?_ (fun _ => ?_); rotate_left; clear_value s; rotate_left; subst s) | (extract_lets +onlyGivenNames s; refine canonical_cut (s := s.s) ?_ (fun _ => ?_); rotate_left; clear_value s; rotate_left; subst s) | (extract_lets +onlyGivenNames s; refine mem_let s ?_; subst s) | (extract_lets +onlyGivenNames s; refine boot_let s ?_; subst s) | (extract_lets +onlyGivenNames s; clear_value s) | split | extract_lets | with_reducible apply State.reportBad_canonical | with_reducible apply State.hole_canonical | with_reducible apply State.layRead_canonical | refine State.canonical_mk ?_ rfl rfl

theorem State.loadOther_canonical {x1 : State} {x2} (h1 : x1.Canonical) :
    (State.loadOther x1 x2).Canonical := by
  unfold State.loadOther
  repeat' first | with_reducible assumption | (refine fun (_ : State) (_ : State.Canonical _) => ?_) | (extract_lets +onlyGivenNames s; refine canonical_cut (s := s) ?_ (fun _ => ?_); rotate_left; clear_value s; rotate_left; subst s) | (extract_lets +onlyGivenNames s; refine mem_let s ?_; subst s) | (extract_lets +onlyGivenNames s; refine boot_let s ?_; subst s) | (extract_lets +onlyGivenNames s; clear_value s) | split | extract_lets | with_reducible apply State.loadHalf_canonical | refine State.canonical_mk ?_ rfl rfl

theorem State.tileStart_canonical {x1 : State} {x2} (h1 : x1.Canonical) :
    (State.tileStart x1 x2).Canonical := by
  unfold State.tileStart
  repeat' first | with_reducible assumption | (refine fun (_ : State) (_ : State.Canonical _) => ?_) | (extract_lets +onlyGivenNames s; refine canonical_cut (s := s) ?_ (fun _ => ?_); rotate_left; clear_value s; rotate_left; subst s) | (extract_lets +onlyGivenNames s; refine mem_let s ?_; subst s) | (extract_lets +onlyGivenNames s; refine boot_let s ?_; subst s) | (extract_lets +onlyGivenNames s; clear_value s) | split | extract_lets | with_reducible apply State.loadOther_canonical | refine State.canonical_mk ?_ rfl rfl

theorem State.arrFire_canonical {x1 : State} {x2} {x3} {x4} {x5} {x6} {x7} (h1 : x1.Canonical) :
    (State.arrFire x1 x2 x3 x4 x5 x6 x7).Canonical := by
  unfold State.arrFire
  repeat' first | with_reducible assumption | (refine fun (_ : State) (_ : State.Canonical _) => ?_) | (extract_lets +onlyGivenNames s; refine canonical_cut (s := s) ?_ (fun _ => ?_); rotate_left; clear_value s; rotate_left; subst s) | (extract_lets +onlyGivenNames s; refine mem_let s ?_; subst s) | (extract_lets +onlyGivenNames s; refine boot_let s ?_; subst s) | (extract_lets +onlyGivenNames s; clear_value s) | split | extract_lets | with_reducible apply State.arrEvent_canonical | with_reducible apply State.setOps_canonical | with_reducible apply State.arrError_canonical | with_reducible apply State.stageFailed_canonical | with_reducible apply State.tileStart_canonical | refine State.canonical_mk ?_ rfl rfl

theorem State.opAdvance_canonical {x1 : State} {x2} {x3} (h1 : x1.Canonical) :
    (State.opAdvance x1 x2 x3).Canonical := by
  unfold State.opAdvance
  repeat' first | with_reducible assumption | (refine fun (_ : State) (_ : State.Canonical _) => ?_) | (extract_lets +onlyGivenNames s; refine canonical_cut (s := s) ?_ (fun _ => ?_); rotate_left; clear_value s; rotate_left; subst s) | (extract_lets +onlyGivenNames s; refine mem_let s ?_; subst s) | (extract_lets +onlyGivenNames s; refine boot_let s ?_; subst s) | (extract_lets +onlyGivenNames s; clear_value s) | split | extract_lets | with_reducible apply State.put_canonical | with_reducible apply State.satAdd_canonical | with_reducible apply State.modInc_canonical | with_reducible apply State.count_canonical | with_reducible apply State.arrEvent_canonical | with_reducible apply State.updOp_canonical | with_reducible apply State.keepBufs_canonical | refine State.canonical_mk ?_ rfl rfl

theorem State.arrMet_canonical {x1 : State} {x2} {x3} (h1 : x1.Canonical) :
    (State.arrMet x1 x2 x3).Canonical := by
  unfold State.arrMet
  repeat' first | with_reducible assumption | (refine fun (_ : State) (_ : State.Canonical _) => ?_) | (extract_lets +onlyGivenNames s; refine canonical_cut (s := s) ?_ (fun _ => ?_); rotate_left; clear_value s; rotate_left; subst s) | (extract_lets +onlyGivenNames s; refine mem_let s ?_; subst s) | (extract_lets +onlyGivenNames s; refine boot_let s ?_; subst s) | (extract_lets +onlyGivenNames s; clear_value s) | split | extract_lets | with_reducible apply State.count_canonical | with_reducible apply State.life_canonical | with_reducible apply State.arrCorrected_canonical | refine State.canonical_mk ?_ rfl rfl

theorem State.opEnd_canonical {x1 : State} {x2} {x3} {x4} (h1 : x1.Canonical) :
    (State.opEnd x1 x2 x3 x4).Canonical := by
  unfold State.opEnd
  repeat' first | with_reducible assumption | (refine fun (_ : State) (_ : State.Canonical _) => ?_) | (extract_lets +onlyGivenNames s; refine canonical_cut (s := s) ?_ (fun _ => ?_); rotate_left; clear_value s; rotate_left; subst s) | (extract_lets +onlyGivenNames s; refine mem_let s ?_; subst s) | (extract_lets +onlyGivenNames s; refine boot_let s ?_; subst s) | (extract_lets +onlyGivenNames s; clear_value s) | split | extract_lets | with_reducible apply State.arrError_canonical | with_reducible apply State.arrUncorrected_canonical | with_reducible apply State.opAdvance_canonical | with_reducible apply State.arrMet_canonical | refine State.canonical_mk ?_ rfl rfl

theorem execTileOperationDone_canonical {x1} {x2} {x3} {x4 : State} (h4 : x4.Canonical) :
    OutCanonical (execTileOperationDone x1 x2 x3 x4) := by
  unfold execTileOperationDone
  repeat' first | with_reducible assumption | with_reducible apply canonical_next | (refine fun (_ : State) (_ : State.Canonical _) => ?_) | (extract_lets +onlyGivenNames s; refine canonical_cut (s := s) ?_ (fun _ => ?_); rotate_left; clear_value s; rotate_left; subst s) | (extract_lets +onlyGivenNames s; refine canonical_cut (s := s.s) ?_ (fun _ => ?_); rotate_left; clear_value s; rotate_left; subst s) | (extract_lets +onlyGivenNames s; refine mem_let s ?_; subst s) | (extract_lets +onlyGivenNames s; refine boot_let s ?_; subst s) | (extract_lets +onlyGivenNames s; clear_value s) | split | extract_lets | with_reducible apply State.layRead_canonical | with_reducible apply State.arrError_canonical | with_reducible apply State.tileStart_canonical | with_reducible apply State.opEnd_canonical | refine State.canonical_mk ?_ rfl rfl

theorem lay_pair_canonical {α : Type} {y : LayOut} {r : α} (h : y.s.Canonical) : (y, r).1.s.Canonical := h

theorem State.storeRows_canonical {x1 : State} {x2} {x3} (h1 : x1.Canonical) :
    (State.storeRows x1 x2 x3).1.s.Canonical := by
  rw [State.storeRows]
  split
  · exact lay_pair_canonical (State.layRead_canonical h1)
  · exact lay_pair_canonical h1

def LayGood (y : LayOut) : Prop := y.s.Canonical

theorem LayGood.intro {y : LayOut} (h : y.s.Canonical) : LayGood y := h

theorem State.storeEnd_canonical {x1 : State} {x2} {x3} {x4} {x5} {x6} (h1 : x1.Canonical) :
    (State.storeEnd x1 x2 x3 x4 x5 x6).Canonical := by
  unfold State.storeEnd
  repeat' first | with_reducible assumption | (refine fun (_ : State) (_ : State.Canonical _) => ?_) | (extract_lets +onlyGivenNames s; refine canonical_cut (s := s) ?_ (fun _ => ?_); rotate_left; clear_value s; rotate_left; subst s) | (extract_lets +onlyGivenNames s; refine mem_let s ?_; subst s) | (extract_lets +onlyGivenNames s; refine boot_let s ?_; subst s) | (extract_lets +onlyGivenNames s; clear_value s) | split | extract_lets | with_reducible apply State.satAdd_canonical | with_reducible apply State.count_canonical | with_reducible apply State.arrEvent_canonical | with_reducible apply State.updOp_canonical | with_reducible apply State.freeSetOf_canonical | with_reducible apply State.arrError_canonical | with_reducible apply State.stageFailed_canonical | refine State.canonical_mk ?_ rfl rfl

set_option maxRecDepth 4000 in
theorem State.storeChain_canonical {x1 : State} {x2} {x3} {x4} (h1 : x1.Canonical) :
    (State.storeChain x1 x2 x3 x4).Canonical := by
  rw [State.storeChain]
  have hr := State.storeRows_canonical (x2 := x2) (x3 := x4) h1
  generalize x1.storeRows x2 x4 = y at hr
  obtain ⟨a, rows⟩ := y
  replace hr : a.s.Canonical := hr
  dsimp -zeta only
  split
  · exact State.arrError_canonical hr
  split
  · exact State.arrUncorrected_canonical hr
  extract_lets +onlyGivenNames s out comb w
  have hs : State.Canonical s := by
    subst s
    split
    · exact hr
    · exact State.reportBad_canonical hr
  have hw : w.s.Canonical := State.layWrite_canonical hs
  clear_value w
  extract_lets +onlyGivenNames nans
  split
  · exact State.arrUncorrected_canonical hw
  · exact State.storeEnd_canonical hw

theorem execChainStoreDone_canonical {x1} {x2} {x3} {x4} {x5 : State} (h5 : x5.Canonical) :
    OutCanonical (execChainStoreDone x1 x2 x3 x4 x5) := by
  rw [execChainStoreDone]
  apply canonical_next
  split
  · exact h5
  split
  · exact h5
  extract_lets +onlyGivenNames s
  have hs : State.Canonical s := State.arrMet_canonical h5
  clear_value s
  apply State.tileStart_canonical
  split
  · exact State.arrUncorrected_canonical hs
  · exact State.storeChain_canonical hs

theorem State.arrEnded_canonical {x1 : State} {x2} {x3} {x4} (h1 : x1.Canonical) :
    OptCanonical (Option.map Prod.fst (State.arrEnded x1 x2 x3 x4)) := by
  rw [State.arrEnded]
  repeat' first | with_reducible assumption | with_reducible exact canonical_map_none | (with_reducible refine canonical_map_some ?_) | (refine fun (_ : State) (_ : State.Canonical _) => ?_) | (extract_lets +onlyGivenNames s; refine canonical_cut (s := s) ?_ (fun _ => ?_); rotate_left; clear_value s; rotate_left; subst s) | (extract_lets +onlyGivenNames s; refine mem_let s ?_; subst s) | (extract_lets +onlyGivenNames s; refine boot_let s ?_; subst s) | (extract_lets +onlyGivenNames s; clear_value s) | split | extract_lets | with_reducible apply State.setOps_canonical | refine State.canonical_mk ?_ rfl rfl

end Sys2Proof.Machine
end

