-- ==== Sys2Proof/Laws/CanonicalInstances.lean ====
section
/-! SUPPORT. The canonical form is kept by every operation of Machine/Instances.lean. -/

namespace Sys2Proof.Machine

theorem State.applyQuarantine_canonical {x1 : State} {x2} {x3} {x4} (h1 : x1.Canonical) :
    (State.applyQuarantine x1 x2 x3 x4).Canonical := by
  unfold State.applyQuarantine
  repeat' first | with_reducible assumption | (refine fun (_ : State) (_ : State.Canonical _) => ?_) | (extract_lets +onlyGivenNames s; refine canonical_cut (s := s) ?_ (fun _ => ?_); rotate_left; clear_value s; rotate_left; subst s) | (extract_lets +onlyGivenNames s; refine mem_let s ?_; subst s) | (extract_lets +onlyGivenNames s; refine boot_let s ?_; subst s) | (extract_lets +onlyGivenNames s; clear_value s) | split | extract_lets | refine State.canonical_mk ?_ rfl rfl

theorem State.bumpEpoch_canonical {x1 : State} {x2} (h1 : x1.Canonical) :
    (State.bumpEpoch x1 x2).Canonical := by
  unfold State.bumpEpoch
  repeat' first | with_reducible assumption | (refine fun (_ : State) (_ : State.Canonical _) => ?_) | (extract_lets +onlyGivenNames s; refine canonical_cut (s := s) ?_ (fun _ => ?_); rotate_left; clear_value s; rotate_left; subst s) | (extract_lets +onlyGivenNames s; refine mem_let s ?_; subst s) | (extract_lets +onlyGivenNames s; refine boot_let s ?_; subst s) | (extract_lets +onlyGivenNames s; clear_value s) | split | extract_lets | with_reducible apply State.modInc_canonical | refine State.canonical_mk ?_ rfl rfl

theorem State.dropWork_canonical {x1 : State} {x2} {x3} (h1 : x1.Canonical) :
    (State.dropWork x1 x2 x3).Canonical := by
  unfold State.dropWork
  repeat' first | with_reducible assumption | (refine fun (_ : State) (_ : State.Canonical _) => ?_) | (extract_lets +onlyGivenNames s; refine canonical_cut (s := s) ?_ (fun _ => ?_); rotate_left; clear_value s; rotate_left; subst s) | (extract_lets +onlyGivenNames s; refine mem_let s ?_; subst s) | (extract_lets +onlyGivenNames s; refine boot_let s ?_; subst s) | (extract_lets +onlyGivenNames s; clear_value s) | split | extract_lets | with_reducible apply State.admitWaiting_canonical | (with_reducible apply foldl_canonical; intro _ _ _) | refine State.canonical_mk ?_ rfl rfl

theorem State.dropSlotWork_canonical {x1 : State} {x2} {x3} (h1 : x1.Canonical) :
    (State.dropSlotWork x1 x2 x3).Canonical := by
  unfold State.dropSlotWork
  repeat' first | with_reducible assumption | (refine fun (_ : State) (_ : State.Canonical _) => ?_) | (extract_lets +onlyGivenNames s; refine canonical_cut (s := s) ?_ (fun _ => ?_); rotate_left; clear_value s; rotate_left; subst s) | (extract_lets +onlyGivenNames s; refine mem_let s ?_; subst s) | (extract_lets +onlyGivenNames s; refine boot_let s ?_; subst s) | (extract_lets +onlyGivenNames s; clear_value s) | split | extract_lets | with_reducible apply State.satAdd_canonical | with_reducible apply State.modAdd_canonical | with_reducible apply State.count_canonical | with_reducible apply State.dropWork_canonical | refine State.canonical_mk ?_ rfl rfl

theorem State.squashSlot_canonical {x1 : State} {x2} (h1 : x1.Canonical) :
    (State.squashSlot x1 x2).Canonical := by
  unfold State.squashSlot
  repeat' first | with_reducible assumption | (refine fun (_ : State) (_ : State.Canonical _) => ?_) | (extract_lets +onlyGivenNames s; refine canonical_cut (s := s) ?_ (fun _ => ?_); rotate_left; clear_value s; rotate_left; subst s) | (extract_lets +onlyGivenNames s; refine mem_let s ?_; subst s) | (extract_lets +onlyGivenNames s; refine boot_let s ?_; subst s) | (extract_lets +onlyGivenNames s; clear_value s) | split | extract_lets | with_reducible apply State.rerunEngines_canonical | with_reducible apply State.queueRewind_canonical | with_reducible apply State.updInst_canonical | with_reducible apply State.bumpEpoch_canonical | with_reducible apply State.dropSlotWork_canonical | (with_reducible apply foldl_canonical; intro _ _ _) | refine State.canonical_mk ?_ rfl rfl

theorem State.squash_canonical {x1 : State} {x2} (h1 : x1.Canonical) :
    (State.squash x1 x2).Canonical := by
  unfold State.squash
  repeat' first | with_reducible assumption | (refine fun (_ : State) (_ : State.Canonical _) => ?_) | (extract_lets +onlyGivenNames s; refine canonical_cut (s := s) ?_ (fun _ => ?_); rotate_left; clear_value s; rotate_left; subst s) | (extract_lets +onlyGivenNames s; refine mem_let s ?_; subst s) | (extract_lets +onlyGivenNames s; refine boot_let s ?_; subst s) | (extract_lets +onlyGivenNames s; clear_value s) | split | extract_lets | with_reducible apply State.put_canonical | with_reducible apply State.raise_canonical | with_reducible apply State.satInc_canonical | with_reducible apply State.syncHead_canonical | with_reducible apply State.syncOps_canonical | with_reducible apply State.squashSlot_canonical | (with_reducible apply foldl_canonical; intro _ _ _) | refine State.canonical_mk ?_ rfl rfl

theorem State.serveWaits_canonical {x1 : State} {x2} {x3} (h1 : x1.Canonical) :
    (State.serveWaits x1 x2 x3).Canonical := by
  unfold State.serveWaits
  repeat' first | with_reducible assumption | (refine fun (_ : State) (_ : State.Canonical _) => ?_) | (extract_lets +onlyGivenNames s; refine canonical_cut (s := s) ?_ (fun _ => ?_); rotate_left; clear_value s; rotate_left; subst s) | (extract_lets +onlyGivenNames s; refine mem_let s ?_; subst s) | (extract_lets +onlyGivenNames s; refine boot_let s ?_; subst s) | (extract_lets +onlyGivenNames s; clear_value s) | split | extract_lets | with_reducible apply State.sendFrames_canonical | (with_reducible apply foldl_canonical; intro _ _ _) | refine State.canonical_mk ?_ rfl rfl

theorem State.sendToSub_canonical {x1 : State} {x2} {x3} {x4} (h1 : x1.Canonical) :
    (State.sendToSub x1 x2 x3 x4).Canonical := by
  unfold State.sendToSub
  repeat' first | with_reducible assumption | (refine fun (_ : State) (_ : State.Canonical _) => ?_) | (extract_lets +onlyGivenNames s; refine canonical_cut (s := s) ?_ (fun _ => ?_); rotate_left; clear_value s; rotate_left; subst s) | (extract_lets +onlyGivenNames s; refine mem_let s ?_; subst s) | (extract_lets +onlyGivenNames s; refine boot_let s ?_; subst s) | (extract_lets +onlyGivenNames s; clear_value s) | split | extract_lets | with_reducible apply State.raise_canonical | with_reducible apply State.satInc_canonical | with_reducible apply State.sendFrames_canonical | (with_reducible apply foldl_canonical; intro _ _ _) | refine State.canonical_mk ?_ rfl rfl

theorem State.deliverTile_canonical {x1 : State} {x2} {x3} {x4} (h1 : x1.Canonical) :
    (State.deliverTile x1 x2 x3 x4).Canonical := by
  unfold State.deliverTile
  repeat' first | with_reducible assumption | (refine fun (_ : State) (_ : State.Canonical _) => ?_) | (extract_lets +onlyGivenNames s; refine canonical_cut (s := s) ?_ (fun _ => ?_); rotate_left; clear_value s; rotate_left; subst s) | (extract_lets +onlyGivenNames s; refine mem_let s ?_; subst s) | (extract_lets +onlyGivenNames s; refine boot_let s ?_; subst s) | (extract_lets +onlyGivenNames s; clear_value s) | split | extract_lets | with_reducible apply State.serveWaits_canonical | with_reducible apply State.sendToSub_canonical | (with_reducible apply foldl_canonical; intro _ _ _) | refine State.canonical_mk ?_ rfl rfl

theorem State.fusionEnd_canonical {x1 : State} {x2} (h1 : x1.Canonical) :
    (State.fusionEnd x1 x2).Canonical := by
  unfold State.fusionEnd
  repeat' first | with_reducible assumption | (refine fun (_ : State) (_ : State.Canonical _) => ?_) | (extract_lets +onlyGivenNames s; refine canonical_cut (s := s) ?_ (fun _ => ?_); rotate_left; clear_value s; rotate_left; subst s) | (extract_lets +onlyGivenNames s; refine mem_let s ?_; subst s) | (extract_lets +onlyGivenNames s; refine boot_let s ?_; subst s) | (extract_lets +onlyGivenNames s; clear_value s) | split | extract_lets | with_reducible apply State.endBudget_canonical | refine State.canonical_mk ?_ rfl rfl

theorem State.issueTile_canonical {x1 : State} {x2} {x3} (h1 : x1.Canonical) :
    (State.issueTile x1 x2 x3).Canonical := by
  unfold State.issueTile
  repeat' first | with_reducible assumption | (refine fun (_ : State) (_ : State.Canonical _) => ?_) | (extract_lets +onlyGivenNames s; refine canonical_cut (s := s) ?_ (fun _ => ?_); rotate_left; clear_value s; rotate_left; subst s) | (extract_lets +onlyGivenNames s; refine mem_let s ?_; subst s) | (extract_lets +onlyGivenNames s; refine boot_let s ?_; subst s) | (extract_lets +onlyGivenNames s; clear_value s) | split | extract_lets | with_reducible apply State.put_canonical | with_reducible apply State.raise_canonical | with_reducible apply State.satInc_canonical | with_reducible apply State.writeBytes_canonical | with_reducible apply State.count_canonical | with_reducible apply State.queueWrite_canonical | with_reducible apply State.updInst_canonical | with_reducible apply State.syncHead_canonical | with_reducible apply State.deliverTile_canonical | with_reducible apply State.fusionEnd_canonical | refine State.canonical_mk ?_ rfl rfl

theorem State.issueHeld_canonical {x1 : State} {x2} {x3} (h1 : x1.Canonical) :
    (State.issueHeld x1 x2 x3).Canonical := by
  unfold State.issueHeld
  repeat' first | with_reducible assumption | (refine fun (_ : State) (_ : State.Canonical _) => ?_) | (extract_lets +onlyGivenNames s; refine canonical_cut (s := s) ?_ (fun _ => ?_); rotate_left; clear_value s; rotate_left; subst s) | (extract_lets +onlyGivenNames s; refine mem_let s ?_; subst s) | (extract_lets +onlyGivenNames s; refine boot_let s ?_; subst s) | (extract_lets +onlyGivenNames s; clear_value s) | split | extract_lets | with_reducible apply State.issueTile_canonical | (with_reducible apply foldl_canonical; intro _ _ _) | refine State.canonical_mk ?_ rfl rfl

theorem State.idleIfDue_canonical {x1 : State} (h1 : x1.Canonical) :
    (State.idleIfDue x1).Canonical := by
  unfold State.idleIfDue
  repeat' first | with_reducible assumption | (refine fun (_ : State) (_ : State.Canonical _) => ?_) | (extract_lets +onlyGivenNames s; refine canonical_cut (s := s) ?_ (fun _ => ?_); rotate_left; clear_value s; rotate_left; subst s) | (extract_lets +onlyGivenNames s; refine mem_let s ?_; subst s) | (extract_lets +onlyGivenNames s; refine boot_let s ?_; subst s) | (extract_lets +onlyGivenNames s; clear_value s) | split | extract_lets | with_reducible apply State.put_canonical | with_reducible apply State.raise_canonical | with_reducible apply State.emptyQueues_canonical | with_reducible apply State.deeper_canonical | refine State.canonical_mk ?_ rfl rfl

theorem State.countFinal_canonical {x1 : State} {x2} (h1 : x1.Canonical) :
    (State.countFinal x1 x2).Canonical := by
  unfold State.countFinal
  repeat' first | with_reducible assumption | (refine fun (_ : State) (_ : State.Canonical _) => ?_) | (extract_lets +onlyGivenNames s; refine canonical_cut (s := s) ?_ (fun _ => ?_); rotate_left; clear_value s; rotate_left; subst s) | (extract_lets +onlyGivenNames s; refine mem_let s ?_; subst s) | (extract_lets +onlyGivenNames s; refine boot_let s ?_; subst s) | (extract_lets +onlyGivenNames s; clear_value s) | split | extract_lets | with_reducible apply State.put_canonical | with_reducible apply State.returnTo_canonical | refine State.canonical_mk ?_ rfl rfl

theorem State.finalizeHead_canonical {x1 : State} (h1 : x1.Canonical) :
    (State.finalizeHead x1).Canonical := by
  unfold State.finalizeHead
  repeat' first | with_reducible assumption | (refine fun (_ : State) (_ : State.Canonical _) => ?_) | (extract_lets +onlyGivenNames s; refine canonical_cut (s := s) ?_ (fun _ => ?_); rotate_left; clear_value s; rotate_left; subst s) | (extract_lets +onlyGivenNames s; refine mem_let s ?_; subst s) | (extract_lets +onlyGivenNames s; refine boot_let s ?_; subst s) | (extract_lets +onlyGivenNames s; clear_value s) | split | extract_lets | with_reducible apply State.finalEngines_canonical | with_reducible apply State.queueRelease_canonical | with_reducible apply State.syncHead_canonical | with_reducible apply State.syncOps_canonical | with_reducible apply State.dropSlotWork_canonical | with_reducible apply State.idleIfDue_canonical | with_reducible apply State.countFinal_canonical | (with_reducible apply foldl_canonical; intro _ _ _) | refine State.canonical_mk ?_ rfl rfl

theorem State.closeWindows_canonical {x1 : State} (h1 : x1.Canonical) :
    (State.closeWindows x1).Canonical := by
  unfold State.closeWindows
  repeat' first | with_reducible assumption | (refine fun (_ : State) (_ : State.Canonical _) => ?_) | (extract_lets +onlyGivenNames s; refine canonical_cut (s := s) ?_ (fun _ => ?_); rotate_left; clear_value s; rotate_left; subst s) | (extract_lets +onlyGivenNames s; refine mem_let s ?_; subst s) | (extract_lets +onlyGivenNames s; refine boot_let s ?_; subst s) | (extract_lets +onlyGivenNames s; clear_value s) | split | extract_lets | refine State.canonical_mk ?_ rfl rfl

theorem State.settleHeads_canonical {x1} {x2 : State} (h2 : x2.Canonical) :
    (State.settleHeads x1 x2).Canonical := by
  revert h2
  fun_induction State.settleHeads x1 x2 <;> intro h2
  all_goals repeat' first | with_reducible assumption | (refine (by with_reducible assumption : State.Canonical _ → State.Canonical _) ?_) | (refine fun (_ : State) (_ : State.Canonical _) => ?_) | (extract_lets +onlyGivenNames s; refine canonical_cut (s := s) ?_ (fun _ => ?_); rotate_left; clear_value s; rotate_left; subst s) | (extract_lets +onlyGivenNames s; refine mem_let s ?_; subst s) | (extract_lets +onlyGivenNames s; refine boot_let s ?_; subst s) | (extract_lets +onlyGivenNames s; clear_value s) | split | extract_lets | with_reducible apply State.issueHeld_canonical | with_reducible apply State.finalizeHead_canonical | with_reducible apply State.closeWindows_canonical | refine State.canonical_mk ?_ rfl rfl

theorem State.tryFinal_canonical {x1 : State} (h1 : x1.Canonical) :
    (State.tryFinal x1).Canonical := by
  unfold State.tryFinal
  repeat' first | with_reducible assumption | (refine fun (_ : State) (_ : State.Canonical _) => ?_) | (extract_lets +onlyGivenNames s; refine canonical_cut (s := s) ?_ (fun _ => ?_); rotate_left; clear_value s; rotate_left; subst s) | (extract_lets +onlyGivenNames s; refine mem_let s ?_; subst s) | (extract_lets +onlyGivenNames s; refine boot_let s ?_; subst s) | (extract_lets +onlyGivenNames s; clear_value s) | split | extract_lets | with_reducible apply State.closeWindows_canonical | with_reducible apply State.settleHeads_canonical | refine State.canonical_mk ?_ rfl rfl

theorem State.followOpenings_canonical {x1 : State} (h1 : x1.Canonical) :
    (State.followOpenings x1).Canonical := by
  unfold State.followOpenings
  repeat' first | with_reducible assumption | (refine fun (_ : State) (_ : State.Canonical _) => ?_) | (extract_lets +onlyGivenNames s; refine canonical_cut (s := s) ?_ (fun _ => ?_); rotate_left; clear_value s; rotate_left; subst s) | (extract_lets +onlyGivenNames s; refine mem_let s ?_; subst s) | (extract_lets +onlyGivenNames s; refine boot_let s ?_; subst s) | (extract_lets +onlyGivenNames s; clear_value s) | split | extract_lets | refine State.canonical_mk ?_ rfl rfl

theorem State.moveHeld_canonical {x1 : State} {x2} (h1 : x1.Canonical) :
    (State.moveHeld x1 x2).Canonical := by
  unfold State.moveHeld
  repeat' first | with_reducible assumption | (refine fun (_ : State) (_ : State.Canonical _) => ?_) | (extract_lets +onlyGivenNames s; refine canonical_cut (s := s) ?_ (fun _ => ?_); rotate_left; clear_value s; rotate_left; subst s) | (extract_lets +onlyGivenNames s; refine mem_let s ?_; subst s) | (extract_lets +onlyGivenNames s; refine boot_let s ?_; subst s) | (extract_lets +onlyGivenNames s; clear_value s) | split | extract_lets | refine State.canonical_mk ?_ rfl rfl

theorem State.rebaseHeld_canonical {x1 : State} {x2} (h1 : x1.Canonical) :
    (State.rebaseHeld x1 x2).Canonical := by
  unfold State.rebaseHeld
  repeat' first | with_reducible assumption | (refine fun (_ : State) (_ : State.Canonical _) => ?_) | (extract_lets +onlyGivenNames s; refine canonical_cut (s := s) ?_ (fun _ => ?_); rotate_left; clear_value s; rotate_left; subst s) | (extract_lets +onlyGivenNames s; refine mem_let s ?_; subst s) | (extract_lets +onlyGivenNames s; refine boot_let s ?_; subst s) | (extract_lets +onlyGivenNames s; clear_value s) | split | extract_lets | with_reducible apply State.moveHeld_canonical | refine State.canonical_mk ?_ rfl rfl

theorem State.rebaseBlocks_canonical {x1 : State} {x2} (h1 : x1.Canonical) :
    (State.rebaseBlocks x1 x2).Canonical := by
  unfold State.rebaseBlocks
  extract_lets +onlyGivenNames vals lifted out ring
  have hr : ∀ b n (u : State) l, u.Canonical → (ring b n u l).Canonical :=
    fun b n u l h => foldl_canonical (fun _ _ h => State.rebaseRecord_canonical h) h
  clear_value ring
  exact hr _ _ _ _ (hr _ _ _ _ h1)

theorem State.rebaseStore_canonical {x1 : State} {x2} (h1 : x1.Canonical) :
    (State.rebaseStore x1 x2).Canonical := by
  unfold State.rebaseStore
  repeat' first | with_reducible assumption | (refine fun (_ : State) (_ : State.Canonical _) => ?_) | (extract_lets +onlyGivenNames s; refine canonical_cut (s := s) ?_ (fun _ => ?_); rotate_left; clear_value s; rotate_left; subst s) | (extract_lets +onlyGivenNames s; refine mem_let s ?_; subst s) | (extract_lets +onlyGivenNames s; refine boot_let s ?_; subst s) | (extract_lets +onlyGivenNames s; clear_value s) | split | extract_lets | with_reducible apply State.rebaseRecord_canonical | (with_reducible apply foldl_canonical; intro _ _ _) | refine State.canonical_mk ?_ rfl rfl

theorem State.stepTime_canonical {x1 : State} {x2} (h1 : x1.Canonical) :
    (State.stepTime x1 x2).Canonical := by
  unfold State.stepTime
  repeat' first | with_reducible assumption | (refine fun (_ : State) (_ : State.Canonical _) => ?_) | (extract_lets +onlyGivenNames s; refine canonical_cut (s := s) ?_ (fun _ => ?_); rotate_left; clear_value s; rotate_left; subst s) | (extract_lets +onlyGivenNames s; refine mem_let s ?_; subst s) | (extract_lets +onlyGivenNames s; refine boot_let s ?_; subst s) | (extract_lets +onlyGivenNames s; clear_value s) | split | extract_lets | with_reducible apply State.raise_canonical | with_reducible apply State.putI_canonical | with_reducible apply State.satInc_canonical | with_reducible apply State.log_canonical | with_reducible apply State.rebaseEngines_canonical | with_reducible apply State.syncHead_canonical | with_reducible apply State.squash_canonical | with_reducible apply State.followOpenings_canonical | with_reducible apply State.rebaseHeld_canonical | with_reducible apply State.rebaseBlocks_canonical | with_reducible apply State.rebaseStore_canonical | refine State.canonical_mk ?_ rfl rfl

end Sys2Proof.Machine
end

