-- ==== Sys2Proof/Laws/CanonicalHistory.lean ====
section
/-! SUPPORT. The canonical form is kept by every operation of Machine/History.lean. -/

namespace Sys2Proof.Machine

theorem State.kvcErr_canonical {x1 : State} {x2} {x3} {x4} (h1 : x1.Canonical) :
    (State.kvcErr x1 x2 x3 x4).Canonical := by
  unfold State.kvcErr
  repeat' first | with_reducible assumption | (refine fun (_ : State) (_ : State.Canonical _) => ?_) | (extract_lets +onlyGivenNames s; refine canonical_cut (s := s) ?_ (fun _ => ?_); rotate_left; clear_value s; rotate_left; subst s) | (extract_lets +onlyGivenNames s; refine mem_let s ?_; subst s) | (extract_lets +onlyGivenNames s; refine boot_let s ?_; subst s) | (extract_lets +onlyGivenNames s; clear_value s) | split | extract_lets | with_reducible apply State.put_canonical | with_reducible apply State.raise_canonical | refine State.canonical_mk ?_ rfl rfl

theorem State.takeEdit_canonical {x1 : State} {x2} (h1 : x1.Canonical) :
    (State.takeEdit x1 x2).1.Canonical := by
  rw [State.takeEdit]
  repeat' first | with_reducible assumption | (refine fun (_ : State) (_ : State.Canonical _) => ?_) | (extract_lets +onlyGivenNames s; refine canonical_cut (s := s) ?_ (fun _ => ?_); rotate_left; clear_value s; rotate_left; subst s) | (extract_lets +onlyGivenNames s; refine canonical_cut (s := s.1) ?_ (fun _ => ?_); rotate_left; clear_value s; rotate_left; subst s) | (extract_lets +onlyGivenNames s; refine mem_let s ?_; subst s) | (extract_lets +onlyGivenNames s; refine boot_let s ?_; subst s) | (extract_lets +onlyGivenNames s; clear_value s) | split | extract_lets | with_reducible apply State.takeBytes_canonical | (refine canonical_of_pair (by with_reducible assumption) ?_) | refine State.canonical_mk ?_ rfl rfl

theorem State.editRecord_canonical {x1 : State} {x2} (h1 : x1.Canonical) :
    (State.editRecord x1 x2).Canonical := by
  unfold State.editRecord
  repeat' first | with_reducible assumption | (refine fun (_ : State) (_ : State.Canonical _) => ?_) | (extract_lets +onlyGivenNames s; refine canonical_cut (s := s) ?_ (fun _ => ?_); rotate_left; clear_value s; rotate_left; subst s) | (extract_lets +onlyGivenNames s; refine canonical_cut (s := s.1) ?_ (fun _ => ?_); rotate_left; clear_value s; rotate_left; subst s) | (extract_lets +onlyGivenNames s; refine mem_let s ?_; subst s) | (extract_lets +onlyGivenNames s; refine boot_let s ?_; subst s) | (extract_lets +onlyGivenNames s; clear_value s) | split | extract_lets | with_reducible apply State.satInc_canonical | with_reducible apply State.takeEdit_canonical | (refine canonical_of_pair (by with_reducible assumption) ?_) | refine State.canonical_mk ?_ rfl rfl

theorem execDropRange_canonical {x1 : State} (h1 : x1.Canonical) :
    OutCanonical (execDropRange x1) := by
  unfold execDropRange
  repeat' first | with_reducible assumption | with_reducible apply canonical_next | (refine fun (_ : State) (_ : State.Canonical _) => ?_) | (extract_lets +onlyGivenNames s; refine canonical_cut (s := s) ?_ (fun _ => ?_); rotate_left; clear_value s; rotate_left; subst s) | (extract_lets +onlyGivenNames s; refine mem_let s ?_; subst s) | (extract_lets +onlyGivenNames s; refine boot_let s ?_; subst s) | (extract_lets +onlyGivenNames s; clear_value s) | split | extract_lets | with_reducible apply State.editRecord_canonical | refine State.canonical_mk ?_ rfl rfl

theorem execShare_canonical {x1 : State} (h1 : x1.Canonical) :
    OutCanonical (execShare x1) := by
  unfold execShare
  repeat' first | with_reducible assumption | with_reducible apply canonical_next | (refine fun (_ : State) (_ : State.Canonical _) => ?_) | (extract_lets +onlyGivenNames s; refine canonical_cut (s := s) ?_ (fun _ => ?_); rotate_left; clear_value s; rotate_left; subst s) | (extract_lets +onlyGivenNames s; refine mem_let s ?_; subst s) | (extract_lets +onlyGivenNames s; refine boot_let s ?_; subst s) | (extract_lets +onlyGivenNames s; clear_value s) | split | extract_lets | with_reducible apply State.editRecord_canonical | refine State.canonical_mk ?_ rfl rfl

theorem execRenumber_canonical {x1 : State} (h1 : x1.Canonical) :
    OutCanonical (execRenumber x1) := by
  unfold execRenumber
  repeat' first | with_reducible assumption | with_reducible apply canonical_next | (refine fun (_ : State) (_ : State.Canonical _) => ?_) | (extract_lets +onlyGivenNames s; refine canonical_cut (s := s) ?_ (fun _ => ?_); rotate_left; clear_value s; rotate_left; subst s) | (extract_lets +onlyGivenNames s; refine mem_let s ?_; subst s) | (extract_lets +onlyGivenNames s; refine boot_let s ?_; subst s) | (extract_lets +onlyGivenNames s; clear_value s) | split | extract_lets | with_reducible apply State.editRecord_canonical | refine State.canonical_mk ?_ rfl rfl

theorem execClear_canonical {x1 : State} (h1 : x1.Canonical) :
    OutCanonical (execClear x1) := by
  unfold execClear
  repeat' first | with_reducible assumption | with_reducible apply canonical_next | (refine fun (_ : State) (_ : State.Canonical _) => ?_) | (extract_lets +onlyGivenNames s; refine canonical_cut (s := s) ?_ (fun _ => ?_); rotate_left; clear_value s; rotate_left; subst s) | (extract_lets +onlyGivenNames s; refine mem_let s ?_; subst s) | (extract_lets +onlyGivenNames s; refine boot_let s ?_; subst s) | (extract_lets +onlyGivenNames s; clear_value s) | split | extract_lets | with_reducible apply State.editRecord_canonical | refine State.canonical_mk ?_ rfl rfl

theorem execUndefine_canonical {x1 : State} (h1 : x1.Canonical) :
    OutCanonical (execUndefine x1) := by
  unfold execUndefine
  repeat' first | with_reducible assumption | with_reducible apply canonical_next | (refine fun (_ : State) (_ : State.Canonical _) => ?_) | (extract_lets +onlyGivenNames s; refine canonical_cut (s := s) ?_ (fun _ => ?_); rotate_left; clear_value s; rotate_left; subst s) | (extract_lets +onlyGivenNames s; refine mem_let s ?_; subst s) | (extract_lets +onlyGivenNames s; refine boot_let s ?_; subst s) | (extract_lets +onlyGivenNames s; clear_value s) | split | extract_lets | with_reducible apply State.editRecord_canonical | refine State.canonical_mk ?_ rfl rfl

theorem State.rejectBatch_canonical {x1 : State} {x2} (h1 : x1.Canonical) :
    (State.rejectBatch x1 x2).Canonical := by
  unfold State.rejectBatch
  repeat' first | with_reducible assumption | (refine fun (_ : State) (_ : State.Canonical _) => ?_) | (extract_lets +onlyGivenNames s; refine canonical_cut (s := s) ?_ (fun _ => ?_); rotate_left; clear_value s; rotate_left; subst s) | (extract_lets +onlyGivenNames s; refine mem_let s ?_; subst s) | (extract_lets +onlyGivenNames s; refine boot_let s ?_; subst s) | (extract_lets +onlyGivenNames s; clear_value s) | split | extract_lets | with_reducible apply State.satInc_canonical | with_reducible apply State.emit_canonical | with_reducible apply State.kvcErr_canonical | refine State.canonical_mk ?_ rfl rfl

theorem execCommit_canonical {x1 : State} (h1 : x1.Canonical) :
    OutCanonical (execCommit x1) := by
  unfold execCommit
  repeat' first | with_reducible assumption | with_reducible apply canonical_next | (refine fun (_ : State) (_ : State.Canonical _) => ?_) | (extract_lets +onlyGivenNames s; refine canonical_cut (s := s) ?_ (fun _ => ?_); rotate_left; clear_value s; rotate_left; subst s) | (extract_lets +onlyGivenNames s; refine canonical_cut (s := s.1) ?_ (fun _ => ?_); rotate_left; clear_value s; rotate_left; subst s) | (extract_lets +onlyGivenNames s; refine mem_let s ?_; subst s) | (extract_lets +onlyGivenNames s; refine boot_let s ?_; subst s) | (extract_lets +onlyGivenNames s; clear_value s) | split | extract_lets | with_reducible apply State.stage_canonical | with_reducible apply State.takeEdit_canonical | with_reducible apply State.rejectBatch_canonical | (refine canonical_of_some (by with_reducible assumption) ?_) | (refine canonical_of_pair (by with_reducible assumption) ?_) | refine State.canonical_mk ?_ rfl rfl

theorem execGenerationChange_canonical {x1 : State} (h1 : x1.Canonical) :
    OutCanonical (execGenerationChange x1) := by
  unfold execGenerationChange
  repeat' first | with_reducible assumption | with_reducible apply canonical_next | (refine fun (_ : State) (_ : State.Canonical _) => ?_) | (extract_lets +onlyGivenNames s; refine canonical_cut (s := s) ?_ (fun _ => ?_); rotate_left; clear_value s; rotate_left; subst s) | (extract_lets +onlyGivenNames s; refine mem_let s ?_; subst s) | (extract_lets +onlyGivenNames s; refine boot_let s ?_; subst s) | (extract_lets +onlyGivenNames s; clear_value s) | split | extract_lets | with_reducible apply State.writeBytes_canonical | with_reducible apply State.updPage_canonical | with_reducible apply State.freePages_canonical | (with_reducible apply foldl_canonical; intro _ _ _) | refine State.canonical_mk ?_ rfl rfl

theorem execShadowCopyDone_canonical {x1 : State} (h1 : x1.Canonical) :
    OutCanonical (execShadowCopyDone x1) := by
  unfold execShadowCopyDone
  repeat' first | with_reducible assumption | with_reducible apply canonical_next | (refine fun (_ : State) (_ : State.Canonical _) => ?_) | (extract_lets +onlyGivenNames s; refine canonical_cut (s := s) ?_ (fun _ => ?_); rotate_left; clear_value s; rotate_left; subst s) | (extract_lets +onlyGivenNames s; refine mem_let s ?_; subst s) | (extract_lets +onlyGivenNames s; refine boot_let s ?_; subst s) | (extract_lets +onlyGivenNames s; clear_value s) | split | extract_lets | refine State.canonical_mk ?_ rfl rfl

theorem State.updStep_canonical {x1 : State} {x2} {x3} (h1 : x1.Canonical) :
    (State.updStep x1 x2 x3).Canonical := by
  unfold State.updStep
  repeat' first | with_reducible assumption | (refine fun (_ : State) (_ : State.Canonical _) => ?_) | (extract_lets +onlyGivenNames s; refine canonical_cut (s := s) ?_ (fun _ => ?_); rotate_left; clear_value s; rotate_left; subst s) | (extract_lets +onlyGivenNames s; refine mem_let s ?_; subst s) | (extract_lets +onlyGivenNames s; refine boot_let s ?_; subst s) | (extract_lets +onlyGivenNames s; clear_value s) | split | extract_lets | refine State.canonical_mk ?_ rfl rfl

theorem State.deliverDesc_canonical {x1 : State} {x2} {x3} {x4} (h1 : x1.Canonical) :
    (State.deliverDesc x1 x2 x3 x4).Canonical := by
  unfold State.deliverDesc
  repeat' first | with_reducible assumption | (refine fun (_ : State) (_ : State.Canonical _) => ?_) | (extract_lets +onlyGivenNames s; refine canonical_cut (s := s) ?_ (fun _ => ?_); rotate_left; clear_value s; rotate_left; subst s) | (extract_lets +onlyGivenNames s; refine canonical_cut (s := s.1) ?_ (fun _ => ?_); rotate_left; clear_value s; rotate_left; subst s) | (extract_lets +onlyGivenNames s; refine mem_let s ?_; subst s) | (extract_lets +onlyGivenNames s; refine boot_let s ?_; subst s) | (extract_lets +onlyGivenNames s; clear_value s) | split | extract_lets | with_reducible apply State.queueWrite_canonical | with_reducible apply State.queueFlush_canonical | with_reducible apply State.takeBytes_canonical | with_reducible apply State.updStep_canonical | (refine canonical_of_pair (by with_reducible assumption) ?_) | refine State.canonical_mk ?_ rfl rfl

theorem State.badPage_canonical {x1 : State} {x2} {x3} (h1 : x1.Canonical) :
    (State.badPage x1 x2 x3).Canonical := by
  unfold State.badPage
  repeat' first | with_reducible assumption | (refine fun (_ : State) (_ : State.Canonical _) => ?_) | (extract_lets +onlyGivenNames s; refine canonical_cut (s := s) ?_ (fun _ => ?_); rotate_left; clear_value s; rotate_left; subst s) | (extract_lets +onlyGivenNames s; refine mem_let s ?_; subst s) | (extract_lets +onlyGivenNames s; refine boot_let s ?_; subst s) | (extract_lets +onlyGivenNames s; clear_value s) | split | extract_lets | with_reducible apply State.raise_canonical | with_reducible apply State.log_canonical | with_reducible apply State.updPage_canonical | with_reducible apply State.detect_canonical | with_reducible apply State.kvcErr_canonical | refine State.canonical_mk ?_ rfl rfl

theorem State.emitDesc_canonical {x1 : State} {x2} {x3} {x4} {x5} {x6} (h1 : x1.Canonical) :
    (State.emitDesc x1 x2 x3 x4 x5 x6).Canonical := by
  unfold State.emitDesc
  repeat' first | with_reducible assumption | (refine fun (_ : State) (_ : State.Canonical _) => ?_) | (extract_lets +onlyGivenNames s; refine canonical_cut (s := s) ?_ (fun _ => ?_); rotate_left; clear_value s; rotate_left; subst s) | (extract_lets +onlyGivenNames s; refine mem_let s ?_; subst s) | (extract_lets +onlyGivenNames s; refine boot_let s ?_; subst s) | (extract_lets +onlyGivenNames s; clear_value s) | split | extract_lets | with_reducible apply State.satInc_canonical | with_reducible apply State.deliverDesc_canonical | with_reducible apply State.badPage_canonical | refine State.canonical_mk ?_ rfl rfl

theorem State.pageMet_canonical {x1 : State} {x2} (h1 : x1.Canonical) :
    (State.pageMet x1 x2).Canonical := by
  unfold State.pageMet
  repeat' first | with_reducible assumption | (refine fun (_ : State) (_ : State.Canonical _) => ?_) | (extract_lets +onlyGivenNames s; refine canonical_cut (s := s) ?_ (fun _ => ?_); rotate_left; clear_value s; rotate_left; subst s) | (extract_lets +onlyGivenNames s; refine mem_let s ?_; subst s) | (extract_lets +onlyGivenNames s; refine boot_let s ?_; subst s) | (extract_lets +onlyGivenNames s; clear_value s) | split | extract_lets | with_reducible apply State.count_canonical | with_reducible apply State.life_canonical | refine State.canonical_mk ?_ rfl rfl

theorem execWalk_canonical {x1} {x2} {x3} {x4 : State} (h4 : x4.Canonical) :
    OutCanonical (execWalk x1 x2 x3 x4) := by
  unfold execWalk
  repeat' first | with_reducible assumption | with_reducible apply canonical_next | (refine fun (_ : State) (_ : State.Canonical _) => ?_) | (extract_lets +onlyGivenNames s; refine canonical_cut (s := s) ?_ (fun _ => ?_); rotate_left; clear_value s; rotate_left; subst s) | (extract_lets +onlyGivenNames s; refine mem_let s ?_; subst s) | (extract_lets +onlyGivenNames s; refine boot_let s ?_; subst s) | (extract_lets +onlyGivenNames s; clear_value s) | split | extract_lets | with_reducible apply State.reportBad_canonical | with_reducible apply State.kvcErr_canonical | with_reducible apply State.deliverDesc_canonical | with_reducible apply State.emitDesc_canonical | with_reducible apply State.pageMet_canonical | (with_reducible apply foldl_canonical; intro _ _ _) | refine State.canonical_mk ?_ rfl rfl

theorem State.copyWords_canonical {x1 : State} {x2} {x3} {x4} (h1 : x1.Canonical) :
    (State.copyWords x1 x2 x3 x4).Canonical := by
  unfold State.copyWords
  repeat' first | with_reducible assumption | (refine fun (_ : State) (_ : State.Canonical _) => ?_) | (extract_lets +onlyGivenNames s; refine canonical_cut (s := s) ?_ (fun _ => ?_); rotate_left; clear_value s; rotate_left; subst s) | (extract_lets +onlyGivenNames s; refine mem_let s ?_; subst s) | (extract_lets +onlyGivenNames s; refine boot_let s ?_; subst s) | (extract_lets +onlyGivenNames s; clear_value s) | split | extract_lets | with_reducible apply State.writeBytes_canonical | with_reducible apply State.poisonWord_canonical | (with_reducible apply foldl_canonical; intro _ _ _) | refine State.canonical_mk ?_ rfl rfl

theorem State.endCopy_canonical {x1 : State} {x2} {x3} (h1 : x1.Canonical) :
    (State.endCopy x1 x2 x3).Canonical := by
  unfold State.endCopy
  repeat' first | with_reducible assumption | (refine fun (_ : State) (_ : State.Canonical _) => ?_) | (extract_lets +onlyGivenNames s; refine canonical_cut (s := s) ?_ (fun _ => ?_); rotate_left; clear_value s; rotate_left; subst s) | (extract_lets +onlyGivenNames s; refine mem_let s ?_; subst s) | (extract_lets +onlyGivenNames s; refine boot_let s ?_; subst s) | (extract_lets +onlyGivenNames s; clear_value s) | split | extract_lets | with_reducible apply State.modInc_canonical | with_reducible apply State.setPage_canonical | with_reducible apply State.copyWords_canonical | refine State.canonical_mk ?_ rfl rfl

theorem State.beginSpill_canonical {x1 : State} {x2} (h1 : x1.Canonical) :
    OptCanonical (State.beginSpill x1 x2) := by
  unfold State.beginSpill
  repeat' first | with_reducible assumption | with_reducible exact canonical_none | with_reducible apply canonical_some | (with_reducible apply canonical_map; intro _ _) | (refine fun (_ : State) (_ : State.Canonical _) => ?_) | (extract_lets +onlyGivenNames s; refine canonical_cut (s := s) ?_ (fun _ => ?_); rotate_left; clear_value s; rotate_left; subst s) | (extract_lets +onlyGivenNames s; refine mem_let s ?_; subst s) | (extract_lets +onlyGivenNames s; refine boot_let s ?_; subst s) | (extract_lets +onlyGivenNames s; clear_value s) | split | extract_lets | with_reducible apply State.modInc_canonical | with_reducible apply State.setPage_canonical | refine State.canonical_mk ?_ rfl rfl

theorem State.spillNow_canonical {x1 : State} {x2} (h1 : x1.Canonical) :
    OptCanonical (State.spillNow x1 x2) := by
  unfold State.spillNow
  repeat' first | with_reducible assumption | with_reducible exact canonical_none | with_reducible apply canonical_some | (with_reducible apply canonical_map; intro _ _) | (refine fun (_ : State) (_ : State.Canonical _) => ?_) | (extract_lets +onlyGivenNames s; refine canonical_cut (s := s) ?_ (fun _ => ?_); rotate_left; clear_value s; rotate_left; subst s) | (extract_lets +onlyGivenNames s; refine mem_let s ?_; subst s) | (extract_lets +onlyGivenNames s; refine boot_let s ?_; subst s) | (extract_lets +onlyGivenNames s; clear_value s) | split | extract_lets | with_reducible apply State.endCopy_canonical | with_reducible apply State.beginSpill_canonical | (refine canonical_of_some (by with_reducible assumption) ?_) | refine State.canonical_mk ?_ rfl rfl

theorem State.spillLow_canonical {x1} {x2 : State} (h2 : x2.Canonical) :
    (State.spillLow x1 x2).Canonical := by
  revert h2
  fun_induction State.spillLow x1 x2 <;> intro h2
  all_goals repeat' first | with_reducible assumption | (refine (by with_reducible assumption : State.Canonical _ → State.Canonical _) ?_) | (refine fun (_ : State) (_ : State.Canonical _) => ?_) | (extract_lets +onlyGivenNames s; refine canonical_cut (s := s) ?_ (fun _ => ?_); rotate_left; clear_value s; rotate_left; subst s) | (extract_lets +onlyGivenNames s; refine mem_let s ?_; subst s) | (extract_lets +onlyGivenNames s; refine boot_let s ?_; subst s) | (extract_lets +onlyGivenNames s; clear_value s) | split | extract_lets | with_reducible apply State.beginSpill_canonical | (refine canonical_of_some (by with_reducible assumption) ?_) | refine State.canonical_mk ?_ rfl rfl

theorem State.makeRoom_canonical {x1} {x2} {x3 : State} (h3 : x3.Canonical) :
    (State.makeRoom x1 x2 x3).1.Canonical := by
  revert h3
  fun_induction State.makeRoom x1 x2 x3 <;> intro h3
  all_goals repeat' first | with_reducible assumption | (refine (by with_reducible assumption : State.Canonical _ → State.Canonical _) ?_) | (refine fun (_ : State) (_ : State.Canonical _) => ?_) | (extract_lets +onlyGivenNames s; refine canonical_cut (s := s) ?_ (fun _ => ?_); rotate_left; clear_value s; rotate_left; subst s) | (extract_lets +onlyGivenNames s; refine mem_let s ?_; subst s) | (extract_lets +onlyGivenNames s; refine boot_let s ?_; subst s) | (extract_lets +onlyGivenNames s; clear_value s) | split | extract_lets | with_reducible apply State.spillNow_canonical | (refine canonical_of_some (by with_reducible assumption) ?_) | refine State.canonical_mk ?_ rfl rfl

theorem execPageCopyEnd_canonical {x1} {x2 : State} (h2 : x2.Canonical) :
    OutCanonical (execPageCopyEnd x1 x2) := by
  unfold execPageCopyEnd
  repeat' first | with_reducible assumption | with_reducible apply canonical_next | (refine fun (_ : State) (_ : State.Canonical _) => ?_) | (extract_lets +onlyGivenNames s; refine canonical_cut (s := s) ?_ (fun _ => ?_); rotate_left; clear_value s; rotate_left; subst s) | (extract_lets +onlyGivenNames s; refine mem_let s ?_; subst s) | (extract_lets +onlyGivenNames s; refine boot_let s ?_; subst s) | (extract_lets +onlyGivenNames s; clear_value s) | split | extract_lets | with_reducible apply State.updPage_canonical | with_reducible apply State.freePages_canonical | with_reducible apply State.endCopy_canonical | refine State.canonical_mk ?_ rfl rfl

theorem State.allocFail_canonical {x1 : State} {x2} {x3} (h1 : x1.Canonical) :
    (State.allocFail x1 x2 x3).Canonical := by
  unfold State.allocFail
  repeat' first | with_reducible assumption | (refine fun (_ : State) (_ : State.Canonical _) => ?_) | (extract_lets +onlyGivenNames s; refine canonical_cut (s := s) ?_ (fun _ => ?_); rotate_left; clear_value s; rotate_left; subst s) | (extract_lets +onlyGivenNames s; refine mem_let s ?_; subst s) | (extract_lets +onlyGivenNames s; refine boot_let s ?_; subst s) | (extract_lets +onlyGivenNames s; clear_value s) | split | extract_lets | with_reducible apply State.satInc_canonical | with_reducible apply State.log_canonical | with_reducible apply State.detect_canonical | with_reducible apply State.kvcErr_canonical | refine State.canonical_mk ?_ rfl rfl

theorem State.allocPage_canonical {x1 : State} {x2} {x3} {x4} {x5} (h1 : x1.Canonical) :
    (State.allocPage x1 x2 x3 x4 x5).1.Canonical := by
  unfold State.allocPage
  split
  · exact pair_canonical (State.allocFail_canonical h1)
  rename_i q hq
  split
  · rename_i s e
    exact pair_canonical (State.allocFail_canonical (canonical_of_pair e (State.makeRoom_canonical h1)))
  · rename_i s a e
    exact pair_canonical (State.setPage_canonical (canonical_of_pair e (State.makeRoom_canonical h1)))

theorem State.writeRow_canonical {x1 : State} {x2} {x3} {x4} {x5} {x6} (h1 : x1.Canonical) :
    (State.writeRow x1 x2 x3 x4 x5 x6).Canonical := by
  unfold State.writeRow
  repeat' first | with_reducible assumption | (refine fun (_ : State) (_ : State.Canonical _) => ?_) | (extract_lets +onlyGivenNames s; refine canonical_cut (s := s) ?_ (fun _ => ?_); rotate_left; clear_value s; rotate_left; subst s) | (extract_lets +onlyGivenNames s; refine mem_let s ?_; subst s) | (extract_lets +onlyGivenNames s; refine boot_let s ?_; subst s) | (extract_lets +onlyGivenNames s; clear_value s) | split | extract_lets | with_reducible apply State.writeBytes_canonical | with_reducible apply State.setPage_canonical | refine State.canonical_mk ?_ rfl rfl

theorem State.pend_canonical {x1 : State} {x2} {x3} {x4} (h1 : x1.Canonical) :
    (State.pend x1 x2 x3 x4).Canonical := by
  unfold State.pend
  repeat' first | with_reducible assumption | (refine fun (_ : State) (_ : State.Canonical _) => ?_) | (extract_lets +onlyGivenNames s; refine canonical_cut (s := s) ?_ (fun _ => ?_); rotate_left; clear_value s; rotate_left; subst s) | (extract_lets +onlyGivenNames s; refine mem_let s ?_; subst s) | (extract_lets +onlyGivenNames s; refine boot_let s ?_; subst s) | (extract_lets +onlyGivenNames s; clear_value s) | split | extract_lets | refine State.canonical_mk ?_ rfl rfl

theorem State.appendRow_canonical {x1 : State} {x2} {x3} {x4} {x5} {x6} {x7} {x8} (h1 : x1.Canonical) :
    (State.appendRow x1 x2 x3 x4 x5 x6 x7 x8).Canonical := by
  unfold State.appendRow
  repeat' first | with_reducible assumption | (refine fun (_ : State) (_ : State.Canonical _) => ?_) | (extract_lets +onlyGivenNames s; refine canonical_cut (s := s) ?_ (fun _ => ?_); rotate_left; clear_value s; rotate_left; subst s) | (extract_lets +onlyGivenNames s; refine canonical_cut (s := s.1) ?_ (fun _ => ?_); rotate_left; clear_value s; rotate_left; subst s) | (extract_lets +onlyGivenNames s; refine mem_let s ?_; subst s) | (extract_lets +onlyGivenNames s; refine boot_let s ?_; subst s) | (extract_lets +onlyGivenNames s; clear_value s) | split | extract_lets | with_reducible apply State.satInc_canonical | with_reducible apply State.kvcErr_canonical | with_reducible apply State.copyWords_canonical | with_reducible apply State.allocPage_canonical | with_reducible apply State.writeRow_canonical | with_reducible apply State.pend_canonical | (refine canonical_of_pair (by with_reducible assumption) ?_) | refine State.canonical_mk ?_ rfl rfl

theorem State.kvcEnd_canonical {x1 : State} {x2} {x3} (h1 : x1.Canonical) :
    (State.kvcEnd x1 x2 x3).Canonical := by
  unfold State.kvcEnd
  repeat' first | with_reducible assumption | (refine fun (_ : State) (_ : State.Canonical _) => ?_) | (extract_lets +onlyGivenNames s; refine canonical_cut (s := s) ?_ (fun _ => ?_); rotate_left; clear_value s; rotate_left; subst s) | (extract_lets +onlyGivenNames s; refine mem_let s ?_; subst s) | (extract_lets +onlyGivenNames s; refine boot_let s ?_; subst s) | (extract_lets +onlyGivenNames s; clear_value s) | split | extract_lets | refine State.canonical_mk ?_ rfl rfl

theorem LayOut.andThen_canonical {α : Type} {x1 : LayOut} {x2 : LayOut → State × Except Nat α} (h1 : x1.s.Canonical)
    (h2 : ∀ t : LayOut, t.s.Canonical → (x2 t).1.Canonical) : (LayOut.andThen x1 x2).1.Canonical := by
  unfold LayOut.andThen
  split
  · exact h1
  · exact h2 _ h1

set_option maxRecDepth 4000 in
theorem State.appendReads_canonical {x1 : State} {x2} {x3} (h1 : x1.Canonical) :
    (State.appendReads x1 x2 x3).1.Canonical := by
  unfold State.appendReads
  split
  · exact pair_canonical (State.layFail_canonical h1)
  · split
    · exact pair_canonical (State.layFail_canonical h1)
    · refine LayOut.andThen_canonical (State.layRead_canonical h1) (fun k hk => ?_)
      refine LayOut.andThen_canonical (State.layRead_canonical hk) (fun v hv => ?_)
      split
      · exact pair_canonical hv
      · exact pair_canonical hv

theorem execAppend_canonical {x1 : State} (h1 : x1.Canonical) :
    OutCanonical (execAppend x1) := by
  unfold execAppend
  repeat' first | with_reducible assumption | with_reducible apply canonical_next | (refine fun (_ : State) (_ : State.Canonical _) => ?_) | (extract_lets +onlyGivenNames s; refine canonical_cut (s := s) ?_ (fun _ => ?_); rotate_left; clear_value s; rotate_left; subst s) | (extract_lets +onlyGivenNames s; refine canonical_cut (s := s.1) ?_ (fun _ => ?_); rotate_left; clear_value s; rotate_left; subst s) | (extract_lets +onlyGivenNames s; refine mem_let s ?_; subst s) | (extract_lets +onlyGivenNames s; refine boot_let s ?_; subst s) | (extract_lets +onlyGivenNames s; clear_value s) | split | extract_lets | with_reducible apply State.spillLow_canonical | with_reducible apply State.appendRow_canonical | with_reducible apply State.kvcEnd_canonical | with_reducible apply State.appendReads_canonical | (with_reducible apply foldl_canonical; intro _ _ _) | (refine canonical_of_pair (by with_reducible assumption) ?_) | refine State.canonical_mk ?_ rfl rfl

theorem State.fetchPage_canonical {x1 : State} {x2} {x3} (h1 : x1.Canonical) :
    (State.fetchPage x1 x2 x3).Canonical := by
  unfold State.fetchPage
  repeat' first | with_reducible assumption | (refine fun (_ : State) (_ : State.Canonical _) => ?_) | (extract_lets +onlyGivenNames s; refine canonical_cut (s := s) ?_ (fun _ => ?_); rotate_left; clear_value s; rotate_left; subst s) | (extract_lets +onlyGivenNames s; refine canonical_cut (s := s.1) ?_ (fun _ => ?_); rotate_left; clear_value s; rotate_left; subst s) | (extract_lets +onlyGivenNames s; refine mem_let s ?_; subst s) | (extract_lets +onlyGivenNames s; refine boot_let s ?_; subst s) | (extract_lets +onlyGivenNames s; clear_value s) | split | extract_lets | with_reducible apply State.updPage_canonical | with_reducible apply State.makeRoom_canonical | (refine canonical_of_pair (by with_reducible assumption) ?_) | refine State.canonical_mk ?_ rfl rfl

theorem execPrefetch_canonical {x1 : State} (h1 : x1.Canonical) :
    OutCanonical (execPrefetch x1) := by
  unfold execPrefetch
  repeat' first | with_reducible assumption | with_reducible apply canonical_next | (refine fun (_ : State) (_ : State.Canonical _) => ?_) | (extract_lets +onlyGivenNames s; refine canonical_cut (s := s) ?_ (fun _ => ?_); rotate_left; clear_value s; rotate_left; subst s) | (extract_lets +onlyGivenNames s; refine mem_let s ?_; subst s) | (extract_lets +onlyGivenNames s; refine boot_let s ?_; subst s) | (extract_lets +onlyGivenNames s; clear_value s) | split | extract_lets | with_reducible apply State.layFail_canonical | with_reducible apply State.spillLow_canonical | with_reducible apply State.kvcEnd_canonical | with_reducible apply State.fetchPage_canonical | (with_reducible apply foldl_canonical; intro _ _ _) | refine State.canonical_mk ?_ rfl rfl

end Sys2Proof.Machine
end

