-- ==== Sys2Proof/Laws/CanonicalFiring.lean ====
section
/-! SUPPORT. The canonical form is kept by every operation of Machine/Firing.lean. -/

namespace Sys2Proof.Machine

theorem State.goldenLeave_canonical {x1 : State} {x2} (h1 : x1.Canonical) :
    (State.goldenLeave x1 x2).Canonical := by
  unfold State.goldenLeave
  repeat' first | with_reducible assumption | (refine fun (_ : State) (_ : State.Canonical _) => ?_) | (extract_lets +onlyGivenNames s; refine canonical_cut (s := s) ?_ (fun _ => ?_); rotate_left; clear_value s; rotate_left; subst s) | (extract_lets +onlyGivenNames s; refine mem_let s ?_; subst s) | (extract_lets +onlyGivenNames s; refine boot_let s ?_; subst s) | (extract_lets +onlyGivenNames s; clear_value s) | split | extract_lets | with_reducible apply State.discardArray_canonical | with_reducible apply State.discardSteps_canonical | with_reducible apply State.syncOps_canonical | with_reducible apply State.dropWork_canonical | refine State.canonical_mk ?_ rfl rfl

theorem State.sendTokens_canonical {x1 : State} {x2} {x3} {x4} {x5} (h1 : x1.Canonical) :
    (State.sendTokens x1 x2 x3 x4 x5).Canonical := by
  unfold State.sendTokens
  repeat' first | with_reducible assumption | (refine fun (_ : State) (_ : State.Canonical _) => ?_) | (extract_lets +onlyGivenNames s; refine canonical_cut (s := s) ?_ (fun _ => ?_); rotate_left; clear_value s; rotate_left; subst s) | (extract_lets +onlyGivenNames s; refine mem_let s ?_; subst s) | (extract_lets +onlyGivenNames s; refine boot_let s ?_; subst s) | (extract_lets +onlyGivenNames s; clear_value s) | split | extract_lets | refine State.canonical_mk ?_ rfl rfl

theorem State.completeEntry_canonical {x1 : State} {x2} {x3} {x4} {x5} (h1 : x1.Canonical) :
    (State.completeEntry x1 x2 x3 x4 x5).Canonical := by
  unfold State.completeEntry
  repeat' first | with_reducible assumption | (refine fun (_ : State) (_ : State.Canonical _) => ?_) | (extract_lets +onlyGivenNames s; refine canonical_cut (s := s) ?_ (fun _ => ?_); rotate_left; clear_value s; rotate_left; subst s) | (extract_lets +onlyGivenNames s; refine mem_let s ?_; subst s) | (extract_lets +onlyGivenNames s; refine boot_let s ?_; subst s) | (extract_lets +onlyGivenNames s; clear_value s) | split | extract_lets | with_reducible apply State.raise_canonical | with_reducible apply State.syncOps_canonical | with_reducible apply State.admitWaiting_canonical | with_reducible apply State.sendTokens_canonical | refine State.canonical_mk ?_ rfl rfl

theorem State.unitDone_canonical {x1 : State} {x2} {x3} {x4} {x5} (h1 : x1.Canonical) :
    (State.unitDone x1 x2 x3 x4 x5).Canonical := by
  unfold State.unitDone
  repeat' first | with_reducible assumption | (refine fun (_ : State) (_ : State.Canonical _) => ?_) | (extract_lets +onlyGivenNames s; refine canonical_cut (s := s) ?_ (fun _ => ?_); rotate_left; clear_value s; rotate_left; subst s) | (extract_lets +onlyGivenNames s; refine mem_let s ?_; subst s) | (extract_lets +onlyGivenNames s; refine boot_let s ?_; subst s) | (extract_lets +onlyGivenNames s; clear_value s) | split | extract_lets | with_reducible apply State.emit_canonical | with_reducible apply State.completeEntry_canonical | refine State.canonical_mk ?_ rfl rfl

end Sys2Proof.Machine
end

