-- ==== Sys2Proof/Laws/CanonicalPose.lean ====
section
/-! SUPPORT. The canonical form is kept by every operation of Machine/Pose.lean. -/

namespace Sys2Proof.Machine

theorem State.usePose_canonical {x1 : State} {x2} {x3} (h1 : x1.Canonical) :
    (State.usePose x1 x2 x3).Canonical := by
  unfold State.usePose
  repeat' first | with_reducible assumption | (refine fun (_ : State) (_ : State.Canonical _) => ?_) | (extract_lets +onlyGivenNames s; refine canonical_cut (s := s) ?_ (fun _ => ?_); rotate_left; clear_value s; rotate_left; subst s) | (extract_lets +onlyGivenNames s; refine mem_let s ?_; subst s) | (extract_lets +onlyGivenNames s; refine boot_let s ?_; subst s) | (extract_lets +onlyGivenNames s; clear_value s) | split | extract_lets | with_reducible apply State.raise_canonical | with_reducible apply State.reportBad_canonical | with_reducible apply State.updInst_canonical | (with_reducible apply foldl_canonical; intro _ _ _) | refine State.canonical_mk ?_ rfl rfl

theorem State.poseForValue_canonical {x1 : State} {x2} {x3} (h1 : x1.Canonical) :
    (State.poseForValue x1 x2 x3).Canonical := by
  unfold State.poseForValue
  repeat' first | with_reducible assumption | (refine fun (_ : State) (_ : State.Canonical _) => ?_) | (extract_lets +onlyGivenNames s; refine canonical_cut (s := s) ?_ (fun _ => ?_); rotate_left; clear_value s; rotate_left; subst s) | (extract_lets +onlyGivenNames s; refine mem_let s ?_; subst s) | (extract_lets +onlyGivenNames s; refine boot_let s ?_; subst s) | (extract_lets +onlyGivenNames s; clear_value s) | split | extract_lets | with_reducible apply State.usePose_canonical | refine State.canonical_mk ?_ rfl rfl

end Sys2Proof.Machine
end

