-- ==== Sys2Proof/Laws/CanonicalAttention.lean ====
section
/-! SUPPORT. The canonical form is kept by every operation of Machine/Attention.lean. -/

namespace Sys2Proof.Machine

theorem State.atnEnd_canonical {x1 : State} {x2} {x3} {x4} {x5} (h1 : x1.Canonical) :
    (State.atnEnd x1 x2 x3 x4 x5).Canonical := by
  unfold State.atnEnd
  repeat' first | with_reducible assumption | (refine fun (_ : State) (_ : State.Canonical _) => ?_) | (extract_lets +onlyGivenNames s; refine canonical_cut (s := s) ?_ (fun _ => ?_); rotate_left; clear_value s; rotate_left; subst s) | (extract_lets +onlyGivenNames s; refine mem_let s ?_; subst s) | (extract_lets +onlyGivenNames s; refine boot_let s ?_; subst s) | (extract_lets +onlyGivenNames s; clear_value s) | split | extract_lets | refine State.canonical_mk ?_ rfl rfl

theorem State.atnErr_canonical {x1 : State} {x2} {x3} {x4} {x5} (h1 : x1.Canonical) :
    (State.atnErr x1 x2 x3 x4 x5).Canonical := by
  unfold State.atnErr
  repeat' first | with_reducible assumption | (refine fun (_ : State) (_ : State.Canonical _) => ?_) | (extract_lets +onlyGivenNames s; refine canonical_cut (s := s) ?_ (fun _ => ?_); rotate_left; clear_value s; rotate_left; subst s) | (extract_lets +onlyGivenNames s; refine mem_let s ?_; subst s) | (extract_lets +onlyGivenNames s; refine boot_let s ?_; subst s) | (extract_lets +onlyGivenNames s; clear_value s) | split | extract_lets | with_reducible apply State.put_canonical | refine State.canonical_mk ?_ rfl rfl

theorem State.atnEvent_canonical {x1 : State} {x2} (h1 : x1.Canonical) :
    (State.atnEvent x1 x2).Canonical := by
  unfold State.atnEvent
  repeat' first | with_reducible assumption | (refine fun (_ : State) (_ : State.Canonical _) => ?_) | (extract_lets +onlyGivenNames s; refine canonical_cut (s := s) ?_ (fun _ => ?_); rotate_left; clear_value s; rotate_left; subst s) | (extract_lets +onlyGivenNames s; refine mem_let s ?_; subst s) | (extract_lets +onlyGivenNames s; refine boot_let s ?_; subst s) | (extract_lets +onlyGivenNames s; clear_value s) | split | extract_lets | with_reducible apply State.raise_canonical | refine State.canonical_mk ?_ rfl rfl

theorem State.atnReject_canonical {x1 : State} {x2} {x3} {x4} {x5} {x6} (h1 : x1.Canonical) :
    (State.atnReject x1 x2 x3 x4 x5 x6).Canonical := by
  unfold State.atnReject
  repeat' first | with_reducible assumption | (refine fun (_ : State) (_ : State.Canonical _) => ?_) | (extract_lets +onlyGivenNames s; refine canonical_cut (s := s) ?_ (fun _ => ?_); rotate_left; clear_value s; rotate_left; subst s) | (extract_lets +onlyGivenNames s; refine mem_let s ?_; subst s) | (extract_lets +onlyGivenNames s; refine boot_let s ?_; subst s) | (extract_lets +onlyGivenNames s; clear_value s) | split | extract_lets | with_reducible apply State.satInc_canonical | with_reducible apply State.atnEnd_canonical | with_reducible apply State.atnErr_canonical | with_reducible apply State.atnEvent_canonical | refine State.canonical_mk ?_ rfl rfl

theorem State.closeStep_canonical {x1 : State} {x2} (h1 : x1.Canonical) :
    (State.closeStep x1 x2).Canonical := by
  unfold State.closeStep
  repeat' first | with_reducible assumption | (refine fun (_ : State) (_ : State.Canonical _) => ?_) | (extract_lets +onlyGivenNames s; refine canonical_cut (s := s) ?_ (fun _ => ?_); rotate_left; clear_value s; rotate_left; subst s) | (extract_lets +onlyGivenNames s; refine mem_let s ?_; subst s) | (extract_lets +onlyGivenNames s; refine boot_let s ?_; subst s) | (extract_lets +onlyGivenNames s; clear_value s) | split | extract_lets | with_reducible apply State.freePages_canonical | refine State.canonical_mk ?_ rfl rfl

theorem State.atnFault_canonical {x1 : State} {x2} {x3} {x4} (h1 : x1.Canonical) :
    (State.atnFault x1 x2 x3 x4).Canonical := by
  unfold State.atnFault
  repeat' first | with_reducible assumption | (refine fun (_ : State) (_ : State.Canonical _) => ?_) | (extract_lets +onlyGivenNames s; refine canonical_cut (s := s) ?_ (fun _ => ?_); rotate_left; clear_value s; rotate_left; subst s) | (extract_lets +onlyGivenNames s; refine mem_let s ?_; subst s) | (extract_lets +onlyGivenNames s; refine boot_let s ?_; subst s) | (extract_lets +onlyGivenNames s; clear_value s) | split | extract_lets | with_reducible apply State.satInc_canonical | with_reducible apply State.log_canonical | with_reducible apply State.detect_canonical | with_reducible apply State.atnEnd_canonical | with_reducible apply State.atnErr_canonical | with_reducible apply State.atnEvent_canonical | with_reducible apply State.closeStep_canonical | refine State.canonical_mk ?_ rfl rfl

theorem State.atnRejectOpen_canonical {x1 : State} {x2} {x3} {x4} (h1 : x1.Canonical) :
    (State.atnRejectOpen x1 x2 x3 x4).Canonical := by
  unfold State.atnRejectOpen
  repeat' first | with_reducible assumption | (refine fun (_ : State) (_ : State.Canonical _) => ?_) | (extract_lets +onlyGivenNames s; refine canonical_cut (s := s) ?_ (fun _ => ?_); rotate_left; clear_value s; rotate_left; subst s) | (extract_lets +onlyGivenNames s; refine mem_let s ?_; subst s) | (extract_lets +onlyGivenNames s; refine boot_let s ?_; subst s) | (extract_lets +onlyGivenNames s; clear_value s) | split | extract_lets | with_reducible apply State.atnReject_canonical | with_reducible apply State.closeStep_canonical | refine State.canonical_mk ?_ rfl rfl

theorem State.stepTableFault_canonical {x1 : State} {x2} {x3} {x4} {x5} (h1 : x1.Canonical) :
    (State.stepTableFault x1 x2 x3 x4 x5).Canonical := by
  unfold State.stepTableFault
  repeat' first | with_reducible assumption | (refine fun (_ : State) (_ : State.Canonical _) => ?_) | (extract_lets +onlyGivenNames s; refine canonical_cut (s := s) ?_ (fun _ => ?_); rotate_left; clear_value s; rotate_left; subst s) | (extract_lets +onlyGivenNames s; refine mem_let s ?_; subst s) | (extract_lets +onlyGivenNames s; refine boot_let s ?_; subst s) | (extract_lets +onlyGivenNames s; clear_value s) | split | extract_lets | with_reducible apply State.satInc_canonical | with_reducible apply State.log_canonical | with_reducible apply State.detect_canonical | with_reducible apply State.layFail_canonical | with_reducible apply State.atnEnd_canonical | with_reducible apply State.atnErr_canonical | with_reducible apply State.atnEvent_canonical | refine State.canonical_mk ?_ rfl rfl

theorem State.atnFire_canonical {x1 : State} {x2} {x3} {x4} (h1 : x1.Canonical) :
    (State.atnFire x1 x2 x3 x4).Canonical := by
  unfold State.atnFire
  repeat' first | with_reducible assumption | (refine fun (_ : State) (_ : State.Canonical _) => ?_) | (extract_lets +onlyGivenNames s; refine canonical_cut (s := s) ?_ (fun _ => ?_); rotate_left; clear_value s; rotate_left; subst s) | (extract_lets +onlyGivenNames s; refine mem_let s ?_; subst s) | (extract_lets +onlyGivenNames s; refine boot_let s ?_; subst s) | (extract_lets +onlyGivenNames s; clear_value s) | split | extract_lets | with_reducible apply State.modInc_canonical | with_reducible apply State.atnEnd_canonical | with_reducible apply State.atnReject_canonical | with_reducible apply State.stepTableFault_canonical | refine State.canonical_mk ?_ rfl rfl

def ReadGood {α : Type} (y : LayOut × α) : Prop := y.1.s.Canonical

theorem ReadGood.intro {α : Type} {y : LayOut × α} (h : y.1.s.Canonical) : ReadGood y := h

def RunGood (y : PhaseRun) : Prop := y.s.Canonical

theorem RunGood.out {y : PhaseRun} (h : RunGood y) : y.s.Canonical := h

def RunsGood {α : Type} (y : PhaseRun × α) : Prop := y.1.s.Canonical

theorem RunsGood.out {α : Type} {y : PhaseRun × α} (h : RunsGood y) : y.1.s.Canonical := h

theorem State.stepRead_canonical {x1 : State} {x2} {x3} {x4} {x5} (h1 : x1.Canonical) :
    (State.stepRead x1 x2 x3 x4 x5).1.s.Canonical := by
  unfold State.stepRead
  exact lay_pair_canonical (State.layRead_canonical h1)

theorem State.stepWrite_canonical {x1 : State} {x2} {x3} {x4} {x5} (h1 : x1.Canonical) :
    (State.stepWrite x1 x2 x3 x4 x5).s.Canonical := by
  exact State.layWrite_canonical h1

theorem State.scoreRow_canonical {x1 : State} {x2} {x3} {x4} {x5} {x6} {x7} {x8} (h1 : x1.Canonical) :
    (State.scoreRow x1 x2 x3 x4 x5 x6 x7 x8).2.2.2.Canonical := by
  unfold State.scoreRow
  refine foldl_keeps (P := fun a : List (Nat × Nat) × Bool × Bool × State => a.2.2.2.Canonical) ?_ h1
  intro t x h
  dsimp only
  split
  · exact h
  split
  · exact h
  split
  · dsimp only; exact State.reportBad_canonical (State.reportBad_canonical h)
  · dsimp only; exact State.reportBad_canonical h

theorem State.scoreOne_canonical {x1 : PhaseRun} {x2} {x3} {x4} {x5} {x6} {x7} {x8} (h1 : x1.s.Canonical) :
    (State.scoreOne x1 x2 x3 x4 x5 x6 x7 x8).s.Canonical := by
  unfold State.scoreOne
  split
  · exact h1
  extract_lets +onlyGivenNames r d fail
  have hf : ∀ (u : State) (c : Nat), u.Canonical → (fail u c).s.Canonical := fun u c h => h
  clear_value fail
  split
  · exact h1
  split
  · exact hf _ _ h1
  split
  · exact hf _ _ (State.layFail_canonical h1)
  extract_lets +onlyGivenNames sc
  have hsc : State.Canonical sc.2.2.2 := State.scoreRow_canonical h1
  clear_value sc
  split
  · exact hf _ _ hsc
  split
  · exact hf _ _ hsc
  extract_lets +onlyGivenNames s stride s2
  have h2 : State.Canonical s2 := State.writeBytes_canonical hsc
  clear_value s2
  extract_lets +onlyGivenNames s3
  have h3 : State.Canonical s3 := by
    subst s3
    split
    · exact State.writeBytes_canonical h2
    · exact h2
  clear_value s3
  extract_lets +onlyGivenNames rec_
  clear_value rec_
  split
  · split
    · exact hf _ _ (State.layFail_canonical h3)
    split
    · exact hf _ _ h3
    split
    · exact hf _ _ h3
    extract_lets +onlyGivenNames delta
    clear_value delta
    split
    · exact hf _ _ (State.layFail_canonical h3)
    · rename_i e
      exact canonical_of_ok e (State.ctxWrite_canonical h3)
  · split
    · exact hf _ _ (State.layFail_canonical h3)
    · rename_i e
      exact canonical_of_ok e (State.ctxWrite_canonical h3)

theorem State.scoreBlock_canonical {x1 : State} {x2} {x3} {x4} {x5} (h1 : x1.Canonical) :
    (State.scoreBlock x1 x2 x3 x4 x5).s.Canonical := by
  unfold State.scoreBlock
  extract_lets +onlyGivenNames dFmt oFmt
  exact foldl_keeps (P := fun y : PhaseRun => y.s.Canonical) (fun _ _ h => State.scoreOne_canonical h) h1

theorem PhaseRun.scored_canonical {x1 : PhaseRun} {x2} {x3} {x4} (h1 : x1.s.Canonical) :
    (PhaseRun.scored x1 x2 x3 x4).Canonical := by
  unfold PhaseRun.scored
  repeat' first | with_reducible assumption | (refine fun (_ : State) (_ : State.Canonical _) => ?_) | (extract_lets +onlyGivenNames s; refine canonical_cut (s := s) ?_ (fun _ => ?_); rotate_left; clear_value s; rotate_left; subst s) | (extract_lets +onlyGivenNames s; refine mem_let s ?_; subst s) | (extract_lets +onlyGivenNames s; refine boot_let s ?_; subst s) | (extract_lets +onlyGivenNames s; clear_value s) | split | extract_lets | with_reducible apply State.modAdd_canonical | with_reducible apply State.emit_canonical | with_reducible apply State.updStep_canonical | with_reducible apply State.atnFault_canonical | with_reducible apply State.atnRejectOpen_canonical | (with_reducible apply foldl_canonical; intro _ _ _) | refine State.canonical_mk ?_ rfl rfl

set_option maxRecDepth 4000 in
theorem State.stepInputs_canonical {x1 : State} {x2} {x3} {x4} (h1 : x1.Canonical) :
    (State.stepInputs x1 x2 x3 x4).2.2.1.s.Canonical := by
  unfold State.stepInputs
  extract_lets +onlyGivenNames q
  have hq : ReadGood q := ReadGood.intro (y := State.stepRead ..) (State.stepRead_canonical h1)
  clear_value q
  replace hq : q.1.s.Canonical := hq
  extract_lets +onlyGivenNames dO
  have hd : ReadGood dO := by
    subst dO
    split
    · exact ReadGood.intro (State.stepRead_canonical hq)
    · exact ReadGood.intro hq
  clear_value dO
  replace hd : dO.1.s.Canonical := hd
  extract_lets +onlyGivenNames o
  have ho : ReadGood o := by
    subst o
    split
    · exact ReadGood.intro (State.stepRead_canonical hd)
    · exact ReadGood.intro hd
  clear_value o
  exact ho

theorem execScoreDone_canonical {x1 : State} (h1 : x1.Canonical) : OutCanonical (execScoreDone x1) := by
  unfold execScoreDone
  apply canonical_next
  split
  · exact h1
  split
  · exact h1
  extract_lets +onlyGivenNames rows
  split
  · exact State.atnRejectOpen_canonical h1
  split
  · exact h1
  extract_lets +onlyGivenNames r
  have hr : ReadGood r.2.2 := State.stepInputs_canonical h1
  clear_value r
  replace hr : r.2.2.1.s.Canonical := hr
  split
  · exact State.atnFault_canonical hr
  split
  · exact State.atnFault_canonical hr
  · exact PhaseRun.scored_canonical (State.scoreBlock_canonical hr)

theorem State.normOne_canonical {x1 : PhaseRun} {x2} {x3} (h1 : x1.s.Canonical) :
    (State.normOne x1 x2 x3).s.Canonical := by
  unfold State.normOne
  split
  · exact h1
  extract_lets +onlyGivenNames r d n stride rec_ fail
  have hf : ∀ (u : State) (c : Nat), u.Canonical → (fail u c).s.Canonical := fun u c h => h
  clear_value fail
  extract_lets +onlyGivenNames s
  have hs : State.Canonical s := State.reportBad_canonical h1
  clear_value s
  split
  · exact hf _ _ hs
  split
  · exact hf _ _ (State.layFail_canonical hs)
  split
  · exact hf _ _ hs
  extract_lets +onlyGivenNames sc
  clear_value sc
  split
  · exact State.writeBytes_canonical (State.writeBytes_canonical hs)
  extract_lets +onlyGivenNames r4 s2 out
  have h2 : State.Canonical s2 := State.writeBytes_canonical hs
  clear_value s2 r4 out
  split
  · exact hf _ _ (State.layFail_canonical h2)
  rename_i s3 e3
  have h3 : State.Canonical s3 := canonical_of_ok e3 (State.ctxWrite_canonical h2)
  extract_lets +onlyGivenNames s4
  have h4 : State.Canonical s4 := by
    subst s4
    split
    · exact State.satInc_canonical (State.raise_canonical h3)
    · exact h3
  clear_value s4
  show State.Canonical (if _ then _ else _)
  split
  · exact State.satInc_canonical (State.raise_canonical h4)
  · exact h4

theorem State.normBlock_canonical {x1 : State} {x2} {x3} (h1 : x1.Canonical) :
    (State.normBlock x1 x2 x3).s.Canonical := by
  unfold State.normBlock
  exact foldl_keeps (P := fun y : PhaseRun => y.s.Canonical) (fun _ _ h => State.normOne_canonical h) h1

theorem PhaseRun.normed_canonical {x1 : PhaseRun} {x2} {x3} (h1 : x1.s.Canonical) :
    (PhaseRun.normed x1 x2 x3).Canonical := by
  unfold PhaseRun.normed
  repeat' first | with_reducible assumption | (refine fun (_ : State) (_ : State.Canonical _) => ?_) | (extract_lets +onlyGivenNames s; refine canonical_cut (s := s) ?_ (fun _ => ?_); rotate_left; clear_value s; rotate_left; subst s) | (extract_lets +onlyGivenNames s; refine mem_let s ?_; subst s) | (extract_lets +onlyGivenNames s; refine boot_let s ?_; subst s) | (extract_lets +onlyGivenNames s; clear_value s) | split | extract_lets | with_reducible apply State.atnFault_canonical | refine State.canonical_mk ?_ rfl rfl

theorem execNormDone_canonical {x1} {x2} {x3 : State} (h3 : x3.Canonical) :
    OutCanonical (execNormDone x1 x2 x3) := by
  unfold execNormDone
  apply canonical_next
  split
  · exact h3
  split
  · exact h3
  · exact PhaseRun.normed_canonical (State.normBlock_canonical h3)

theorem State.valueRow_canonical {x1 : State} {x2} {x3} {x4} {x5} {x6} (h1 : x1.Canonical) :
    (State.valueRow x1 x2 x3 x4 x5 x6).2.2.Canonical := by
  unfold State.valueRow
  refine foldl_keeps (P := fun a : List Nat × Bool × State => a.2.2.Canonical) ?_ h1
  intro t x h
  dsimp only
  split
  · exact h
  split
  · exact h
  · dsimp only; exact State.reportBad_canonical h

theorem State.valueOne_canonical {x1} {x2} {x3} (h1 : x1.1.s.Canonical) :
    (State.valueOne x1 x2 x3).1.s.Canonical := by
  unfold State.valueOne
  repeat' first
    | with_reducible assumption
    | split
    | with_reducible apply State.layFail_canonical
    | with_reducible apply State.writeBytes_canonical
    | with_reducible apply State.reportBad_canonical
    | with_reducible apply State.scoreRow_canonical
    | with_reducible apply State.valueRow_canonical
    | with_reducible apply State.raise_canonical
    | with_reducible apply State.satInc_canonical
    | (refine canonical_of_ok (by with_reducible assumption) ?_; with_reducible apply State.ctxWrite_canonical)
    | (refine canonical_of_emap (by with_reducible assumption) ?_; with_reducible apply State.addTerms_canonical)
    | (extract_lets +onlyGivenNames s; refine canonical_cut (s := s) ?_ (fun _ => ?_); rotate_left; clear_value s; rotate_left; subst s)
    | (extract_lets +onlyGivenNames s; refine canonical_cut (s := s.2.2) ?_ (fun _ => ?_); rotate_left; clear_value s; rotate_left; subst s)
    | (extract_lets +onlyGivenNames s; refine canonical_cut (s := s.2.2.2) ?_ (fun _ => ?_); rotate_left; clear_value s; rotate_left; subst s)
    | (extract_lets +onlyGivenNames s)
    | dsimp -zeta only

theorem State.blockDone_canonical {x1 : State} {x2} {x3} (h1 : x1.Canonical) :
    (State.blockDone x1 x2 x3).Canonical := by
  unfold State.blockDone
  repeat' first | with_reducible assumption | (refine fun (_ : State) (_ : State.Canonical _) => ?_) | (extract_lets +onlyGivenNames s; refine canonical_cut (s := s) ?_ (fun _ => ?_); rotate_left; clear_value s; rotate_left; subst s) | (extract_lets +onlyGivenNames s; refine mem_let s ?_; subst s) | (extract_lets +onlyGivenNames s; refine boot_let s ?_; subst s) | (extract_lets +onlyGivenNames s; clear_value s) | split | extract_lets | with_reducible apply State.modAdd_canonical | with_reducible apply State.modInc_canonical | with_reducible apply State.updStep_canonical | with_reducible apply State.atnEnd_canonical | with_reducible apply State.closeStep_canonical | refine State.canonical_mk ?_ rfl rfl

theorem State.valueBlock_canonical {x1 : State} {x2} {x3} (h1 : x1.Canonical) :
    (State.valueBlock x1 x2 x3).1.s.Canonical := by
  unfold State.valueBlock
  exact foldl_keeps (P := RunsGood) (fun _ _ h => State.valueOne_canonical h) h1

set_option maxRecDepth 4000 in
theorem State.rowsWritten_canonical {x1} {x2} {x3} {x4} {x5} (h1 : x1.1.s.Canonical) :
    (State.rowsWritten x1 x2 x3 x4 x5).Canonical := by
  unfold State.rowsWritten
  repeat' first | with_reducible assumption | (refine fun (_ : State) (_ : State.Canonical _) => ?_) | (extract_lets +onlyGivenNames s; refine canonical_cut (s := s) ?_ (fun _ => ?_); rotate_left; clear_value s; rotate_left; subst s) | (extract_lets +onlyGivenNames s; refine canonical_cut (s := s.s) ?_ (fun _ => ?_); rotate_left; clear_value s; rotate_left; subst s) | (extract_lets +onlyGivenNames s; refine mem_let s ?_; subst s) | (extract_lets +onlyGivenNames s; refine boot_let s ?_; subst s) | (extract_lets +onlyGivenNames s; clear_value s) | split | extract_lets | with_reducible apply State.atnFault_canonical | with_reducible apply State.stepWrite_canonical | with_reducible apply State.blockDone_canonical | refine State.canonical_mk ?_ rfl rfl

set_option maxRecDepth 4000 in
theorem execValueDone_canonical {x1} {x2} {x3 : State} (h3 : x3.Canonical) :
    OutCanonical (execValueDone x1 x2 x3) := by
  unfold execValueDone
  apply canonical_next
  split
  · exact h3
  split
  · exact h3
  · exact State.rowsWritten_canonical (State.valueBlock_canonical h3)

theorem State.addTerms_canonical {x1 : State} {x2} {x3} {x4} (h1 : x1.Canonical) :
    ExCanonical (Except.map Prod.fst (State.addTerms x1 x2 x3 x4)) := by
  rw [State.addTerms]
  split
  · exact canonical_emap_error
  extract_lets +onlyGivenNames new
  clear_value new
  refine foldl_keeps (P := fun r : Except Nat (State × Bool) => ExCanonical (Except.map Prod.fst r)) ?_ h1
  intro t x h
  split
  · exact canonical_emap_error
  split
  · exact canonical_emap_error
  · rename_i e
    exact canonical_of_ok e (State.ctxWrite_canonical h)

theorem State.gradCand_canonical {x1} {x2} {x3} {x4} {x5} {x6} {x7} {x8} {x9} {x10} (h1 : x1.1.s.Canonical) :
    (State.gradCand x1 x2 x3 x4 x5 x6 x7 x8 x9 x10).1.s.Canonical := by
  unfold State.gradCand
  split
  · exact h1
  extract_lets +onlyGivenNames d dim fail
  have hf : ∀ (u : State) (c : Nat), u.Canonical → (fail u c).1.s.Canonical := fun u c h => h
  clear_value fail
  split
  · exact hf _ _ h1
  extract_lets +onlyGivenNames k s sc at_ dK dV dQ
  have hs : State.Canonical s := State.reportBad_canonical h1
  clear_value s
  split
  · exact hf _ _ hs
  split
  · exact hf _ _ (State.layFail_canonical hs)
  rename_i s2 b1 e1
  have h2 : State.Canonical s2 := canonical_of_emap e1 (State.addTerms_canonical hs)
  split
  · exact hf _ _ (State.layFail_canonical h2)
  rename_i s3 b2 e2
  have h3 : State.Canonical s3 := canonical_of_emap e2 (State.addTerms_canonical h2)
  split
  · exact hf _ _ h3
  · exact h3

theorem State.gradOne_canonical {x1} {x2} {x3} {x4} {x5} {x6} (h1 : x1.1.s.Canonical) :
    (State.gradOne x1 x2 x3 x4 x5 x6).1.s.Canonical := by
  unfold State.gradOne
  split
  · exact h1
  extract_lets +onlyGivenNames r d n fail s
  have hs : s.Canonical := State.reportBad_canonical h1
  clear_value s
  split
  · exact State.layFail_canonical hs
  · exact hs
  split
  · exact hs
  extract_lets +onlyGivenNames p ds y
  have hy : RunsGood y := by
    refine foldl_keeps (P := RunsGood) ?_ hs
    intro t c h
    split
    · exact State.gradCand_canonical h
    · exact h
  exact hy

theorem State.gradBlock_canonical {x1 : State} {x2} {x3} {x4} {x5} {x6} (h1 : x1.Canonical) :
    (State.gradBlock x1 x2 x3 x4 x5 x6).1.s.Canonical := by
  unfold State.gradBlock
  exact foldl_keeps (P := RunsGood) (fun _ _ h => State.gradOne_canonical h) h1

set_option maxRecDepth 4000 in
theorem execGradientDone_canonical {x1} {x2} {x3 : State} (h3 : x3.Canonical) :
    OutCanonical (execGradientDone x1 x2 x3) := by
  unfold execGradientDone
  apply canonical_next
  split
  · exact h3
  extract_lets +onlyGivenNames d
  split
  · exact h3
  extract_lets +onlyGivenNames q
  have hq : ReadGood q := ReadGood.intro (y := State.stepRead ..) (State.stepRead_canonical h3)
  clear_value q
  replace hq : q.1.s.Canonical := hq
  extract_lets +onlyGivenNames dO
  have hd : ReadGood dO := ReadGood.intro (y := State.stepRead ..) (State.stepRead_canonical hq)
  clear_value dO
  replace hd : dO.1.s.Canonical := hd
  split
  · exact State.atnFault_canonical hd
  split
  · exact State.atnFault_canonical hd
  extract_lets +onlyGivenNames x
  exact State.rowsWritten_canonical (State.gradBlock_canonical hd)

end Sys2Proof.Machine
end

