-- ==== Sys2Proof/Laws/CanonicalPoints.lean ====
section
/-! SUPPORT. The canonical form is kept by every operation of Machine/Points.lean. -/

namespace Sys2Proof.Machine

theorem State.whenPts_canonical {x1 : State} {x2} (h1 : x1.Canonical) (h2 : ∀ t : State, t.Canonical → (x2 t).Canonical) :
    (State.whenPts x1 x2).Canonical := by
  unfold State.whenPts
  repeat' first | with_reducible assumption | (refine fun (_ : State) (_ : State.Canonical _) => ?_) | (extract_lets +onlyGivenNames s; refine canonical_cut (s := s) ?_ (fun _ => ?_); rotate_left; clear_value s; rotate_left; subst s) | (extract_lets +onlyGivenNames s; refine mem_let s ?_; subst s) | (extract_lets +onlyGivenNames s; refine boot_let s ?_; subst s) | (extract_lets +onlyGivenNames s; clear_value s) | split | extract_lets | apply h2 | refine State.canonical_mk ?_ rfl rfl

theorem State.updLslot_canonical {x1 : State} {x2} {x3} (h1 : x1.Canonical) :
    (State.updLslot x1 x2 x3).Canonical := by
  unfold State.updLslot
  repeat' first | with_reducible assumption | (refine fun (_ : State) (_ : State.Canonical _) => ?_) | (extract_lets +onlyGivenNames s; refine canonical_cut (s := s) ?_ (fun _ => ?_); rotate_left; clear_value s; rotate_left; subst s) | (extract_lets +onlyGivenNames s; refine mem_let s ?_; subst s) | (extract_lets +onlyGivenNames s; refine boot_let s ?_; subst s) | (extract_lets +onlyGivenNames s; clear_value s) | split | extract_lets | refine State.canonical_mk ?_ rfl rfl

theorem State.completePart_canonical {x1 : State} {x2} (h1 : x1.Canonical) :
    (State.completePart x1 x2).Canonical := by
  unfold State.completePart
  repeat' first | with_reducible assumption | (refine fun (_ : State) (_ : State.Canonical _) => ?_) | (extract_lets +onlyGivenNames s; refine canonical_cut (s := s) ?_ (fun _ => ?_); rotate_left; clear_value s; rotate_left; subst s) | (extract_lets +onlyGivenNames s; refine mem_let s ?_; subst s) | (extract_lets +onlyGivenNames s; refine boot_let s ?_; subst s) | (extract_lets +onlyGivenNames s; clear_value s) | split | extract_lets | with_reducible apply State.emit_canonical | with_reducible apply State.updLslot_canonical | refine State.canonical_mk ?_ rfl rfl

theorem State.countClamped_canonical {x1 : State} {x2} (h1 : x1.Canonical) :
    (State.countClamped x1 x2).Canonical := by
  unfold State.countClamped
  repeat' first | with_reducible assumption | (refine fun (_ : State) (_ : State.Canonical _) => ?_) | (extract_lets +onlyGivenNames s; refine canonical_cut (s := s) ?_ (fun _ => ?_); rotate_left; clear_value s; rotate_left; subst s) | (extract_lets +onlyGivenNames s; refine mem_let s ?_; subst s) | (extract_lets +onlyGivenNames s; refine boot_let s ?_; subst s) | (extract_lets +onlyGivenNames s; clear_value s) | split | extract_lets | with_reducible apply State.raise_canonical | with_reducible apply State.satInc_canonical | refine State.canonical_mk ?_ rfl rfl

theorem State.slicePoint_canonical {x1 : State} {x2} {x3} {x4} (h1 : x1.Canonical) :
    (State.slicePoint x1 x2 x3 x4).Canonical := by
  unfold State.slicePoint
  repeat' first | with_reducible assumption | (refine fun (_ : State) (_ : State.Canonical _) => ?_) | (extract_lets +onlyGivenNames s; refine canonical_cut (s := s) ?_ (fun _ => ?_); rotate_left; clear_value s; rotate_left; subst s) | (extract_lets +onlyGivenNames s; refine mem_let s ?_; subst s) | (extract_lets +onlyGivenNames s; refine boot_let s ?_; subst s) | (extract_lets +onlyGivenNames s; clear_value s) | split | extract_lets | with_reducible apply State.updTable_canonical | with_reducible apply State.updLslot_canonical | with_reducible apply State.completePart_canonical | with_reducible apply State.countClamped_canonical | refine State.canonical_mk ?_ rfl rfl

theorem State.keepPoint_canonical {x1 : State} {x2} {x3} {x4} (h1 : x1.Canonical) :
    (State.keepPoint x1 x2 x3 x4).Canonical := by
  unfold State.keepPoint
  repeat' first | with_reducible assumption | (refine fun (_ : State) (_ : State.Canonical _) => ?_) | (extract_lets +onlyGivenNames s; refine canonical_cut (s := s) ?_ (fun _ => ?_); rotate_left; clear_value s; rotate_left; subst s) | (extract_lets +onlyGivenNames s; refine mem_let s ?_; subst s) | (extract_lets +onlyGivenNames s; refine boot_let s ?_; subst s) | (extract_lets +onlyGivenNames s; clear_value s) | split | extract_lets | with_reducible apply State.raise_canonical | with_reducible apply State.writeBytes_canonical | with_reducible apply State.updLslot_canonical | refine State.canonical_mk ?_ rfl rfl

theorem State.insertEvents_canonical {x1 : State} {x2} {x3} {x4} (h1 : x1.Canonical) :
    (State.insertEvents x1 x2 x3 x4).Canonical := by
  unfold State.insertEvents
  repeat' first | with_reducible assumption | (refine fun (_ : State) (_ : State.Canonical _) => ?_) | (extract_lets +onlyGivenNames s; refine canonical_cut (s := s) ?_ (fun _ => ?_); rotate_left; clear_value s; rotate_left; subst s) | (extract_lets +onlyGivenNames s; refine mem_let s ?_; subst s) | (extract_lets +onlyGivenNames s; refine boot_let s ?_; subst s) | (extract_lets +onlyGivenNames s; clear_value s) | split | extract_lets | with_reducible apply State.raise_canonical | refine State.canonical_mk ?_ rfl rfl

theorem State.insertPart_canonical {x1 : State} {x2} {x3} (h1 : x1.Canonical) :
    (State.insertPart x1 x2 x3).Canonical := by
  unfold State.insertPart
  repeat' first | with_reducible assumption | (refine fun (_ : State) (_ : State.Canonical _) => ?_) | (extract_lets +onlyGivenNames s; refine canonical_cut (s := s) ?_ (fun _ => ?_); rotate_left; clear_value s; rotate_left; subst s) | (extract_lets +onlyGivenNames s; refine mem_let s ?_; subst s) | (extract_lets +onlyGivenNames s; refine boot_let s ?_; subst s) | (extract_lets +onlyGivenNames s; clear_value s) | split | extract_lets | with_reducible apply State.raise_canonical | with_reducible apply State.satInc_canonical | with_reducible apply State.emit_canonical | with_reducible apply State.updTable_canonical | with_reducible apply State.usePose_canonical | with_reducible apply State.insertEvents_canonical | refine State.canonical_mk ?_ rfl rfl

theorem State.flagCollecting_canonical {x1 : State} {x2} (h1 : x1.Canonical) :
    (State.flagCollecting x1 x2).Canonical := by
  unfold State.flagCollecting
  repeat' first | with_reducible assumption | (refine fun (_ : State) (_ : State.Canonical _) => ?_) | (extract_lets +onlyGivenNames s; refine canonical_cut (s := s) ?_ (fun _ => ?_); rotate_left; clear_value s; rotate_left; subst s) | (extract_lets +onlyGivenNames s; refine mem_let s ?_; subst s) | (extract_lets +onlyGivenNames s; refine boot_let s ?_; subst s) | (extract_lets +onlyGivenNames s; clear_value s) | split | extract_lets | refine State.canonical_mk ?_ rfl rfl

theorem State.pointGap_canonical {x1 : State} {x2} {x3} {x4} (h1 : x1.Canonical) :
    (State.pointGap x1 x2 x3 x4).Canonical := by
  unfold State.pointGap
  repeat' first | with_reducible assumption | (refine fun (_ : State) (_ : State.Canonical _) => ?_) | (extract_lets +onlyGivenNames s; refine canonical_cut (s := s) ?_ (fun _ => ?_); rotate_left; clear_value s; rotate_left; subst s) | (extract_lets +onlyGivenNames s; refine mem_let s ?_; subst s) | (extract_lets +onlyGivenNames s; refine boot_let s ?_; subst s) | (extract_lets +onlyGivenNames s; clear_value s) | split | extract_lets | with_reducible apply State.raise_canonical | with_reducible apply State.flagCollecting_canonical | refine State.canonical_mk ?_ rfl rfl

theorem State.decodeItem_canonical {x1 : State} {x2} {x3} {x4} {x5} {x6} {x7} (h1 : x1.Canonical) :
    (State.decodeItem x1 x2 x3 x4 x5 x6 x7).Canonical := by
  revert h1
  fun_induction State.decodeItem x1 x2 x3 x4 x5 x6 x7 <;> intro h1
  all_goals repeat' first | with_reducible assumption | (refine (by with_reducible assumption : State.Canonical _ → State.Canonical _) ?_) | (refine fun (_ : State) (_ : State.Canonical _) => ?_) | (extract_lets +onlyGivenNames s; refine canonical_cut (s := s) ?_ (fun _ => ?_); rotate_left; clear_value s; rotate_left; subst s) | (extract_lets +onlyGivenNames s; refine mem_let s ?_; subst s) | (extract_lets +onlyGivenNames s; refine boot_let s ?_; subst s) | (extract_lets +onlyGivenNames s; clear_value s) | split | extract_lets | with_reducible apply State.updTable_canonical | with_reducible apply State.slicePoint_canonical | with_reducible apply State.keepPoint_canonical | refine State.canonical_mk ?_ rfl rfl

theorem State.setGoldSlice_canonical {x1 : State} {x2} {x3} (h1 : x1.Canonical) :
    (State.setGoldSlice x1 x2 x3).Canonical := by
  unfold State.setGoldSlice
  repeat' first | with_reducible assumption | (refine fun (_ : State) (_ : State.Canonical _) => ?_) | (extract_lets +onlyGivenNames s; refine canonical_cut (s := s) ?_ (fun _ => ?_); rotate_left; clear_value s; rotate_left; subst s) | (extract_lets +onlyGivenNames s; refine mem_let s ?_; subst s) | (extract_lets +onlyGivenNames s; refine boot_let s ?_; subst s) | (extract_lets +onlyGivenNames s; clear_value s) | split | extract_lets | refine State.canonical_mk ?_ rfl rfl

theorem State.goldenPoint_canonical {x1 : State} {x2} {x3} (h1 : x1.Canonical) :
    (State.goldenPoint x1 x2 x3).Canonical := by
  unfold State.goldenPoint
  repeat' first | with_reducible assumption | (refine fun (_ : State) (_ : State.Canonical _) => ?_) | (extract_lets +onlyGivenNames s; refine canonical_cut (s := s) ?_ (fun _ => ?_); rotate_left; clear_value s; rotate_left; subst s) | (extract_lets +onlyGivenNames s; refine mem_let s ?_; subst s) | (extract_lets +onlyGivenNames s; refine boot_let s ?_; subst s) | (extract_lets +onlyGivenNames s; clear_value s) | split | extract_lets | with_reducible apply State.raise_canonical | with_reducible apply State.emit_canonical | with_reducible apply State.countClamped_canonical | with_reducible apply State.insertEvents_canonical | with_reducible apply State.setGoldSlice_canonical | refine State.canonical_mk ?_ rfl rfl

theorem State.goldenItem_canonical {x1 : State} {x2} {x3} {x4} {x5} {x6} (h1 : x1.Canonical) :
    (State.goldenItem x1 x2 x3 x4 x5 x6).Canonical := by
  unfold State.goldenItem
  repeat' first | with_reducible assumption | (refine fun (_ : State) (_ : State.Canonical _) => ?_) | (extract_lets +onlyGivenNames s; refine canonical_cut (s := s) ?_ (fun _ => ?_); rotate_left; clear_value s; rotate_left; subst s) | (extract_lets +onlyGivenNames s; refine mem_let s ?_; subst s) | (extract_lets +onlyGivenNames s; refine boot_let s ?_; subst s) | (extract_lets +onlyGivenNames s; clear_value s) | split | extract_lets | with_reducible apply State.setGoldSlice_canonical | with_reducible apply State.goldenPoint_canonical | (with_reducible apply foldl_canonical; intro _ _ _) | refine State.canonical_mk ?_ rfl rfl

theorem State.pointItem_canonical {x1 : State} {x2} {x3} {x4} {x5} {x6} {x7} (h1 : x1.Canonical) :
    (State.pointItem x1 x2 x3 x4 x5 x6 x7).Canonical := by
  unfold State.pointItem
  repeat' first | with_reducible assumption | (refine fun (_ : State) (_ : State.Canonical _) => ?_) | (extract_lets +onlyGivenNames s; refine canonical_cut (s := s) ?_ (fun _ => ?_); rotate_left; clear_value s; rotate_left; subst s) | (extract_lets +onlyGivenNames s; refine mem_let s ?_; subst s) | (extract_lets +onlyGivenNames s; refine boot_let s ?_; subst s) | (extract_lets +onlyGivenNames s; clear_value s) | split | extract_lets | with_reducible apply State.raise_canonical | with_reducible apply State.modInc_canonical | with_reducible apply State.updTable_canonical | with_reducible apply State.updLslot_canonical | with_reducible apply State.completePart_canonical | with_reducible apply State.decodeItem_canonical | refine State.canonical_mk ?_ rfl rfl

theorem execPointItemRead_canonical {x1} {x2 : State} (h2 : x2.Canonical) :
    OutCanonical (execPointItemRead x1 x2) := by
  unfold execPointItemRead
  repeat' first | with_reducible assumption | with_reducible apply canonical_next | (refine fun (_ : State) (_ : State.Canonical _) => ?_) | (extract_lets +onlyGivenNames s; refine canonical_cut (s := s) ?_ (fun _ => ?_); rotate_left; clear_value s; rotate_left; subst s) | (extract_lets +onlyGivenNames s; refine canonical_cut (s := s.1) ?_ (fun _ => ?_); rotate_left; clear_value s; rotate_left; subst s) | (extract_lets +onlyGivenNames s; refine mem_let s ?_; subst s) | (extract_lets +onlyGivenNames s; refine boot_let s ?_; subst s) | (extract_lets +onlyGivenNames s; clear_value s) | split | extract_lets | with_reducible apply State.raise_canonical | with_reducible apply State.takeItem_canonical | with_reducible apply State.whenPts_canonical | with_reducible apply State.completePart_canonical | with_reducible apply State.flagCollecting_canonical | with_reducible apply State.pointGap_canonical | with_reducible apply State.goldenItem_canonical | with_reducible apply State.pointItem_canonical | (refine canonical_of_pair (by with_reducible assumption) ?_) | refine State.canonical_mk ?_ rfl rfl

theorem execIntakeEnd_canonical {x1 : State} (h1 : x1.Canonical) :
    OutCanonical (execIntakeEnd x1) := by
  unfold execIntakeEnd
  repeat' first | with_reducible assumption | with_reducible apply canonical_next | (refine fun (_ : State) (_ : State.Canonical _) => ?_) | (extract_lets +onlyGivenNames s; refine canonical_cut (s := s) ?_ (fun _ => ?_); rotate_left; clear_value s; rotate_left; subst s) | (extract_lets +onlyGivenNames s; refine mem_let s ?_; subst s) | (extract_lets +onlyGivenNames s; refine boot_let s ?_; subst s) | (extract_lets +onlyGivenNames s; clear_value s) | split | extract_lets | with_reducible apply State.updWin_canonical | with_reducible apply State.whenPts_canonical | with_reducible apply State.completePart_canonical | (with_reducible apply foldl_canonical; intro _ _ _) | refine State.canonical_mk ?_ rfl rfl

theorem execPartCompensate_canonical {x1} {x2 : State} (h2 : x2.Canonical) :
    OutCanonical (execPartCompensate x1 x2) := by
  unfold execPartCompensate
  repeat' first | with_reducible assumption | with_reducible apply canonical_next | (refine fun (_ : State) (_ : State.Canonical _) => ?_) | (extract_lets +onlyGivenNames s; refine canonical_cut (s := s) ?_ (fun _ => ?_); rotate_left; clear_value s; rotate_left; subst s) | (extract_lets +onlyGivenNames s; refine mem_let s ?_; subst s) | (extract_lets +onlyGivenNames s; refine boot_let s ?_; subst s) | (extract_lets +onlyGivenNames s; clear_value s) | split | extract_lets | with_reducible apply State.whenPts_canonical | with_reducible apply State.insertPart_canonical | refine State.canonical_mk ?_ rfl rfl

theorem execPoseWaitTimeout_canonical {x1} {x2 : State} (h2 : x2.Canonical) :
    OutCanonical (execPoseWaitTimeout x1 x2) := by
  unfold execPoseWaitTimeout
  repeat' first | with_reducible assumption | with_reducible apply canonical_next | (refine fun (_ : State) (_ : State.Canonical _) => ?_) | (extract_lets +onlyGivenNames s; refine canonical_cut (s := s) ?_ (fun _ => ?_); rotate_left; clear_value s; rotate_left; subst s) | (extract_lets +onlyGivenNames s; refine mem_let s ?_; subst s) | (extract_lets +onlyGivenNames s; refine boot_let s ?_; subst s) | (extract_lets +onlyGivenNames s; clear_value s) | split | extract_lets | with_reducible apply State.whenPts_canonical | with_reducible apply State.insertPart_canonical | refine State.canonical_mk ?_ rfl rfl

theorem State.writeTable_canonical {x1 : State} {x2} {x3} (h1 : x1.Canonical) :
    (State.writeTable x1 x2 x3).Canonical := by
  unfold State.writeTable
  repeat' first | with_reducible assumption | (refine fun (_ : State) (_ : State.Canonical _) => ?_) | (extract_lets +onlyGivenNames s; refine canonical_cut (s := s) ?_ (fun _ => ?_); rotate_left; clear_value s; rotate_left; subst s) | (extract_lets +onlyGivenNames s; refine mem_let s ?_; subst s) | (extract_lets +onlyGivenNames s; refine boot_let s ?_; subst s) | (extract_lets +onlyGivenNames s; clear_value s) | split | extract_lets | with_reducible apply State.writeBytes_canonical | with_reducible apply State.writeLe_canonical | with_reducible apply State.zeroFill_canonical | (with_reducible apply foldl_canonical; intro _ _ _) | refine State.canonical_mk ?_ rfl rfl

theorem execTableClose_canonical {x1 : State} (h1 : x1.Canonical) :
    OutCanonical (execTableClose x1) := by
  unfold execTableClose
  repeat' first | with_reducible assumption | with_reducible apply canonical_next | (refine fun (_ : State) (_ : State.Canonical _) => ?_) | (extract_lets +onlyGivenNames s; refine canonical_cut (s := s) ?_ (fun _ => ?_); rotate_left; clear_value s; rotate_left; subst s) | (extract_lets +onlyGivenNames s; refine mem_let s ?_; subst s) | (extract_lets +onlyGivenNames s; refine boot_let s ?_; subst s) | (extract_lets +onlyGivenNames s; clear_value s) | split | extract_lets | with_reducible apply State.put_canonical | with_reducible apply State.updTable_canonical | with_reducible apply State.startBudget_canonical | with_reducible apply State.endBudget_canonical | with_reducible apply State.unitDone_canonical | with_reducible apply State.whenPts_canonical | with_reducible apply State.writeTable_canonical | (with_reducible apply foldl_canonical; intro _ _ _) | refine State.canonical_mk ?_ rfl rfl

theorem execTableFree_canonical {x1 : State} (h1 : x1.Canonical) :
    OutCanonical (execTableFree x1) := by
  unfold execTableFree
  repeat' first | with_reducible assumption | with_reducible apply canonical_next | (refine fun (_ : State) (_ : State.Canonical _) => ?_) | (extract_lets +onlyGivenNames s; refine canonical_cut (s := s) ?_ (fun _ => ?_); rotate_left; clear_value s; rotate_left; subst s) | (extract_lets +onlyGivenNames s; refine mem_let s ?_; subst s) | (extract_lets +onlyGivenNames s; refine boot_let s ?_; subst s) | (extract_lets +onlyGivenNames s; clear_value s) | split | extract_lets | with_reducible apply State.freeTable_canonical | with_reducible apply State.whenPts_canonical | refine State.canonical_mk ?_ rfl rfl

theorem State.rebuildTable_canonical {x1 : State} {x2} (h1 : x1.Canonical) :
    (State.rebuildTable x1 x2).Canonical := by
  unfold State.rebuildTable
  repeat' first | with_reducible assumption | (refine fun (_ : State) (_ : State.Canonical _) => ?_) | (extract_lets +onlyGivenNames s; refine canonical_cut (s := s) ?_ (fun _ => ?_); rotate_left; clear_value s; rotate_left; subst s) | (extract_lets +onlyGivenNames s; refine mem_let s ?_; subst s) | (extract_lets +onlyGivenNames s; refine boot_let s ?_; subst s) | (extract_lets +onlyGivenNames s; clear_value s) | split | extract_lets | with_reducible apply State.raise_canonical | with_reducible apply State.updTable_canonical | with_reducible apply State.updWin_canonical | with_reducible apply State.queueRewind_canonical | (with_reducible apply foldl_canonical; intro _ _ _) | refine State.canonical_mk ?_ rfl rfl

end Sys2Proof.Machine
end

