-- ==== Sys2Proof/Laws/CanonicalSparse.lean ====
section
/-! SUPPORT. The canonical form is kept by every operation of Machine/Sparse.lean. -/

namespace Sys2Proof.Machine

theorem State.setSpc_canonical {x1 : State} {x2} {x3} (h1 : x1.Canonical) :
    (State.setSpc x1 x2 x3).Canonical := by
  unfold State.setSpc
  repeat' first | with_reducible assumption | (refine fun (_ : State) (_ : State.Canonical _) => ?_) | (extract_lets +onlyGivenNames s; refine canonical_cut (s := s) ?_ (fun _ => ?_); rotate_left; clear_value s; rotate_left; subst s) | (extract_lets +onlyGivenNames s; refine mem_let s ?_; subst s) | (extract_lets +onlyGivenNames s; refine boot_let s ?_; subst s) | (extract_lets +onlyGivenNames s; clear_value s) | split | extract_lets | refine State.canonical_mk ?_ rfl rfl

theorem State.addSite_canonical {x1 : State} {x2} {x3} {x4} {x5} {x6} (h1 : x1.Canonical) :
    (State.addSite x1 x2 x3 x4 x5 x6).1.Canonical := by
  rw [State.addSite]
  repeat' first | with_reducible assumption | (refine fun (_ : State) (_ : State.Canonical _) => ?_) | (extract_lets +onlyGivenNames s; refine canonical_cut (s := s) ?_ (fun _ => ?_); rotate_left; clear_value s; rotate_left; subst s) | (extract_lets +onlyGivenNames s; refine mem_let s ?_; subst s) | (extract_lets +onlyGivenNames s; refine boot_let s ?_; subst s) | (extract_lets +onlyGivenNames s; clear_value s) | split | extract_lets | with_reducible apply State.raise_canonical | with_reducible apply State.writeLe_canonical | refine State.canonical_mk ?_ rfl rfl

theorem State.offerSite_canonical {x1 : State} {x2} {x3} {x4} {x5} (h1 : x1.Canonical) :
    (State.offerSite x1 x2 x3 x4 x5).1.Canonical := by
  rw [State.offerSite]
  repeat' first | with_reducible assumption | (refine fun (_ : State) (_ : State.Canonical _) => ?_) | (extract_lets +onlyGivenNames s; refine canonical_cut (s := s) ?_ (fun _ => ?_); rotate_left; clear_value s; rotate_left; subst s) | (extract_lets +onlyGivenNames s; refine canonical_cut (s := s.1) ?_ (fun _ => ?_); rotate_left; clear_value s; rotate_left; subst s) | (extract_lets +onlyGivenNames s; refine mem_let s ?_; subst s) | (extract_lets +onlyGivenNames s; refine boot_let s ?_; subst s) | (extract_lets +onlyGivenNames s; clear_value s) | split | extract_lets | with_reducible apply State.raise_canonical | with_reducible apply State.addSite_canonical | (refine canonical_of_pair (by with_reducible assumption) ?_) | refine State.canonical_mk ?_ rfl rfl

theorem State.offerSites_canonical {x1 : State} {x2} {x3} {x4} (h1 : x1.Canonical) :
    (State.offerSites x1 x2 x3 x4).1.Canonical := by
  revert h1
  fun_induction State.offerSites x1 x2 x3 x4 <;> intro h1
  all_goals repeat' first | with_reducible assumption | (refine (by with_reducible assumption : State.Canonical _ → State.Canonical _) ?_) | (refine fun (_ : State) (_ : State.Canonical _) => ?_) | (extract_lets +onlyGivenNames s; refine canonical_cut (s := s) ?_ (fun _ => ?_); rotate_left; clear_value s; rotate_left; subst s) | (extract_lets +onlyGivenNames s; refine canonical_cut (s := s.1) ?_ (fun _ => ?_); rotate_left; clear_value s; rotate_left; subst s) | (extract_lets +onlyGivenNames s; refine mem_let s ?_; subst s) | (extract_lets +onlyGivenNames s; refine boot_let s ?_; subst s) | (extract_lets +onlyGivenNames s; clear_value s) | split | extract_lets | with_reducible apply State.offerSite_canonical | (refine canonical_of_pair (by with_reducible assumption) ?_) | refine State.canonical_mk ?_ rfl rfl

theorem execSparseConvStart_canonical {x1} {x2 : State} (h2 : x2.Canonical) :
    OutCanonical (execSparseConvStart x1 x2) := by
  unfold execSparseConvStart
  apply canonical_next
  apply State.whenPts_canonical h2
  intro s hs
  extract_lets +onlyGivenNames go
  have hgo : ∀ u t e g, u.Canonical → State.Canonical (go u t e g) := by
    intro u t e g hu
    simp only [go]
    exact State.setSpc_canonical (State.offerSites_canonical (State.zeroFill_canonical hu))
  clear_value go
  split
  · exact hs
  split
  · split
    · extract_lets +onlyGivenNames u1 u2
      exact hgo _ _ _ _ (State.canonical_mk (State.writeTable_canonical hs) rfl rfl)
    · exact hs
  repeat' first | exact hs | exact hgo _ _ _ _ hs | split

theorem execDilate_canonical {x1} {x2 : State} (h2 : x2.Canonical) :
    OutCanonical (execDilate x1 x2) := by
  unfold execDilate
  repeat' first | with_reducible assumption | with_reducible apply canonical_next | (refine fun (_ : State) (_ : State.Canonical _) => ?_) | (extract_lets +onlyGivenNames s; refine canonical_cut (s := s) ?_ (fun _ => ?_); rotate_left; clear_value s; rotate_left; subst s) | (extract_lets +onlyGivenNames s; refine canonical_cut (s := s.1) ?_ (fun _ => ?_); rotate_left; clear_value s; rotate_left; subst s) | (extract_lets +onlyGivenNames s; refine mem_let s ?_; subst s) | (extract_lets +onlyGivenNames s; refine boot_let s ?_; subst s) | (extract_lets +onlyGivenNames s; clear_value s) | split | extract_lets | with_reducible apply State.unitDone_canonical | with_reducible apply State.whenPts_canonical | with_reducible apply State.setSpc_canonical | with_reducible apply State.offerSites_canonical | (refine canonical_of_pair (by with_reducible assumption) ?_) | refine State.canonical_mk ?_ rfl rfl

theorem State.layerDone_canonical {x1 : State} {x2} {x3} (h1 : x1.Canonical) :
    (State.layerDone x1 x2 x3).Canonical := by
  unfold State.layerDone
  repeat' first | with_reducible assumption | (refine fun (_ : State) (_ : State.Canonical _) => ?_) | (extract_lets +onlyGivenNames s; refine canonical_cut (s := s) ?_ (fun _ => ?_); rotate_left; clear_value s; rotate_left; subst s) | (extract_lets +onlyGivenNames s; refine mem_let s ?_; subst s) | (extract_lets +onlyGivenNames s; refine boot_let s ?_; subst s) | (extract_lets +onlyGivenNames s; clear_value s) | split | extract_lets | with_reducible apply State.updTable_canonical | with_reducible apply State.unitDone_canonical | with_reducible apply State.setSpc_canonical | refine State.canonical_mk ?_ rfl rfl

theorem execStagingBlock_canonical {x1} {x2 : State} (h2 : x2.Canonical) :
    OutCanonical (execStagingBlock x1 x2) := by
  unfold execStagingBlock
  repeat' first | with_reducible assumption | with_reducible apply canonical_next | (refine fun (_ : State) (_ : State.Canonical _) => ?_) | (extract_lets +onlyGivenNames s; refine canonical_cut (s := s) ?_ (fun _ => ?_); rotate_left; clear_value s; rotate_left; subst s) | (extract_lets +onlyGivenNames s; refine mem_let s ?_; subst s) | (extract_lets +onlyGivenNames s; refine boot_let s ?_; subst s) | (extract_lets +onlyGivenNames s; clear_value s) | split | extract_lets | with_reducible apply State.raise_canonical | with_reducible apply State.writeBytes_canonical | with_reducible apply State.reportBad_canonical | with_reducible apply State.whenPts_canonical | with_reducible apply State.setSpc_canonical | with_reducible apply State.layerDone_canonical | (with_reducible apply foldl_canonical; intro _ _ _) | refine State.canonical_mk ?_ rfl rfl

theorem State.degradeBlocks_canonical {x1 : State} {x2} {x3} (h1 : x1.Canonical) :
    (State.degradeBlocks x1 x2 x3).1.Canonical := by
  rw [State.degradeBlocks]
  repeat' first | with_reducible assumption | (refine fun (_ : State) (_ : State.Canonical _) => ?_) | (extract_lets +onlyGivenNames s; refine canonical_cut (s := s) ?_ (fun _ => ?_); rotate_left; clear_value s; rotate_left; subst s) | (extract_lets +onlyGivenNames s; refine mem_let s ?_; subst s) | (extract_lets +onlyGivenNames s; refine boot_let s ?_; subst s) | (extract_lets +onlyGivenNames s; clear_value s) | split | extract_lets | with_reducible apply State.writeBytes_canonical | (with_reducible apply foldl_canonical; intro _ _ _) | refine State.canonical_mk ?_ rfl rfl

theorem State.spcDone_canonical {x1 : State} {x2} {x3} (h1 : x1.Canonical) :
    (State.spcDone x1 x2 x3).Canonical := by
  unfold State.spcDone
  repeat' first | with_reducible assumption | (refine fun (_ : State) (_ : State.Canonical _) => ?_) | (extract_lets +onlyGivenNames s; refine canonical_cut (s := s) ?_ (fun _ => ?_); rotate_left; clear_value s; rotate_left; subst s) | (extract_lets +onlyGivenNames s; refine canonical_cut (s := s.1) ?_ (fun _ => ?_); rotate_left; clear_value s; rotate_left; subst s) | (extract_lets +onlyGivenNames s; refine mem_let s ?_; subst s) | (extract_lets +onlyGivenNames s; refine boot_let s ?_; subst s) | (extract_lets +onlyGivenNames s; clear_value s) | split | extract_lets | with_reducible apply State.put_canonical | with_reducible apply State.updInst_canonical | with_reducible apply State.endBudget_canonical | with_reducible apply State.unitDone_canonical | with_reducible apply State.poseForValue_canonical | with_reducible apply State.setSpc_canonical | with_reducible apply State.degradeBlocks_canonical | (refine canonical_of_pair (by with_reducible assumption) ?_) | refine State.canonical_mk ?_ rfl rfl

set_option maxRecDepth 4000 in
theorem execOutputBlock_canonical {x1} {x2 : State} (h2 : x2.Canonical) :
    OutCanonical (execOutputBlock x1 x2) := by
  unfold execOutputBlock
  apply canonical_next
  apply State.whenPts_canonical h2
  intro s hs
  split
  · exact hs
  split
  · exact hs
  extract_lets +onlyGivenNames mine ovf next
  have hnext : ∀ (u : State) (b : Block), u.Canonical → (next u b).Canonical := by
    intro u b hu
    simp only [next]
    have hv : ∀ (n : Nat) (l : List Byte), (if b.empty then u else u.writeBytes (u.tileBuf n) l).Canonical := by
      intro n l
      split
      · exact hu
      · exact State.writeBytes_canonical hu
    split
    · exact State.spcDone_canonical (hv _ _)
    · exact State.setSpc_canonical (hv _ _)
  clear_value next mine
  split
  · exact hnext _ _ hs
  extract_lets +onlyGivenNames held
  clear_value held
  split
  · exact hs
  extract_lets +onlyGivenNames len fb bad rows s2 s3
  clear_value rows
  have h2 : State.Canonical s2 := by
    subst s2
    split
    · exact State.raise_canonical (foldl_canonical (fun _ _ h => State.reportBad_canonical h) hs)
    · exact hs
  have h3 : State.Canonical s3 := State.writeBytes_canonical h2
  clear_value s3
  exact hnext _ _ h3

end Sys2Proof.Machine
end

