-- ==== Sys2Proof/Laws/CanonicalFusion.lean ====
section
/-! SUPPORT. The canonical form is kept by every operation of Machine/Fusion.lean. -/

namespace Sys2Proof.Machine

theorem State.whenGlz_canonical {x1 : State} {x2} (h1 : x1.Canonical) (h2 : ∀ t : State, t.Canonical → (x2 t).Canonical) :
    (State.whenGlz x1 x2).Canonical := by
  unfold State.whenGlz
  repeat' first | with_reducible assumption | (refine fun (_ : State) (_ : State.Canonical _) => ?_) | (extract_lets +onlyGivenNames s; refine canonical_cut (s := s) ?_ (fun _ => ?_); rotate_left; clear_value s; rotate_left; subst s) | (extract_lets +onlyGivenNames s; refine mem_let s ?_; subst s) | (extract_lets +onlyGivenNames s; refine boot_let s ?_; subst s) | (extract_lets +onlyGivenNames s; clear_value s) | split | extract_lets | apply h2 | refine State.canonical_mk ?_ rfl rfl

theorem State.composeInput_canonical {x1 : State} {x2} {x3} (h1 : x1.Canonical) :
    (State.composeInput x1 x2 x3).1.Canonical := by
  rw [State.composeInput]
  repeat' first | with_reducible assumption | (refine fun (_ : State) (_ : State.Canonical _) => ?_) | (extract_lets +onlyGivenNames s; refine canonical_cut (s := s) ?_ (fun _ => ?_); rotate_left; clear_value s; rotate_left; subst s) | (extract_lets +onlyGivenNames s; refine mem_let s ?_; subst s) | (extract_lets +onlyGivenNames s; refine boot_let s ?_; subst s) | (extract_lets +onlyGivenNames s; clear_value s) | split | extract_lets | with_reducible apply State.reportBad_canonical | (with_reducible apply foldl_canonical; intro _ _ _) | refine State.canonical_mk ?_ rfl rfl

theorem State.composeEvents_canonical {x1 : State} {x2} {x3} {x4} (h1 : x1.Canonical) :
    (State.composeEvents x1 x2 x3 x4).Canonical := by
  unfold State.composeEvents
  repeat' first | with_reducible assumption | (refine fun (_ : State) (_ : State.Canonical _) => ?_) | (extract_lets +onlyGivenNames s; refine canonical_cut (s := s) ?_ (fun _ => ?_); rotate_left; clear_value s; rotate_left; subst s) | (extract_lets +onlyGivenNames s; refine mem_let s ?_; subst s) | (extract_lets +onlyGivenNames s; refine boot_let s ?_; subst s) | (extract_lets +onlyGivenNames s; clear_value s) | split | extract_lets | with_reducible apply State.raise_canonical | refine State.canonical_mk ?_ rfl rfl

theorem State.unchecked_canonical {x1 : State} {x2} (h1 : x1.Canonical) :
    (State.unchecked x1 x2).Canonical := by
  unfold State.unchecked
  repeat' first | with_reducible assumption | (refine fun (_ : State) (_ : State.Canonical _) => ?_) | (extract_lets +onlyGivenNames s; refine canonical_cut (s := s) ?_ (fun _ => ?_); rotate_left; clear_value s; rotate_left; subst s) | (extract_lets +onlyGivenNames s; refine mem_let s ?_; subst s) | (extract_lets +onlyGivenNames s; refine boot_let s ?_; subst s) | (extract_lets +onlyGivenNames s; clear_value s) | split | extract_lets | with_reducible apply State.raise_canonical | with_reducible apply State.satInc_canonical | with_reducible apply State.detect_canonical | refine State.canonical_mk ?_ rfl rfl

theorem State.compare_canonical {x1 : State} {x2} {x3} {x4} (h1 : x1.Canonical) :
    (State.compare x1 x2 x3 x4).1.Canonical := by
  rw [State.compare]
  repeat' first | with_reducible assumption | (refine fun (_ : State) (_ : State.Canonical _) => ?_) | (extract_lets +onlyGivenNames s; refine canonical_cut (s := s) ?_ (fun _ => ?_); rotate_left; clear_value s; rotate_left; subst s) | (extract_lets +onlyGivenNames s; refine mem_let s ?_; subst s) | (extract_lets +onlyGivenNames s; refine boot_let s ?_; subst s) | (extract_lets +onlyGivenNames s; clear_value s) | split | extract_lets | with_reducible apply State.put_canonical | with_reducible apply State.raise_canonical | with_reducible apply State.satInc_canonical | with_reducible apply State.modInc_canonical | with_reducible apply State.life_canonical | with_reducible apply State.detect_canonical | refine State.canonical_mk ?_ rfl rfl

theorem State.compared_canonical {x1 : State} {x2} {x3} {x4} (h1 : x1.Canonical) :
    (State.compared x1 x2 x3 x4).Canonical := by
  unfold State.compared
  repeat' first | with_reducible assumption | (refine fun (_ : State) (_ : State.Canonical _) => ?_) | (extract_lets +onlyGivenNames s; refine canonical_cut (s := s) ?_ (fun _ => ?_); rotate_left; clear_value s; rotate_left; subst s) | (extract_lets +onlyGivenNames s; refine mem_let s ?_; subst s) | (extract_lets +onlyGivenNames s; refine boot_let s ?_; subst s) | (extract_lets +onlyGivenNames s; clear_value s) | split | extract_lets | with_reducible apply State.updInst_canonical | with_reducible apply State.endBudget_canonical | with_reducible apply State.issueTile_canonical | refine State.canonical_mk ?_ rfl rfl

theorem State.reissue_canonical {x1 : State} {x2} {x3} {x4} (h1 : x1.Canonical) :
    (State.reissue x1 x2 x3 x4).Canonical := by
  unfold State.reissue
  repeat' first | with_reducible assumption | (refine fun (_ : State) (_ : State.Canonical _) => ?_) | (extract_lets +onlyGivenNames s; refine canonical_cut (s := s) ?_ (fun _ => ?_); rotate_left; clear_value s; rotate_left; subst s) | (extract_lets +onlyGivenNames s; refine mem_let s ?_; subst s) | (extract_lets +onlyGivenNames s; refine boot_let s ?_; subst s) | (extract_lets +onlyGivenNames s; clear_value s) | split | extract_lets | with_reducible apply State.raise_canonical | with_reducible apply State.satInc_canonical | with_reducible apply State.writeBytes_canonical | with_reducible apply State.count_canonical | with_reducible apply State.queueWrite_canonical | with_reducible apply State.updInst_canonical | with_reducible apply State.endBudget_canonical | with_reducible apply State.deliverTile_canonical | refine State.canonical_mk ?_ rfl rfl

theorem State.goldenMissCheck_canonical {x1 : State} {x2} (h1 : x1.Canonical) :
    (State.goldenMissCheck x1 x2).Canonical := by
  unfold State.goldenMissCheck
  repeat' first | with_reducible assumption | (refine fun (_ : State) (_ : State.Canonical _) => ?_) | (extract_lets +onlyGivenNames s; refine canonical_cut (s := s) ?_ (fun _ => ?_); rotate_left; clear_value s; rotate_left; subst s) | (extract_lets +onlyGivenNames s; refine mem_let s ?_; subst s) | (extract_lets +onlyGivenNames s; refine boot_let s ?_; subst s) | (extract_lets +onlyGivenNames s; clear_value s) | split | extract_lets | with_reducible apply State.put_canonical | with_reducible apply State.raise_canonical | with_reducible apply State.satAdd_canonical | with_reducible apply State.detect_canonical | with_reducible apply State.goldenLeave_canonical | refine State.canonical_mk ?_ rfl rfl

theorem State.atTov_canonical {x1 : State} (h1 : x1.Canonical) :
    (State.atTov x1).Canonical := by
  unfold State.atTov
  repeat' first | with_reducible assumption | (refine fun (_ : State) (_ : State.Canonical _) => ?_) | (extract_lets +onlyGivenNames s; refine canonical_cut (s := s) ?_ (fun _ => ?_); rotate_left; clear_value s; rotate_left; subst s) | (extract_lets +onlyGivenNames s; refine mem_let s ?_; subst s) | (extract_lets +onlyGivenNames s; refine boot_let s ?_; subst s) | (extract_lets +onlyGivenNames s; clear_value s) | split | extract_lets | with_reducible apply State.put_canonical | with_reducible apply State.armAtTov_canonical | with_reducible apply State.startBudget_canonical | with_reducible apply State.goldenMissCheck_canonical | refine State.canonical_mk ?_ rfl rfl

theorem State.openInstance_canonical {x1 : State} (h1 : x1.Canonical) :
    (State.openInstance x1).Canonical := by
  unfold State.openInstance
  repeat' first | with_reducible assumption | (refine fun (_ : State) (_ : State.Canonical _) => ?_) | (extract_lets +onlyGivenNames s; refine canonical_cut (s := s) ?_ (fun _ => ?_); rotate_left; clear_value s; rotate_left; subst s) | (extract_lets +onlyGivenNames s; refine mem_let s ?_; subst s) | (extract_lets +onlyGivenNames s; refine boot_let s ?_; subst s) | (extract_lets +onlyGivenNames s; clear_value s) | split | extract_lets | with_reducible apply State.openPtsWindow_canonical | with_reducible apply State.openLayout_canonical | with_reducible apply State.queueMark_canonical | with_reducible apply State.syncHead_canonical | with_reducible apply State.syncOps_canonical | (with_reducible apply foldl_canonical; intro _ _ _) | refine State.canonical_mk ?_ rfl rfl

theorem State.openDueInstance_canonical {x1 : State} (h1 : x1.Canonical) :
    (State.openDueInstance x1).Canonical := by
  unfold State.openDueInstance
  repeat' first | with_reducible assumption | (refine fun (_ : State) (_ : State.Canonical _) => ?_) | (extract_lets +onlyGivenNames s; refine canonical_cut (s := s) ?_ (fun _ => ?_); rotate_left; clear_value s; rotate_left; subst s) | (extract_lets +onlyGivenNames s; refine mem_let s ?_; subst s) | (extract_lets +onlyGivenNames s; refine boot_let s ?_; subst s) | (extract_lets +onlyGivenNames s; clear_value s) | split | extract_lets | with_reducible apply State.followOpenings_canonical | with_reducible apply State.whenGlz_canonical | with_reducible apply State.atTov_canonical | with_reducible apply State.openInstance_canonical | refine State.canonical_mk ?_ rfl rfl

theorem execWarpStart_canonical {x1 : State} (h1 : x1.Canonical) :
    OutCanonical (execWarpStart x1) := by
  unfold execWarpStart
  repeat' first | with_reducible assumption | with_reducible apply canonical_next | (refine fun (_ : State) (_ : State.Canonical _) => ?_) | (extract_lets +onlyGivenNames s; refine canonical_cut (s := s) ?_ (fun _ => ?_); rotate_left; clear_value s; rotate_left; subst s) | (extract_lets +onlyGivenNames s; refine mem_let s ?_; subst s) | (extract_lets +onlyGivenNames s; refine boot_let s ?_; subst s) | (extract_lets +onlyGivenNames s; clear_value s) | split | extract_lets | with_reducible apply State.updInst_canonical | with_reducible apply State.usePose_canonical | with_reducible apply State.whenGlz_canonical | (with_reducible apply foldl_canonical; intro _ _ _) | refine State.canonical_mk ?_ rfl rfl

theorem execTileHeadsDone_canonical {x1} {x2} {x3} {x4} {x5 : State} (h5 : x5.Canonical) :
    OutCanonical (execTileHeadsDone x1 x2 x3 x4 x5) := by
  unfold execTileHeadsDone
  repeat' first | with_reducible assumption | with_reducible apply canonical_next | (refine fun (_ : State) (_ : State.Canonical _) => ?_) | (extract_lets +onlyGivenNames s; refine canonical_cut (s := s) ?_ (fun _ => ?_); rotate_left; clear_value s; rotate_left; subst s) | (extract_lets +onlyGivenNames s; refine canonical_cut (s := s.1) ?_ (fun _ => ?_); rotate_left; clear_value s; rotate_left; subst s) | (extract_lets +onlyGivenNames s; refine mem_let s ?_; subst s) | (extract_lets +onlyGivenNames s; refine boot_let s ?_; subst s) | (extract_lets +onlyGivenNames s; clear_value s) | split | extract_lets | with_reducible apply State.updInst_canonical | with_reducible apply State.startBudget_canonical | with_reducible apply State.tryFinal_canonical | with_reducible apply State.whenGlz_canonical | with_reducible apply State.composeInput_canonical | with_reducible apply State.composeEvents_canonical | with_reducible apply State.unchecked_canonical | with_reducible apply State.compared_canonical | (refine canonical_of_pair (by with_reducible assumption) ?_) | refine State.canonical_mk ?_ rfl rfl

theorem execCompareDone_canonical {x1} {x2} {x3 : State} (h3 : x3.Canonical) :
    OutCanonical (execCompareDone x1 x2 x3) := by
  unfold execCompareDone
  repeat' first | with_reducible assumption | with_reducible apply canonical_next | (refine fun (_ : State) (_ : State.Canonical _) => ?_) | (extract_lets +onlyGivenNames s; refine canonical_cut (s := s) ?_ (fun _ => ?_); rotate_left; clear_value s; rotate_left; subst s) | (extract_lets +onlyGivenNames s; refine canonical_cut (s := s.1) ?_ (fun _ => ?_); rotate_left; clear_value s; rotate_left; subst s) | (extract_lets +onlyGivenNames s; refine mem_let s ?_; subst s) | (extract_lets +onlyGivenNames s; refine boot_let s ?_; subst s) | (extract_lets +onlyGivenNames s; clear_value s) | split | extract_lets | with_reducible apply State.squash_canonical | with_reducible apply State.tryFinal_canonical | with_reducible apply State.whenGlz_canonical | with_reducible apply State.compare_canonical | with_reducible apply State.compared_canonical | with_reducible apply State.reissue_canonical | (refine canonical_of_pair (by with_reducible assumption) ?_) | refine State.canonical_mk ?_ rfl rfl

set_option maxRecDepth 4000 in
theorem State.frameReady_canonical {x1 : State} {x2} {x3} {x4} (h1 : x1.Canonical) :
    (State.frameReady x1 x2 x3 x4).Canonical := by
  unfold State.frameReady
  extract_lets +onlyGivenNames s
  have hs : State.Canonical s := State.poseForValue_canonical (State.updInst_canonical h1)
  clear_value s
  split
  · exact hs
  extract_lets +onlyGivenNames prev late
  have hl : ∀ u : State, u.Canonical → (late u).Canonical := by
    intro u hu
    exact State.satInc_canonical (State.raise_canonical hu)
  clear_value prev late
  split
  · split
    · split
      · exact hl _ hs
      · exact hs
    · exact hs
  · split
    · exact hs
    split
    · extract_lets +onlyGivenNames fired f s2
      have h2 : State.Canonical s2 := State.poseForValue_canonical (State.updInst_canonical hs)
      clear_value s2 fired
      split
      · exact hl _ h2
      · exact h2
    · exact hl _ hs

theorem execAmendWindowClose_canonical {x1 : State} (h1 : x1.Canonical) :
    OutCanonical (execAmendWindowClose x1) := by
  unfold execAmendWindowClose
  repeat' first | with_reducible assumption | with_reducible apply canonical_next | (refine fun (_ : State) (_ : State.Canonical _) => ?_) | (extract_lets +onlyGivenNames s; refine canonical_cut (s := s) ?_ (fun _ => ?_); rotate_left; clear_value s; rotate_left; subst s) | (extract_lets +onlyGivenNames s; refine mem_let s ?_; subst s) | (extract_lets +onlyGivenNames s; refine boot_let s ?_; subst s) | (extract_lets +onlyGivenNames s; clear_value s) | split | extract_lets | with_reducible apply State.tryFinal_canonical | with_reducible apply State.whenGlz_canonical | refine State.canonical_mk ?_ rfl rfl

theorem execAmendRecompute_canonical {x1} {x2} {x3 : State} (h3 : x3.Canonical) :
    OutCanonical (execAmendRecompute x1 x2 x3) := by
  unfold execAmendRecompute
  repeat' first | with_reducible assumption | with_reducible apply canonical_next | (refine fun (_ : State) (_ : State.Canonical _) => ?_) | (extract_lets +onlyGivenNames s; refine canonical_cut (s := s) ?_ (fun _ => ?_); rotate_left; clear_value s; rotate_left; subst s) | (extract_lets +onlyGivenNames s; refine canonical_cut (s := s.1) ?_ (fun _ => ?_); rotate_left; clear_value s; rotate_left; subst s) | (extract_lets +onlyGivenNames s; refine mem_let s ?_; subst s) | (extract_lets +onlyGivenNames s; refine boot_let s ?_; subst s) | (extract_lets +onlyGivenNames s; clear_value s) | split | extract_lets | with_reducible apply State.updInst_canonical | with_reducible apply State.startBudget_canonical | with_reducible apply State.tryFinal_canonical | with_reducible apply State.whenGlz_canonical | with_reducible apply State.composeInput_canonical | with_reducible apply State.composeEvents_canonical | with_reducible apply State.unchecked_canonical | with_reducible apply State.reissue_canonical | (refine canonical_of_pair (by with_reducible assumption) ?_) | refine State.canonical_mk ?_ rfl rfl

theorem State.reuseTile_canonical {x1 : State} {x2} {x3} (h1 : x1.Canonical) :
    (State.reuseTile x1 x2 x3).Canonical := by
  unfold State.reuseTile
  repeat' first | with_reducible assumption | (refine fun (_ : State) (_ : State.Canonical _) => ?_) | (extract_lets +onlyGivenNames s; refine canonical_cut (s := s) ?_ (fun _ => ?_); rotate_left; clear_value s; rotate_left; subst s) | (extract_lets +onlyGivenNames s; refine mem_let s ?_; subst s) | (extract_lets +onlyGivenNames s; refine boot_let s ?_; subst s) | (extract_lets +onlyGivenNames s; clear_value s) | split | extract_lets | with_reducible apply State.updInst_canonical | with_reducible apply State.startBudget_canonical | with_reducible apply State.composeEvents_canonical | refine State.canonical_mk ?_ rfl rfl

theorem execReuseDeadline_canonical {x1 : State} (h1 : x1.Canonical) :
    OutCanonical (execReuseDeadline x1) := by
  unfold execReuseDeadline
  repeat' first | with_reducible assumption | with_reducible apply canonical_next | (refine fun (_ : State) (_ : State.Canonical _) => ?_) | (extract_lets +onlyGivenNames s; refine canonical_cut (s := s) ?_ (fun _ => ?_); rotate_left; clear_value s; rotate_left; subst s) | (extract_lets +onlyGivenNames s; refine mem_let s ?_; subst s) | (extract_lets +onlyGivenNames s; refine boot_let s ?_; subst s) | (extract_lets +onlyGivenNames s; clear_value s) | split | extract_lets | with_reducible apply State.raise_canonical | with_reducible apply State.satAdd_canonical | with_reducible apply State.updInst_canonical | with_reducible apply State.tryFinal_canonical | with_reducible apply State.usePose_canonical | with_reducible apply State.whenGlz_canonical | with_reducible apply State.unchecked_canonical | with_reducible apply State.compared_canonical | with_reducible apply State.reuseTile_canonical | (with_reducible apply foldl_canonical; intro _ _ _) | refine State.canonical_mk ?_ rfl rfl

end Sys2Proof.Machine
end

