-- ==== Sys2Proof/Laws/CanonicalFlags.lean ====
section
/-! SUPPORT. The canonical form is kept by every operation of Machine/Flags.lean. -/

namespace Sys2Proof.Machine

theorem State.afterWrite_canonical {x1 : State} {x2} (h1 : x1.Canonical) :
    (State.afterWrite x1 x2).Canonical := by
  unfold State.afterWrite
  repeat' first | with_reducible assumption | (refine fun (_ : State) (_ : State.Canonical _) => ?_) | (extract_lets +onlyGivenNames s; refine canonical_cut (s := s) ?_ (fun _ => ?_); rotate_left; clear_value s; rotate_left; subst s) | (extract_lets +onlyGivenNames s; refine mem_let s ?_; subst s) | (extract_lets +onlyGivenNames s; refine boot_let s ?_; subst s) | (extract_lets +onlyGivenNames s; clear_value s) | split | extract_lets | with_reducible apply State.put_canonical | refine State.canonical_mk ?_ rfl rfl

theorem State.writeReg_canonical {x1 : State} {x2} {x3} {x4} (h1 : x1.Canonical) :
    (State.writeReg x1 x2 x3 x4).Canonical := by
  unfold State.writeReg
  repeat' first | with_reducible assumption | (refine fun (_ : State) (_ : State.Canonical _) => ?_) | (extract_lets +onlyGivenNames s; refine canonical_cut (s := s) ?_ (fun _ => ?_); rotate_left; clear_value s; rotate_left; subst s) | (extract_lets +onlyGivenNames s; refine mem_let s ?_; subst s) | (extract_lets +onlyGivenNames s; refine boot_let s ?_; subst s) | (extract_lets +onlyGivenNames s; clear_value s) | split | extract_lets | with_reducible apply State.setReg_canonical | with_reducible apply State.raise_canonical | with_reducible apply State.afterWrite_canonical | refine State.canonical_mk ?_ rfl rfl

end Sys2Proof.Machine
end

