-- ==== Sys2Proof/Laws/CanonicalBringUp.lean ====
section
/-! SUPPORT. The canonical form is kept by every operation of Machine/BringUp.lean. -/

namespace Sys2Proof.Machine

theorem State.bringUpStreams_canonical {x1 : State} (h1 : x1.Canonical) :
    (State.bringUpStreams x1).Canonical := by
  unfold State.bringUpStreams
  repeat' first | with_reducible assumption | (refine fun (_ : State) (_ : State.Canonical _) => ?_) | (extract_lets +onlyGivenNames s; refine canonical_cut (s := s) ?_ (fun _ => ?_); rotate_left; clear_value s; rotate_left; subst s) | (extract_lets +onlyGivenNames s; refine mem_let s ?_; subst s) | (extract_lets +onlyGivenNames s; refine boot_let s ?_; subst s) | (extract_lets +onlyGivenNames s; clear_value s) | split | extract_lets | with_reducible apply State.put_canonical | (with_reducible apply foldl_canonical; intro _ _ _) | refine State.canonical_mk ?_ rfl rfl

theorem State.startTransition_canonical {x1 : State} (h1 : x1.Canonical) :
    (State.startTransition x1).Canonical := by
  unfold State.startTransition
  repeat' first | with_reducible assumption | (refine fun (_ : State) (_ : State.Canonical _) => ?_) | (extract_lets +onlyGivenNames s; refine canonical_cut (s := s) ?_ (fun _ => ?_); rotate_left; clear_value s; rotate_left; subst s) | (extract_lets +onlyGivenNames s; refine mem_let s ?_; subst s) | (extract_lets +onlyGivenNames s; refine boot_let s ?_; subst s) | (extract_lets +onlyGivenNames s; clear_value s) | split | extract_lets | with_reducible apply State.returnTo_canonical | refine State.canonical_mk ?_ rfl rfl

theorem State.resetComplete_canonical {x1 : State} (h1 : x1.Canonical) :
    (State.resetComplete x1).Canonical := by
  unfold State.resetComplete
  repeat' first | with_reducible assumption | (refine fun (_ : State) (_ : State.Canonical _) => ?_) | (extract_lets +onlyGivenNames s; refine canonical_cut (s := s) ?_ (fun _ => ?_); rotate_left; clear_value s; rotate_left; subst s) | (extract_lets +onlyGivenNames s; refine mem_let s ?_; subst s) | (extract_lets +onlyGivenNames s; refine boot_let s ?_; subst s) | (extract_lets +onlyGivenNames s; clear_value s) | split | extract_lets | with_reducible apply State.eventTick_canonical | refine State.canonical_mk ?_ rfl rfl

theorem State.reportLevel_canonical {x1 : State} (h1 : x1.Canonical) :
    (State.reportLevel x1).Canonical := by
  unfold State.reportLevel
  repeat' first | with_reducible assumption | (refine fun (_ : State) (_ : State.Canonical _) => ?_) | (extract_lets +onlyGivenNames s; refine canonical_cut (s := s) ?_ (fun _ => ?_); rotate_left; clear_value s; rotate_left; subst s) | (extract_lets +onlyGivenNames s; refine mem_let s ?_; subst s) | (extract_lets +onlyGivenNames s; refine boot_let s ?_; subst s) | (extract_lets +onlyGivenNames s; clear_value s) | split | extract_lets | with_reducible apply State.bringUpStreams_canonical | with_reducible apply State.startTransition_canonical | with_reducible apply State.resetComplete_canonical | refine State.canonical_mk ?_ rfl rfl

theorem State.addLost_canonical {x1 : State} {x2} (h1 : x1.Canonical) :
    (State.addLost x1 x2).Canonical := by
  unfold State.addLost
  repeat' first | with_reducible assumption | (refine fun (_ : State) (_ : State.Canonical _) => ?_) | (extract_lets +onlyGivenNames s; refine canonical_cut (s := s) ?_ (fun _ => ?_); rotate_left; clear_value s; rotate_left; subst s) | (extract_lets +onlyGivenNames s; refine mem_let s ?_; subst s) | (extract_lets +onlyGivenNames s; refine boot_let s ?_; subst s) | (extract_lets +onlyGivenNames s; clear_value s) | split | extract_lets | refine State.canonical_mk ?_ rfl rfl

end Sys2Proof.Machine
end

