-- ==== Sys2Proof/Laws/CanonicalSafetyOps.lean ====
section
/-! SUPPORT. The canonical form is kept by every operation of Machine/SafetyOps.lean. -/

namespace Sys2Proof.Machine

theorem State.whenSaf_canonical {x1 : State} {x2} (h1 : x1.Canonical) (h2 : ∀ t : State, t.Canonical → (x2 t).Canonical) :
    (State.whenSaf x1 x2).Canonical := by
  unfold State.whenSaf
  repeat' first | with_reducible assumption | (refine fun (_ : State) (_ : State.Canonical _) => ?_) | (extract_lets +onlyGivenNames s; refine canonical_cut (s := s) ?_ (fun _ => ?_); rotate_left; clear_value s; rotate_left; subst s) | (extract_lets +onlyGivenNames s; refine mem_let s ?_; subst s) | (extract_lets +onlyGivenNames s; refine boot_let s ?_; subst s) | (extract_lets +onlyGivenNames s; clear_value s) | split | extract_lets | apply h2 | refine State.canonical_mk ?_ rfl rfl

theorem State.whenChk_canonical {x1 : State} {x2} (h1 : x1.Canonical) (h2 : ∀ t : State, t.Canonical → (x2 t).Canonical) :
    (State.whenChk x1 x2).Canonical := by
  unfold State.whenChk
  repeat' first | with_reducible assumption | (refine fun (_ : State) (_ : State.Canonical _) => ?_) | (extract_lets +onlyGivenNames s; refine canonical_cut (s := s) ?_ (fun _ => ?_); rotate_left; clear_value s; rotate_left; subst s) | (extract_lets +onlyGivenNames s; refine mem_let s ?_; subst s) | (extract_lets +onlyGivenNames s; refine boot_let s ?_; subst s) | (extract_lets +onlyGivenNames s; clear_value s) | split | extract_lets | with_reducible apply State.whenSaf_canonical | apply h2 | refine State.canonical_mk ?_ rfl rfl

theorem execSentinelRun_canonical {x1} {x2 : State} (h2 : x2.Canonical) :
    OutCanonical (execSentinelRun x1 x2) := by
  unfold execSentinelRun
  repeat' first | with_reducible assumption | with_reducible apply canonical_next | (refine fun (_ : State) (_ : State.Canonical _) => ?_) | (extract_lets +onlyGivenNames s; refine canonical_cut (s := s) ?_ (fun _ => ?_); rotate_left; clear_value s; rotate_left; subst s) | (extract_lets +onlyGivenNames s; refine mem_let s ?_; subst s) | (extract_lets +onlyGivenNames s; refine boot_let s ?_; subst s) | (extract_lets +onlyGivenNames s; clear_value s) | split | extract_lets | with_reducible apply State.updTable_canonical | with_reducible apply State.whenChk_canonical | refine State.canonical_mk ?_ rfl rfl

theorem State.sentMet_canonical {x1 : State} {x2} {x3} (h1 : x1.Canonical) :
    (State.sentMet x1 x2 x3).Canonical := by
  unfold State.sentMet
  repeat' first | with_reducible assumption | (refine fun (_ : State) (_ : State.Canonical _) => ?_) | (extract_lets +onlyGivenNames s; refine canonical_cut (s := s) ?_ (fun _ => ?_); rotate_left; clear_value s; rotate_left; subst s) | (extract_lets +onlyGivenNames s; refine mem_let s ?_; subst s) | (extract_lets +onlyGivenNames s; refine boot_let s ?_; subst s) | (extract_lets +onlyGivenNames s; clear_value s) | split | extract_lets | with_reducible apply State.raise_canonical | with_reducible apply State.count_canonical | with_reducible apply State.life_canonical | with_reducible apply State.log_canonical | with_reducible apply State.detect_canonical | refine State.canonical_mk ?_ rfl rfl

theorem execSentinelDone_canonical {x1} {x2} {x3 : State} (h3 : x3.Canonical) :
    OutCanonical (execSentinelDone x1 x2 x3) := by
  unfold execSentinelDone
  repeat' first | with_reducible assumption | with_reducible apply canonical_next | (refine fun (_ : State) (_ : State.Canonical _) => ?_) | (extract_lets +onlyGivenNames s; refine canonical_cut (s := s) ?_ (fun _ => ?_); rotate_left; clear_value s; rotate_left; subst s) | (extract_lets +onlyGivenNames s; refine mem_let s ?_; subst s) | (extract_lets +onlyGivenNames s; refine boot_let s ?_; subst s) | (extract_lets +onlyGivenNames s; clear_value s) | split | extract_lets | with_reducible apply State.put_canonical | with_reducible apply State.endBudget_canonical | with_reducible apply State.whenChk_canonical | with_reducible apply State.sentMet_canonical | refine State.canonical_mk ?_ rfl rfl

theorem State.goldenSpan_canonical {x1 : State} {x2} (h1 : x1.Canonical) :
    (State.goldenSpan x1 x2).Canonical := by
  unfold State.goldenSpan
  repeat' first | with_reducible assumption | (refine fun (_ : State) (_ : State.Canonical _) => ?_) | (extract_lets +onlyGivenNames s; refine canonical_cut (s := s) ?_ (fun _ => ?_); rotate_left; clear_value s; rotate_left; subst s) | (extract_lets +onlyGivenNames s; refine mem_let s ?_; subst s) | (extract_lets +onlyGivenNames s; refine boot_let s ?_; subst s) | (extract_lets +onlyGivenNames s; clear_value s) | split | extract_lets | with_reducible apply State.put_canonical | with_reducible apply State.raise_canonical | with_reducible apply State.detect_canonical | refine State.canonical_mk ?_ rfl rfl

theorem State.goldenFailed_canonical {x1 : State} {x2} (h1 : x1.Canonical) :
    (State.goldenFailed x1 x2).Canonical := by
  unfold State.goldenFailed
  repeat' first | with_reducible assumption | (refine fun (_ : State) (_ : State.Canonical _) => ?_) | (extract_lets +onlyGivenNames s; refine canonical_cut (s := s) ?_ (fun _ => ?_); rotate_left; clear_value s; rotate_left; subst s) | (extract_lets +onlyGivenNames s; refine mem_let s ?_; subst s) | (extract_lets +onlyGivenNames s; refine boot_let s ?_; subst s) | (extract_lets +onlyGivenNames s; clear_value s) | split | extract_lets | with_reducible apply State.raise_canonical | with_reducible apply State.satInc_canonical | with_reducible apply State.life_canonical | with_reducible apply State.detect_canonical | refine State.canonical_mk ?_ rfl rfl

theorem State.goldenPassed_canonical {x1 : State} {x2} (h1 : x1.Canonical) :
    (State.goldenPassed x1 x2).Canonical := by
  unfold State.goldenPassed
  repeat' first | with_reducible assumption | (refine fun (_ : State) (_ : State.Canonical _) => ?_) | (extract_lets +onlyGivenNames s; refine canonical_cut (s := s) ?_ (fun _ => ?_); rotate_left; clear_value s; rotate_left; subst s) | (extract_lets +onlyGivenNames s; refine mem_let s ?_; subst s) | (extract_lets +onlyGivenNames s; refine boot_let s ?_; subst s) | (extract_lets +onlyGivenNames s; clear_value s) | split | extract_lets | with_reducible apply State.raise_canonical | with_reducible apply State.returnTo_canonical | with_reducible apply State.startTransition_canonical | refine State.canonical_mk ?_ rfl rfl

theorem execGoldenCompareDone_canonical {x1} {x2} {x3 : State} (h3 : x3.Canonical) :
    OutCanonical (execGoldenCompareDone x1 x2 x3) := by
  unfold execGoldenCompareDone
  repeat' first | with_reducible assumption | with_reducible apply canonical_next | (refine fun (_ : State) (_ : State.Canonical _) => ?_) | (extract_lets +onlyGivenNames s; refine canonical_cut (s := s) ?_ (fun _ => ?_); rotate_left; clear_value s; rotate_left; subst s) | (extract_lets +onlyGivenNames s; refine mem_let s ?_; subst s) | (extract_lets +onlyGivenNames s; refine boot_let s ?_; subst s) | (extract_lets +onlyGivenNames s; clear_value s) | split | extract_lets | with_reducible apply State.put_canonical | with_reducible apply State.flag_canonical | with_reducible apply State.fresh_canonical | with_reducible apply State.goldenLeave_canonical | with_reducible apply State.whenChk_canonical | with_reducible apply State.goldenSpan_canonical | with_reducible apply State.goldenFailed_canonical | with_reducible apply State.goldenPassed_canonical | refine State.canonical_mk ?_ rfl rfl

theorem execGoldenSpan_canonical {x1 : State} (h1 : x1.Canonical) :
    OutCanonical (execGoldenSpan x1) := by
  unfold execGoldenSpan
  repeat' first | with_reducible assumption | with_reducible apply canonical_next | (refine fun (_ : State) (_ : State.Canonical _) => ?_) | (extract_lets +onlyGivenNames s; refine canonical_cut (s := s) ?_ (fun _ => ?_); rotate_left; clear_value s; rotate_left; subst s) | (extract_lets +onlyGivenNames s; refine mem_let s ?_; subst s) | (extract_lets +onlyGivenNames s; refine boot_let s ?_; subst s) | (extract_lets +onlyGivenNames s; clear_value s) | split | extract_lets | with_reducible apply State.raise_canonical | with_reducible apply State.detect_canonical | with_reducible apply State.whenSaf_canonical | refine State.canonical_mk ?_ rfl rfl

theorem State.guardIssue_canonical {x1 : State} {x2} {x3} {x4} {x5} (h1 : x1.Canonical) :
    (State.guardIssue x1 x2 x3 x4 x5).Canonical := by
  unfold State.guardIssue
  repeat' first | with_reducible assumption | (refine fun (_ : State) (_ : State.Canonical _) => ?_) | (extract_lets +onlyGivenNames s; refine canonical_cut (s := s) ?_ (fun _ => ?_); rotate_left; clear_value s; rotate_left; subst s) | (extract_lets +onlyGivenNames s; refine mem_let s ?_; subst s) | (extract_lets +onlyGivenNames s; refine boot_let s ?_; subst s) | (extract_lets +onlyGivenNames s; clear_value s) | split | extract_lets | with_reducible apply State.put_canonical | with_reducible apply State.raise_canonical | with_reducible apply State.writeBytes_canonical | with_reducible apply State.count_canonical | with_reducible apply State.queueWrite_canonical | with_reducible apply State.deliverTile_canonical | refine State.canonical_mk ?_ rfl rfl

theorem execGuardTileIssue_canonical {x1} {x2 : State} (h2 : x2.Canonical) :
    OutCanonical (execGuardTileIssue x1 x2) := by
  unfold execGuardTileIssue
  repeat' first | with_reducible assumption | with_reducible apply canonical_next | (refine fun (_ : State) (_ : State.Canonical _) => ?_) | (extract_lets +onlyGivenNames s; refine canonical_cut (s := s) ?_ (fun _ => ?_); rotate_left; clear_value s; rotate_left; subst s) | (extract_lets +onlyGivenNames s; refine mem_let s ?_; subst s) | (extract_lets +onlyGivenNames s; refine boot_let s ?_; subst s) | (extract_lets +onlyGivenNames s; clear_value s) | split | extract_lets | with_reducible apply State.whenChk_canonical | with_reducible apply State.guardIssue_canonical | (with_reducible apply foldl_canonical; intro _ _ _) | refine State.canonical_mk ?_ rfl rfl

theorem execHeartbeatTimeout_canonical {x1 : State} (h1 : x1.Canonical) :
    OutCanonical (execHeartbeatTimeout x1) := by
  unfold execHeartbeatTimeout
  repeat' first | with_reducible assumption | with_reducible apply canonical_next | (refine fun (_ : State) (_ : State.Canonical _) => ?_) | (extract_lets +onlyGivenNames s; refine canonical_cut (s := s) ?_ (fun _ => ?_); rotate_left; clear_value s; rotate_left; subst s) | (extract_lets +onlyGivenNames s; refine mem_let s ?_; subst s) | (extract_lets +onlyGivenNames s; refine boot_let s ?_; subst s) | (extract_lets +onlyGivenNames s; clear_value s) | split | extract_lets | with_reducible apply State.raise_canonical | with_reducible apply State.satInc_canonical | with_reducible apply State.detect_canonical | with_reducible apply State.whenSaf_canonical | refine State.canonical_mk ?_ rfl rfl

theorem execWatchdogService_canonical {x1 : State} (h1 : x1.Canonical) :
    OutCanonical (execWatchdogService x1) := by
  unfold execWatchdogService
  repeat' first | with_reducible assumption | with_reducible apply canonical_next | (refine fun (_ : State) (_ : State.Canonical _) => ?_) | (extract_lets +onlyGivenNames s; refine canonical_cut (s := s) ?_ (fun _ => ?_); rotate_left; clear_value s; rotate_left; subst s) | (extract_lets +onlyGivenNames s; refine mem_let s ?_; subst s) | (extract_lets +onlyGivenNames s; refine boot_let s ?_; subst s) | (extract_lets +onlyGivenNames s; clear_value s) | split | extract_lets | with_reducible apply State.whenSaf_canonical | refine State.canonical_mk ?_ rfl rfl

theorem execLockstep_canonical {x1} {x2 : State} (h2 : x2.Canonical) :
    OutCanonical (execLockstep x1 x2) := by
  unfold execLockstep
  repeat' first | with_reducible assumption | with_reducible apply canonical_next | (refine fun (_ : State) (_ : State.Canonical _) => ?_) | (extract_lets +onlyGivenNames s; refine canonical_cut (s := s) ?_ (fun _ => ?_); rotate_left; clear_value s; rotate_left; subst s) | (extract_lets +onlyGivenNames s; refine mem_let s ?_; subst s) | (extract_lets +onlyGivenNames s; refine boot_let s ?_; subst s) | (extract_lets +onlyGivenNames s; clear_value s) | split | extract_lets | with_reducible apply State.raise_canonical | with_reducible apply State.detect_canonical | with_reducible apply State.whenSaf_canonical | refine State.canonical_mk ?_ rfl rfl

theorem execSafSelf_canonical {x1 : State} (h1 : x1.Canonical) :
    OutCanonical (execSafSelf x1) := by
  unfold execSafSelf
  repeat' first | with_reducible assumption | with_reducible apply canonical_next | (refine fun (_ : State) (_ : State.Canonical _) => ?_) | (extract_lets +onlyGivenNames s; refine canonical_cut (s := s) ?_ (fun _ => ?_); rotate_left; clear_value s; rotate_left; subst s) | (extract_lets +onlyGivenNames s; refine mem_let s ?_; subst s) | (extract_lets +onlyGivenNames s; refine boot_let s ?_; subst s) | (extract_lets +onlyGivenNames s; clear_value s) | split | extract_lets | with_reducible apply State.detect_canonical | with_reducible apply State.whenSaf_canonical | refine State.canonical_mk ?_ rfl rfl

theorem execSafePath_canonical {x1 : State} (h1 : x1.Canonical) :
    OutCanonical (execSafePath x1) := by
  unfold execSafePath
  repeat' first | with_reducible assumption | with_reducible apply canonical_next | (refine fun (_ : State) (_ : State.Canonical _) => ?_) | (extract_lets +onlyGivenNames s; refine canonical_cut (s := s) ?_ (fun _ => ?_); rotate_left; clear_value s; rotate_left; subst s) | (extract_lets +onlyGivenNames s; refine mem_let s ?_; subst s) | (extract_lets +onlyGivenNames s; refine boot_let s ?_; subst s) | (extract_lets +onlyGivenNames s; clear_value s) | split | extract_lets | with_reducible apply State.detect_canonical | with_reducible apply State.whenSaf_canonical | refine State.canonical_mk ?_ rfl rfl

theorem execEnv_canonical {x1} {x2 : State} (h2 : x2.Canonical) :
    OutCanonical (execEnv x1 x2) := by
  unfold execEnv
  repeat' first | with_reducible assumption | with_reducible apply canonical_next | (refine fun (_ : State) (_ : State.Canonical _) => ?_) | (extract_lets +onlyGivenNames s; refine canonical_cut (s := s) ?_ (fun _ => ?_); rotate_left; clear_value s; rotate_left; subst s) | (extract_lets +onlyGivenNames s; refine mem_let s ?_; subst s) | (extract_lets +onlyGivenNames s; refine boot_let s ?_; subst s) | (extract_lets +onlyGivenNames s; clear_value s) | split | extract_lets | with_reducible apply State.detect_canonical | with_reducible apply State.whenSaf_canonical | refine State.canonical_mk ?_ rfl rfl

theorem execNoticeRepeat_canonical {x1 : State} (h1 : x1.Canonical) :
    OutCanonical (execNoticeRepeat x1) := by
  unfold execNoticeRepeat
  repeat' first | with_reducible assumption | with_reducible apply canonical_next | (refine fun (_ : State) (_ : State.Canonical _) => ?_) | (extract_lets +onlyGivenNames s; refine canonical_cut (s := s) ?_ (fun _ => ?_); rotate_left; clear_value s; rotate_left; subst s) | (extract_lets +onlyGivenNames s; refine mem_let s ?_; subst s) | (extract_lets +onlyGivenNames s; refine boot_let s ?_; subst s) | (extract_lets +onlyGivenNames s; clear_value s) | split | extract_lets | with_reducible apply State.noticeOn_canonical | with_reducible apply State.whenSaf_canonical | refine State.canonical_mk ?_ rfl rfl

end Sys2Proof.Machine
end

