-- ==== Sys2Proof/Laws/CanonicalResets.lean ====
section
/-! SUPPORT. The canonical form is kept by every operation of Machine/Resets.lean. -/

namespace Sys2Proof.Machine

theorem State.countReset_canonical {x1 : State} {x2} (h1 : x1.Canonical) :
    (State.countReset x1 x2).Canonical := by
  unfold State.countReset
  repeat' first | with_reducible assumption | (refine fun (_ : State) (_ : State.Canonical _) => ?_) | (extract_lets +onlyGivenNames s; refine canonical_cut (s := s) ?_ (fun _ => ?_); rotate_left; clear_value s; rotate_left; subst s) | (extract_lets +onlyGivenNames s; refine mem_let s ?_; subst s) | (extract_lets +onlyGivenNames s; refine boot_let s ?_; subst s) | (extract_lets +onlyGivenNames s; clear_value s) | split | extract_lets | with_reducible apply State.satInc_canonical | with_reducible apply State.life_canonical | refine State.canonical_mk ?_ rfl rfl

theorem reset_regs_canonical {s : State} {code : Nat} {q : Nat × BitVec 64 → Bool} (h : s.Canonical) {t : State}
    (hr : t.regs = s.regs.filter q) (hq : t.queues = []) (hm : t.mem = s.memAfter code) (hb : t.boot = s.bootAfter code) :
    t.Canonical := by
  refine ⟨?_, ?_, ?_, ?_⟩
  · rw [hr]; exact sparseWf_filter _ h.regs
  · rw [hq]; rfl
  · rw [hm]
    unfold State.memAfter
    split
    · exact h.mem
    · rfl
  · rw [hb]
    unfold State.bootAfter
    dsimp only
    split <;> exact h.flash

theorem State.blocksReset_canonical {x1 : State} {x2} {x3} (h1 : x1.Canonical) : (State.blocksReset x1 x2 x3).Canonical := by
  unfold State.blocksReset
  extract_lets +onlyGivenNames t
  have ht : State.Canonical t := reset_regs_canonical (q := fun r => keptReg x2 r.1) h1 rfl rfl rfl rfl
  clear_value t
  split
  · refine foldl_canonical ?_ ht
    intro u f hu
    split
    · exact State.put_canonical hu
    · exact hu
  · exact ht

theorem State.showAfter_canonical {x1 : State} {x2} (h1 : x1.Canonical) :
    (State.showAfter x1 x2).Canonical := by
  unfold State.showAfter
  repeat' first | with_reducible assumption | (refine fun (_ : State) (_ : State.Canonical _) => ?_) | (extract_lets +onlyGivenNames s; refine canonical_cut (s := s) ?_ (fun _ => ?_); rotate_left; clear_value s; rotate_left; subst s) | (extract_lets +onlyGivenNames s; refine mem_let s ?_; subst s) | (extract_lets +onlyGivenNames s; refine boot_let s ?_; subst s) | (extract_lets +onlyGivenNames s; clear_value s) | split | extract_lets | with_reducible apply State.put_canonical | with_reducible apply State.flag_canonical | refine State.canonical_mk ?_ rfl rfl

set_option maxRecDepth 4000 in
theorem State.doReset_canonical {x1 : State} {x2} {x3} {x4} (h1 : x1.Canonical) :
    (State.doReset x1 x2 x3 x4).Canonical := by
  exact State.countReset_canonical (State.showAfter_canonical (State.put_canonical (State.put_canonical (State.put_canonical
    (State.blocksReset_canonical h1)))))

theorem State.holdDown_canonical {x1 : State} (h1 : x1.Canonical) :
    (State.holdDown x1).Canonical := by
  unfold State.holdDown
  repeat' first | with_reducible assumption | (refine fun (_ : State) (_ : State.Canonical _) => ?_) | (extract_lets +onlyGivenNames s; refine canonical_cut (s := s) ?_ (fun _ => ?_); rotate_left; clear_value s; rotate_left; subst s) | (extract_lets +onlyGivenNames s; refine mem_let s ?_; subst s) | (extract_lets +onlyGivenNames s; refine boot_let s ?_; subst s) | (extract_lets +onlyGivenNames s; clear_value s) | split | extract_lets | with_reducible apply State.blocksReset_canonical | with_reducible apply State.showAfter_canonical | refine State.canonical_mk ?_ rfl rfl

theorem State.loseUnit_canonical {x1 : State} {x2} (h1 : x1.Canonical) :
    (State.loseUnit x1 x2).Canonical := by
  unfold State.loseUnit
  repeat' first | with_reducible assumption | (refine fun (_ : State) (_ : State.Canonical _) => ?_) | (extract_lets +onlyGivenNames s; refine canonical_cut (s := s) ?_ (fun _ => ?_); rotate_left; clear_value s; rotate_left; subst s) | (extract_lets +onlyGivenNames s; refine mem_let s ?_; subst s) | (extract_lets +onlyGivenNames s; refine boot_let s ?_; subst s) | (extract_lets +onlyGivenNames s; clear_value s) | split | extract_lets | with_reducible apply State.detect_canonical | with_reducible apply State.addLost_canonical | with_reducible apply State.holdDown_canonical | refine State.canonical_mk ?_ rfl rfl

theorem State.resetSeen_canonical {x1 : State} {x2} (h1 : x1.Canonical) :
    (State.resetSeen x1 x2).Canonical := by
  unfold State.resetSeen
  repeat' first | with_reducible assumption | (refine fun (_ : State) (_ : State.Canonical _) => ?_) | (extract_lets +onlyGivenNames s; refine canonical_cut (s := s) ?_ (fun _ => ?_); rotate_left; clear_value s; rotate_left; subst s) | (extract_lets +onlyGivenNames s; refine mem_let s ?_; subst s) | (extract_lets +onlyGivenNames s; refine boot_let s ?_; subst s) | (extract_lets +onlyGivenNames s; clear_value s) | split | extract_lets | with_reducible apply State.put_canonical | refine State.canonical_mk ?_ rfl rfl

theorem State.resetTrigger_canonical {x1 : State} {x2} {x3} (h1 : x1.Canonical) :
    (State.resetTrigger x1 x2 x3).Canonical := by
  unfold State.resetTrigger
  repeat' first | with_reducible assumption | (refine fun (_ : State) (_ : State.Canonical _) => ?_) | (extract_lets +onlyGivenNames s; refine canonical_cut (s := s) ?_ (fun _ => ?_); rotate_left; clear_value s; rotate_left; subst s) | (extract_lets +onlyGivenNames s; refine mem_let s ?_; subst s) | (extract_lets +onlyGivenNames s; refine boot_let s ?_; subst s) | (extract_lets +onlyGivenNames s; clear_value s) | split | extract_lets | with_reducible apply State.abortOpen_canonical | with_reducible apply State.doReset_canonical | with_reducible apply State.resetSeen_canonical | refine State.canonical_mk ?_ rfl rfl

theorem execPowerOnReset_canonical {x1 : State} (h1 : x1.Canonical) :
    OutCanonical (execPowerOnReset x1) := by
  unfold execPowerOnReset
  repeat' first | with_reducible assumption | with_reducible apply canonical_next | (refine fun (_ : State) (_ : State.Canonical _) => ?_) | (extract_lets +onlyGivenNames s; refine canonical_cut (s := s) ?_ (fun _ => ?_); rotate_left; clear_value s; rotate_left; subst s) | (extract_lets +onlyGivenNames s; refine mem_let s ?_; subst s) | (extract_lets +onlyGivenNames s; refine boot_let s ?_; subst s) | (extract_lets +onlyGivenNames s; clear_value s) | split | extract_lets | with_reducible apply State.doReset_canonical | refine State.canonical_mk ?_ rfl rfl

set_option maxRecDepth 4000 in
theorem execVddAonFall_canonical {x1 : State} (h1 : x1.Canonical) :
    OutCanonical (execVddAonFall x1) := by
  have h := State.doReset_canonical (x2 := rcPOWER_ON) (x3 := 0) (x4 := 0) h1
  exact ⟨h.regs, h.queues, h.mem, h1.flash⟩

theorem execResetN_canonical {x1 : State} (h1 : x1.Canonical) :
    OutCanonical (execResetN x1) := by
  unfold execResetN
  repeat' first | with_reducible assumption | with_reducible apply canonical_next | (refine fun (_ : State) (_ : State.Canonical _) => ?_) | (extract_lets +onlyGivenNames s; refine canonical_cut (s := s) ?_ (fun _ => ?_); rotate_left; clear_value s; rotate_left; subst s) | (extract_lets +onlyGivenNames s; refine mem_let s ?_; subst s) | (extract_lets +onlyGivenNames s; refine boot_let s ?_; subst s) | (extract_lets +onlyGivenNames s; clear_value s) | split | extract_lets | with_reducible apply State.resetTrigger_canonical | refine State.canonical_mk ?_ rfl rfl

theorem execPwrGoodLow_canonical {x1 : State} (h1 : x1.Canonical) :
    OutCanonical (execPwrGoodLow x1) := by
  unfold execPwrGoodLow
  repeat' first | with_reducible assumption | with_reducible apply canonical_next | (refine fun (_ : State) (_ : State.Canonical _) => ?_) | (extract_lets +onlyGivenNames s; refine canonical_cut (s := s) ?_ (fun _ => ?_); rotate_left; clear_value s; rotate_left; subst s) | (extract_lets +onlyGivenNames s; refine mem_let s ?_; subst s) | (extract_lets +onlyGivenNames s; refine boot_let s ?_; subst s) | (extract_lets +onlyGivenNames s; clear_value s) | split | extract_lets | with_reducible apply State.resetTrigger_canonical | refine State.canonical_mk ?_ rfl rfl

theorem execWarm_canonical {x1 : State} (h1 : x1.Canonical) :
    OutCanonical (execWarm x1) := by
  unfold execWarm
  repeat' first | with_reducible assumption | with_reducible apply canonical_next | (refine fun (_ : State) (_ : State.Canonical _) => ?_) | (extract_lets +onlyGivenNames s; refine canonical_cut (s := s) ?_ (fun _ => ?_); rotate_left; clear_value s; rotate_left; subst s) | (extract_lets +onlyGivenNames s; refine mem_let s ?_; subst s) | (extract_lets +onlyGivenNames s; refine boot_let s ?_; subst s) | (extract_lets +onlyGivenNames s; clear_value s) | split | extract_lets | with_reducible apply State.resetTrigger_canonical | refine State.canonical_mk ?_ rfl rfl

theorem execWatchdogExpiry_canonical {x1 : State} (h1 : x1.Canonical) :
    OutCanonical (execWatchdogExpiry x1) := by
  unfold execWatchdogExpiry
  repeat' first | with_reducible assumption | with_reducible apply canonical_next | (refine fun (_ : State) (_ : State.Canonical _) => ?_) | (extract_lets +onlyGivenNames s; refine canonical_cut (s := s) ?_ (fun _ => ?_); rotate_left; clear_value s; rotate_left; subst s) | (extract_lets +onlyGivenNames s; refine mem_let s ?_; subst s) | (extract_lets +onlyGivenNames s; refine boot_let s ?_; subst s) | (extract_lets +onlyGivenNames s; clear_value s) | split | extract_lets | with_reducible apply State.whenSaf_canonical | with_reducible apply State.resetTrigger_canonical | refine State.canonical_mk ?_ rfl rfl

end Sys2Proof.Machine
end

