-- ==== Sys2Proof/Laws/CanonicalLift.lean ====
section
/-! SUPPORT. The canonical form is kept by every operation of Machine/Lift.lean. -/

namespace Sys2Proof.Machine

theorem State.whenLft_canonical {x1 : State} {x2} (h1 : x1.Canonical) (h2 : ∀ t : State, t.Canonical → (x2 t).Canonical) :
    (State.whenLft x1 x2).Canonical := by
  unfold State.whenLft
  repeat' first | with_reducible assumption | (refine fun (_ : State) (_ : State.Canonical _) => ?_) | (extract_lets +onlyGivenNames s; refine canonical_cut (s := s) ?_ (fun _ => ?_); rotate_left; clear_value s; rotate_left; subst s) | (extract_lets +onlyGivenNames s; refine mem_let s ?_; subst s) | (extract_lets +onlyGivenNames s; refine boot_let s ?_; subst s) | (extract_lets +onlyGivenNames s; clear_value s) | split | extract_lets | apply h2 | refine State.canonical_mk ?_ rfl rfl

theorem State.writeQuads_canonical {x1 : State} {x2} {x3} {x4} {x5} {x6} {x7} {x8} {x9} {x10} (h1 : x1.Canonical) :
    (State.writeQuads x1 x2 x3 x4 x5 x6 x7 x8 x9 x10).Canonical := by
  unfold State.writeQuads
  repeat' first | with_reducible assumption | (refine fun (_ : State) (_ : State.Canonical _) => ?_) | (extract_lets +onlyGivenNames s; refine canonical_cut (s := s) ?_ (fun _ => ?_); rotate_left; clear_value s; rotate_left; subst s) | (extract_lets +onlyGivenNames s; refine mem_let s ?_; subst s) | (extract_lets +onlyGivenNames s; refine boot_let s ?_; subst s) | (extract_lets +onlyGivenNames s; clear_value s) | split | extract_lets | with_reducible apply State.writeBytes_canonical | (with_reducible apply foldl_canonical; intro _ _ _) | refine State.canonical_mk ?_ rfl rfl

theorem State.setFrames_canonical {x1 : State} {x2} (h1 : x1.Canonical) :
    (State.setFrames x1 x2).Canonical := by
  unfold State.setFrames
  repeat' first | with_reducible assumption | (refine fun (_ : State) (_ : State.Canonical _) => ?_) | (extract_lets +onlyGivenNames s; refine canonical_cut (s := s) ?_ (fun _ => ?_); rotate_left; clear_value s; rotate_left; subst s) | (extract_lets +onlyGivenNames s; refine mem_let s ?_; subst s) | (extract_lets +onlyGivenNames s; refine boot_let s ?_; subst s) | (extract_lets +onlyGivenNames s; clear_value s) | split | extract_lets | refine State.canonical_mk ?_ rfl rfl

theorem State.updFrame_canonical {x1 : State} {x2} {x3} (h1 : x1.Canonical) :
    (State.updFrame x1 x2 x3).Canonical := by
  unfold State.updFrame
  repeat' first | with_reducible assumption | (refine fun (_ : State) (_ : State.Canonical _) => ?_) | (extract_lets +onlyGivenNames s; refine canonical_cut (s := s) ?_ (fun _ => ?_); rotate_left; clear_value s; rotate_left; subst s) | (extract_lets +onlyGivenNames s; refine mem_let s ?_; subst s) | (extract_lets +onlyGivenNames s; refine boot_let s ?_; subst s) | (extract_lets +onlyGivenNames s; clear_value s) | split | extract_lets | with_reducible apply State.setFrames_canonical | refine State.canonical_mk ?_ rfl rfl

theorem State.dropReading_canonical {x1 : State} {x2} (h1 : x1.Canonical) :
    (State.dropReading x1 x2).Canonical := by
  unfold State.dropReading
  repeat' first | with_reducible assumption | (refine fun (_ : State) (_ : State.Canonical _) => ?_) | (extract_lets +onlyGivenNames s; refine canonical_cut (s := s) ?_ (fun _ => ?_); rotate_left; clear_value s; rotate_left; subst s) | (extract_lets +onlyGivenNames s; refine mem_let s ?_; subst s) | (extract_lets +onlyGivenNames s; refine boot_let s ?_; subst s) | (extract_lets +onlyGivenNames s; clear_value s) | split | extract_lets | with_reducible apply State.setFrames_canonical | refine State.canonical_mk ?_ rfl rfl

theorem State.noteSeq_canonical {x1 : State} {x2} {x3} (h1 : x1.Canonical) :
    (State.noteSeq x1 x2 x3).Canonical := by
  unfold State.noteSeq
  repeat' first | with_reducible assumption | (refine fun (_ : State) (_ : State.Canonical _) => ?_) | (extract_lets +onlyGivenNames s; refine canonical_cut (s := s) ?_ (fun _ => ?_); rotate_left; clear_value s; rotate_left; subst s) | (extract_lets +onlyGivenNames s; refine mem_let s ?_; subst s) | (extract_lets +onlyGivenNames s; refine boot_let s ?_; subst s) | (extract_lets +onlyGivenNames s; clear_value s) | split | extract_lets | refine State.canonical_mk ?_ rfl rfl

theorem State.frameStartItem_canonical {x1 : State} {x2} {x3} {x4} (h1 : x1.Canonical) :
    (State.frameStartItem x1 x2 x3 x4).Canonical := by
  unfold State.frameStartItem
  repeat' first | with_reducible assumption | (refine fun (_ : State) (_ : State.Canonical _) => ?_) | (extract_lets +onlyGivenNames s; refine canonical_cut (s := s) ?_ (fun _ => ?_); rotate_left; clear_value s; rotate_left; subst s) | (extract_lets +onlyGivenNames s; refine mem_let s ?_; subst s) | (extract_lets +onlyGivenNames s; refine boot_let s ?_; subst s) | (extract_lets +onlyGivenNames s; clear_value s) | split | extract_lets | with_reducible apply State.raise_canonical | with_reducible apply State.satInc_canonical | with_reducible apply State.setFrames_canonical | with_reducible apply State.dropReading_canonical | refine State.canonical_mk ?_ rfl rfl

theorem State.lineItem_canonical {x1 : State} {x2} {x3} (h1 : x1.Canonical) :
    (State.lineItem x1 x2 x3).Canonical := by
  unfold State.lineItem
  repeat' first | with_reducible assumption | (refine fun (_ : State) (_ : State.Canonical _) => ?_) | (extract_lets +onlyGivenNames s; refine canonical_cut (s := s) ?_ (fun _ => ?_); rotate_left; clear_value s; rotate_left; subst s) | (extract_lets +onlyGivenNames s; refine mem_let s ?_; subst s) | (extract_lets +onlyGivenNames s; refine boot_let s ?_; subst s) | (extract_lets +onlyGivenNames s; clear_value s) | split | extract_lets | with_reducible apply State.writeQuads_canonical | with_reducible apply State.updFrame_canonical | refine State.canonical_mk ?_ rfl rfl

theorem State.goldenLine_canonical {x1 : State} {x2} {x3} {x4} (h1 : x1.Canonical) :
    (State.goldenLine x1 x2 x3 x4).Canonical := by
  unfold State.goldenLine
  repeat' first | with_reducible assumption | (refine fun (_ : State) (_ : State.Canonical _) => ?_) | (extract_lets +onlyGivenNames s; refine canonical_cut (s := s) ?_ (fun _ => ?_); rotate_left; clear_value s; rotate_left; subst s) | (extract_lets +onlyGivenNames s; refine mem_let s ?_; subst s) | (extract_lets +onlyGivenNames s; refine boot_let s ?_; subst s) | (extract_lets +onlyGivenNames s; clear_value s) | split | extract_lets | with_reducible apply State.writeQuads_canonical | refine State.canonical_mk ?_ rfl rfl

theorem State.frameEndItem_canonical {x1 : State} {x2} {x3} {x4} {x5} (h1 : x1.Canonical) :
    (State.frameEndItem x1 x2 x3 x4 x5).Canonical := by
  unfold State.frameEndItem
  repeat' first | with_reducible assumption | (refine fun (_ : State) (_ : State.Canonical _) => ?_) | (extract_lets +onlyGivenNames s; refine canonical_cut (s := s) ?_ (fun _ => ?_); rotate_left; clear_value s; rotate_left; subst s) | (extract_lets +onlyGivenNames s; refine mem_let s ?_; subst s) | (extract_lets +onlyGivenNames s; refine boot_let s ?_; subst s) | (extract_lets +onlyGivenNames s; clear_value s) | split | extract_lets | with_reducible apply State.raise_canonical | with_reducible apply State.satInc_canonical | with_reducible apply State.startBudget_canonical | with_reducible apply State.unitDone_canonical | with_reducible apply State.updFrame_canonical | with_reducible apply State.dropReading_canonical | refine State.canonical_mk ?_ rfl rfl

theorem execLftItemRead_canonical {x1} {x2 : State} (h2 : x2.Canonical) :
    OutCanonical (execLftItemRead x1 x2) := by
  unfold execLftItemRead
  repeat' first | with_reducible assumption | with_reducible apply canonical_next | (refine fun (_ : State) (_ : State.Canonical _) => ?_) | (extract_lets +onlyGivenNames s; refine canonical_cut (s := s) ?_ (fun _ => ?_); rotate_left; clear_value s; rotate_left; subst s) | (extract_lets +onlyGivenNames s; refine canonical_cut (s := s.1) ?_ (fun _ => ?_); rotate_left; clear_value s; rotate_left; subst s) | (extract_lets +onlyGivenNames s; refine mem_let s ?_; subst s) | (extract_lets +onlyGivenNames s; refine boot_let s ?_; subst s) | (extract_lets +onlyGivenNames s; clear_value s) | split | extract_lets | with_reducible apply State.takeItem_canonical | with_reducible apply State.whenLft_canonical | with_reducible apply State.noteSeq_canonical | with_reducible apply State.frameStartItem_canonical | with_reducible apply State.lineItem_canonical | with_reducible apply State.goldenLine_canonical | with_reducible apply State.frameEndItem_canonical | (refine canonical_of_pair (by with_reducible assumption) ?_) | refine State.canonical_mk ?_ rfl rfl

theorem execBackboneDone_canonical {x1} {x2} {x3 : State} (h3 : x3.Canonical) :
    OutCanonical (execBackboneDone x1 x2 x3) := by
  unfold execBackboneDone
  repeat' first | with_reducible assumption | with_reducible apply canonical_next | (refine fun (_ : State) (_ : State.Canonical _) => ?_) | (extract_lets +onlyGivenNames s; refine canonical_cut (s := s) ?_ (fun _ => ?_); rotate_left; clear_value s; rotate_left; subst s) | (extract_lets +onlyGivenNames s; refine mem_let s ?_; subst s) | (extract_lets +onlyGivenNames s; refine boot_let s ?_; subst s) | (extract_lets +onlyGivenNames s; clear_value s) | split | extract_lets | with_reducible apply State.raise_canonical | with_reducible apply State.reportBad_canonical | with_reducible apply State.queueWrite_canonical | with_reducible apply State.startBudget_canonical | with_reducible apply State.endBudget_canonical | with_reducible apply State.whenLft_canonical | (with_reducible apply foldl_canonical; intro _ _ _) | refine State.canonical_mk ?_ rfl rfl

theorem State.takeRecords_canonical {x1 : State} {x2} (h1 : x1.Canonical) :
    (State.takeRecords x1 x2).1.Canonical := by
  rw [State.takeRecords]
  repeat' first | with_reducible assumption | (refine fun (_ : State) (_ : State.Canonical _) => ?_) | (extract_lets +onlyGivenNames s; refine canonical_cut (s := s) ?_ (fun _ => ?_); rotate_left; clear_value s; rotate_left; subst s) | (extract_lets +onlyGivenNames s; refine canonical_cut (s := s.1) ?_ (fun _ => ?_); rotate_left; clear_value s; rotate_left; subst s) | (extract_lets +onlyGivenNames s; refine mem_let s ?_; subst s) | (extract_lets +onlyGivenNames s; refine boot_let s ?_; subst s) | (extract_lets +onlyGivenNames s; clear_value s) | split | extract_lets | with_reducible apply State.setQueue_canonical | with_reducible apply State.takeBytes_canonical | (refine canonical_of_pair (by with_reducible assumption) ?_) | refine State.canonical_mk ?_ rfl rfl

theorem execLift_canonical {x1 : State} (h1 : x1.Canonical) :
    OutCanonical (execLift x1) := by
  unfold execLift
  repeat' first | with_reducible assumption | with_reducible apply canonical_next | (refine fun (_ : State) (_ : State.Canonical _) => ?_) | (extract_lets +onlyGivenNames s; refine canonical_cut (s := s) ?_ (fun _ => ?_); rotate_left; clear_value s; rotate_left; subst s) | (extract_lets +onlyGivenNames s; refine canonical_cut (s := s.1) ?_ (fun _ => ?_); rotate_left; clear_value s; rotate_left; subst s) | (extract_lets +onlyGivenNames s; refine mem_let s ?_; subst s) | (extract_lets +onlyGivenNames s; refine boot_let s ?_; subst s) | (extract_lets +onlyGivenNames s; clear_value s) | split | extract_lets | with_reducible apply State.raise_canonical | with_reducible apply State.reportBad_canonical | with_reducible apply State.whenLft_canonical | with_reducible apply State.takeRecords_canonical | (refine canonical_of_pair (by with_reducible assumption) ?_) | refine State.canonical_mk ?_ rfl rfl

set_option maxRecDepth 4000 in
theorem execLiftBlockEmit_canonical {x1 : State} (h1 : x1.Canonical) :
    OutCanonical (execLiftBlockEmit x1) := by
  unfold execLiftBlockEmit
  apply canonical_next
  apply State.whenLft_canonical h1
  intro s hs
  split
  · exact hs
  extract_lets +onlyGivenNames f a h go
  have hg : ∀ (u : State) (l : Lifting), u.Canonical → (go u l).Canonical := fun u l hu => State.canonical_mk hu rfl rfl
  clear_value go h
  split
  · exact hg _ _ hs
  split
  · exact hs
  extract_lets +onlyGivenNames d tile count first ea valid bad u t
  have ht : State.Canonical t := by
    subst t
    split
    · apply State.raise_canonical
      split
      · exact State.reportBad_canonical (State.reportBad_canonical hs)
      · exact State.reportBad_canonical hs
    · exact hs
  clear_value t u bad valid ea
  split
  · exact hg _ _ ht
  extract_lets +onlyGivenNames held
  clear_value held
  split
  · exact hs
  extract_lets +onlyGivenNames u nd es rows deg cells head s2
  have h2 : State.Canonical s2 := State.writeBytes_canonical ht
  clear_value s2
  exact hg _ _ h2

theorem State.degradeLift_canonical {x1 : State} {x2} (h1 : x1.Canonical) :
    (State.degradeLift x1 x2).1.Canonical := by
  rw [State.degradeLift]
  repeat' first | with_reducible assumption | (refine fun (_ : State) (_ : State.Canonical _) => ?_) | (extract_lets +onlyGivenNames s; refine canonical_cut (s := s) ?_ (fun _ => ?_); rotate_left; clear_value s; rotate_left; subst s) | (extract_lets +onlyGivenNames s; refine mem_let s ?_; subst s) | (extract_lets +onlyGivenNames s; refine boot_let s ?_; subst s) | (extract_lets +onlyGivenNames s; clear_value s) | split | extract_lets | with_reducible apply State.writeBytes_canonical | (with_reducible apply foldl_canonical; intro _ _ _) | refine State.canonical_mk ?_ rfl rfl

theorem execLiftDone_canonical {x1 : State} (h1 : x1.Canonical) :
    OutCanonical (execLiftDone x1) := by
  unfold execLiftDone
  repeat' first | with_reducible assumption | with_reducible apply canonical_next | (refine fun (_ : State) (_ : State.Canonical _) => ?_) | (extract_lets +onlyGivenNames s; refine canonical_cut (s := s) ?_ (fun _ => ?_); rotate_left; clear_value s; rotate_left; subst s) | (extract_lets +onlyGivenNames s; refine canonical_cut (s := s.1) ?_ (fun _ => ?_); rotate_left; clear_value s; rotate_left; subst s) | (extract_lets +onlyGivenNames s; refine mem_let s ?_; subst s) | (extract_lets +onlyGivenNames s; refine boot_let s ?_; subst s) | (extract_lets +onlyGivenNames s; clear_value s) | split | extract_lets | with_reducible apply State.modInc_canonical | with_reducible apply State.endBudget_canonical | with_reducible apply State.tryFinal_canonical | with_reducible apply State.unitDone_canonical | with_reducible apply State.frameReady_canonical | with_reducible apply State.whenLft_canonical | with_reducible apply State.degradeLift_canonical | (refine canonical_of_pair (by with_reducible assumption) ?_) | refine State.canonical_mk ?_ rfl rfl

end Sys2Proof.Machine
end

