-- ==== Sys2Proof/Laws/CanonicalSolver.lean ====
section
/-! SUPPORT. The canonical form is kept by every operation of Machine/Solver.lean. -/

namespace Sys2Proof.Machine

theorem State.whenEgo_canonical {x1 : State} {x2} (h1 : x1.Canonical) (h2 : ∀ t : State, t.Canonical → (x2 t).Canonical) :
    (State.whenEgo x1 x2).Canonical := by
  unfold State.whenEgo
  repeat' first | with_reducible assumption | (refine fun (_ : State) (_ : State.Canonical _) => ?_) | (extract_lets +onlyGivenNames s; refine canonical_cut (s := s) ?_ (fun _ => ?_); rotate_left; clear_value s; rotate_left; subst s) | (extract_lets +onlyGivenNames s; refine mem_let s ?_; subst s) | (extract_lets +onlyGivenNames s; refine boot_let s ?_; subst s) | (extract_lets +onlyGivenNames s; clear_value s) | split | extract_lets | apply h2 | refine State.canonical_mk ?_ rfl rfl

theorem execEgoSampleRead_canonical {x1} {x2 : State} (h2 : x2.Canonical) :
    OutCanonical (execEgoSampleRead x1 x2) := by
  unfold execEgoSampleRead
  repeat' first | with_reducible assumption | with_reducible apply canonical_next | (refine fun (_ : State) (_ : State.Canonical _) => ?_) | (extract_lets +onlyGivenNames s; refine canonical_cut (s := s) ?_ (fun _ => ?_); rotate_left; clear_value s; rotate_left; subst s) | (extract_lets +onlyGivenNames s; refine canonical_cut (s := s.1) ?_ (fun _ => ?_); rotate_left; clear_value s; rotate_left; subst s) | (extract_lets +onlyGivenNames s; refine mem_let s ?_; subst s) | (extract_lets +onlyGivenNames s; refine boot_let s ?_; subst s) | (extract_lets +onlyGivenNames s; clear_value s) | split | extract_lets | with_reducible apply State.raise_canonical | with_reducible apply State.takeItem_canonical | with_reducible apply State.whenEgo_canonical | (refine canonical_of_pair (by with_reducible assumption) ?_) | refine State.canonical_mk ?_ rfl rfl

theorem State.regDrop_canonical {x1 : State} (h1 : x1.Canonical) :
    (State.regDrop x1).Canonical := by
  unfold State.regDrop
  repeat' first | with_reducible assumption | (refine fun (_ : State) (_ : State.Canonical _) => ?_) | (extract_lets +onlyGivenNames s; refine canonical_cut (s := s) ?_ (fun _ => ?_); rotate_left; clear_value s; rotate_left; subst s) | (extract_lets +onlyGivenNames s; refine mem_let s ?_; subst s) | (extract_lets +onlyGivenNames s; refine boot_let s ?_; subst s) | (extract_lets +onlyGivenNames s; clear_value s) | split | extract_lets | with_reducible apply State.raise_canonical | refine State.canonical_mk ?_ rfl rfl

theorem execRegistrationRecord_canonical {x1 : State} (h1 : x1.Canonical) :
    OutCanonical (execRegistrationRecord x1) := by
  unfold execRegistrationRecord
  repeat' first | with_reducible assumption | with_reducible apply canonical_next | (refine fun (_ : State) (_ : State.Canonical _) => ?_) | (extract_lets +onlyGivenNames s; refine canonical_cut (s := s) ?_ (fun _ => ?_); rotate_left; clear_value s; rotate_left; subst s) | (extract_lets +onlyGivenNames s; refine canonical_cut (s := s.1) ?_ (fun _ => ?_); rotate_left; clear_value s; rotate_left; subst s) | (extract_lets +onlyGivenNames s; refine mem_let s ?_; subst s) | (extract_lets +onlyGivenNames s; refine boot_let s ?_; subst s) | (extract_lets +onlyGivenNames s; clear_value s) | split | extract_lets | with_reducible apply State.takeBytes_canonical | with_reducible apply State.whenEgo_canonical | with_reducible apply State.regDrop_canonical | (refine canonical_of_pair (by with_reducible assumption) ?_) | refine State.canonical_mk ?_ rfl rfl

theorem execUpdateRecord_canonical {x1 : State} (h1 : x1.Canonical) :
    OutCanonical (execUpdateRecord x1) := by
  unfold execUpdateRecord
  repeat' first | with_reducible assumption | with_reducible apply canonical_next | (refine fun (_ : State) (_ : State.Canonical _) => ?_) | (extract_lets +onlyGivenNames s; refine canonical_cut (s := s) ?_ (fun _ => ?_); rotate_left; clear_value s; rotate_left; subst s) | (extract_lets +onlyGivenNames s; refine canonical_cut (s := s.1) ?_ (fun _ => ?_); rotate_left; clear_value s; rotate_left; subst s) | (extract_lets +onlyGivenNames s; refine mem_let s ?_; subst s) | (extract_lets +onlyGivenNames s; refine boot_let s ?_; subst s) | (extract_lets +onlyGivenNames s; clear_value s) | split | extract_lets | with_reducible apply State.takeBytes_canonical | with_reducible apply State.whenEgo_canonical | with_reducible apply State.regDrop_canonical | (refine canonical_of_pair (by with_reducible assumption) ?_) | refine State.canonical_mk ?_ rfl rfl

theorem State.formNode_canonical {x1 : State} {x2} {x3} (h1 : x1.Canonical) :
    (State.formNode x1 x2 x3).1.Canonical := by
  rw [State.formNode]
  repeat' first | with_reducible assumption | (refine fun (_ : State) (_ : State.Canonical _) => ?_) | (extract_lets +onlyGivenNames s; refine canonical_cut (s := s) ?_ (fun _ => ?_); rotate_left; clear_value s; rotate_left; subst s) | (extract_lets +onlyGivenNames s; refine mem_let s ?_; subst s) | (extract_lets +onlyGivenNames s; refine boot_let s ?_; subst s) | (extract_lets +onlyGivenNames s; clear_value s) | split | extract_lets | refine State.canonical_mk ?_ rfl rfl

theorem State.storeBlock_canonical {x1 : State} {x2} {x3} {x4} {x5} (h1 : x1.Canonical) :
    (State.storeBlock x1 x2 x3 x4 x5).1.Canonical := by
  rw [State.storeBlock]
  repeat' first | with_reducible assumption | (refine fun (_ : State) (_ : State.Canonical _) => ?_) | (extract_lets +onlyGivenNames s; refine canonical_cut (s := s) ?_ (fun _ => ?_); rotate_left; clear_value s; rotate_left; subst s) | (extract_lets +onlyGivenNames s; refine mem_let s ?_; subst s) | (extract_lets +onlyGivenNames s; refine boot_let s ?_; subst s) | (extract_lets +onlyGivenNames s; clear_value s) | split | extract_lets | with_reducible apply State.writeBytes_canonical | refine State.canonical_mk ?_ rfl rfl

theorem State.slvSats_canonical {x1 : State} {x2} (h1 : x1.Canonical) :
    (State.slvSats x1 x2).Canonical := by
  unfold State.slvSats
  repeat' first | with_reducible assumption | (refine fun (_ : State) (_ : State.Canonical _) => ?_) | (extract_lets +onlyGivenNames s; refine canonical_cut (s := s) ?_ (fun _ => ?_); rotate_left; clear_value s; rotate_left; subst s) | (extract_lets +onlyGivenNames s; refine mem_let s ?_; subst s) | (extract_lets +onlyGivenNames s; refine boot_let s ?_; subst s) | (extract_lets +onlyGivenNames s; clear_value s) | split | extract_lets | with_reducible apply State.raise_canonical | with_reducible apply State.satAdd_canonical | refine State.canonical_mk ?_ rfl rfl

theorem State.applyUpdates_canonical {x1 : State} (h1 : x1.Canonical) :
    (State.applyUpdates x1).1.Canonical := by
  rw [State.applyUpdates]
  refine State.slvSats_canonical (State.canonical_mk ?_ rfl rfl)
  refine foldl_keeps (P := fun y : State × Nat => y.1.Canonical) (fun t u h => ?_) h1
  dsimp only
  split
  · split
    · exact State.storeBlock_canonical h
    · exact h
  · exact State.storeBlock_canonical h

theorem execEgoIntakeClose_canonical {x1 : State} (h1 : x1.Canonical) :
    OutCanonical (execEgoIntakeClose x1) := by
  unfold execEgoIntakeClose
  repeat' first | with_reducible assumption | with_reducible apply canonical_next | (refine fun (_ : State) (_ : State.Canonical _) => ?_) | (extract_lets +onlyGivenNames s; refine canonical_cut (s := s) ?_ (fun _ => ?_); rotate_left; clear_value s; rotate_left; subst s) | (extract_lets +onlyGivenNames s; refine canonical_cut (s := s.1) ?_ (fun _ => ?_); rotate_left; clear_value s; rotate_left; subst s) | (extract_lets +onlyGivenNames s; refine mem_let s ?_; subst s) | (extract_lets +onlyGivenNames s; refine boot_let s ?_; subst s) | (extract_lets +onlyGivenNames s; clear_value s) | split | extract_lets | with_reducible apply State.put_canonical | with_reducible apply State.raise_canonical | with_reducible apply State.flag_canonical | with_reducible apply State.whenEgo_canonical | with_reducible apply State.formNode_canonical | with_reducible apply State.applyUpdates_canonical | (refine canonical_of_pair (by with_reducible assumption) ?_) | refine State.canonical_mk ?_ rfl rfl

theorem execAsmBudgetExpiry_canonical {x1} {x2 : State} (h2 : x2.Canonical) :
    OutCanonical (execAsmBudgetExpiry x1 x2) := by
  unfold execAsmBudgetExpiry
  repeat' first | with_reducible assumption | with_reducible apply canonical_next | (refine fun (_ : State) (_ : State.Canonical _) => ?_) | (extract_lets +onlyGivenNames s; refine canonical_cut (s := s) ?_ (fun _ => ?_); rotate_left; clear_value s; rotate_left; subst s) | (extract_lets +onlyGivenNames s; refine mem_let s ?_; subst s) | (extract_lets +onlyGivenNames s; refine boot_let s ?_; subst s) | (extract_lets +onlyGivenNames s; clear_value s) | split | extract_lets | with_reducible apply State.whenEgo_canonical | refine State.canonical_mk ?_ rfl rfl

set_option maxRecDepth 4000 in
theorem State.assemble_canonical {x1 : State} {x2} {x3} {x4} (h1 : x1.Canonical) :
    (State.assemble x1 x2 x3 x4).1.Canonical := by
  rw [State.assemble]
  refine foldl_keeps (P := fun y : State × Nat => y.1.Canonical) (fun t k h => ?_) h1
  dsimp only
  split
  · exact State.storeBlock_canonical (State.storeBlock_canonical h)
  · exact State.storeBlock_canonical (State.storeBlock_canonical (State.storeBlock_canonical h))

theorem execEgoIterationDone_canonical {x1 : State} (h1 : x1.Canonical) :
    OutCanonical (execEgoIterationDone x1) := by
  unfold execEgoIterationDone
  repeat' first | with_reducible assumption | with_reducible apply canonical_next | (refine fun (_ : State) (_ : State.Canonical _) => ?_) | (extract_lets +onlyGivenNames s; refine canonical_cut (s := s) ?_ (fun _ => ?_); rotate_left; clear_value s; rotate_left; subst s) | (extract_lets +onlyGivenNames s; refine canonical_cut (s := s.1) ?_ (fun _ => ?_); rotate_left; clear_value s; rotate_left; subst s) | (extract_lets +onlyGivenNames s; refine mem_let s ?_; subst s) | (extract_lets +onlyGivenNames s; refine boot_let s ?_; subst s) | (extract_lets +onlyGivenNames s; clear_value s) | split | extract_lets | with_reducible apply State.raise_canonical | with_reducible apply State.satAdd_canonical | with_reducible apply State.reportBad_canonical | with_reducible apply State.whenEgo_canonical | with_reducible apply State.slvSats_canonical | with_reducible apply State.assemble_canonical | (with_reducible apply foldl_canonical; intro _ _ _) | (refine canonical_of_pair (by with_reducible assumption) ?_) | refine State.canonical_mk ?_ rfl rfl

theorem execEgoSolveDone_canonical {x1} {x2 : State} (h2 : x2.Canonical) :
    OutCanonical (execEgoSolveDone x1 x2) := by
  unfold execEgoSolveDone
  repeat' first | with_reducible assumption | with_reducible apply canonical_next | (refine fun (_ : State) (_ : State.Canonical _) => ?_) | (extract_lets +onlyGivenNames s; refine canonical_cut (s := s) ?_ (fun _ => ?_); rotate_left; clear_value s; rotate_left; subst s) | (extract_lets +onlyGivenNames s; refine mem_let s ?_; subst s) | (extract_lets +onlyGivenNames s; refine boot_let s ?_; subst s) | (extract_lets +onlyGivenNames s; clear_value s) | split | extract_lets | with_reducible apply State.put_canonical | with_reducible apply State.raise_canonical | with_reducible apply State.satInc_canonical | with_reducible apply State.zeroFill_canonical | with_reducible apply State.log_canonical | with_reducible apply State.egoIdle_canonical | with_reducible apply State.detect_canonical | with_reducible apply State.whenEgo_canonical | refine State.canonical_mk ?_ rfl rfl

theorem State.publish_canonical {x1 : State} {x2} (h1 : x1.Canonical) :
    (State.publish x1 x2).Canonical := by
  unfold State.publish
  repeat' first | with_reducible assumption | (refine fun (_ : State) (_ : State.Canonical _) => ?_) | (extract_lets +onlyGivenNames s; refine canonical_cut (s := s) ?_ (fun _ => ?_); rotate_left; clear_value s; rotate_left; subst s) | (extract_lets +onlyGivenNames s; refine mem_let s ?_; subst s) | (extract_lets +onlyGivenNames s; refine boot_let s ?_; subst s) | (extract_lets +onlyGivenNames s; clear_value s) | split | extract_lets | with_reducible apply State.writeBytes_canonical | with_reducible apply State.queueWrite_canonical | (with_reducible apply foldl_canonical; intro _ _ _) | refine State.canonical_mk ?_ rfl rfl

theorem execEgoPublish_canonical {x1 : State} (h1 : x1.Canonical) :
    OutCanonical (execEgoPublish x1) := by
  unfold execEgoPublish
  repeat' first | with_reducible assumption | with_reducible apply canonical_next | (refine fun (_ : State) (_ : State.Canonical _) => ?_) | (extract_lets +onlyGivenNames s; refine canonical_cut (s := s) ?_ (fun _ => ?_); rotate_left; clear_value s; rotate_left; subst s) | (extract_lets +onlyGivenNames s; refine mem_let s ?_; subst s) | (extract_lets +onlyGivenNames s; refine boot_let s ?_; subst s) | (extract_lets +onlyGivenNames s; clear_value s) | split | extract_lets | with_reducible apply State.put_canonical | with_reducible apply State.raise_canonical | with_reducible apply State.satInc_canonical | with_reducible apply State.egoIdle_canonical | with_reducible apply State.detect_canonical | with_reducible apply State.whenEgo_canonical | with_reducible apply State.publish_canonical | refine State.canonical_mk ?_ rfl rfl

theorem State.baStart_canonical {x1 : State} (h1 : x1.Canonical) :
    (State.baStart x1).Canonical := by
  unfold State.baStart
  repeat' first | with_reducible assumption | (refine fun (_ : State) (_ : State.Canonical _) => ?_) | (extract_lets +onlyGivenNames s; refine canonical_cut (s := s) ?_ (fun _ => ?_); rotate_left; clear_value s; rotate_left; subst s) | (extract_lets +onlyGivenNames s; refine mem_let s ?_; subst s) | (extract_lets +onlyGivenNames s; refine boot_let s ?_; subst s) | (extract_lets +onlyGivenNames s; clear_value s) | split | extract_lets | with_reducible apply State.raise_canonical | refine State.canonical_mk ?_ rfl rfl

theorem State.baEnd_canonical {x1 : State} {x2} {x3} {x4} {x5} {x6} {x7} (h1 : x1.Canonical) :
    (State.baEnd x1 x2 x3 x4 x5 x6 x7).Canonical := by
  unfold State.baEnd
  repeat' first | with_reducible assumption | (refine fun (_ : State) (_ : State.Canonical _) => ?_) | (extract_lets +onlyGivenNames s; refine canonical_cut (s := s) ?_ (fun _ => ?_); rotate_left; clear_value s; rotate_left; subst s) | (extract_lets +onlyGivenNames s; refine mem_let s ?_; subst s) | (extract_lets +onlyGivenNames s; refine boot_let s ?_; subst s) | (extract_lets +onlyGivenNames s; clear_value s) | split | extract_lets | with_reducible apply State.put_canonical | with_reducible apply State.raise_canonical | with_reducible apply State.flag_canonical | with_reducible apply State.satInc_canonical | with_reducible apply State.writeBytes_canonical | refine State.canonical_mk ?_ rfl rfl

theorem State.baAbort_canonical {x1 : State} (h1 : x1.Canonical) :
    (State.baAbort x1).Canonical := by
  unfold State.baAbort
  repeat' first | with_reducible assumption | (refine fun (_ : State) (_ : State.Canonical _) => ?_) | (extract_lets +onlyGivenNames s; refine canonical_cut (s := s) ?_ (fun _ => ?_); rotate_left; clear_value s; rotate_left; subst s) | (extract_lets +onlyGivenNames s; refine mem_let s ?_; subst s) | (extract_lets +onlyGivenNames s; refine boot_let s ?_; subst s) | (extract_lets +onlyGivenNames s; clear_value s) | split | extract_lets | with_reducible apply State.raise_canonical | with_reducible apply State.baEnd_canonical | refine State.canonical_mk ?_ rfl rfl

theorem State.writeReduced_canonical {x1 : State} {x2} {x3} (h1 : x1.Canonical) :
    (State.writeReduced x1 x2 x3).Canonical := by
  unfold State.writeReduced
  repeat' first | with_reducible assumption | (refine fun (_ : State) (_ : State.Canonical _) => ?_) | (extract_lets +onlyGivenNames s; refine canonical_cut (s := s) ?_ (fun _ => ?_); rotate_left; clear_value s; rotate_left; subst s) | (extract_lets +onlyGivenNames s; refine mem_let s ?_; subst s) | (extract_lets +onlyGivenNames s; refine boot_let s ?_; subst s) | (extract_lets +onlyGivenNames s; clear_value s) | split | extract_lets | with_reducible apply State.writeBytes_canonical | (with_reducible apply foldl_canonical; intro _ _ _) | refine State.canonical_mk ?_ rfl rfl

theorem execBaStepDone_canonical {x1 : State} (h1 : x1.Canonical) :
    OutCanonical (execBaStepDone x1) := by
  unfold execBaStepDone
  repeat' first | with_reducible assumption | with_reducible apply canonical_next | (refine fun (_ : State) (_ : State.Canonical _) => ?_) | (extract_lets +onlyGivenNames s; refine canonical_cut (s := s) ?_ (fun _ => ?_); rotate_left; clear_value s; rotate_left; subst s) | (extract_lets +onlyGivenNames s; refine mem_let s ?_; subst s) | (extract_lets +onlyGivenNames s; refine boot_let s ?_; subst s) | (extract_lets +onlyGivenNames s; clear_value s) | split | extract_lets | with_reducible apply State.raise_canonical | with_reducible apply State.satAdd_canonical | with_reducible apply State.writeBytes_canonical | with_reducible apply State.reportBad_canonical | with_reducible apply State.slvSats_canonical | with_reducible apply State.baEnd_canonical | with_reducible apply State.writeReduced_canonical | (with_reducible apply foldl_canonical; intro _ _ _) | refine State.canonical_mk ?_ rfl rfl

theorem execBaTimeout_canonical {x1 : State} (h1 : x1.Canonical) :
    OutCanonical (execBaTimeout x1) := by
  unfold execBaTimeout
  repeat' first | with_reducible assumption | with_reducible apply canonical_next | (refine fun (_ : State) (_ : State.Canonical _) => ?_) | (extract_lets +onlyGivenNames s; refine canonical_cut (s := s) ?_ (fun _ => ?_); rotate_left; clear_value s; rotate_left; subst s) | (extract_lets +onlyGivenNames s; refine mem_let s ?_; subst s) | (extract_lets +onlyGivenNames s; refine boot_let s ?_; subst s) | (extract_lets +onlyGivenNames s; clear_value s) | split | extract_lets | with_reducible apply State.raise_canonical | with_reducible apply State.baEnd_canonical | refine State.canonical_mk ?_ rfl rfl

end Sys2Proof.Machine
end

