-- ==== Sys2Proof/Laws/CanonicalStartup.lean ====
section
/-! SUPPORT. The canonical form is kept by every operation of Machine/Startup.lean. -/

namespace Sys2Proof.Machine

theorem State.slotReason_canonical {x1 : State} {x2} {x3} (h1 : x1.Canonical) :
    (State.slotReason x1 x2 x3).Canonical := by
  unfold State.slotReason
  repeat' first | with_reducible assumption | (refine fun (_ : State) (_ : State.Canonical _) => ?_) | (extract_lets +onlyGivenNames s; refine canonical_cut (s := s) ?_ (fun _ => ?_); rotate_left; clear_value s; rotate_left; subst s) | (extract_lets +onlyGivenNames s; refine mem_let s ?_; subst s) | (extract_lets +onlyGivenNames s; refine boot_let s ?_; subst s) | (extract_lets +onlyGivenNames s; clear_value s) | split | extract_lets | refine State.canonical_mk ?_ rfl rfl

theorem State.loadReg_canonical {x1 : State} {x2} {x3} (h1 : x1.Canonical) :
    (State.loadReg x1 x2 x3).Canonical := by
  unfold State.loadReg
  repeat' first | with_reducible assumption | (refine fun (_ : State) (_ : State.Canonical _) => ?_) | (extract_lets +onlyGivenNames s; refine canonical_cut (s := s) ?_ (fun _ => ?_); rotate_left; clear_value s; rotate_left; subst s) | (extract_lets +onlyGivenNames s; refine mem_let s ?_; subst s) | (extract_lets +onlyGivenNames s; refine boot_let s ?_; subst s) | (extract_lets +onlyGivenNames s; clear_value s) | split | extract_lets | with_reducible apply State.setReg_canonical | with_reducible apply State.afterWrite_canonical | with_reducible apply State.setSources_canonical | refine State.canonical_mk ?_ rfl rfl

theorem State.loadRecords_canonical {x1 : State} {x2} {x3} (h1 : x1.Canonical) :
    (State.loadRecords x1 x2 x3).Canonical := by
  unfold State.loadRecords
  repeat' first | with_reducible assumption | (refine fun (_ : State) (_ : State.Canonical _) => ?_) | (extract_lets +onlyGivenNames s; refine canonical_cut (s := s) ?_ (fun _ => ?_); rotate_left; clear_value s; rotate_left; subst s) | (extract_lets +onlyGivenNames s; refine mem_let s ?_; subst s) | (extract_lets +onlyGivenNames s; refine boot_let s ?_; subst s) | (extract_lets +onlyGivenNames s; clear_value s) | split | extract_lets | with_reducible apply State.loadReg_canonical | (with_reducible apply foldl_canonical; intro _ _ _) | refine State.canonical_mk ?_ rfl rfl

theorem elim_canonical {α : Type} {o : Option α} {n : State} {f : α → State} (hn : n.Canonical) (hf : ∀ a, (f a).Canonical) :
    (o.elim n f).Canonical := by
  cases o with
  | none => exact hn
  | some a => exact hf a

theorem elim_pair_canonical {α β : Type} {o : Option α} {n : State × β} {f : α → State × β} (hn : n.1.Canonical)
    (hf : ∀ a, (f a).1.Canonical) : (o.elim n f).1.Canonical := by
  cases o with
  | none => exact hn
  | some a => exact hf a

theorem State.loadStep1_canonical {x1 : State} {x2} (h1 : x1.Canonical) : (State.loadStep1 x1 x2).1.Canonical := by
  unfold State.loadStep1
  refine elim_pair_canonical ?_ (fun _ => pair_canonical h1)
  exact pair_canonical (State.loadRecords_canonical h1)

theorem State.loadSection_canonical {x1 : State} {x2} {x3} (h1 : x1.Canonical) :
    (State.loadSection x1 x2 x3).Canonical := by
  unfold State.loadSection
  repeat' first | with_reducible assumption | (refine fun (_ : State) (_ : State.Canonical _) => ?_) | (extract_lets +onlyGivenNames s; refine canonical_cut (s := s) ?_ (fun _ => ?_); rotate_left; clear_value s; rotate_left; subst s) | (extract_lets +onlyGivenNames s; refine mem_let s ?_; subst s) | (extract_lets +onlyGivenNames s; refine boot_let s ?_; subst s) | (extract_lets +onlyGivenNames s; clear_value s) | split | extract_lets | with_reducible apply State.put_canonical | with_reducible apply State.writeBytes_canonical | refine State.canonical_mk ?_ rfl rfl

theorem State.loadStreams_canonical {x1 : State} {x2} (h1 : x1.Canonical) :
    (State.loadStreams x1 x2).Canonical := by
  unfold State.loadStreams
  repeat' first | with_reducible assumption | (refine fun (_ : State) (_ : State.Canonical _) => ?_) | (extract_lets +onlyGivenNames s; refine canonical_cut (s := s) ?_ (fun _ => ?_); rotate_left; clear_value s; rotate_left; subst s) | (extract_lets +onlyGivenNames s; refine mem_let s ?_; subst s) | (extract_lets +onlyGivenNames s; refine boot_let s ?_; subst s) | (extract_lets +onlyGivenNames s; clear_value s) | split | extract_lets | with_reducible apply State.loadReg_canonical | (with_reducible apply foldl_canonical; intro _ _ _) | refine State.canonical_mk ?_ rfl rfl

theorem State.setMeas_canonical {x1 : State} {x2} {x3} (h1 : x1.Canonical) :
    (State.setMeas x1 x2 x3).Canonical := by
  unfold State.setMeas
  repeat' first | with_reducible assumption | (refine fun (_ : State) (_ : State.Canonical _) => ?_) | (extract_lets +onlyGivenNames s; refine canonical_cut (s := s) ?_ (fun _ => ?_); rotate_left; clear_value s; rotate_left; subst s) | (extract_lets +onlyGivenNames s; refine mem_let s ?_; subst s) | (extract_lets +onlyGivenNames s; refine boot_let s ?_; subst s) | (extract_lets +onlyGivenNames s; clear_value s) | split | extract_lets | with_reducible apply State.put_canonical | (with_reducible apply foldl_canonical; intro _ _ _) | refine State.canonical_mk ?_ rfl rfl

theorem State.measureTuned_canonical {x1 : State} (h1 : x1.Canonical) :
    (State.measureTuned x1).Canonical := by
  unfold State.measureTuned
  repeat' first | with_reducible assumption | (refine fun (_ : State) (_ : State.Canonical _) => ?_) | (extract_lets +onlyGivenNames s; refine canonical_cut (s := s) ?_ (fun _ => ?_); rotate_left; clear_value s; rotate_left; subst s) | (extract_lets +onlyGivenNames s; refine mem_let s ?_; subst s) | (extract_lets +onlyGivenNames s; refine boot_let s ?_; subst s) | (extract_lets +onlyGivenNames s; clear_value s) | split | extract_lets | with_reducible apply State.setMeas_canonical | refine State.canonical_mk ?_ rfl rfl

theorem State.measure4_canonical {x1 : State} {x2} (h1 : x1.Canonical) :
    (State.measure4 x1 x2).Canonical := by
  unfold State.measure4
  repeat' first | with_reducible assumption | (refine fun (_ : State) (_ : State.Canonical _) => ?_) | (extract_lets +onlyGivenNames s; refine canonical_cut (s := s) ?_ (fun _ => ?_); rotate_left; clear_value s; rotate_left; subst s) | (extract_lets +onlyGivenNames s; refine mem_let s ?_; subst s) | (extract_lets +onlyGivenNames s; refine boot_let s ?_; subst s) | (extract_lets +onlyGivenNames s; clear_value s) | split | extract_lets | with_reducible apply State.setMeas_canonical | with_reducible apply State.measureTuned_canonical | refine State.canonical_mk ?_ rfl rfl

theorem State.showFuses_canonical {x1 : State} (h1 : x1.Canonical) :
    (State.showFuses x1).Canonical := by
  unfold State.showFuses
  repeat' first | with_reducible assumption | (refine fun (_ : State) (_ : State.Canonical _) => ?_) | (extract_lets +onlyGivenNames s; refine canonical_cut (s := s) ?_ (fun _ => ?_); rotate_left; clear_value s; rotate_left; subst s) | (extract_lets +onlyGivenNames s; refine mem_let s ?_; subst s) | (extract_lets +onlyGivenNames s; refine boot_let s ?_; subst s) | (extract_lets +onlyGivenNames s; clear_value s) | split | extract_lets | with_reducible apply State.put_canonical | with_reducible apply State.flag_canonical | refine State.canonical_mk ?_ rfl rfl

theorem State.noImage_canonical {x1 : State} (h1 : x1.Canonical) :
    (State.noImage x1).Canonical := by
  unfold State.noImage
  repeat' first | with_reducible assumption | (refine fun (_ : State) (_ : State.Canonical _) => ?_) | (extract_lets +onlyGivenNames s; refine canonical_cut (s := s) ?_ (fun _ => ?_); rotate_left; clear_value s; rotate_left; subst s) | (extract_lets +onlyGivenNames s; refine mem_let s ?_; subst s) | (extract_lets +onlyGivenNames s; refine boot_let s ?_; subst s) | (extract_lets +onlyGivenNames s; clear_value s) | split | extract_lets | with_reducible apply State.put_canonical | with_reducible apply State.resetComplete_canonical | with_reducible apply State.setMeas_canonical | refine State.canonical_mk ?_ rfl rfl

theorem State.clearEarly_canonical {x1 : State} (h1 : x1.Canonical) :
    (State.clearEarly x1).Canonical := by
  unfold State.clearEarly
  repeat' first | with_reducible assumption | (refine fun (_ : State) (_ : State.Canonical _) => ?_) | (extract_lets +onlyGivenNames s; refine canonical_cut (s := s) ?_ (fun _ => ?_); rotate_left; clear_value s; rotate_left; subst s) | (extract_lets +onlyGivenNames s; refine mem_let s ?_; subst s) | (extract_lets +onlyGivenNames s; refine boot_let s ?_; subst s) | (extract_lets +onlyGivenNames s; clear_value s) | split | extract_lets | with_reducible apply State.setReg_canonical | refine State.canonical_mk ?_ rfl rfl

theorem State.choose_canonical {x1 : State} {x2} (h1 : x1.Canonical) :
    (State.choose x1 x2).Canonical := by
  unfold State.choose
  repeat' first | with_reducible assumption | (refine fun (_ : State) (_ : State.Canonical _) => ?_) | (extract_lets +onlyGivenNames s; refine canonical_cut (s := s) ?_ (fun _ => ?_); rotate_left; clear_value s; rotate_left; subst s) | (extract_lets +onlyGivenNames s; refine mem_let s ?_; subst s) | (extract_lets +onlyGivenNames s; refine boot_let s ?_; subst s) | (extract_lets +onlyGivenNames s; clear_value s) | split | extract_lets | refine State.canonical_mk ?_ rfl rfl

theorem State.trySlots_canonical {x1 : State} {x2} (h1 : x1.Canonical) :
    (State.trySlots x1 x2).Canonical := by
  induction x2 generalizing x1 with
  | nil => exact State.noImage_canonical h1
  | cons k r ih =>
    unfold State.trySlots
    have h := State.loadStep1_canonical (x2 := k) h1
    exact elim_canonical (State.choose_canonical h) (fun q => ih (State.slotReason_canonical (State.clearEarly_canonical h)))

theorem State.takeCak_canonical {x1 : State} (h1 : x1.Canonical) :
    (State.takeCak x1).Canonical := by
  unfold State.takeCak
  repeat' first | with_reducible assumption | (refine fun (_ : State) (_ : State.Canonical _) => ?_) | (extract_lets +onlyGivenNames s; refine canonical_cut (s := s) ?_ (fun _ => ?_); rotate_left; clear_value s; rotate_left; subst s) | (extract_lets +onlyGivenNames s; refine mem_let s ?_; subst s) | (extract_lets +onlyGivenNames s; refine boot_let s ?_; subst s) | (extract_lets +onlyGivenNames s; clear_value s) | split | extract_lets | with_reducible apply State.put_canonical | refine State.canonical_mk ?_ rfl rfl

theorem State.deriveKeys_canonical {x1 : State} (h1 : x1.Canonical) :
    (State.deriveKeys x1).Canonical := by
  unfold State.deriveKeys
  repeat' first | with_reducible assumption | (refine fun (_ : State) (_ : State.Canonical _) => ?_) | (extract_lets +onlyGivenNames s; refine canonical_cut (s := s) ?_ (fun _ => ?_); rotate_left; clear_value s; rotate_left; subst s) | (extract_lets +onlyGivenNames s; refine mem_let s ?_; subst s) | (extract_lets +onlyGivenNames s; refine boot_let s ?_; subst s) | (extract_lets +onlyGivenNames s; clear_value s) | split | extract_lets | with_reducible apply State.put_canonical | with_reducible apply State.raise_canonical | (with_reducible apply foldl_canonical; intro _ _ _) | refine State.canonical_mk ?_ rfl rfl

theorem State.setLife_canonical {x1 : State} {x2} (h1 : x1.Canonical) :
    (State.setLife x1 x2).Canonical := by
  unfold State.setLife
  repeat' first | with_reducible assumption | (refine fun (_ : State) (_ : State.Canonical _) => ?_) | (extract_lets +onlyGivenNames s; refine canonical_cut (s := s) ?_ (fun _ => ?_); rotate_left; clear_value s; rotate_left; subst s) | (extract_lets +onlyGivenNames s; refine mem_let s ?_; subst s) | (extract_lets +onlyGivenNames s; refine boot_let s ?_; subst s) | (extract_lets +onlyGivenNames s; clear_value s) | split | extract_lets | refine State.canonical_mk ?_ rfl rfl

theorem State.restoreFrom_canonical {x1 : State} {x2} {x3} {x4} (h1 : x1.Canonical) :
    (State.restoreFrom x1 x2 x3 x4).Canonical := by
  unfold State.restoreFrom
  repeat' first | with_reducible assumption | (refine fun (_ : State) (_ : State.Canonical _) => ?_) | (extract_lets +onlyGivenNames s; refine canonical_cut (s := s) ?_ (fun _ => ?_); rotate_left; clear_value s; rotate_left; subst s) | (extract_lets +onlyGivenNames s; refine mem_let s ?_; subst s) | (extract_lets +onlyGivenNames s; refine boot_let s ?_; subst s) | (extract_lets +onlyGivenNames s; clear_value s) | split | extract_lets | with_reducible apply State.put_canonical | with_reducible apply State.raise_canonical | with_reducible apply State.setLife_canonical | refine State.canonical_mk ?_ rfl rfl

theorem State.restoreLife_canonical {x1 : State} {x2} (h1 : x1.Canonical) :
    (State.restoreLife x1 x2).Canonical := by
  unfold State.restoreLife
  exact elim_canonical (State.setLife_canonical (State.raise_canonical h1)) (fun _ => State.restoreFrom_canonical h1)

theorem State.restoreAtPowerOn_canonical {x1 : State} (h1 : x1.Canonical) :
    (State.restoreAtPowerOn x1).Canonical := by
  unfold State.restoreAtPowerOn
  repeat' first | with_reducible assumption | (refine fun (_ : State) (_ : State.Canonical _) => ?_) | (extract_lets +onlyGivenNames s; refine canonical_cut (s := s) ?_ (fun _ => ?_); rotate_left; clear_value s; rotate_left; subst s) | (extract_lets +onlyGivenNames s; refine mem_let s ?_; subst s) | (extract_lets +onlyGivenNames s; refine boot_let s ?_; subst s) | (extract_lets +onlyGivenNames s; clear_value s) | split | extract_lets | with_reducible apply State.life_canonical | with_reducible apply State.restoreLife_canonical | refine State.canonical_mk ?_ rfl rfl

theorem State.provision_canonical {x1 : State} {x2} (h1 : x1.Canonical) :
    (State.provision x1 x2).Canonical := by
  unfold State.provision
  repeat' first | with_reducible assumption | (refine fun (_ : State) (_ : State.Canonical _) => ?_) | (extract_lets +onlyGivenNames s; refine canonical_cut (s := s) ?_ (fun _ => ?_); rotate_left; clear_value s; rotate_left; subst s) | (extract_lets +onlyGivenNames s; refine mem_let s ?_; subst s) | (extract_lets +onlyGivenNames s; refine boot_let s ?_; subst s) | (extract_lets +onlyGivenNames s; clear_value s) | split | extract_lets | with_reducible apply State.showFuses_canonical | refine State.canonical_mk ?_ rfl rfl

theorem State.chooseSlots_canonical {x1 : State} {x2} (h1 : x1.Canonical) :
    (State.chooseSlots x1 x2).Canonical := by
  unfold State.chooseSlots
  repeat' first | with_reducible assumption | (refine fun (_ : State) (_ : State.Canonical _) => ?_) | (extract_lets +onlyGivenNames s; refine canonical_cut (s := s) ?_ (fun _ => ?_); rotate_left; clear_value s; rotate_left; subst s) | (extract_lets +onlyGivenNames s; refine mem_let s ?_; subst s) | (extract_lets +onlyGivenNames s; refine boot_let s ?_; subst s) | (extract_lets +onlyGivenNames s; clear_value s) | split | extract_lets | with_reducible apply State.slotReason_canonical | with_reducible apply State.provision_canonical | refine State.canonical_mk ?_ rfl rfl

theorem State.holdInReset_canonical {x1 : State} {x2} (h1 : x1.Canonical) :
    (State.holdInReset x1 x2).Canonical := by
  unfold State.holdInReset
  repeat' first | with_reducible assumption | (refine fun (_ : State) (_ : State.Canonical _) => ?_) | (extract_lets +onlyGivenNames s; refine canonical_cut (s := s) ?_ (fun _ => ?_); rotate_left; clear_value s; rotate_left; subst s) | (extract_lets +onlyGivenNames s; refine mem_let s ?_; subst s) | (extract_lets +onlyGivenNames s; refine boot_let s ?_; subst s) | (extract_lets +onlyGivenNames s; clear_value s) | split | extract_lets | refine State.canonical_mk ?_ rfl rfl

theorem State.startRomPlls_canonical {x1 : State} (h1 : x1.Canonical) :
    (State.startRomPlls x1).Canonical := by
  unfold State.startRomPlls
  repeat' first | with_reducible assumption | (refine fun (_ : State) (_ : State.Canonical _) => ?_) | (extract_lets +onlyGivenNames s; refine canonical_cut (s := s) ?_ (fun _ => ?_); rotate_left; clear_value s; rotate_left; subst s) | (extract_lets +onlyGivenNames s; refine mem_let s ?_; subst s) | (extract_lets +onlyGivenNames s; refine boot_let s ?_; subst s) | (extract_lets +onlyGivenNames s; clear_value s) | split | extract_lets | with_reducible apply State.startPlls_canonical | refine State.canonical_mk ?_ rfl rfl

theorem State.tamperedStart_canonical {x1 : State} (h1 : x1.Canonical) :
    (State.tamperedStart x1).Canonical := by
  unfold State.tamperedStart
  repeat' first | with_reducible assumption | (refine fun (_ : State) (_ : State.Canonical _) => ?_) | (extract_lets +onlyGivenNames s; refine canonical_cut (s := s) ?_ (fun _ => ?_); rotate_left; clear_value s; rotate_left; subst s) | (extract_lets +onlyGivenNames s; refine mem_let s ?_; subst s) | (extract_lets +onlyGivenNames s; refine boot_let s ?_; subst s) | (extract_lets +onlyGivenNames s; clear_value s) | split | extract_lets | with_reducible apply State.put_canonical | with_reducible apply State.raise_canonical | with_reducible apply State.noImage_canonical | refine State.canonical_mk ?_ rfl rfl

theorem State.warmStart_canonical {x1 : State} {x2} (h1 : x1.Canonical) :
    (State.warmStart x1 x2).Canonical := by
  unfold State.warmStart
  repeat' first | with_reducible assumption | (refine fun (_ : State) (_ : State.Canonical _) => ?_) | (extract_lets +onlyGivenNames s; refine canonical_cut (s := s) ?_ (fun _ => ?_); rotate_left; clear_value s; rotate_left; subst s) | (extract_lets +onlyGivenNames s; refine mem_let s ?_; subst s) | (extract_lets +onlyGivenNames s; refine boot_let s ?_; subst s) | (extract_lets +onlyGivenNames s; clear_value s) | split | extract_lets | with_reducible apply State.slotReason_canonical | with_reducible apply State.noImage_canonical | with_reducible apply State.trySlots_canonical | refine State.canonical_mk ?_ rfl rfl

theorem execResetRelease_canonical {x1} {x2} {x3} {x4} {x5} {x6 : State} (h6 : x6.Canonical) :
    OutCanonical (execResetRelease x1 x2 x3 x4 x5 x6) := by
  unfold execResetRelease
  repeat' first | with_reducible assumption | with_reducible apply canonical_next | (refine fun (_ : State) (_ : State.Canonical _) => ?_) | (extract_lets +onlyGivenNames s; refine canonical_cut (s := s) ?_ (fun _ => ?_); rotate_left; clear_value s; rotate_left; subst s) | (extract_lets +onlyGivenNames s; refine mem_let s ?_; subst s) | (extract_lets +onlyGivenNames s; refine boot_let s ?_; subst s) | (extract_lets +onlyGivenNames s; clear_value s) | split | extract_lets | with_reducible apply State.showFuses_canonical | with_reducible apply State.trySlots_canonical | with_reducible apply State.takeCak_canonical | with_reducible apply State.deriveKeys_canonical | with_reducible apply State.restoreAtPowerOn_canonical | with_reducible apply State.chooseSlots_canonical | with_reducible apply State.holdInReset_canonical | with_reducible apply State.startRomPlls_canonical | with_reducible apply State.tamperedStart_canonical | with_reducible apply State.warmStart_canonical | refine State.canonical_mk ?_ rfl rfl

theorem State.fenceTiles_canonical {x1 : State} {x2} {x3} (h1 : x1.Canonical) :
    (State.fenceTiles x1 x2 x3).Canonical := by
  unfold State.fenceTiles
  repeat' first | with_reducible assumption | (refine fun (_ : State) (_ : State.Canonical _) => ?_) | (extract_lets +onlyGivenNames s; refine canonical_cut (s := s) ?_ (fun _ => ?_); rotate_left; clear_value s; rotate_left; subst s) | (extract_lets +onlyGivenNames s; refine mem_let s ?_; subst s) | (extract_lets +onlyGivenNames s; refine boot_let s ?_; subst s) | (extract_lets +onlyGivenNames s; clear_value s) | split | extract_lets | with_reducible apply State.put_canonical | with_reducible apply State.raise_canonical | with_reducible apply State.life_canonical | with_reducible apply State.lifeOr_canonical | (with_reducible apply foldl_canonical; intro _ _ _) | refine State.canonical_mk ?_ rfl rfl

theorem execBistDone_canonical {x1} {x2} {x3} {x4} {x5} {x6} {x7 : State} (h7 : x7.Canonical) :
    OutCanonical (execBistDone x1 x2 x3 x4 x5 x6 x7) := by
  unfold execBistDone
  repeat' first | with_reducible assumption | with_reducible apply canonical_next | (refine fun (_ : State) (_ : State.Canonical _) => ?_) | (extract_lets +onlyGivenNames s; refine canonical_cut (s := s) ?_ (fun _ => ?_); rotate_left; clear_value s; rotate_left; subst s) | (extract_lets +onlyGivenNames s; refine mem_let s ?_; subst s) | (extract_lets +onlyGivenNames s; refine boot_let s ?_; subst s) | (extract_lets +onlyGivenNames s; clear_value s) | split | extract_lets | with_reducible apply State.put_canonical | with_reducible apply State.raise_canonical | with_reducible apply State.holdInReset_canonical | with_reducible apply State.fenceTiles_canonical | (with_reducible apply foldl_canonical; intro _ _ _) | refine State.canonical_mk ?_ rfl rfl

theorem execDdrTrainingDone_canonical {x1} {x2 : State} (h2 : x2.Canonical) :
    OutCanonical (execDdrTrainingDone x1 x2) := by
  unfold execDdrTrainingDone
  repeat' first | with_reducible assumption | with_reducible apply canonical_next | (refine fun (_ : State) (_ : State.Canonical _) => ?_) | (extract_lets +onlyGivenNames s; refine canonical_cut (s := s) ?_ (fun _ => ?_); rotate_left; clear_value s; rotate_left; subst s) | (extract_lets +onlyGivenNames s; refine mem_let s ?_; subst s) | (extract_lets +onlyGivenNames s; refine boot_let s ?_; subst s) | (extract_lets +onlyGivenNames s; clear_value s) | split | extract_lets | with_reducible apply State.put_canonical | with_reducible apply State.raise_canonical | with_reducible apply State.zeroFill_canonical | (with_reducible apply foldl_canonical; intro _ _ _) | refine State.canonical_mk ?_ rfl rfl

theorem State.loadSections_canonical {x1 : State} {x2} (h1 : x1.Canonical) :
    (State.loadSections x1 x2).Canonical := by
  unfold State.loadSections
  repeat' first | with_reducible assumption | (refine fun (_ : State) (_ : State.Canonical _) => ?_) | (extract_lets +onlyGivenNames s; refine canonical_cut (s := s) ?_ (fun _ => ?_); rotate_left; clear_value s; rotate_left; subst s) | (extract_lets +onlyGivenNames s; refine mem_let s ?_; subst s) | (extract_lets +onlyGivenNames s; refine boot_let s ?_; subst s) | (extract_lets +onlyGivenNames s; clear_value s) | split | extract_lets | with_reducible apply State.loadSection_canonical | (with_reducible apply foldl_canonical; intro _ _ _) | refine State.canonical_mk ?_ rfl rfl

theorem State.loadSettings_canonical {x1 : State} {x2} (h1 : x1.Canonical) :
    (State.loadSettings x1 x2).Canonical := by
  unfold State.loadSettings
  repeat' first | with_reducible assumption | (refine fun (_ : State) (_ : State.Canonical _) => ?_) | (extract_lets +onlyGivenNames s; refine canonical_cut (s := s) ?_ (fun _ => ?_); rotate_left; clear_value s; rotate_left; subst s) | (extract_lets +onlyGivenNames s; refine mem_let s ?_; subst s) | (extract_lets +onlyGivenNames s; refine boot_let s ?_; subst s) | (extract_lets +onlyGivenNames s; clear_value s) | split | extract_lets | with_reducible apply State.startHistory_canonical | with_reducible apply State.loadRecords_canonical | with_reducible apply State.loadStreams_canonical | refine State.canonical_mk ?_ rfl rfl

theorem State.setTunables_canonical {x1 : State} {x2} (h1 : x1.Canonical) :
    (State.setTunables x1 x2).Canonical := by
  unfold State.setTunables
  repeat' first | with_reducible assumption | (refine fun (_ : State) (_ : State.Canonical _) => ?_) | (extract_lets +onlyGivenNames s; refine canonical_cut (s := s) ?_ (fun _ => ?_); rotate_left; clear_value s; rotate_left; subst s) | (extract_lets +onlyGivenNames s; refine mem_let s ?_; subst s) | (extract_lets +onlyGivenNames s; refine boot_let s ?_; subst s) | (extract_lets +onlyGivenNames s; clear_value s) | split | extract_lets | refine State.canonical_mk ?_ rfl rfl

theorem State.checkSettings_canonical {x1 : State} {x2} (h1 : x1.Canonical) :
    (State.checkSettings x1 x2).1.Canonical := by
  rw [State.checkSettings]
  repeat' first | with_reducible assumption | (refine fun (_ : State) (_ : State.Canonical _) => ?_) | (extract_lets +onlyGivenNames s; refine canonical_cut (s := s) ?_ (fun _ => ?_); rotate_left; clear_value s; rotate_left; subst s) | (extract_lets +onlyGivenNames s; refine mem_let s ?_; subst s) | (extract_lets +onlyGivenNames s; refine boot_let s ?_; subst s) | (extract_lets +onlyGivenNames s; clear_value s) | split | extract_lets | with_reducible apply State.setTunables_canonical | refine State.canonical_mk ?_ rfl rfl

theorem State.loadRest_canonical {x1 : State} {x2} (h1 : x1.Canonical) :
    (State.loadRest x1 x2).1.Canonical := by
  unfold State.loadRest
  refine elim_pair_canonical ?_ (fun _ => pair_canonical h1)
  extract_lets +onlyGivenNames s
  have hs : State.Canonical s := State.loadSections_canonical h1
  clear_value s
  split
  · exact State.checkSettings_canonical (State.loadSettings_canonical hs)
  · exact pair_canonical hs

theorem State.failSlot_canonical {x1 : State} {x2} {x3} (h1 : x1.Canonical) :
    (State.failSlot x1 x2 x3).Canonical := by
  unfold State.failSlot
  repeat' first | with_reducible assumption | (refine fun (_ : State) (_ : State.Canonical _) => ?_) | (extract_lets +onlyGivenNames s; refine canonical_cut (s := s) ?_ (fun _ => ?_); rotate_left; clear_value s; rotate_left; subst s) | (extract_lets +onlyGivenNames s; refine mem_let s ?_; subst s) | (extract_lets +onlyGivenNames s; refine boot_let s ?_; subst s) | (extract_lets +onlyGivenNames s; clear_value s) | split | extract_lets | with_reducible apply State.zeroFill_canonical | with_reducible apply State.slotReason_canonical | with_reducible apply State.clearEarly_canonical | with_reducible apply State.trySlots_canonical | (with_reducible apply foldl_canonical; intro _ _ _) | refine State.canonical_mk ?_ rfl rfl

set_option maxRecDepth 4000 in
theorem State.remapHeads_canonical {x1 : State} (h1 : x1.Canonical) :
    (State.remapHeads x1).Canonical := by
  unfold State.remapHeads
  split
  · exact h1
  refine foldl_canonical ?_ h1
  intro t j h
  split
  · exact h
  extract_lets +onlyGivenNames load cs
  clear_value load cs
  split
  · exact h
  split
  · exact State.canonical_mk (State.put_canonical h) rfl rfl
  · exact State.raise_canonical (State.raise_canonical (State.put_canonical h))

set_option maxRecDepth 4000 in
theorem State.applyBist_canonical {x1 : State} (h1 : x1.Canonical) :
    (State.applyBist x1).Canonical := by
  unfold State.applyBist
  repeat' first | with_reducible assumption | (refine fun (_ : State) (_ : State.Canonical _) => ?_) | (extract_lets +onlyGivenNames s; refine canonical_cut (s := s) ?_ (fun _ => ?_); rotate_left; clear_value s; rotate_left; subst s) | (extract_lets +onlyGivenNames s; refine mem_let s ?_; subst s) | (extract_lets +onlyGivenNames s; refine boot_let s ?_; subst s) | (extract_lets +onlyGivenNames s; clear_value s) | split | extract_lets | with_reducible apply State.fenceTiles_canonical | with_reducible apply State.remapHeads_canonical | refine State.canonical_mk ?_ rfl rfl

theorem State.showCalGens_canonical {x1 : State} (h1 : x1.Canonical) :
    (State.showCalGens x1).Canonical := by
  unfold State.showCalGens
  repeat' first | with_reducible assumption | (refine fun (_ : State) (_ : State.Canonical _) => ?_) | (extract_lets +onlyGivenNames s; refine canonical_cut (s := s) ?_ (fun _ => ?_); rotate_left; clear_value s; rotate_left; subst s) | (extract_lets +onlyGivenNames s; refine mem_let s ?_; subst s) | (extract_lets +onlyGivenNames s; refine boot_let s ?_; subst s) | (extract_lets +onlyGivenNames s; clear_value s) | split | extract_lets | with_reducible apply State.put_canonical | (with_reducible apply foldl_canonical; intro _ _ _) | refine State.canonical_mk ?_ rfl rfl

theorem State.finishLoad_canonical {x1 : State} {x2} {x3} (h1 : x1.Canonical) :
    (State.finishLoad x1 x2 x3).Canonical := by
  unfold State.finishLoad
  repeat' first | with_reducible assumption | (refine fun (_ : State) (_ : State.Canonical _) => ?_) | (extract_lets +onlyGivenNames s; refine canonical_cut (s := s) ?_ (fun _ => ?_); rotate_left; clear_value s; rotate_left; subst s) | (extract_lets +onlyGivenNames s; refine mem_let s ?_; subst s) | (extract_lets +onlyGivenNames s; refine boot_let s ?_; subst s) | (extract_lets +onlyGivenNames s; clear_value s) | split | extract_lets | with_reducible apply State.put_canonical | with_reducible apply State.raise_canonical | with_reducible apply State.detect_canonical | with_reducible apply State.reportLevel_canonical | with_reducible apply State.startPlls_canonical | with_reducible apply State.measure4_canonical | with_reducible apply State.applyBist_canonical | with_reducible apply State.showCalGens_canonical | refine State.canonical_mk ?_ rfl rfl

theorem execImageLoadDone_canonical {x1} {x2} {x3 : State} (h3 : x3.Canonical) :
    OutCanonical (execImageLoadDone x1 x2 x3) := by
  unfold execImageLoadDone
  repeat' first | with_reducible assumption | with_reducible apply canonical_next | (refine fun (_ : State) (_ : State.Canonical _) => ?_) | (extract_lets +onlyGivenNames s; refine canonical_cut (s := s) ?_ (fun _ => ?_); rotate_left; clear_value s; rotate_left; subst s) | (extract_lets +onlyGivenNames s; refine canonical_cut (s := s.1) ?_ (fun _ => ?_); rotate_left; clear_value s; rotate_left; subst s) | (extract_lets +onlyGivenNames s; refine mem_let s ?_; subst s) | (extract_lets +onlyGivenNames s; refine boot_let s ?_; subst s) | (extract_lets +onlyGivenNames s; clear_value s) | split | extract_lets | with_reducible apply State.noImage_canonical | with_reducible apply State.loadRest_canonical | with_reducible apply State.failSlot_canonical | with_reducible apply State.finishLoad_canonical | (refine canonical_of_pair (by with_reducible assumption) ?_) | refine State.canonical_mk ?_ rfl rfl

end Sys2Proof.Machine
end

