-- ==== Sys2Proof/Laws/CanonicalTransmit.lean ====
section
/-! SUPPORT. The canonical form is kept by every operation of Machine/Transmit.lean. -/

namespace Sys2Proof.Machine

theorem State.txRun_canonical {x1 : State} {x2} (h1 : x1.Canonical) :
    (State.txRun x1 x2).Canonical := by
  unfold State.txRun
  repeat' first | with_reducible assumption | (refine fun (_ : State) (_ : State.Canonical _) => ?_) | (extract_lets +onlyGivenNames s; refine canonical_cut (s := s) ?_ (fun _ => ?_); rotate_left; clear_value s; rotate_left; subst s) | (extract_lets +onlyGivenNames s; refine mem_let s ?_; subst s) | (extract_lets +onlyGivenNames s; refine boot_let s ?_; subst s) | (extract_lets +onlyGivenNames s; clear_value s) | split | extract_lets | with_reducible apply State.updTx_canonical | with_reducible apply State.txTake_canonical | with_reducible apply State.reportBad_canonical | refine State.canonical_mk ?_ rfl rfl

theorem State.txTick_canonical {x1 : State} {x2} (h1 : x1.Canonical) :
    (State.txTick x1 x2).Canonical := by
  unfold State.txTick
  repeat' first | with_reducible assumption | (refine fun (_ : State) (_ : State.Canonical _) => ?_) | (extract_lets +onlyGivenNames s; refine canonical_cut (s := s) ?_ (fun _ => ?_); rotate_left; clear_value s; rotate_left; subst s) | (extract_lets +onlyGivenNames s; refine mem_let s ?_; subst s) | (extract_lets +onlyGivenNames s; refine boot_let s ?_; subst s) | (extract_lets +onlyGivenNames s; clear_value s) | split | extract_lets | with_reducible apply State.updTx_canonical | with_reducible apply State.txRun_canonical | refine State.canonical_mk ?_ rfl rfl

theorem State.sendTiles_canonical {x1 : State} {x2} {x3} {x4} {x5} {x6} {x7} (h1 : x1.Canonical) :
    (State.sendTiles x1 x2 x3 x4 x5 x6 x7).Canonical := by
  revert h1
  fun_induction State.sendTiles x1 x2 x3 x4 x5 x6 x7 <;> intro h1
  all_goals repeat' first | with_reducible assumption | (refine (by with_reducible assumption : State.Canonical _ → State.Canonical _) ?_) | (refine fun (_ : State) (_ : State.Canonical _) => ?_) | (extract_lets +onlyGivenNames s; refine canonical_cut (s := s) ?_ (fun _ => ?_); rotate_left; clear_value s; rotate_left; subst s) | (extract_lets +onlyGivenNames s; refine mem_let s ?_; subst s) | (extract_lets +onlyGivenNames s; refine boot_let s ?_; subst s) | (extract_lets +onlyGivenNames s; clear_value s) | split | extract_lets | with_reducible apply State.updTx_canonical | with_reducible apply State.txRun_canonical | refine State.canonical_mk ?_ rfl rfl

end Sys2Proof.Machine
end

