-- ==== Sys2Proof/Laws/CanonicalTime.lean ====
section
/-! SUPPORT. The canonical form is kept by every operation of Machine/Time.lean. -/

namespace Sys2Proof.Machine

theorem State.updDom_canonical {x1 : State} {x2} {x3} (h1 : x1.Canonical) :
    (State.updDom x1 x2 x3).Canonical := by
  unfold State.updDom
  repeat' first | with_reducible assumption | (refine fun (_ : State) (_ : State.Canonical _) => ?_) | (extract_lets +onlyGivenNames s; refine canonical_cut (s := s) ?_ (fun _ => ?_); rotate_left; clear_value s; rotate_left; subst s) | (extract_lets +onlyGivenNames s; refine mem_let s ?_; subst s) | (extract_lets +onlyGivenNames s; refine boot_let s ?_; subst s) | (extract_lets +onlyGivenNames s; clear_value s) | split | extract_lets | refine State.canonical_mk ?_ rfl rfl

theorem State.followSlot_canonical {x1 : State} {x2} (h1 : x1.Canonical) :
    (State.followSlot x1 x2).Canonical := by
  unfold State.followSlot
  repeat' first | with_reducible assumption | (refine fun (_ : State) (_ : State.Canonical _) => ?_) | (extract_lets +onlyGivenNames s; refine canonical_cut (s := s) ?_ (fun _ => ?_); rotate_left; clear_value s; rotate_left; subst s) | (extract_lets +onlyGivenNames s; refine mem_let s ?_; subst s) | (extract_lets +onlyGivenNames s; refine boot_let s ?_; subst s) | (extract_lets +onlyGivenNames s; clear_value s) | split | extract_lets | with_reducible apply State.put_canonical | with_reducible apply State.putI_canonical | refine State.canonical_mk ?_ rfl rfl

theorem State.clearIntegral_canonical {x1 : State} (h1 : x1.Canonical) :
    (State.clearIntegral x1).Canonical := by
  unfold State.clearIntegral
  repeat' first | with_reducible assumption | (refine fun (_ : State) (_ : State.Canonical _) => ?_) | (extract_lets +onlyGivenNames s; refine canonical_cut (s := s) ?_ (fun _ => ?_); rotate_left; clear_value s; rotate_left; subst s) | (extract_lets +onlyGivenNames s; refine mem_let s ?_; subst s) | (extract_lets +onlyGivenNames s; refine boot_let s ?_; subst s) | (extract_lets +onlyGivenNames s; clear_value s) | split | extract_lets | refine State.canonical_mk ?_ rfl rfl

theorem State.slewTo_canonical {x1 : State} {x2} (h1 : x1.Canonical) :
    (State.slewTo x1 x2).Canonical := by
  unfold State.slewTo
  repeat' first | with_reducible assumption | (refine fun (_ : State) (_ : State.Canonical _) => ?_) | (extract_lets +onlyGivenNames s; refine canonical_cut (s := s) ?_ (fun _ => ?_); rotate_left; clear_value s; rotate_left; subst s) | (extract_lets +onlyGivenNames s; refine mem_let s ?_; subst s) | (extract_lets +onlyGivenNames s; refine boot_let s ?_; subst s) | (extract_lets +onlyGivenNames s; clear_value s) | split | extract_lets | with_reducible apply State.put_canonical | with_reducible apply State.putI_canonical | refine State.canonical_mk ?_ rfl rfl

theorem State.slewOrStep_canonical {x1 : State} {x2} (h1 : x1.Canonical) :
    (State.slewOrStep x1 x2).Canonical := by
  unfold State.slewOrStep
  repeat' first | with_reducible assumption | (refine fun (_ : State) (_ : State.Canonical _) => ?_) | (extract_lets +onlyGivenNames s; refine canonical_cut (s := s) ?_ (fun _ => ?_); rotate_left; clear_value s; rotate_left; subst s) | (extract_lets +onlyGivenNames s; refine mem_let s ?_; subst s) | (extract_lets +onlyGivenNames s; refine boot_let s ?_; subst s) | (extract_lets +onlyGivenNames s; clear_value s) | split | extract_lets | with_reducible apply State.put_canonical | with_reducible apply State.stepTime_canonical | with_reducible apply State.updDom_canonical | with_reducible apply State.followSlot_canonical | with_reducible apply State.clearIntegral_canonical | with_reducible apply State.slewTo_canonical | refine State.canonical_mk ?_ rfl rfl

theorem State.switchTo_canonical {x1 : State} {x2} (h1 : x1.Canonical) :
    (State.switchTo x1 x2).Canonical := by
  unfold State.switchTo
  repeat' first | with_reducible assumption | (refine fun (_ : State) (_ : State.Canonical _) => ?_) | (extract_lets +onlyGivenNames s; refine canonical_cut (s := s) ?_ (fun _ => ?_); rotate_left; clear_value s; rotate_left; subst s) | (extract_lets +onlyGivenNames s; refine mem_let s ?_; subst s) | (extract_lets +onlyGivenNames s; refine boot_let s ?_; subst s) | (extract_lets +onlyGivenNames s; clear_value s) | split | extract_lets | with_reducible apply State.raise_canonical | with_reducible apply State.satInc_canonical | with_reducible apply State.clearIntegral_canonical | with_reducible apply State.slewOrStep_canonical | refine State.canonical_mk ?_ rfl rfl

theorem State.enterHoldover_canonical {x1 : State} (h1 : x1.Canonical) :
    (State.enterHoldover x1).Canonical := by
  unfold State.enterHoldover
  repeat' first | with_reducible assumption | (refine fun (_ : State) (_ : State.Canonical _) => ?_) | (extract_lets +onlyGivenNames s; refine canonical_cut (s := s) ?_ (fun _ => ?_); rotate_left; clear_value s; rotate_left; subst s) | (extract_lets +onlyGivenNames s; refine mem_let s ?_; subst s) | (extract_lets +onlyGivenNames s; refine boot_let s ?_; subst s) | (extract_lets +onlyGivenNames s; clear_value s) | split | extract_lets | with_reducible apply State.put_canonical | with_reducible apply State.raise_canonical | with_reducible apply State.putI_canonical | with_reducible apply State.satInc_canonical | refine State.canonical_mk ?_ rfl rfl

theorem State.evalTime_canonical {x1 : State} (h1 : x1.Canonical) :
    (State.evalTime x1).Canonical := by
  unfold State.evalTime
  repeat' first | with_reducible assumption | (refine fun (_ : State) (_ : State.Canonical _) => ?_) | (extract_lets +onlyGivenNames s; refine canonical_cut (s := s) ?_ (fun _ => ?_); rotate_left; clear_value s; rotate_left; subst s) | (extract_lets +onlyGivenNames s; refine mem_let s ?_; subst s) | (extract_lets +onlyGivenNames s; refine boot_let s ?_; subst s) | (extract_lets +onlyGivenNames s; clear_value s) | split | extract_lets | with_reducible apply State.put_canonical | with_reducible apply State.moveHeld_canonical | with_reducible apply State.reportLevel_canonical | with_reducible apply State.updDom_canonical | with_reducible apply State.followSlot_canonical | with_reducible apply State.slewOrStep_canonical | with_reducible apply State.switchTo_canonical | with_reducible apply State.enterHoldover_canonical | refine State.canonical_mk ?_ rfl rfl

theorem State.chooseSlot_canonical {x1 : State} (h1 : x1.Canonical) :
    (State.chooseSlot x1).Canonical := by
  unfold State.chooseSlot
  repeat' first | with_reducible assumption | (refine fun (_ : State) (_ : State.Canonical _) => ?_) | (extract_lets +onlyGivenNames s; refine canonical_cut (s := s) ?_ (fun _ => ?_); rotate_left; clear_value s; rotate_left; subst s) | (extract_lets +onlyGivenNames s; refine mem_let s ?_; subst s) | (extract_lets +onlyGivenNames s; refine boot_let s ?_; subst s) | (extract_lets +onlyGivenNames s; clear_value s) | split | extract_lets | with_reducible apply State.evalTime_canonical | refine State.canonical_mk ?_ rfl rfl

theorem State.unqualify_canonical {x1 : State} {x2} (h1 : x1.Canonical) :
    (State.unqualify x1 x2).Canonical := by
  unfold State.unqualify
  repeat' first | with_reducible assumption | (refine fun (_ : State) (_ : State.Canonical _) => ?_) | (extract_lets +onlyGivenNames s; refine canonical_cut (s := s) ?_ (fun _ => ?_); rotate_left; clear_value s; rotate_left; subst s) | (extract_lets +onlyGivenNames s; refine mem_let s ?_; subst s) | (extract_lets +onlyGivenNames s; refine boot_let s ?_; subst s) | (extract_lets +onlyGivenNames s; clear_value s) | split | extract_lets | with_reducible apply State.put_canonical | with_reducible apply State.updDom_canonical | with_reducible apply State.evalTime_canonical | refine State.canonical_mk ?_ rfl rfl

theorem State.servo_canonical {x1 : State} {x2} (h1 : x1.Canonical) :
    (State.servo x1 x2).Canonical := by
  unfold State.servo
  repeat' first | with_reducible assumption | (refine fun (_ : State) (_ : State.Canonical _) => ?_) | (extract_lets +onlyGivenNames s; refine canonical_cut (s := s) ?_ (fun _ => ?_); rotate_left; clear_value s; rotate_left; subst s) | (extract_lets +onlyGivenNames s; refine mem_let s ?_; subst s) | (extract_lets +onlyGivenNames s; refine boot_let s ?_; subst s) | (extract_lets +onlyGivenNames s; clear_value s) | split | extract_lets | with_reducible apply State.raise_canonical | with_reducible apply State.putI_canonical | refine State.canonical_mk ?_ rfl rfl

theorem State.measure_canonical {x1 : State} {x2} {x3} {x4} {x5} {x6} (h1 : x1.Canonical) :
    (State.measure x1 x2 x3 x4 x5 x6).Canonical := by
  unfold State.measure
  repeat' first | with_reducible assumption | (refine fun (_ : State) (_ : State.Canonical _) => ?_) | (extract_lets +onlyGivenNames s; refine canonical_cut (s := s) ?_ (fun _ => ?_); rotate_left; clear_value s; rotate_left; subst s) | (extract_lets +onlyGivenNames s; refine mem_let s ?_; subst s) | (extract_lets +onlyGivenNames s; refine boot_let s ?_; subst s) | (extract_lets +onlyGivenNames s; clear_value s) | split | extract_lets | with_reducible apply State.put_canonical | with_reducible apply State.raise_canonical | with_reducible apply State.flag_canonical | with_reducible apply State.putI_canonical | with_reducible apply State.updDom_canonical | with_reducible apply State.unqualify_canonical | with_reducible apply State.servo_canonical | refine State.canonical_mk ?_ rfl rfl

theorem State.showSlave_canonical {x1 : State} {x2} (h1 : x1.Canonical) :
    (State.showSlave x1 x2).Canonical := by
  unfold State.showSlave
  repeat' first | with_reducible assumption | (refine fun (_ : State) (_ : State.Canonical _) => ?_) | (extract_lets +onlyGivenNames s; refine canonical_cut (s := s) ?_ (fun _ => ?_); rotate_left; clear_value s; rotate_left; subst s) | (extract_lets +onlyGivenNames s; refine mem_let s ?_; subst s) | (extract_lets +onlyGivenNames s; refine boot_let s ?_; subst s) | (extract_lets +onlyGivenNames s; clear_value s) | split | extract_lets | with_reducible apply State.put_canonical | refine State.canonical_mk ?_ rfl rfl

theorem State.whenTim_canonical {x1 : State} {x2} (h1 : x1.Canonical) (h2 : ∀ t : State, t.Canonical → (x2 t).Canonical) :
    (State.whenTim x1 x2).Canonical := by
  unfold State.whenTim
  repeat' first | with_reducible assumption | (refine fun (_ : State) (_ : State.Canonical _) => ?_) | (extract_lets +onlyGivenNames s; refine canonical_cut (s := s) ?_ (fun _ => ?_); rotate_left; clear_value s; rotate_left; subst s) | (extract_lets +onlyGivenNames s; refine mem_let s ?_; subst s) | (extract_lets +onlyGivenNames s; refine boot_let s ?_; subst s) | (extract_lets +onlyGivenNames s; clear_value s) | split | extract_lets | apply h2 | refine State.canonical_mk ?_ rfl rfl

theorem execTimNowLowRead_canonical {x1 : State} (h1 : x1.Canonical) :
    OutCanonical (execTimNowLowRead x1) := by
  unfold execTimNowLowRead
  repeat' first | with_reducible assumption | with_reducible apply canonical_next | (refine fun (_ : State) (_ : State.Canonical _) => ?_) | (extract_lets +onlyGivenNames s; refine canonical_cut (s := s) ?_ (fun _ => ?_); rotate_left; clear_value s; rotate_left; subst s) | (extract_lets +onlyGivenNames s; refine mem_let s ?_; subst s) | (extract_lets +onlyGivenNames s; refine boot_let s ?_; subst s) | (extract_lets +onlyGivenNames s; clear_value s) | split | extract_lets | with_reducible apply State.whenTim_canonical | refine State.canonical_mk ?_ rfl rfl

theorem execSync_canonical {x1} {x2} {x3} {x4} {x5} {x6} {x7} {x8 : State} (h8 : x8.Canonical) :
    OutCanonical (execSync x1 x2 x3 x4 x5 x6 x7 x8) := by
  unfold execSync
  repeat' first | with_reducible assumption | with_reducible apply canonical_next | (refine fun (_ : State) (_ : State.Canonical _) => ?_) | (extract_lets +onlyGivenNames s; refine canonical_cut (s := s) ?_ (fun _ => ?_); rotate_left; clear_value s; rotate_left; subst s) | (extract_lets +onlyGivenNames s; refine mem_let s ?_; subst s) | (extract_lets +onlyGivenNames s; refine boot_let s ?_; subst s) | (extract_lets +onlyGivenNames s; clear_value s) | split | extract_lets | with_reducible apply State.updDom_canonical | with_reducible apply State.chooseSlot_canonical | with_reducible apply State.measure_canonical | with_reducible apply State.whenTim_canonical | refine State.canonical_mk ?_ rfl rfl

theorem execFollowUp_canonical {x1} {x2} {x3} {x4} {x5} {x6 : State} (h6 : x6.Canonical) :
    OutCanonical (execFollowUp x1 x2 x3 x4 x5 x6) := by
  unfold execFollowUp
  repeat' first | with_reducible assumption | with_reducible apply canonical_next | (refine fun (_ : State) (_ : State.Canonical _) => ?_) | (extract_lets +onlyGivenNames s; refine canonical_cut (s := s) ?_ (fun _ => ?_); rotate_left; clear_value s; rotate_left; subst s) | (extract_lets +onlyGivenNames s; refine mem_let s ?_; subst s) | (extract_lets +onlyGivenNames s; refine boot_let s ?_; subst s) | (extract_lets +onlyGivenNames s; clear_value s) | split | extract_lets | with_reducible apply State.updDom_canonical | with_reducible apply State.chooseSlot_canonical | with_reducible apply State.measure_canonical | with_reducible apply State.whenTim_canonical | refine State.canonical_mk ?_ rfl rfl

theorem execAnnounce_canonical {x1} {x2} {x3} {x4} {x5} {x6} {x7 : State} (h7 : x7.Canonical) :
    OutCanonical (execAnnounce x1 x2 x3 x4 x5 x6 x7) := by
  unfold execAnnounce
  repeat' first | with_reducible assumption | with_reducible apply canonical_next | (refine fun (_ : State) (_ : State.Canonical _) => ?_) | (extract_lets +onlyGivenNames s; refine canonical_cut (s := s) ?_ (fun _ => ?_); rotate_left; clear_value s; rotate_left; subst s) | (extract_lets +onlyGivenNames s; refine mem_let s ?_; subst s) | (extract_lets +onlyGivenNames s; refine boot_let s ?_; subst s) | (extract_lets +onlyGivenNames s; clear_value s) | split | extract_lets | with_reducible apply State.put_canonical | with_reducible apply State.updDom_canonical | with_reducible apply State.unqualify_canonical | with_reducible apply State.showSlave_canonical | with_reducible apply State.whenTim_canonical | refine State.canonical_mk ?_ rfl rfl

theorem State.pdelayRx_canonical {x1 : State} {x2} {x3} {x4} {x5} (h1 : x1.Canonical) (h5 : ∀ t : State, t.Canonical → (x5 t).Canonical) :
    (State.pdelayRx x1 x2 x3 x4 x5).Canonical := by
  unfold State.pdelayRx
  dsimp only
  split
  · exact State.txSend_canonical h1
  · split
    · exact h1
    · exact State.canonical_mk h1 rfl rfl
  · split
    · exact h5 _ (State.canonical_mk h1 rfl rfl)
    · exact h1

theorem State.hostCapable_canonical {x1 : State} {x2} (h1 : x1.Canonical) :
    (State.hostCapable x1 x2).Canonical := by
  unfold State.hostCapable
  repeat' first | with_reducible assumption | (refine fun (_ : State) (_ : State.Canonical _) => ?_) | (extract_lets +onlyGivenNames s; refine canonical_cut (s := s) ?_ (fun _ => ?_); rotate_left; clear_value s; rotate_left; subst s) | (extract_lets +onlyGivenNames s; refine mem_let s ?_; subst s) | (extract_lets +onlyGivenNames s; refine boot_let s ?_; subst s) | (extract_lets +onlyGivenNames s; clear_value s) | split | extract_lets | with_reducible apply State.raise_canonical | (with_reducible apply foldl_canonical; intro _ _ _) | refine State.canonical_mk ?_ rfl rfl

set_option maxRecDepth 4000 in
theorem execPdelay_canonical {x1} {x2} {x3} {x4 : State} (h4 : x4.Canonical) :
    OutCanonical (execPdelay x1 x2 x3 x4) := by
  unfold execPdelay
  repeat' first | with_reducible assumption | with_reducible apply canonical_next | (refine fun (_ : State) (_ : State.Canonical _) => ?_) | (extract_lets +onlyGivenNames s; refine canonical_cut (s := s) ?_ (fun _ => ?_); rotate_left; clear_value s; rotate_left; subst s) | (extract_lets +onlyGivenNames s; refine mem_let s ?_; subst s) | (extract_lets +onlyGivenNames s; refine boot_let s ?_; subst s) | (extract_lets +onlyGivenNames s; clear_value s) | split | extract_lets | with_reducible apply State.whenTim_canonical | with_reducible apply State.pdelayRx_canonical | with_reducible apply State.hostCapable_canonical | refine State.canonical_mk ?_ rfl rfl

theorem execSignaling_canonical {x1} {x2 : State} (h2 : x2.Canonical) :
    OutCanonical (execSignaling x1 x2) := by
  unfold execSignaling
  repeat' first | with_reducible assumption | with_reducible apply canonical_next | (refine fun (_ : State) (_ : State.Canonical _) => ?_) | (extract_lets +onlyGivenNames s; refine canonical_cut (s := s) ?_ (fun _ => ?_); rotate_left; clear_value s; rotate_left; subst s) | (extract_lets +onlyGivenNames s; refine mem_let s ?_; subst s) | (extract_lets +onlyGivenNames s; refine boot_let s ?_; subst s) | (extract_lets +onlyGivenNames s; clear_value s) | split | extract_lets | refine State.canonical_mk ?_ rfl rfl

theorem State.receiptTimeout_canonical {x1 : State} {x2} {x3} {x4} {x5} (h1 : x1.Canonical) :
    (State.receiptTimeout x1 x2 x3 x4 x5).Canonical := by
  unfold State.receiptTimeout
  repeat' first | with_reducible assumption | (refine fun (_ : State) (_ : State.Canonical _) => ?_) | (extract_lets +onlyGivenNames s; refine canonical_cut (s := s) ?_ (fun _ => ?_); rotate_left; clear_value s; rotate_left; subst s) | (extract_lets +onlyGivenNames s; refine mem_let s ?_; subst s) | (extract_lets +onlyGivenNames s; refine boot_let s ?_; subst s) | (extract_lets +onlyGivenNames s; clear_value s) | split | extract_lets | with_reducible apply State.raise_canonical | with_reducible apply State.updDom_canonical | with_reducible apply State.unqualify_canonical | with_reducible apply State.showSlave_canonical | refine State.canonical_mk ?_ rfl rfl

theorem execSyncReceiptTimeout_canonical {x1} {x2} {x3 : State} (h3 : x3.Canonical) :
    OutCanonical (execSyncReceiptTimeout x1 x2 x3) := by
  unfold execSyncReceiptTimeout
  repeat' first | with_reducible assumption | with_reducible apply canonical_next | (refine fun (_ : State) (_ : State.Canonical _) => ?_) | (extract_lets +onlyGivenNames s; refine canonical_cut (s := s) ?_ (fun _ => ?_); rotate_left; clear_value s; rotate_left; subst s) | (extract_lets +onlyGivenNames s; refine mem_let s ?_; subst s) | (extract_lets +onlyGivenNames s; refine boot_let s ?_; subst s) | (extract_lets +onlyGivenNames s; clear_value s) | split | extract_lets | with_reducible apply State.whenTim_canonical | with_reducible apply State.receiptTimeout_canonical | refine State.canonical_mk ?_ rfl rfl

theorem execAnnounceReceiptTimeout_canonical {x1} {x2} {x3 : State} (h3 : x3.Canonical) :
    OutCanonical (execAnnounceReceiptTimeout x1 x2 x3) := by
  unfold execAnnounceReceiptTimeout
  repeat' first | with_reducible assumption | with_reducible apply canonical_next | (refine fun (_ : State) (_ : State.Canonical _) => ?_) | (extract_lets +onlyGivenNames s; refine canonical_cut (s := s) ?_ (fun _ => ?_); rotate_left; clear_value s; rotate_left; subst s) | (extract_lets +onlyGivenNames s; refine mem_let s ?_; subst s) | (extract_lets +onlyGivenNames s; refine boot_let s ?_; subst s) | (extract_lets +onlyGivenNames s; clear_value s) | split | extract_lets | with_reducible apply State.whenTim_canonical | with_reducible apply State.receiptTimeout_canonical | refine State.canonical_mk ?_ rfl rfl

theorem execSlewComplete_canonical {x1 : State} (h1 : x1.Canonical) :
    OutCanonical (execSlewComplete x1) := by
  unfold execSlewComplete
  repeat' first | with_reducible assumption | with_reducible apply canonical_next | (refine fun (_ : State) (_ : State.Canonical _) => ?_) | (extract_lets +onlyGivenNames s; refine canonical_cut (s := s) ?_ (fun _ => ?_); rotate_left; clear_value s; rotate_left; subst s) | (extract_lets +onlyGivenNames s; refine mem_let s ?_; subst s) | (extract_lets +onlyGivenNames s; refine boot_let s ?_; subst s) | (extract_lets +onlyGivenNames s; clear_value s) | split | extract_lets | with_reducible apply State.put_canonical | with_reducible apply State.whenTim_canonical | refine State.canonical_mk ?_ rfl rfl

theorem execAcqTimeout_canonical {x1 : State} (h1 : x1.Canonical) :
    OutCanonical (execAcqTimeout x1) := by
  unfold execAcqTimeout
  repeat' first | with_reducible assumption | with_reducible apply canonical_next | (refine fun (_ : State) (_ : State.Canonical _) => ?_) | (extract_lets +onlyGivenNames s; refine canonical_cut (s := s) ?_ (fun _ => ?_); rotate_left; clear_value s; rotate_left; subst s) | (extract_lets +onlyGivenNames s; refine mem_let s ?_; subst s) | (extract_lets +onlyGivenNames s; refine boot_let s ?_; subst s) | (extract_lets +onlyGivenNames s; clear_value s) | split | extract_lets | with_reducible apply State.raise_canonical | with_reducible apply State.reportLevel_canonical | with_reducible apply State.whenTim_canonical | refine State.canonical_mk ?_ rfl rfl

theorem execHoldoverLimit_canonical {x1 : State} (h1 : x1.Canonical) :
    OutCanonical (execHoldoverLimit x1) := by
  unfold execHoldoverLimit
  repeat' first | with_reducible assumption | with_reducible apply canonical_next | (refine fun (_ : State) (_ : State.Canonical _) => ?_) | (extract_lets +onlyGivenNames s; refine canonical_cut (s := s) ?_ (fun _ => ?_); rotate_left; clear_value s; rotate_left; subst s) | (extract_lets +onlyGivenNames s; refine mem_let s ?_; subst s) | (extract_lets +onlyGivenNames s; refine boot_let s ?_; subst s) | (extract_lets +onlyGivenNames s; clear_value s) | split | extract_lets | with_reducible apply State.raise_canonical | with_reducible apply State.whenTim_canonical | refine State.canonical_mk ?_ rfl rfl

theorem execRevert_canonical {x1 : State} (h1 : x1.Canonical) :
    OutCanonical (execRevert x1) := by
  unfold execRevert
  repeat' first | with_reducible assumption | with_reducible apply canonical_next | (refine fun (_ : State) (_ : State.Canonical _) => ?_) | (extract_lets +onlyGivenNames s; refine canonical_cut (s := s) ?_ (fun _ => ?_); rotate_left; clear_value s; rotate_left; subst s) | (extract_lets +onlyGivenNames s; refine mem_let s ?_; subst s) | (extract_lets +onlyGivenNames s; refine boot_let s ?_; subst s) | (extract_lets +onlyGivenNames s; clear_value s) | split | extract_lets | with_reducible apply State.switchTo_canonical | with_reducible apply State.whenTim_canonical | refine State.canonical_mk ?_ rfl rfl

theorem State.noteTx_canonical {x1 : State} {x2} (h1 : x1.Canonical) :
    (State.noteTx x1 x2).Canonical := by
  unfold State.noteTx
  repeat' first | with_reducible assumption | (refine fun (_ : State) (_ : State.Canonical _) => ?_) | (extract_lets +onlyGivenNames s; refine canonical_cut (s := s) ?_ (fun _ => ?_); rotate_left; clear_value s; rotate_left; subst s) | (extract_lets +onlyGivenNames s; refine mem_let s ?_; subst s) | (extract_lets +onlyGivenNames s; refine boot_let s ?_; subst s) | (extract_lets +onlyGivenNames s; clear_value s) | split | extract_lets | refine State.canonical_mk ?_ rfl rfl

theorem execSensorPtpRx_canonical {x1} {x2} {x3 : State} (h3 : x3.Canonical) :
    OutCanonical (execSensorPtpRx x1 x2 x3) := by
  unfold execSensorPtpRx
  repeat' first | with_reducible assumption | with_reducible apply canonical_next | (refine fun (_ : State) (_ : State.Canonical _) => ?_) | (extract_lets +onlyGivenNames s; refine canonical_cut (s := s) ?_ (fun _ => ?_); rotate_left; clear_value s; rotate_left; subst s) | (extract_lets +onlyGivenNames s; refine mem_let s ?_; subst s) | (extract_lets +onlyGivenNames s; refine boot_let s ?_; subst s) | (extract_lets +onlyGivenNames s; clear_value s) | split | extract_lets | with_reducible apply State.raise_canonical | with_reducible apply State.whenTim_canonical | refine State.canonical_mk ?_ rfl rfl

theorem execSensorAnnounceTx_canonical {x1} {x2 : State} (h2 : x2.Canonical) :
    OutCanonical (execSensorAnnounceTx x1 x2) := by
  unfold execSensorAnnounceTx
  repeat' first | with_reducible assumption | with_reducible apply canonical_next | (refine fun (_ : State) (_ : State.Canonical _) => ?_) | (extract_lets +onlyGivenNames s; refine canonical_cut (s := s) ?_ (fun _ => ?_); rotate_left; clear_value s; rotate_left; subst s) | (extract_lets +onlyGivenNames s; refine mem_let s ?_; subst s) | (extract_lets +onlyGivenNames s; refine boot_let s ?_; subst s) | (extract_lets +onlyGivenNames s; clear_value s) | split | extract_lets | with_reducible apply State.txSend_canonical | with_reducible apply State.whenTim_canonical | with_reducible apply State.noteTx_canonical | refine State.canonical_mk ?_ rfl rfl

theorem execSensorSyncTx_canonical {x1} {x2 : State} (h2 : x2.Canonical) :
    OutCanonical (execSensorSyncTx x1 x2) := by
  unfold execSensorSyncTx
  repeat' first | with_reducible assumption | with_reducible apply canonical_next | (refine fun (_ : State) (_ : State.Canonical _) => ?_) | (extract_lets +onlyGivenNames s; refine canonical_cut (s := s) ?_ (fun _ => ?_); rotate_left; clear_value s; rotate_left; subst s) | (extract_lets +onlyGivenNames s; refine mem_let s ?_; subst s) | (extract_lets +onlyGivenNames s; refine boot_let s ?_; subst s) | (extract_lets +onlyGivenNames s; clear_value s) | split | extract_lets | with_reducible apply State.txSend_canonical | with_reducible apply State.whenTim_canonical | with_reducible apply State.noteTx_canonical | refine State.canonical_mk ?_ rfl rfl

theorem State.pdelayTx_canonical {x1 : State} {x2} {x3} {x4} (h1 : x1.Canonical) :
    (State.pdelayTx x1 x2 x3 x4).Canonical := by
  unfold State.pdelayTx
  repeat' first | with_reducible assumption | (refine fun (_ : State) (_ : State.Canonical _) => ?_) | (extract_lets +onlyGivenNames s; refine canonical_cut (s := s) ?_ (fun _ => ?_); rotate_left; clear_value s; rotate_left; subst s) | (extract_lets +onlyGivenNames s; refine mem_let s ?_; subst s) | (extract_lets +onlyGivenNames s; refine boot_let s ?_; subst s) | (extract_lets +onlyGivenNames s; clear_value s) | split | extract_lets | with_reducible apply State.txSend_canonical | with_reducible apply State.noteTx_canonical | refine State.canonical_mk ?_ rfl rfl

theorem execSensorPdelayTx_canonical {x1} {x2 : State} (h2 : x2.Canonical) :
    OutCanonical (execSensorPdelayTx x1 x2) := by
  unfold execSensorPdelayTx
  repeat' first | with_reducible assumption | with_reducible apply canonical_next | (refine fun (_ : State) (_ : State.Canonical _) => ?_) | (extract_lets +onlyGivenNames s; refine canonical_cut (s := s) ?_ (fun _ => ?_); rotate_left; clear_value s; rotate_left; subst s) | (extract_lets +onlyGivenNames s; refine mem_let s ?_; subst s) | (extract_lets +onlyGivenNames s; refine boot_let s ?_; subst s) | (extract_lets +onlyGivenNames s; clear_value s) | split | extract_lets | with_reducible apply State.whenTim_canonical | with_reducible apply State.pdelayTx_canonical | refine State.canonical_mk ?_ rfl rfl

theorem execSensorPdelay_canonical {x1} {x2} {x3} {x4 : State} (h4 : x4.Canonical) :
    OutCanonical (execSensorPdelay x1 x2 x3 x4) := by
  unfold execSensorPdelay
  repeat' first | with_reducible assumption | with_reducible apply canonical_next | (refine fun (_ : State) (_ : State.Canonical _) => ?_) | (extract_lets +onlyGivenNames s; refine canonical_cut (s := s) ?_ (fun _ => ?_); rotate_left; clear_value s; rotate_left; subst s) | (extract_lets +onlyGivenNames s; refine mem_let s ?_; subst s) | (extract_lets +onlyGivenNames s; refine boot_let s ?_; subst s) | (extract_lets +onlyGivenNames s; clear_value s) | split | extract_lets | with_reducible apply State.put_canonical | with_reducible apply State.whenTim_canonical | with_reducible apply State.pdelayRx_canonical | refine State.canonical_mk ?_ rfl rfl

theorem execHostPdelayTx_canonical {x1} {x2 : State} (h2 : x2.Canonical) :
    OutCanonical (execHostPdelayTx x1 x2) := by
  unfold execHostPdelayTx
  repeat' first | with_reducible assumption | with_reducible apply canonical_next | (refine fun (_ : State) (_ : State.Canonical _) => ?_) | (extract_lets +onlyGivenNames s; refine canonical_cut (s := s) ?_ (fun _ => ?_); rotate_left; clear_value s; rotate_left; subst s) | (extract_lets +onlyGivenNames s; refine mem_let s ?_; subst s) | (extract_lets +onlyGivenNames s; refine boot_let s ?_; subst s) | (extract_lets +onlyGivenNames s; clear_value s) | split | extract_lets | with_reducible apply State.whenTim_canonical | with_reducible apply State.pdelayTx_canonical | refine State.canonical_mk ?_ rfl rfl

theorem State.queueLaunch_canonical {x1 : State} {x2} {x3} (h1 : x1.Canonical) :
    (State.queueLaunch x1 x2 x3).Canonical := by
  unfold State.queueLaunch
  repeat' first | with_reducible assumption | (refine fun (_ : State) (_ : State.Canonical _) => ?_) | (extract_lets +onlyGivenNames s; refine canonical_cut (s := s) ?_ (fun _ => ?_); rotate_left; clear_value s; rotate_left; subst s) | (extract_lets +onlyGivenNames s; refine mem_let s ?_; subst s) | (extract_lets +onlyGivenNames s; refine boot_let s ?_; subst s) | (extract_lets +onlyGivenNames s; clear_value s) | split | extract_lets | with_reducible apply State.raise_canonical | with_reducible apply State.satInc_canonical | with_reducible apply State.judgeHead_canonical | refine State.canonical_mk ?_ rfl rfl

theorem execLaunchRequest_canonical {x1} {x2} {x3} {x4} {x5} {x6 : State} (h6 : x6.Canonical) :
    OutCanonical (execLaunchRequest x1 x2 x3 x4 x5 x6) := by
  unfold execLaunchRequest
  repeat' first | with_reducible assumption | with_reducible apply canonical_next | (refine fun (_ : State) (_ : State.Canonical _) => ?_) | (extract_lets +onlyGivenNames s; refine canonical_cut (s := s) ?_ (fun _ => ?_); rotate_left; clear_value s; rotate_left; subst s) | (extract_lets +onlyGivenNames s; refine mem_let s ?_; subst s) | (extract_lets +onlyGivenNames s; refine boot_let s ?_; subst s) | (extract_lets +onlyGivenNames s; clear_value s) | split | extract_lets | with_reducible apply State.whenTim_canonical | with_reducible apply State.queueLaunch_canonical | refine State.canonical_mk ?_ rfl rfl

theorem State.sendLaunch_canonical {x1 : State} {x2} {x3} (h1 : x1.Canonical) :
    (State.sendLaunch x1 x2 x3).Canonical := by
  unfold State.sendLaunch
  repeat' first | with_reducible assumption | (refine fun (_ : State) (_ : State.Canonical _) => ?_) | (extract_lets +onlyGivenNames s; refine canonical_cut (s := s) ?_ (fun _ => ?_); rotate_left; clear_value s; rotate_left; subst s) | (extract_lets +onlyGivenNames s; refine mem_let s ?_; subst s) | (extract_lets +onlyGivenNames s; refine boot_let s ?_; subst s) | (extract_lets +onlyGivenNames s; clear_value s) | split | extract_lets | with_reducible apply State.updTx_canonical | with_reducible apply State.judgeHead_canonical | with_reducible apply State.txTake_canonical | refine State.canonical_mk ?_ rfl rfl

theorem execLaunch_canonical {x1} {x2 : State} (h2 : x2.Canonical) :
    OutCanonical (execLaunch x1 x2) := by
  unfold execLaunch
  repeat' first | with_reducible assumption | with_reducible apply canonical_next | (refine fun (_ : State) (_ : State.Canonical _) => ?_) | (extract_lets +onlyGivenNames s; refine canonical_cut (s := s) ?_ (fun _ => ?_); rotate_left; clear_value s; rotate_left; subst s) | (extract_lets +onlyGivenNames s; refine mem_let s ?_; subst s) | (extract_lets +onlyGivenNames s; refine boot_let s ?_; subst s) | (extract_lets +onlyGivenNames s; clear_value s) | split | extract_lets | with_reducible apply State.raise_canonical | with_reducible apply State.satInc_canonical | with_reducible apply State.modInc_canonical | with_reducible apply State.updTx_canonical | with_reducible apply State.judgeHead_canonical | with_reducible apply State.whenTim_canonical | with_reducible apply State.sendLaunch_canonical | refine State.canonical_mk ?_ rfl rfl

theorem execTriggerEdge_canonical {x1} {x2 : State} (h2 : x2.Canonical) :
    OutCanonical (execTriggerEdge x1 x2) := by
  unfold execTriggerEdge
  repeat' first | with_reducible assumption | with_reducible apply canonical_next | (refine fun (_ : State) (_ : State.Canonical _) => ?_) | (extract_lets +onlyGivenNames s; refine canonical_cut (s := s) ?_ (fun _ => ?_); rotate_left; clear_value s; rotate_left; subst s) | (extract_lets +onlyGivenNames s; refine mem_let s ?_; subst s) | (extract_lets +onlyGivenNames s; refine boot_let s ?_; subst s) | (extract_lets +onlyGivenNames s; clear_value s) | split | extract_lets | with_reducible apply State.whenTim_canonical | refine State.canonical_mk ?_ rfl rfl

theorem execTriggerPulseEnd_canonical {x1} {x2 : State} (h2 : x2.Canonical) :
    OutCanonical (execTriggerPulseEnd x1 x2) := by
  unfold execTriggerPulseEnd
  repeat' first | with_reducible assumption | with_reducible apply canonical_next | (refine fun (_ : State) (_ : State.Canonical _) => ?_) | (extract_lets +onlyGivenNames s; refine canonical_cut (s := s) ?_ (fun _ => ?_); rotate_left; clear_value s; rotate_left; subst s) | (extract_lets +onlyGivenNames s; refine mem_let s ?_; subst s) | (extract_lets +onlyGivenNames s; refine boot_let s ?_; subst s) | (extract_lets +onlyGivenNames s; clear_value s) | split | extract_lets | with_reducible apply State.whenTim_canonical | refine State.canonical_mk ?_ rfl rfl

theorem State.advanceTime_canonical {x1 : State} {x2} {x3} (h1 : x1.Canonical) :
    (State.advanceTime x1 x2 x3).Canonical := by
  unfold State.advanceTime
  repeat' first | with_reducible assumption | (refine fun (_ : State) (_ : State.Canonical _) => ?_) | (extract_lets +onlyGivenNames s; refine canonical_cut (s := s) ?_ (fun _ => ?_); rotate_left; clear_value s; rotate_left; subst s) | (extract_lets +onlyGivenNames s; refine mem_let s ?_; subst s) | (extract_lets +onlyGivenNames s; refine boot_let s ?_; subst s) | (extract_lets +onlyGivenNames s; clear_value s) | split | extract_lets | refine State.canonical_mk ?_ rfl rfl

theorem State.shrinkSlew_canonical {x1 : State} {x2} (h1 : x1.Canonical) :
    (State.shrinkSlew x1 x2).Canonical := by
  unfold State.shrinkSlew
  repeat' first | with_reducible assumption | (refine fun (_ : State) (_ : State.Canonical _) => ?_) | (extract_lets +onlyGivenNames s; refine canonical_cut (s := s) ?_ (fun _ => ?_); rotate_left; clear_value s; rotate_left; subst s) | (extract_lets +onlyGivenNames s; refine mem_let s ?_; subst s) | (extract_lets +onlyGivenNames s; refine boot_let s ?_; subst s) | (extract_lets +onlyGivenNames s; clear_value s) | split | extract_lets | with_reducible apply State.put_canonical | with_reducible apply State.putI_canonical | refine State.canonical_mk ?_ rfl rfl

theorem State.tick_canonical {x1 : State} (h1 : x1.Canonical) :
    (State.tick x1).Canonical := by
  unfold State.tick
  repeat' first | with_reducible assumption | (refine fun (_ : State) (_ : State.Canonical _) => ?_) | (extract_lets +onlyGivenNames s; refine canonical_cut (s := s) ?_ (fun _ => ?_); rotate_left; clear_value s; rotate_left; subst s) | (extract_lets +onlyGivenNames s; refine mem_let s ?_; subst s) | (extract_lets +onlyGivenNames s; refine boot_let s ?_; subst s) | (extract_lets +onlyGivenNames s; clear_value s) | split | extract_lets | with_reducible apply State.count_canonical | with_reducible apply State.txTick_canonical | with_reducible apply State.advanceTime_canonical | with_reducible apply State.shrinkSlew_canonical | (with_reducible apply foldl_canonical; intro _ _ _) | refine State.canonical_mk ?_ rfl rfl

end Sys2Proof.Machine
end

