-- ==== Sys2Proof/Laws/CanonicalCommits.lean ====
section
/-! SUPPORT. The canonical form is kept by every operation of Machine/Commits.lean. -/

namespace Sys2Proof.Machine

theorem State.applyItem_canonical {x1 : State} {x2} (h1 : x1.Canonical) :
    (State.applyItem x1 x2).Canonical := by
  unfold State.applyItem
  repeat' first | with_reducible assumption | (refine fun (_ : State) (_ : State.Canonical _) => ?_) | (extract_lets +onlyGivenNames s; refine canonical_cut (s := s) ?_ (fun _ => ?_); rotate_left; clear_value s; rotate_left; subst s) | (extract_lets +onlyGivenNames s; refine mem_let s ?_; subst s) | (extract_lets +onlyGivenNames s; refine boot_let s ?_; subst s) | (extract_lets +onlyGivenNames s; clear_value s) | split | extract_lets | with_reducible apply State.put_canonical | refine State.canonical_mk ?_ rfl rfl

theorem State.applyItems_canonical {x1 : State} {x2} (h1 : x1.Canonical) :
    (State.applyItems x1 x2).Canonical := by
  unfold State.applyItems
  repeat' first | with_reducible assumption | (refine fun (_ : State) (_ : State.Canonical _) => ?_) | (extract_lets +onlyGivenNames s; refine canonical_cut (s := s) ?_ (fun _ => ?_); rotate_left; clear_value s; rotate_left; subst s) | (extract_lets +onlyGivenNames s; refine mem_let s ?_; subst s) | (extract_lets +onlyGivenNames s; refine boot_let s ?_; subst s) | (extract_lets +onlyGivenNames s; clear_value s) | split | extract_lets | with_reducible apply State.applyItem_canonical | (with_reducible apply foldl_canonical; intro _ _ _) | refine State.canonical_mk ?_ rfl rfl

theorem State.emptyShadow_canonical {x1 : State} {x2} (h1 : x1.Canonical) :
    (State.emptyShadow x1 x2).Canonical := by
  unfold State.emptyShadow
  repeat' first | with_reducible assumption | (refine fun (_ : State) (_ : State.Canonical _) => ?_) | (extract_lets +onlyGivenNames s; refine canonical_cut (s := s) ?_ (fun _ => ?_); rotate_left; clear_value s; rotate_left; subst s) | (extract_lets +onlyGivenNames s; refine mem_let s ?_; subst s) | (extract_lets +onlyGivenNames s; refine boot_let s ?_; subst s) | (extract_lets +onlyGivenNames s; clear_value s) | split | extract_lets | with_reducible apply State.syncCommits_canonical | refine State.canonical_mk ?_ rfl rfl

theorem State.requestCommit_canonical {x1 : State} {x2} (h1 : x1.Canonical) :
    (State.requestCommit x1 x2).Canonical := by
  unfold State.requestCommit
  repeat' first | with_reducible assumption | (refine fun (_ : State) (_ : State.Canonical _) => ?_) | (extract_lets +onlyGivenNames s; refine canonical_cut (s := s) ?_ (fun _ => ?_); rotate_left; clear_value s; rotate_left; subst s) | (extract_lets +onlyGivenNames s; refine mem_let s ?_; subst s) | (extract_lets +onlyGivenNames s; refine boot_let s ?_; subst s) | (extract_lets +onlyGivenNames s; clear_value s) | split | extract_lets | with_reducible apply State.emptyShadow_canonical | refine State.canonical_mk ?_ rfl rfl

theorem execCommitNextBoundary_canonical {x1} {x2} {x3} {x4} {x5 : State} (h5 : x5.Canonical) :
    OutCanonical (execCommitNextBoundary x1 x2 x3 x4 x5) := by
  unfold execCommitNextBoundary
  repeat' first | with_reducible assumption | with_reducible apply canonical_next | (refine fun (_ : State) (_ : State.Canonical _) => ?_) | (extract_lets +onlyGivenNames s; refine canonical_cut (s := s) ?_ (fun _ => ?_); rotate_left; clear_value s; rotate_left; subst s) | (extract_lets +onlyGivenNames s; refine mem_let s ?_; subst s) | (extract_lets +onlyGivenNames s; refine boot_let s ?_; subst s) | (extract_lets +onlyGivenNames s; clear_value s) | split | extract_lets | with_reducible apply State.requestCommit_canonical | refine State.canonical_mk ?_ rfl rfl

theorem execCommitAtTime_canonical {x1} {x2} {x3} {x4} {x5} {x6 : State} (h6 : x6.Canonical) :
    OutCanonical (execCommitAtTime x1 x2 x3 x4 x5 x6) := by
  unfold execCommitAtTime
  repeat' first | with_reducible assumption | with_reducible apply canonical_next | (refine fun (_ : State) (_ : State.Canonical _) => ?_) | (extract_lets +onlyGivenNames s; refine canonical_cut (s := s) ?_ (fun _ => ?_); rotate_left; clear_value s; rotate_left; subst s) | (extract_lets +onlyGivenNames s; refine mem_let s ?_; subst s) | (extract_lets +onlyGivenNames s; refine boot_let s ?_; subst s) | (extract_lets +onlyGivenNames s; clear_value s) | split | extract_lets | with_reducible apply State.requestCommit_canonical | refine State.canonical_mk ?_ rfl rfl

theorem State.requestCancel_canonical {x1 : State} {x2} (h1 : x1.Canonical) :
    (State.requestCancel x1 x2).Canonical := by
  unfold State.requestCancel
  repeat' first | with_reducible assumption | (refine fun (_ : State) (_ : State.Canonical _) => ?_) | (extract_lets +onlyGivenNames s; refine canonical_cut (s := s) ?_ (fun _ => ?_); rotate_left; clear_value s; rotate_left; subst s) | (extract_lets +onlyGivenNames s; refine mem_let s ?_; subst s) | (extract_lets +onlyGivenNames s; refine boot_let s ?_; subst s) | (extract_lets +onlyGivenNames s; clear_value s) | split | extract_lets | with_reducible apply State.sendResult_canonical | with_reducible apply State.cancelFrom_canonical | with_reducible apply State.emptyShadow_canonical | refine State.canonical_mk ?_ rfl rfl

theorem execCommitCancel_canonical {x1} {x2} {x3} {x4 : State} (h4 : x4.Canonical) :
    OutCanonical (execCommitCancel x1 x2 x3 x4) := by
  unfold execCommitCancel
  repeat' first | with_reducible assumption | with_reducible apply canonical_next | (refine fun (_ : State) (_ : State.Canonical _) => ?_) | (extract_lets +onlyGivenNames s; refine canonical_cut (s := s) ?_ (fun _ => ?_); rotate_left; clear_value s; rotate_left; subst s) | (extract_lets +onlyGivenNames s; refine mem_let s ?_; subst s) | (extract_lets +onlyGivenNames s; refine boot_let s ?_; subst s) | (extract_lets +onlyGivenNames s; clear_value s) | split | extract_lets | with_reducible apply State.requestCancel_canonical | refine State.canonical_mk ?_ rfl rfl

theorem State.projected_canonical {x1 : State} (h1 : x1.Canonical) :
    (State.projected x1).Canonical := by
  unfold State.projected
  repeat' first | with_reducible assumption | (refine fun (_ : State) (_ : State.Canonical _) => ?_) | (extract_lets +onlyGivenNames s; refine canonical_cut (s := s) ?_ (fun _ => ?_); rotate_left; clear_value s; rotate_left; subst s) | (extract_lets +onlyGivenNames s; refine mem_let s ?_; subst s) | (extract_lets +onlyGivenNames s; refine boot_let s ?_; subst s) | (extract_lets +onlyGivenNames s; clear_value s) | split | extract_lets | with_reducible apply State.applyItems_canonical | (with_reducible apply foldl_canonical; intro _ _ _) | refine State.canonical_mk ?_ rfl rfl

theorem execCommitCheckDone_canonical {x1 : State} (h1 : x1.Canonical) :
    OutCanonical (execCommitCheckDone x1) := by
  unfold execCommitCheckDone
  repeat' first | with_reducible assumption | with_reducible apply canonical_next | (refine fun (_ : State) (_ : State.Canonical _) => ?_) | (extract_lets +onlyGivenNames s; refine canonical_cut (s := s) ?_ (fun _ => ?_); rotate_left; clear_value s; rotate_left; subst s) | (extract_lets +onlyGivenNames s; refine mem_let s ?_; subst s) | (extract_lets +onlyGivenNames s; refine boot_let s ?_; subst s) | (extract_lets +onlyGivenNames s; clear_value s) | split | extract_lets | with_reducible apply State.syncCommits_canonical | with_reducible apply State.sendResult_canonical | refine State.canonical_mk ?_ rfl rfl

theorem State.changeStreams_canonical {x1 : State} {x2 : State} (h1 : x1.Canonical) (h2 : x2.Canonical) :
    (State.changeStreams x1 x2).Canonical := by
  unfold State.changeStreams
  repeat' first | with_reducible assumption | (refine fun (_ : State) (_ : State.Canonical _) => ?_) | (extract_lets +onlyGivenNames s; refine canonical_cut (s := s) ?_ (fun _ => ?_); rotate_left; clear_value s; rotate_left; subst s) | (extract_lets +onlyGivenNames s; refine mem_let s ?_; subst s) | (extract_lets +onlyGivenNames s; refine boot_let s ?_; subst s) | (extract_lets +onlyGivenNames s; clear_value s) | split | extract_lets | with_reducible apply State.put_canonical | (with_reducible apply foldl_canonical; intro _ _ _) | refine State.canonical_mk ?_ rfl rfl

theorem State.changeSlots_canonical {x1 : State} {x2 : State} (h1 : x1.Canonical) (h2 : x2.Canonical) :
    (State.changeSlots x1 x2).Canonical := by
  unfold State.changeSlots
  dsimp only
  split
  · exact h1
  refine State.evalTime_canonical (foldl_canonical ?_ h1)
  intro t k h
  have hu : ∀ f, State.Canonical (((((t.put (slotQual k) 0).updDom k f).put (slotClass k) 248).put (slotGm k) 0).putI (slotOffset k) 0) :=
    fun f => State.putI_canonical (State.put_canonical (State.put_canonical (State.updDom_canonical (State.put_canonical h))))
  split
  · exact State.raise_canonical (hu _)
  · exact hu _

theorem State.changeTriggers_canonical {x1 : State} {x2 : State} (h1 : x1.Canonical) (h2 : x2.Canonical) :
    (State.changeTriggers x1 x2).Canonical := by
  unfold State.changeTriggers
  repeat' first | with_reducible assumption | (refine fun (_ : State) (_ : State.Canonical _) => ?_) | (extract_lets +onlyGivenNames s; refine canonical_cut (s := s) ?_ (fun _ => ?_); rotate_left; clear_value s; rotate_left; subst s) | (extract_lets +onlyGivenNames s; refine mem_let s ?_; subst s) | (extract_lets +onlyGivenNames s; refine boot_let s ?_; subst s) | (extract_lets +onlyGivenNames s; clear_value s) | split | extract_lets | refine State.canonical_mk ?_ rfl rfl

theorem State.changeBanks_canonical {x1 : State} {x2 : State} (h1 : x1.Canonical) (h2 : x2.Canonical) :
    (State.changeBanks x1 x2).Canonical := by
  unfold State.changeBanks
  repeat' first | with_reducible assumption | (refine fun (_ : State) (_ : State.Canonical _) => ?_) | (extract_lets +onlyGivenNames s; refine canonical_cut (s := s) ?_ (fun _ => ?_); rotate_left; clear_value s; rotate_left; subst s) | (extract_lets +onlyGivenNames s; refine mem_let s ?_; subst s) | (extract_lets +onlyGivenNames s; refine boot_let s ?_; subst s) | (extract_lets +onlyGivenNames s; clear_value s) | split | extract_lets | with_reducible apply State.raise_canonical | refine State.canonical_mk ?_ rfl rfl

theorem State.returnActive_canonical {x1 : State} (h1 : x1.Canonical) :
    (State.returnActive x1).Canonical := by
  unfold State.returnActive
  repeat' first | with_reducible assumption | (refine fun (_ : State) (_ : State.Canonical _) => ?_) | (extract_lets +onlyGivenNames s; refine canonical_cut (s := s) ?_ (fun _ => ?_); rotate_left; clear_value s; rotate_left; subst s) | (extract_lets +onlyGivenNames s; refine mem_let s ?_; subst s) | (extract_lets +onlyGivenNames s; refine boot_let s ?_; subst s) | (extract_lets +onlyGivenNames s; clear_value s) | split | extract_lets | with_reducible apply State.put_canonical | with_reducible apply State.raise_canonical | with_reducible apply State.coldSolver_canonical | refine State.canonical_mk ?_ rfl rfl

theorem State.takeTarget_canonical {x1 : State} (h1 : x1.Canonical) :
    (State.takeTarget x1).Canonical := by
  unfold State.takeTarget
  repeat' first | with_reducible assumption | (refine fun (_ : State) (_ : State.Canonical _) => ?_) | (extract_lets +onlyGivenNames s; refine canonical_cut (s := s) ?_ (fun _ => ?_); rotate_left; clear_value s; rotate_left; subst s) | (extract_lets +onlyGivenNames s; refine mem_let s ?_; subst s) | (extract_lets +onlyGivenNames s; refine boot_let s ?_; subst s) | (extract_lets +onlyGivenNames s; clear_value s) | split | extract_lets | with_reducible apply State.deeper_canonical | with_reducible apply State.returnActive_canonical | refine State.canonical_mk ?_ rfl rfl

theorem State.dropRunAhead_canonical {x1 : State} (h1 : x1.Canonical) :
    (State.dropRunAhead x1).Canonical := by
  unfold State.dropRunAhead
  repeat' first | with_reducible assumption | (refine fun (_ : State) (_ : State.Canonical _) => ?_) | (extract_lets +onlyGivenNames s; refine canonical_cut (s := s) ?_ (fun _ => ?_); rotate_left; clear_value s; rotate_left; subst s) | (extract_lets +onlyGivenNames s; refine mem_let s ?_; subst s) | (extract_lets +onlyGivenNames s; refine boot_let s ?_; subst s) | (extract_lets +onlyGivenNames s; clear_value s) | split | extract_lets | with_reducible apply State.discardEngines_canonical | with_reducible apply State.dropLift_canonical | with_reducible apply State.queueRelease_canonical | with_reducible apply State.syncHead_canonical | with_reducible apply State.syncOps_canonical | (with_reducible apply foldl_canonical; intro _ _ _) | refine State.canonical_mk ?_ rfl rfl

set_option maxRecDepth 4000 in
theorem State.applyDue_canonical {x1 : State} (h1 : x1.Canonical) :
    (State.applyDue x1).Canonical := by
  unfold State.applyDue
  repeat' first | with_reducible assumption | (refine fun (_ : State) (_ : State.Canonical _) => ?_) | (extract_lets +onlyGivenNames s; refine canonical_cut (s := s) ?_ (fun _ => ?_); rotate_left; clear_value s; rotate_left; subst s) | (extract_lets +onlyGivenNames s; refine mem_let s ?_; subst s) | (extract_lets +onlyGivenNames s; refine boot_let s ?_; subst s) | (extract_lets +onlyGivenNames s; clear_value s) | split | extract_lets | with_reducible apply State.holdSolver_canonical | with_reducible apply State.syncCommits_canonical | with_reducible apply State.sendResult_canonical | with_reducible apply State.squash_canonical | with_reducible apply State.idleIfDue_canonical | with_reducible apply State.openDueInstance_canonical | with_reducible apply State.measureTuned_canonical | with_reducible apply State.applyItems_canonical | with_reducible apply State.changeStreams_canonical | with_reducible apply State.changeSlots_canonical | with_reducible apply State.changeTriggers_canonical | with_reducible apply State.changeBanks_canonical | with_reducible apply State.takeTarget_canonical | with_reducible apply State.dropRunAhead_canonical | (with_reducible apply foldl_canonical; intro _ _ _) | refine State.canonical_mk ?_ rfl rfl

theorem execCommitApply_canonical {x1 : State} (h1 : x1.Canonical) :
    OutCanonical (execCommitApply x1) := by
  unfold execCommitApply
  repeat' first | with_reducible assumption | with_reducible apply canonical_next | (refine fun (_ : State) (_ : State.Canonical _) => ?_) | (extract_lets +onlyGivenNames s; refine canonical_cut (s := s) ?_ (fun _ => ?_); rotate_left; clear_value s; rotate_left; subst s) | (extract_lets +onlyGivenNames s; refine mem_let s ?_; subst s) | (extract_lets +onlyGivenNames s; refine boot_let s ?_; subst s) | (extract_lets +onlyGivenNames s; clear_value s) | split | extract_lets | with_reducible apply State.applyDue_canonical | refine State.canonical_mk ?_ rfl rfl

theorem execInstanceOpen_canonical {x1 : State} (h1 : x1.Canonical) :
    OutCanonical (execInstanceOpen x1) := by
  unfold execInstanceOpen
  repeat' first | with_reducible assumption | with_reducible apply canonical_next | (refine fun (_ : State) (_ : State.Canonical _) => ?_) | (extract_lets +onlyGivenNames s; refine canonical_cut (s := s) ?_ (fun _ => ?_); rotate_left; clear_value s; rotate_left; subst s) | (extract_lets +onlyGivenNames s; refine mem_let s ?_; subst s) | (extract_lets +onlyGivenNames s; refine boot_let s ?_; subst s) | (extract_lets +onlyGivenNames s; clear_value s) | split | extract_lets | with_reducible apply State.whenGlz_canonical | with_reducible apply State.atTov_canonical | with_reducible apply State.openDueInstance_canonical | with_reducible apply State.applyDue_canonical | refine State.canonical_mk ?_ rfl rfl

end Sys2Proof.Machine
end

