-- ==== Sys2Proof/Laws/CanonicalHostPort.lean ====
section
/-! SUPPORT. The canonical form is kept by every operation of Machine/HostPort.lean. -/

namespace Sys2Proof.Machine

theorem State.dropUnprotected_canonical {x1 : State} (h1 : x1.Canonical) :
    (State.dropUnprotected x1).Canonical := by
  unfold State.dropUnprotected
  repeat' first | with_reducible assumption | (refine fun (_ : State) (_ : State.Canonical _) => ?_) | (extract_lets +onlyGivenNames s; refine canonical_cut (s := s) ?_ (fun _ => ?_); rotate_left; clear_value s; rotate_left; subst s) | (extract_lets +onlyGivenNames s; refine mem_let s ?_; subst s) | (extract_lets +onlyGivenNames s; refine boot_let s ?_; subst s) | (extract_lets +onlyGivenNames s; clear_value s) | split | extract_lets | with_reducible apply State.raise_canonical | with_reducible apply State.satInc_canonical | refine State.canonical_mk ?_ rfl rfl

theorem State.dropFrame_canonical {x1 : State} {x2} (h1 : x1.Canonical) :
    (State.dropFrame x1 x2).Canonical := by
  unfold State.dropFrame
  repeat' first | with_reducible assumption | (refine fun (_ : State) (_ : State.Canonical _) => ?_) | (extract_lets +onlyGivenNames s; refine canonical_cut (s := s) ?_ (fun _ => ?_); rotate_left; clear_value s; rotate_left; subst s) | (extract_lets +onlyGivenNames s; refine mem_let s ?_; subst s) | (extract_lets +onlyGivenNames s; refine boot_let s ?_; subst s) | (extract_lets +onlyGivenNames s; clear_value s) | split | extract_lets | with_reducible apply State.raise_canonical | with_reducible apply State.satInc_canonical | refine State.canonical_mk ?_ rfl rfl

theorem State.hostFrame_canonical {x1 : State} {x2} {x3} {x4} (h1 : x1.Canonical) (h4 : ∀ t : State, t.Canonical → (x4 t).Canonical) :
    (State.hostFrame x1 x2 x3 x4).Canonical := by
  unfold State.hostFrame
  repeat' first | with_reducible assumption | (refine fun (_ : State) (_ : State.Canonical _) => ?_) | (extract_lets +onlyGivenNames s; refine canonical_cut (s := s) ?_ (fun _ => ?_); rotate_left; clear_value s; rotate_left; subst s) | (extract_lets +onlyGivenNames s; refine mem_let s ?_; subst s) | (extract_lets +onlyGivenNames s; refine boot_let s ?_; subst s) | (extract_lets +onlyGivenNames s; clear_value s) | split | extract_lets | with_reducible apply State.modInc_canonical | with_reducible apply State.dropUnprotected_canonical | with_reducible apply State.dropFrame_canonical | apply h4 | refine State.canonical_mk ?_ rfl rfl

theorem execMalformedFrame_canonical {x1} {x2} {x3 : State} (h3 : x3.Canonical) :
    OutCanonical (execMalformedFrame x1 x2 x3) := by
  unfold execMalformedFrame
  repeat' first | with_reducible assumption | with_reducible apply canonical_next | (refine fun (_ : State) (_ : State.Canonical _) => ?_) | (extract_lets +onlyGivenNames s; refine canonical_cut (s := s) ?_ (fun _ => ?_); rotate_left; clear_value s; rotate_left; subst s) | (extract_lets +onlyGivenNames s; refine mem_let s ?_; subst s) | (extract_lets +onlyGivenNames s; refine boot_let s ?_; subst s) | (extract_lets +onlyGivenNames s; clear_value s) | split | extract_lets | with_reducible apply State.raise_canonical | with_reducible apply State.satInc_canonical | with_reducible apply State.dropFrame_canonical | refine State.canonical_mk ?_ rfl rfl

theorem execStatusRead_canonical {x1} {x2} {x3} {x4 : State} (h4 : x4.Canonical) :
    OutCanonical (execStatusRead x1 x2 x3 x4) := by
  unfold execStatusRead
  repeat' first | with_reducible assumption | with_reducible apply canonical_next | (refine fun (_ : State) (_ : State.Canonical _) => ?_) | (extract_lets +onlyGivenNames s; refine canonical_cut (s := s) ?_ (fun _ => ?_); rotate_left; clear_value s; rotate_left; subst s) | (extract_lets +onlyGivenNames s; refine mem_let s ?_; subst s) | (extract_lets +onlyGivenNames s; refine boot_let s ?_; subst s) | (extract_lets +onlyGivenNames s; clear_value s) | split | extract_lets | with_reducible apply State.reply_canonical | with_reducible apply State.hostFrame_canonical | refine State.canonical_mk ?_ rfl rfl

set_option maxRecDepth 4000 in
theorem execTileRead_canonical {x1} {x2} {x3} {x4} {x5} {x6} {x7 : State} (h7 : x7.Canonical) :
    OutCanonical (execTileRead x1 x2 x3 x4 x5 x6 x7) := by
  unfold execTileRead
  apply canonical_next
  apply State.hostFrame_canonical h7
  intro s hs
  extract_lets +onlyGivenNames refuse mask
  have hr : ∀ st, State.Canonical (refuse st) := fun st => State.reply_canonical hs
  clear_value refuse mask
  split
  · split
    · exact hr _
    · exact State.sendTiles_canonical hs
  split
  · exact hr _
  split
  · exact hr _
  split
  · exact hr _
  extract_lets +onlyGivenNames ts now later s2
  have h2 : State.Canonical s2 := State.sendTiles_canonical hs
  clear_value s2
  split
  · exact h2
  · exact State.canonical_mk h2 rfl rfl

theorem State.stageReply_canonical {x1 : State} {x2} {x3} {x4} {x5} (h1 : x1.Canonical) :
    (State.stageReply x1 x2 x3 x4 x5).Canonical := by
  unfold State.stageReply
  repeat' first | with_reducible assumption | (refine fun (_ : State) (_ : State.Canonical _) => ?_) | (extract_lets +onlyGivenNames s; refine canonical_cut (s := s) ?_ (fun _ => ?_); rotate_left; clear_value s; rotate_left; subst s) | (extract_lets +onlyGivenNames s; refine mem_let s ?_; subst s) | (extract_lets +onlyGivenNames s; refine boot_let s ?_; subst s) | (extract_lets +onlyGivenNames s; clear_value s) | split | extract_lets | with_reducible apply State.reply_canonical | refine State.canonical_mk ?_ rfl rfl

theorem execTuneStage_canonical {x1} {x2} {x3} {x4} {x5} {x6} {x7 : State} (h7 : x7.Canonical) :
    OutCanonical (execTuneStage x1 x2 x3 x4 x5 x6 x7) := by
  unfold execTuneStage
  repeat' first | with_reducible assumption | with_reducible apply canonical_next | (refine fun (_ : State) (_ : State.Canonical _) => ?_) | (extract_lets +onlyGivenNames s; refine canonical_cut (s := s) ?_ (fun _ => ?_); rotate_left; clear_value s; rotate_left; subst s) | (extract_lets +onlyGivenNames s; refine mem_let s ?_; subst s) | (extract_lets +onlyGivenNames s; refine boot_let s ?_; subst s) | (extract_lets +onlyGivenNames s; clear_value s) | split | extract_lets | with_reducible apply State.syncCommits_canonical | with_reducible apply State.hostFrame_canonical | with_reducible apply State.stageReply_canonical | refine State.canonical_mk ?_ rfl rfl

theorem execTuneCommit_canonical {x1} {x2} {x3} {x4} {x5 : State} (h5 : x5.Canonical) :
    OutCanonical (execTuneCommit x1 x2 x3 x4 x5) := by
  unfold execTuneCommit
  repeat' first | with_reducible assumption | with_reducible apply canonical_next | (refine fun (_ : State) (_ : State.Canonical _) => ?_) | (extract_lets +onlyGivenNames s; refine canonical_cut (s := s) ?_ (fun _ => ?_); rotate_left; clear_value s; rotate_left; subst s) | (extract_lets +onlyGivenNames s; refine mem_let s ?_; subst s) | (extract_lets +onlyGivenNames s; refine boot_let s ?_; subst s) | (extract_lets +onlyGivenNames s; clear_value s) | split | extract_lets | with_reducible apply State.reply_canonical | with_reducible apply State.requestCommit_canonical | with_reducible apply State.requestCancel_canonical | with_reducible apply State.hostFrame_canonical | refine State.canonical_mk ?_ rfl rfl

theorem State.noteHeartbeat_canonical {x1 : State} (h1 : x1.Canonical) :
    (State.noteHeartbeat x1).Canonical := by
  unfold State.noteHeartbeat
  repeat' first | with_reducible assumption | (refine fun (_ : State) (_ : State.Canonical _) => ?_) | (extract_lets +onlyGivenNames s; refine canonical_cut (s := s) ?_ (fun _ => ?_); rotate_left; clear_value s; rotate_left; subst s) | (extract_lets +onlyGivenNames s; refine mem_let s ?_; subst s) | (extract_lets +onlyGivenNames s; refine boot_let s ?_; subst s) | (extract_lets +onlyGivenNames s; clear_value s) | split | extract_lets | with_reducible apply State.put_canonical | with_reducible apply State.modInc_canonical | refine State.canonical_mk ?_ rfl rfl

theorem State.takeHeartbeat_canonical {x1 : State} {x2} {x3} (h1 : x1.Canonical) :
    (State.takeHeartbeat x1 x2 x3).Canonical := by
  unfold State.takeHeartbeat
  repeat' first | with_reducible assumption | (refine fun (_ : State) (_ : State.Canonical _) => ?_) | (extract_lets +onlyGivenNames s; refine canonical_cut (s := s) ?_ (fun _ => ?_); rotate_left; clear_value s; rotate_left; subst s) | (extract_lets +onlyGivenNames s; refine mem_let s ?_; subst s) | (extract_lets +onlyGivenNames s; refine boot_let s ?_; subst s) | (extract_lets +onlyGivenNames s; clear_value s) | split | extract_lets | with_reducible apply State.noteHeartbeat_canonical | refine State.canonical_mk ?_ rfl rfl

theorem State.heartbeatReply_canonical {x1 : State} {x2} {x3} {x4} {x5} {x6} (h1 : x1.Canonical) :
    (State.heartbeatReply x1 x2 x3 x4 x5 x6).Canonical := by
  unfold State.heartbeatReply
  repeat' first | with_reducible assumption | (refine fun (_ : State) (_ : State.Canonical _) => ?_) | (extract_lets +onlyGivenNames s; refine canonical_cut (s := s) ?_ (fun _ => ?_); rotate_left; clear_value s; rotate_left; subst s) | (extract_lets +onlyGivenNames s; refine mem_let s ?_; subst s) | (extract_lets +onlyGivenNames s; refine boot_let s ?_; subst s) | (extract_lets +onlyGivenNames s; clear_value s) | split | extract_lets | with_reducible apply State.reply_canonical | refine State.canonical_mk ?_ rfl rfl

theorem execHeartbeat_canonical {x1} {x2} {x3} {x4} {x5} {x6 : State} (h6 : x6.Canonical) :
    OutCanonical (execHeartbeat x1 x2 x3 x4 x5 x6) := by
  unfold execHeartbeat
  repeat' first | with_reducible assumption | with_reducible apply canonical_next | (refine fun (_ : State) (_ : State.Canonical _) => ?_) | (extract_lets +onlyGivenNames s; refine canonical_cut (s := s) ?_ (fun _ => ?_); rotate_left; clear_value s; rotate_left; subst s) | (extract_lets +onlyGivenNames s; refine mem_let s ?_; subst s) | (extract_lets +onlyGivenNames s; refine boot_let s ?_; subst s) | (extract_lets +onlyGivenNames s; clear_value s) | split | extract_lets | with_reducible apply State.fresh_canonical | with_reducible apply State.hostFrame_canonical | with_reducible apply State.takeHeartbeat_canonical | with_reducible apply State.heartbeatReply_canonical | refine State.canonical_mk ?_ rfl rfl

theorem State.heartbeatRefused_canonical {x1 : State} {x2} {x3} {x4} (h1 : x1.Canonical) :
    (State.heartbeatRefused x1 x2 x3 x4).Canonical := by
  unfold State.heartbeatRefused
  repeat' first | with_reducible assumption | (refine fun (_ : State) (_ : State.Canonical _) => ?_) | (extract_lets +onlyGivenNames s; refine canonical_cut (s := s) ?_ (fun _ => ?_); rotate_left; clear_value s; rotate_left; subst s) | (extract_lets +onlyGivenNames s; refine mem_let s ?_; subst s) | (extract_lets +onlyGivenNames s; refine boot_let s ?_; subst s) | (extract_lets +onlyGivenNames s; clear_value s) | split | extract_lets | with_reducible apply State.reply_canonical | refine State.canonical_mk ?_ rfl rfl

theorem execHeartbeatResetReq_canonical {x1} {x2} {x3} {x4} {x5} {x6 : State} (h6 : x6.Canonical) :
    OutCanonical (execHeartbeatResetReq x1 x2 x3 x4 x5 x6) := by
  unfold execHeartbeatResetReq
  repeat' first | with_reducible assumption | with_reducible apply canonical_next | (refine fun (_ : State) (_ : State.Canonical _) => ?_) | (extract_lets +onlyGivenNames s; refine canonical_cut (s := s) ?_ (fun _ => ?_); rotate_left; clear_value s; rotate_left; subst s) | (extract_lets +onlyGivenNames s; refine mem_let s ?_; subst s) | (extract_lets +onlyGivenNames s; refine boot_let s ?_; subst s) | (extract_lets +onlyGivenNames s; clear_value s) | split | extract_lets | with_reducible apply State.raise_canonical | with_reducible apply State.fresh_canonical | with_reducible apply State.hostFrame_canonical | with_reducible apply State.takeHeartbeat_canonical | with_reducible apply State.heartbeatReply_canonical | with_reducible apply State.heartbeatRefused_canonical | refine State.canonical_mk ?_ rfl rfl

theorem execHeartbeatResetConfirm_canonical {x1} {x2} {x3} {x4} {x5} {x6} {x7 : State} (h7 : x7.Canonical) :
    OutCanonical (execHeartbeatResetConfirm x1 x2 x3 x4 x5 x6 x7) := by
  unfold execHeartbeatResetConfirm
  repeat' first | with_reducible assumption | with_reducible apply canonical_next | (refine fun (_ : State) (_ : State.Canonical _) => ?_) | (extract_lets +onlyGivenNames s; refine canonical_cut (s := s) ?_ (fun _ => ?_); rotate_left; clear_value s; rotate_left; subst s) | (extract_lets +onlyGivenNames s; refine mem_let s ?_; subst s) | (extract_lets +onlyGivenNames s; refine boot_let s ?_; subst s) | (extract_lets +onlyGivenNames s; clear_value s) | split | extract_lets | with_reducible apply State.raise_canonical | with_reducible apply State.resetTrigger_canonical | with_reducible apply State.hostFrame_canonical | with_reducible apply State.takeHeartbeat_canonical | with_reducible apply State.heartbeatRefused_canonical | refine State.canonical_mk ?_ rfl rfl

theorem execLogReadErrorLog_canonical {x1} {x2} {x3} {x4} {x5} {x6 : State} (h6 : x6.Canonical) :
    OutCanonical (execLogReadErrorLog x1 x2 x3 x4 x5 x6) := by
  unfold execLogReadErrorLog
  repeat' first | with_reducible assumption | with_reducible apply canonical_next | (refine fun (_ : State) (_ : State.Canonical _) => ?_) | (extract_lets +onlyGivenNames s; refine canonical_cut (s := s) ?_ (fun _ => ?_); rotate_left; clear_value s; rotate_left; subst s) | (extract_lets +onlyGivenNames s; refine mem_let s ?_; subst s) | (extract_lets +onlyGivenNames s; refine boot_let s ?_; subst s) | (extract_lets +onlyGivenNames s; clear_value s) | split | extract_lets | with_reducible apply State.put_canonical | with_reducible apply State.sendFrames_canonical | with_reducible apply State.reply_canonical | with_reducible apply State.hostFrame_canonical | refine State.canonical_mk ?_ rfl rfl

theorem execLogReadStartRecord_canonical {x1} {x2} {x3} {x4 : State} (h4 : x4.Canonical) :
    OutCanonical (execLogReadStartRecord x1 x2 x3 x4) := by
  unfold execLogReadStartRecord
  repeat' first | with_reducible assumption | with_reducible apply canonical_next | (refine fun (_ : State) (_ : State.Canonical _) => ?_) | (extract_lets +onlyGivenNames s; refine canonical_cut (s := s) ?_ (fun _ => ?_); rotate_left; clear_value s; rotate_left; subst s) | (extract_lets +onlyGivenNames s; refine mem_let s ?_; subst s) | (extract_lets +onlyGivenNames s; refine boot_let s ?_; subst s) | (extract_lets +onlyGivenNames s; clear_value s) | split | extract_lets | with_reducible apply State.reply_canonical | with_reducible apply State.hostFrame_canonical | refine State.canonical_mk ?_ rfl rfl

theorem execLogReadLifetime_canonical {x1} {x2} {x3} {x4 : State} (h4 : x4.Canonical) :
    OutCanonical (execLogReadLifetime x1 x2 x3 x4) := by
  unfold execLogReadLifetime
  repeat' first | with_reducible assumption | with_reducible apply canonical_next | (refine fun (_ : State) (_ : State.Canonical _) => ?_) | (extract_lets +onlyGivenNames s; refine canonical_cut (s := s) ?_ (fun _ => ?_); rotate_left; clear_value s; rotate_left; subst s) | (extract_lets +onlyGivenNames s; refine mem_let s ?_; subst s) | (extract_lets +onlyGivenNames s; refine boot_let s ?_; subst s) | (extract_lets +onlyGivenNames s; clear_value s) | split | extract_lets | with_reducible apply State.sendFrames_canonical | with_reducible apply State.hostFrame_canonical | refine State.canonical_mk ?_ rfl rfl

theorem execTrainBuild_canonical {x1} {x2} {x3 : State} (h3 : x3.Canonical) :
    OutCanonical (execTrainBuild x1 x2 x3) := by
  unfold execTrainBuild
  repeat' first | with_reducible assumption | with_reducible apply canonical_next | (refine fun (_ : State) (_ : State.Canonical _) => ?_) | (extract_lets +onlyGivenNames s; refine canonical_cut (s := s) ?_ (fun _ => ?_); rotate_left; clear_value s; rotate_left; subst s) | (extract_lets +onlyGivenNames s; refine mem_let s ?_; subst s) | (extract_lets +onlyGivenNames s; refine boot_let s ?_; subst s) | (extract_lets +onlyGivenNames s; clear_value s) | split | extract_lets | with_reducible apply State.raise_canonical | with_reducible apply State.satAdd_canonical | with_reducible apply State.queueLaunch_canonical | (with_reducible apply foldl_canonical; intro _ _ _) | refine State.canonical_mk ?_ rfl rfl

theorem State.failover_canonical {x1 : State} {x2} {x3} (h1 : x1.Canonical) :
    (State.failover x1 x2 x3).Canonical := by
  unfold State.failover
  repeat' first | with_reducible assumption | (refine fun (_ : State) (_ : State.Canonical _) => ?_) | (extract_lets +onlyGivenNames s; refine canonical_cut (s := s) ?_ (fun _ => ?_); rotate_left; clear_value s; rotate_left; subst s) | (extract_lets +onlyGivenNames s; refine mem_let s ?_; subst s) | (extract_lets +onlyGivenNames s; refine boot_let s ?_; subst s) | (extract_lets +onlyGivenNames s; clear_value s) | split | extract_lets | with_reducible apply State.raise_canonical | with_reducible apply State.sendFrames_canonical | (with_reducible apply foldl_canonical; intro _ _ _) | refine State.canonical_mk ?_ rfl rfl

theorem execHostLinkDown_canonical {x1} {x2} {x3 : State} (h3 : x3.Canonical) :
    OutCanonical (execHostLinkDown x1 x2 x3) := by
  unfold execHostLinkDown
  repeat' first | with_reducible assumption | with_reducible apply canonical_next | (refine fun (_ : State) (_ : State.Canonical _) => ?_) | (extract_lets +onlyGivenNames s; refine canonical_cut (s := s) ?_ (fun _ => ?_); rotate_left; clear_value s; rotate_left; subst s) | (extract_lets +onlyGivenNames s; refine mem_let s ?_; subst s) | (extract_lets +onlyGivenNames s; refine boot_let s ?_; subst s) | (extract_lets +onlyGivenNames s; clear_value s) | split | extract_lets | with_reducible apply State.put_canonical | with_reducible apply State.raise_canonical | with_reducible apply State.updTx_canonical | with_reducible apply State.failover_canonical | refine State.canonical_mk ?_ rfl rfl

theorem execHostLinkUp_canonical {x1} {x2 : State} (h2 : x2.Canonical) :
    OutCanonical (execHostLinkUp x1 x2) := by
  unfold execHostLinkUp
  repeat' first | with_reducible assumption | with_reducible apply canonical_next | (refine fun (_ : State) (_ : State.Canonical _) => ?_) | (extract_lets +onlyGivenNames s; refine canonical_cut (s := s) ?_ (fun _ => ?_); rotate_left; clear_value s; rotate_left; subst s) | (extract_lets +onlyGivenNames s; refine mem_let s ?_; subst s) | (extract_lets +onlyGivenNames s; refine boot_let s ?_; subst s) | (extract_lets +onlyGivenNames s; clear_value s) | split | extract_lets | with_reducible apply State.put_canonical | with_reducible apply State.raise_canonical | with_reducible apply State.noticeOn_canonical | refine State.canonical_mk ?_ rfl rfl

end Sys2Proof.Machine
end

