-- ==== Sys2Proof/Laws/CanonicalIngest.lean ====
section
/-! SUPPORT. The canonical form is kept by every operation of Machine/Ingest.lean. -/

namespace Sys2Proof.Machine

theorem State.whenIng_canonical {x1 : State} {x2} (h1 : x1.Canonical) (h2 : ∀ t : State, t.Canonical → (x2 t).Canonical) :
    (State.whenIng x1 x2).Canonical := by
  unfold State.whenIng
  repeat' first | with_reducible assumption | (refine fun (_ : State) (_ : State.Canonical _) => ?_) | (extract_lets +onlyGivenNames s; refine canonical_cut (s := s) ?_ (fun _ => ?_); rotate_left; clear_value s; rotate_left; subst s) | (extract_lets +onlyGivenNames s; refine mem_let s ?_; subst s) | (extract_lets +onlyGivenNames s; refine boot_let s ?_; subst s) | (extract_lets +onlyGivenNames s; clear_value s) | split | extract_lets | apply h2 | refine State.canonical_mk ?_ rfl rfl

theorem State.ingDrop_canonical {x1 : State} {x2} (h1 : x1.Canonical) :
    (State.ingDrop x1 x2).Canonical := by
  unfold State.ingDrop
  repeat' first | with_reducible assumption | (refine fun (_ : State) (_ : State.Canonical _) => ?_) | (extract_lets +onlyGivenNames s; refine canonical_cut (s := s) ?_ (fun _ => ?_); rotate_left; clear_value s; rotate_left; subst s) | (extract_lets +onlyGivenNames s; refine mem_let s ?_; subst s) | (extract_lets +onlyGivenNames s; refine boot_let s ?_; subst s) | (extract_lets +onlyGivenNames s; clear_value s) | split | extract_lets | with_reducible apply State.raise_canonical | with_reducible apply State.satInc_canonical | refine State.canonical_mk ?_ rfl rfl

theorem State.putItem_canonical {x1 : State} {x2} {x3} {x4} {x5} (h1 : x1.Canonical) :
    (State.putItem x1 x2 x3 x4 x5).Canonical := by
  unfold State.putItem
  repeat' first | with_reducible assumption | (refine fun (_ : State) (_ : State.Canonical _) => ?_) | (extract_lets +onlyGivenNames s; refine canonical_cut (s := s) ?_ (fun _ => ?_); rotate_left; clear_value s; rotate_left; subst s) | (extract_lets +onlyGivenNames s; refine mem_let s ?_; subst s) | (extract_lets +onlyGivenNames s; refine boot_let s ?_; subst s) | (extract_lets +onlyGivenNames s; clear_value s) | split | extract_lets | with_reducible apply State.queueWrite_canonical | refine State.canonical_mk ?_ rfl rfl

theorem State.flushItem_canonical {x1 : State} {x2} (h1 : x1.Canonical) :
    (State.flushItem x1 x2).Canonical := by
  unfold State.flushItem
  repeat' first | with_reducible assumption | (refine fun (_ : State) (_ : State.Canonical _) => ?_) | (extract_lets +onlyGivenNames s; refine canonical_cut (s := s) ?_ (fun _ => ?_); rotate_left; clear_value s; rotate_left; subst s) | (extract_lets +onlyGivenNames s; refine mem_let s ?_; subst s) | (extract_lets +onlyGivenNames s; refine boot_let s ?_; subst s) | (extract_lets +onlyGivenNames s; clear_value s) | split | extract_lets | with_reducible apply State.queueFlush_canonical | refine State.canonical_mk ?_ rfl rfl

theorem State.quarantineChange_canonical {x1 : State} {x2} {x3} {x4} (h1 : x1.Canonical) :
    (State.quarantineChange x1 x2 x3 x4).Canonical := by
  unfold State.quarantineChange
  repeat' first | with_reducible assumption | (refine fun (_ : State) (_ : State.Canonical _) => ?_) | (extract_lets +onlyGivenNames s; refine canonical_cut (s := s) ?_ (fun _ => ?_); rotate_left; clear_value s; rotate_left; subst s) | (extract_lets +onlyGivenNames s; refine mem_let s ?_; subst s) | (extract_lets +onlyGivenNames s; refine boot_let s ?_; subst s) | (extract_lets +onlyGivenNames s; clear_value s) | split | extract_lets | with_reducible apply State.raise_canonical | with_reducible apply State.log_canonical | with_reducible apply State.applyQuarantine_canonical | with_reducible apply State.squash_canonical | with_reducible apply State.rebuildTable_canonical | refine State.canonical_mk ?_ rfl rfl

theorem State.sampleState_canonical {x1 : State} {x2} {x3} {x4} (h1 : x1.Canonical) :
    (State.sampleState x1 x2 x3 x4).1.Canonical := by
  rw [State.sampleState]
  repeat' first | with_reducible assumption | (refine fun (_ : State) (_ : State.Canonical _) => ?_) | (extract_lets +onlyGivenNames s; refine canonical_cut (s := s) ?_ (fun _ => ?_); rotate_left; clear_value s; rotate_left; subst s) | (extract_lets +onlyGivenNames s; refine mem_let s ?_; subst s) | (extract_lets +onlyGivenNames s; refine boot_let s ?_; subst s) | (extract_lets +onlyGivenNames s; clear_value s) | split | extract_lets | with_reducible apply State.put_canonical | with_reducible apply State.quarantineChange_canonical | refine State.canonical_mk ?_ rfl rfl

theorem State.sampleCheck_canonical {x1 : State} {x2} {x3} {x4} (h1 : x1.Canonical) :
    (State.sampleCheck x1 x2 x3 x4).1.Canonical := by
  unfold State.sampleCheck
  dsimp only
  generalize x1.residual x2 (x3 - x1.get (F.ING_STR_CFG_LATENCY x2)) x4 = r
  have hs1 : State.Canonical (if r.2 = true then x1 else x1.fresh) := by
    split
    · exact h1
    · exact State.fresh_canonical h1
  revert hs1
  generalize (if r.2 = true then x1 else x1.fresh) = s
  intro hs1
  split
  · exact State.sampleState_canonical (State.canonical_mk (State.modInc_canonical (State.put_canonical hs1)) rfl rfl)
  · exact State.satInc_canonical (State.sampleState_canonical (State.canonical_mk (State.modInc_canonical (State.put_canonical hs1)) rfl rfl))

theorem State.sampleItem_canonical {x1 : State} {x2} {x3} {x4} {x5} {x6} (h1 : x1.Canonical) :
    (State.sampleItem x1 x2 x3 x4 x5 x6).Canonical := by
  unfold State.sampleItem
  repeat' first | with_reducible assumption | (refine fun (_ : State) (_ : State.Canonical _) => ?_) | (extract_lets +onlyGivenNames s; refine canonical_cut (s := s) ?_ (fun _ => ?_); rotate_left; clear_value s; rotate_left; subst s) | (extract_lets +onlyGivenNames s; refine canonical_cut (s := s.1) ?_ (fun _ => ?_); rotate_left; clear_value s; rotate_left; subst s) | (extract_lets +onlyGivenNames s; refine mem_let s ?_; subst s) | (extract_lets +onlyGivenNames s; refine boot_let s ?_; subst s) | (extract_lets +onlyGivenNames s; clear_value s) | split | extract_lets | with_reducible apply State.putItem_canonical | with_reducible apply State.sampleCheck_canonical | (refine canonical_of_pair (by with_reducible assumption) ?_) | refine State.canonical_mk ?_ rfl rfl

theorem State.whenRx_canonical {x1 : State} {x2} {x3} (h1 : x1.Canonical) (h3 : ∀ t : State, t.Canonical → (x3 t).Canonical) :
    (State.whenRx x1 x2 x3).Canonical := by
  unfold State.whenRx
  repeat' first | with_reducible assumption | (refine fun (_ : State) (_ : State.Canonical _) => ?_) | (extract_lets +onlyGivenNames s; refine canonical_cut (s := s) ?_ (fun _ => ?_); rotate_left; clear_value s; rotate_left; subst s) | (extract_lets +onlyGivenNames s; refine mem_let s ?_; subst s) | (extract_lets +onlyGivenNames s; refine boot_let s ?_; subst s) | (extract_lets +onlyGivenNames s; clear_value s) | split | extract_lets | with_reducible apply State.whenIng_canonical | apply h3 | refine State.canonical_mk ?_ rfl rfl

theorem State.updOpen_canonical {x1 : State} {x2} {x3} (h1 : x1.Canonical) :
    (State.updOpen x1 x2 x3).Canonical := by
  unfold State.updOpen
  repeat' first | with_reducible assumption | (refine fun (_ : State) (_ : State.Canonical _) => ?_) | (extract_lets +onlyGivenNames s; refine canonical_cut (s := s) ?_ (fun _ => ?_); rotate_left; clear_value s; rotate_left; subst s) | (extract_lets +onlyGivenNames s; refine mem_let s ?_; subst s) | (extract_lets +onlyGivenNames s; refine boot_let s ?_; subst s) | (extract_lets +onlyGivenNames s; clear_value s) | split | extract_lets | refine State.canonical_mk ?_ rfl rfl

theorem State.spoilFrame_canonical {x1 : State} {x2} (h1 : x1.Canonical) :
    (State.spoilFrame x1 x2).Canonical := by
  unfold State.spoilFrame
  repeat' first | with_reducible assumption | (refine fun (_ : State) (_ : State.Canonical _) => ?_) | (extract_lets +onlyGivenNames s; refine canonical_cut (s := s) ?_ (fun _ => ?_); rotate_left; clear_value s; rotate_left; subst s) | (extract_lets +onlyGivenNames s; refine mem_let s ?_; subst s) | (extract_lets +onlyGivenNames s; refine boot_let s ?_; subst s) | (extract_lets +onlyGivenNames s; clear_value s) | split | extract_lets | with_reducible apply State.raise_canonical | with_reducible apply State.updOpen_canonical | refine State.canonical_mk ?_ rfl rfl

theorem State.writeFrameItem_canonical {x1 : State} {x2} {x3} {x4} (h1 : x1.Canonical) :
    (State.writeFrameItem x1 x2 x3 x4).Canonical := by
  unfold State.writeFrameItem
  repeat' first | with_reducible assumption | (refine fun (_ : State) (_ : State.Canonical _) => ?_) | (extract_lets +onlyGivenNames s; refine canonical_cut (s := s) ?_ (fun _ => ?_); rotate_left; clear_value s; rotate_left; subst s) | (extract_lets +onlyGivenNames s; refine mem_let s ?_; subst s) | (extract_lets +onlyGivenNames s; refine boot_let s ?_; subst s) | (extract_lets +onlyGivenNames s; clear_value s) | split | extract_lets | with_reducible apply State.putItem_canonical | with_reducible apply State.spoilFrame_canonical | refine State.canonical_mk ?_ rfl rfl

theorem State.frameItem_canonical {x1 : State} {x2} {x3} {x4} (h1 : x1.Canonical) :
    (State.frameItem x1 x2 x3 x4).Canonical := by
  unfold State.frameItem
  repeat' first | with_reducible assumption | (refine fun (_ : State) (_ : State.Canonical _) => ?_) | (extract_lets +onlyGivenNames s; refine canonical_cut (s := s) ?_ (fun _ => ?_); rotate_left; clear_value s; rotate_left; subst s) | (extract_lets +onlyGivenNames s; refine mem_let s ?_; subst s) | (extract_lets +onlyGivenNames s; refine boot_let s ?_; subst s) | (extract_lets +onlyGivenNames s; clear_value s) | split | extract_lets | with_reducible apply State.updOpen_canonical | with_reducible apply State.writeFrameItem_canonical | refine State.canonical_mk ?_ rfl rfl

theorem State.releaseHeld_canonical {x1 : State} {x2} (h1 : x1.Canonical) :
    (State.releaseHeld x1 x2).Canonical := by
  unfold State.releaseHeld
  repeat' first | with_reducible assumption | (refine fun (_ : State) (_ : State.Canonical _) => ?_) | (extract_lets +onlyGivenNames s; refine canonical_cut (s := s) ?_ (fun _ => ?_); rotate_left; clear_value s; rotate_left; subst s) | (extract_lets +onlyGivenNames s; refine mem_let s ?_; subst s) | (extract_lets +onlyGivenNames s; refine boot_let s ?_; subst s) | (extract_lets +onlyGivenNames s; clear_value s) | split | extract_lets | with_reducible apply State.writeFrameItem_canonical | (with_reducible apply foldl_canonical; intro _ _ _) | refine State.canonical_mk ?_ rfl rfl

theorem State.closeFrame_canonical {x1 : State} {x2} {x3} (h1 : x1.Canonical) :
    (State.closeFrame x1 x2 x3).Canonical := by
  unfold State.closeFrame
  repeat' first | with_reducible assumption | (refine fun (_ : State) (_ : State.Canonical _) => ?_) | (extract_lets +onlyGivenNames s; refine canonical_cut (s := s) ?_ (fun _ => ?_); rotate_left; clear_value s; rotate_left; subst s) | (extract_lets +onlyGivenNames s; refine canonical_cut (s := s.1) ?_ (fun _ => ?_); rotate_left; clear_value s; rotate_left; subst s) | (extract_lets +onlyGivenNames s; refine mem_let s ?_; subst s) | (extract_lets +onlyGivenNames s; refine boot_let s ?_; subst s) | (extract_lets +onlyGivenNames s; clear_value s) | split | extract_lets | with_reducible apply State.raise_canonical | with_reducible apply State.putItem_canonical | with_reducible apply State.flushItem_canonical | with_reducible apply State.sampleCheck_canonical | with_reducible apply State.releaseHeld_canonical | (refine canonical_of_pair (by with_reducible assumption) ?_) | refine State.canonical_mk ?_ rfl rfl

theorem State.abortBurst_canonical {x1 : State} {x2} (h1 : x1.Canonical) :
    (State.abortBurst x1 x2).Canonical := by
  unfold State.abortBurst
  repeat' first | with_reducible assumption | (refine fun (_ : State) (_ : State.Canonical _) => ?_) | (extract_lets +onlyGivenNames s; refine canonical_cut (s := s) ?_ (fun _ => ?_); rotate_left; clear_value s; rotate_left; subst s) | (extract_lets +onlyGivenNames s; refine mem_let s ?_; subst s) | (extract_lets +onlyGivenNames s; refine boot_let s ?_; subst s) | (extract_lets +onlyGivenNames s; clear_value s) | split | extract_lets | with_reducible apply State.raise_canonical | refine State.canonical_mk ?_ rfl rfl

theorem State.startFrame_canonical {x1 : State} {x2} {x3} (h1 : x1.Canonical) :
    (State.startFrame x1 x2 x3).Canonical := by
  unfold State.startFrame
  repeat' first | with_reducible assumption | (refine fun (_ : State) (_ : State.Canonical _) => ?_) | (extract_lets +onlyGivenNames s; refine canonical_cut (s := s) ?_ (fun _ => ?_); rotate_left; clear_value s; rotate_left; subst s) | (extract_lets +onlyGivenNames s; refine mem_let s ?_; subst s) | (extract_lets +onlyGivenNames s; refine boot_let s ?_; subst s) | (extract_lets +onlyGivenNames s; clear_value s) | split | extract_lets | with_reducible apply State.frameItem_canonical | with_reducible apply State.closeFrame_canonical | refine State.canonical_mk ?_ rfl rfl

theorem execFrameStart_canonical {x1} {x2} {x3} {x4 : State} (h4 : x4.Canonical) :
    OutCanonical (execFrameStart x1 x2 x3 x4) := by
  unfold execFrameStart
  repeat' first | with_reducible assumption | with_reducible apply canonical_next | (refine fun (_ : State) (_ : State.Canonical _) => ?_) | (extract_lets +onlyGivenNames s; refine canonical_cut (s := s) ?_ (fun _ => ?_); rotate_left; clear_value s; rotate_left; subst s) | (extract_lets +onlyGivenNames s; refine mem_let s ?_; subst s) | (extract_lets +onlyGivenNames s; refine boot_let s ?_; subst s) | (extract_lets +onlyGivenNames s; clear_value s) | split | extract_lets | with_reducible apply State.ingDrop_canonical | with_reducible apply State.whenRx_canonical | with_reducible apply State.abortBurst_canonical | with_reducible apply State.startFrame_canonical | (with_reducible apply foldl_canonical; intro _ _ _) | refine State.canonical_mk ?_ rfl rfl

theorem execFrameEnd_canonical {x1} {x2} {x3} {x4 : State} (h4 : x4.Canonical) :
    OutCanonical (execFrameEnd x1 x2 x3 x4) := by
  unfold execFrameEnd
  repeat' first | with_reducible assumption | with_reducible apply canonical_next | (refine fun (_ : State) (_ : State.Canonical _) => ?_) | (extract_lets +onlyGivenNames s; refine canonical_cut (s := s) ?_ (fun _ => ?_); rotate_left; clear_value s; rotate_left; subst s) | (extract_lets +onlyGivenNames s; refine mem_let s ?_; subst s) | (extract_lets +onlyGivenNames s; refine boot_let s ?_; subst s) | (extract_lets +onlyGivenNames s; clear_value s) | split | extract_lets | with_reducible apply State.ingDrop_canonical | with_reducible apply State.whenRx_canonical | with_reducible apply State.closeFrame_canonical | (with_reducible apply foldl_canonical; intro _ _ _) | refine State.canonical_mk ?_ rfl rfl

theorem execFrameEndTimeout_canonical {x1} {x2 : State} (h2 : x2.Canonical) :
    OutCanonical (execFrameEndTimeout x1 x2) := by
  unfold execFrameEndTimeout
  repeat' first | with_reducible assumption | with_reducible apply canonical_next | (refine fun (_ : State) (_ : State.Canonical _) => ?_) | (extract_lets +onlyGivenNames s; refine canonical_cut (s := s) ?_ (fun _ => ?_); rotate_left; clear_value s; rotate_left; subst s) | (extract_lets +onlyGivenNames s; refine mem_let s ?_; subst s) | (extract_lets +onlyGivenNames s; refine boot_let s ?_; subst s) | (extract_lets +onlyGivenNames s; clear_value s) | split | extract_lets | with_reducible apply State.whenIng_canonical | with_reducible apply State.closeFrame_canonical | refine State.canonical_mk ?_ rfl rfl

theorem State.bufferTake_canonical {x1 : State} {x2} {x3} (h1 : x1.Canonical) :
    (State.bufferTake x1 x2 x3).1.Canonical := by
  rw [State.bufferTake]
  repeat' first | with_reducible assumption | (refine fun (_ : State) (_ : State.Canonical _) => ?_) | (extract_lets +onlyGivenNames s; refine canonical_cut (s := s) ?_ (fun _ => ?_); rotate_left; clear_value s; rotate_left; subst s) | (extract_lets +onlyGivenNames s; refine mem_let s ?_; subst s) | (extract_lets +onlyGivenNames s; refine boot_let s ?_; subst s) | (extract_lets +onlyGivenNames s; clear_value s) | split | extract_lets | refine State.canonical_mk ?_ rfl rfl

set_option maxRecDepth 4000 in
theorem State.lineOf_canonical {x1 : State} {x2} {x3} {x4} {x5} {x6} (h1 : x1.Canonical) :
    (State.lineOf x1 x2 x3 x4 x5 x6).Canonical := by
  unfold State.lineOf
  split
  · exact State.ingDrop_canonical h1
  extract_lets +onlyGivenNames s1
  have hs1 : State.Canonical s1 := by
    subst s1
    split
    · exact h1
    · exact State.spoilFrame_canonical h1
  clear_value s1
  split
  · exact State.spoilFrame_canonical hs1
  extract_lets +onlyGivenNames s2
  have hs2 : State.Canonical s2 := State.updOpen_canonical hs1
  clear_value s2
  extract_lets +onlyGivenNames s3
  have hs3 : State.Canonical s3 := by
    subst s3
    split
    · exact State.spoilFrame_canonical hs2
    · exact hs2
  clear_value s3
  extract_lets +onlyGivenNames dt o
  have ho : PairGood o := PairGood.intro (y := State.bufferTake _ _ _) (State.bufferTake_canonical hs3)
  clear_value o dt
  replace ho := ho.out
  split
  · exact State.spoilFrame_canonical ho
  · exact State.frameItem_canonical ho

theorem State.embeddedOf_canonical {x1 : State} {x2} {x3} (h1 : x1.Canonical) :
    (State.embeddedOf x1 x2 x3).Canonical := by
  unfold State.embeddedOf
  repeat' first | with_reducible assumption | (refine fun (_ : State) (_ : State.Canonical _) => ?_) | (extract_lets +onlyGivenNames s; refine canonical_cut (s := s) ?_ (fun _ => ?_); rotate_left; clear_value s; rotate_left; subst s) | (extract_lets +onlyGivenNames s; refine mem_let s ?_; subst s) | (extract_lets +onlyGivenNames s; refine boot_let s ?_; subst s) | (extract_lets +onlyGivenNames s; clear_value s) | split | extract_lets | with_reducible apply State.updOpen_canonical | with_reducible apply State.releaseHeld_canonical | refine State.canonical_mk ?_ rfl rfl

theorem State.embeddedPacket_canonical {x1 : State} {x2} {x3} {x4} {x5} (h1 : x1.Canonical) :
    (State.embeddedPacket x1 x2 x3 x4 x5).Canonical := by
  unfold State.embeddedPacket
  repeat' first | with_reducible assumption | (refine fun (_ : State) (_ : State.Canonical _) => ?_) | (extract_lets +onlyGivenNames s; refine canonical_cut (s := s) ?_ (fun _ => ?_); rotate_left; clear_value s; rotate_left; subst s) | (extract_lets +onlyGivenNames s; refine mem_let s ?_; subst s) | (extract_lets +onlyGivenNames s; refine boot_let s ?_; subst s) | (extract_lets +onlyGivenNames s; clear_value s) | split | extract_lets | with_reducible apply State.ingDrop_canonical | with_reducible apply State.spoilFrame_canonical | with_reducible apply State.embeddedOf_canonical | (with_reducible apply foldl_canonical; intro _ _ _) | refine State.canonical_mk ?_ rfl rfl

theorem execCsiLine_canonical {x1} {x2} {x3} {x4} {x5} {x6} {x7 : State} (h7 : x7.Canonical) :
    OutCanonical (execCsiLine x1 x2 x3 x4 x5 x6 x7) := by
  unfold execCsiLine
  repeat' first | with_reducible assumption | with_reducible apply canonical_next | (refine fun (_ : State) (_ : State.Canonical _) => ?_) | (extract_lets +onlyGivenNames s; refine canonical_cut (s := s) ?_ (fun _ => ?_); rotate_left; clear_value s; rotate_left; subst s) | (extract_lets +onlyGivenNames s; refine mem_let s ?_; subst s) | (extract_lets +onlyGivenNames s; refine boot_let s ?_; subst s) | (extract_lets +onlyGivenNames s; clear_value s) | split | extract_lets | with_reducible apply State.raise_canonical | with_reducible apply State.ingDrop_canonical | with_reducible apply State.whenRx_canonical | with_reducible apply State.spoilFrame_canonical | with_reducible apply State.lineOf_canonical | with_reducible apply State.embeddedPacket_canonical | (with_reducible apply foldl_canonical; intro _ _ _) | refine State.canonical_mk ?_ rfl rfl

theorem execEmbeddedData_canonical {x1} {x2} {x3} {x4} {x5 : State} (h5 : x5.Canonical) :
    OutCanonical (execEmbeddedData x1 x2 x3 x4 x5) := by
  unfold execEmbeddedData
  repeat' first | with_reducible assumption | with_reducible apply canonical_next | (refine fun (_ : State) (_ : State.Canonical _) => ?_) | (extract_lets +onlyGivenNames s; refine canonical_cut (s := s) ?_ (fun _ => ?_); rotate_left; clear_value s; rotate_left; subst s) | (extract_lets +onlyGivenNames s; refine mem_let s ?_; subst s) | (extract_lets +onlyGivenNames s; refine boot_let s ?_; subst s) | (extract_lets +onlyGivenNames s; clear_value s) | split | extract_lets | with_reducible apply State.whenRx_canonical | with_reducible apply State.embeddedPacket_canonical | refine State.canonical_mk ?_ rfl rfl

theorem State.whenPort_canonical {x1 : State} {x2} {x3} (h1 : x1.Canonical) (h3 : ∀ t : State, t.Canonical → (x3 t).Canonical) :
    (State.whenPort x1 x2 x3).Canonical := by
  unfold State.whenPort
  repeat' first | with_reducible assumption | (refine fun (_ : State) (_ : State.Canonical _) => ?_) | (extract_lets +onlyGivenNames s; refine canonical_cut (s := s) ?_ (fun _ => ?_); rotate_left; clear_value s; rotate_left; subst s) | (extract_lets +onlyGivenNames s; refine mem_let s ?_; subst s) | (extract_lets +onlyGivenNames s; refine boot_let s ?_; subst s) | (extract_lets +onlyGivenNames s; clear_value s) | split | extract_lets | with_reducible apply State.whenIng_canonical | apply h3 | refine State.canonical_mk ?_ rfl rfl

theorem State.lidarPacket_canonical {x1 : State} {x2} {x3} {x4} (h1 : x1.Canonical) :
    (State.lidarPacket x1 x2 x3 x4).Canonical := by
  unfold State.lidarPacket
  repeat' first | with_reducible assumption | (refine fun (_ : State) (_ : State.Canonical _) => ?_) | (extract_lets +onlyGivenNames s; refine canonical_cut (s := s) ?_ (fun _ => ?_); rotate_left; clear_value s; rotate_left; subst s) | (extract_lets +onlyGivenNames s; refine canonical_cut (s := s.1) ?_ (fun _ => ?_); rotate_left; clear_value s; rotate_left; subst s) | (extract_lets +onlyGivenNames s; refine mem_let s ?_; subst s) | (extract_lets +onlyGivenNames s; refine boot_let s ?_; subst s) | (extract_lets +onlyGivenNames s; clear_value s) | split | extract_lets | with_reducible apply State.raise_canonical | with_reducible apply State.satAdd_canonical | with_reducible apply State.ingDrop_canonical | with_reducible apply State.putItem_canonical | with_reducible apply State.flushItem_canonical | with_reducible apply State.sampleCheck_canonical | (refine canonical_of_pair (by with_reducible assumption) ?_) | refine State.canonical_mk ?_ rfl rfl

theorem execLidarDatagram_canonical {x1} {x2} {x3 : State} (h3 : x3.Canonical) :
    OutCanonical (execLidarDatagram x1 x2 x3) := by
  unfold execLidarDatagram
  repeat' first | with_reducible assumption | with_reducible apply canonical_next | (refine fun (_ : State) (_ : State.Canonical _) => ?_) | (extract_lets +onlyGivenNames s; refine canonical_cut (s := s) ?_ (fun _ => ?_); rotate_left; clear_value s; rotate_left; subst s) | (extract_lets +onlyGivenNames s; refine mem_let s ?_; subst s) | (extract_lets +onlyGivenNames s; refine boot_let s ?_; subst s) | (extract_lets +onlyGivenNames s; clear_value s) | split | extract_lets | with_reducible apply State.ingDrop_canonical | with_reducible apply State.whenPort_canonical | with_reducible apply State.lidarPacket_canonical | refine State.canonical_mk ?_ rfl rfl

theorem execArpRequest_canonical {x1} {x2} {x3} {x4 : State} (h4 : x4.Canonical) :
    OutCanonical (execArpRequest x1 x2 x3 x4) := by
  unfold execArpRequest
  repeat' first | with_reducible assumption | with_reducible apply canonical_next | (refine fun (_ : State) (_ : State.Canonical _) => ?_) | (extract_lets +onlyGivenNames s; refine canonical_cut (s := s) ?_ (fun _ => ?_); rotate_left; clear_value s; rotate_left; subst s) | (extract_lets +onlyGivenNames s; refine mem_let s ?_; subst s) | (extract_lets +onlyGivenNames s; refine boot_let s ?_; subst s) | (extract_lets +onlyGivenNames s; clear_value s) | split | extract_lets | with_reducible apply State.txSend_canonical | with_reducible apply State.whenPort_canonical | refine State.canonical_mk ?_ rfl rfl

theorem execCanFrame_canonical {x1} {x2} {x3} {x4} {x5} {x6} {x7 : State} (h7 : x7.Canonical) :
    OutCanonical (execCanFrame x1 x2 x3 x4 x5 x6 x7) := by
  unfold execCanFrame
  repeat' first | with_reducible assumption | with_reducible apply canonical_next | (refine fun (_ : State) (_ : State.Canonical _) => ?_) | (extract_lets +onlyGivenNames s; refine canonical_cut (s := s) ?_ (fun _ => ?_); rotate_left; clear_value s; rotate_left; subst s) | (extract_lets +onlyGivenNames s; refine mem_let s ?_; subst s) | (extract_lets +onlyGivenNames s; refine boot_let s ?_; subst s) | (extract_lets +onlyGivenNames s; clear_value s) | split | extract_lets | with_reducible apply State.whenIng_canonical | with_reducible apply State.ingDrop_canonical | with_reducible apply State.sampleItem_canonical | (with_reducible apply foldl_canonical; intro _ _ _) | refine State.canonical_mk ?_ rfl rfl

theorem execBusOff_canonical {x1} {x2 : State} (h2 : x2.Canonical) :
    OutCanonical (execBusOff x1 x2) := by
  unfold execBusOff
  repeat' first | with_reducible assumption | with_reducible apply canonical_next | (refine fun (_ : State) (_ : State.Canonical _) => ?_) | (extract_lets +onlyGivenNames s; refine canonical_cut (s := s) ?_ (fun _ => ?_); rotate_left; clear_value s; rotate_left; subst s) | (extract_lets +onlyGivenNames s; refine mem_let s ?_; subst s) | (extract_lets +onlyGivenNames s; refine boot_let s ?_; subst s) | (extract_lets +onlyGivenNames s; clear_value s) | split | extract_lets | with_reducible apply State.raise_canonical | with_reducible apply State.whenIng_canonical | refine State.canonical_mk ?_ rfl rfl

theorem execBusOffRecovery_canonical {x1} {x2 : State} (h2 : x2.Canonical) :
    OutCanonical (execBusOffRecovery x1 x2) := by
  unfold execBusOffRecovery
  repeat' first | with_reducible assumption | with_reducible apply canonical_next | (refine fun (_ : State) (_ : State.Canonical _) => ?_) | (extract_lets +onlyGivenNames s; refine canonical_cut (s := s) ?_ (fun _ => ?_); rotate_left; clear_value s; rotate_left; subst s) | (extract_lets +onlyGivenNames s; refine mem_let s ?_; subst s) | (extract_lets +onlyGivenNames s; refine boot_let s ?_; subst s) | (extract_lets +onlyGivenNames s; clear_value s) | split | extract_lets | with_reducible apply State.whenIng_canonical | refine State.canonical_mk ?_ rfl rfl

theorem State.spiServe_canonical {x1 : State} {x2} (h1 : x1.Canonical) :
    (State.spiServe x1 x2).Canonical := by
  unfold State.spiServe
  repeat' first | with_reducible assumption | (refine fun (_ : State) (_ : State.Canonical _) => ?_) | (extract_lets +onlyGivenNames s; refine canonical_cut (s := s) ?_ (fun _ => ?_); rotate_left; clear_value s; rotate_left; subst s) | (extract_lets +onlyGivenNames s; refine mem_let s ?_; subst s) | (extract_lets +onlyGivenNames s; refine boot_let s ?_; subst s) | (extract_lets +onlyGivenNames s; clear_value s) | split | extract_lets | with_reducible apply State.emit_canonical | refine State.canonical_mk ?_ rfl rfl

theorem execDataReadyEdge_canonical {x1} {x2 : State} (h2 : x2.Canonical) :
    OutCanonical (execDataReadyEdge x1 x2) := by
  unfold execDataReadyEdge
  repeat' first | with_reducible assumption | with_reducible apply canonical_next | (refine fun (_ : State) (_ : State.Canonical _) => ?_) | (extract_lets +onlyGivenNames s; refine canonical_cut (s := s) ?_ (fun _ => ?_); rotate_left; clear_value s; rotate_left; subst s) | (extract_lets +onlyGivenNames s; refine mem_let s ?_; subst s) | (extract_lets +onlyGivenNames s; refine boot_let s ?_; subst s) | (extract_lets +onlyGivenNames s; clear_value s) | split | extract_lets | with_reducible apply State.raise_canonical | with_reducible apply State.satInc_canonical | with_reducible apply State.whenIng_canonical | with_reducible apply State.spiServe_canonical | (with_reducible apply foldl_canonical; intro _ _ _) | refine State.canonical_mk ?_ rfl rfl

theorem execSpiReadDone_canonical {x1} {x2} {x3 : State} (h3 : x3.Canonical) :
    OutCanonical (execSpiReadDone x1 x2 x3) := by
  unfold execSpiReadDone
  repeat' first | with_reducible assumption | with_reducible apply canonical_next | (refine fun (_ : State) (_ : State.Canonical _) => ?_) | (extract_lets +onlyGivenNames s; refine canonical_cut (s := s) ?_ (fun _ => ?_); rotate_left; clear_value s; rotate_left; subst s) | (extract_lets +onlyGivenNames s; refine mem_let s ?_; subst s) | (extract_lets +onlyGivenNames s; refine boot_let s ?_; subst s) | (extract_lets +onlyGivenNames s; clear_value s) | split | extract_lets | with_reducible apply State.raise_canonical | with_reducible apply State.whenIng_canonical | with_reducible apply State.sampleItem_canonical | with_reducible apply State.spiServe_canonical | refine State.canonical_mk ?_ rfl rfl

theorem State.updEnc_canonical {x1 : State} {x2} {x3} (h1 : x1.Canonical) :
    (State.updEnc x1 x2 x3).Canonical := by
  unfold State.updEnc
  repeat' first | with_reducible assumption | (refine fun (_ : State) (_ : State.Canonical _) => ?_) | (extract_lets +onlyGivenNames s; refine canonical_cut (s := s) ?_ (fun _ => ?_); rotate_left; clear_value s; rotate_left; subst s) | (extract_lets +onlyGivenNames s; refine mem_let s ?_; subst s) | (extract_lets +onlyGivenNames s; refine boot_let s ?_; subst s) | (extract_lets +onlyGivenNames s; clear_value s) | split | extract_lets | refine State.canonical_mk ?_ rfl rfl

theorem State.encRecord_canonical {x1 : State} {x2} {x3} {x4} (h1 : x1.Canonical) :
    (State.encRecord x1 x2 x3 x4).Canonical := by
  unfold State.encRecord
  repeat' first | with_reducible assumption | (refine fun (_ : State) (_ : State.Canonical _) => ?_) | (extract_lets +onlyGivenNames s; refine canonical_cut (s := s) ?_ (fun _ => ?_); rotate_left; clear_value s; rotate_left; subst s) | (extract_lets +onlyGivenNames s; refine mem_let s ?_; subst s) | (extract_lets +onlyGivenNames s; refine boot_let s ?_; subst s) | (extract_lets +onlyGivenNames s; clear_value s) | split | extract_lets | with_reducible apply State.fresh_canonical | with_reducible apply State.sampleItem_canonical | with_reducible apply State.updEnc_canonical | refine State.canonical_mk ?_ rfl rfl

theorem execEncoderEdge_canonical {x1} {x2} {x3} {x4} {x5 : State} (h5 : x5.Canonical) :
    OutCanonical (execEncoderEdge x1 x2 x3 x4 x5) := by
  unfold execEncoderEdge
  repeat' first | with_reducible assumption | with_reducible apply canonical_next | (refine fun (_ : State) (_ : State.Canonical _) => ?_) | (extract_lets +onlyGivenNames s; refine canonical_cut (s := s) ?_ (fun _ => ?_); rotate_left; clear_value s; rotate_left; subst s) | (extract_lets +onlyGivenNames s; refine mem_let s ?_; subst s) | (extract_lets +onlyGivenNames s; refine boot_let s ?_; subst s) | (extract_lets +onlyGivenNames s; clear_value s) | split | extract_lets | with_reducible apply State.raise_canonical | with_reducible apply State.whenIng_canonical | with_reducible apply State.updEnc_canonical | with_reducible apply State.encRecord_canonical | refine State.canonical_mk ?_ rfl rfl

theorem execEncoderIdleTimeout_canonical {x1} {x2 : State} (h2 : x2.Canonical) :
    OutCanonical (execEncoderIdleTimeout x1 x2) := by
  unfold execEncoderIdleTimeout
  repeat' first | with_reducible assumption | with_reducible apply canonical_next | (refine fun (_ : State) (_ : State.Canonical _) => ?_) | (extract_lets +onlyGivenNames s; refine canonical_cut (s := s) ?_ (fun _ => ?_); rotate_left; clear_value s; rotate_left; subst s) | (extract_lets +onlyGivenNames s; refine mem_let s ?_; subst s) | (extract_lets +onlyGivenNames s; refine boot_let s ?_; subst s) | (extract_lets +onlyGivenNames s; clear_value s) | split | extract_lets | with_reducible apply State.whenIng_canonical | with_reducible apply State.updEnc_canonical | with_reducible apply State.encRecord_canonical | refine State.canonical_mk ?_ rfl rfl

theorem execAbsentTimeout_canonical {x1} {x2 : State} (h2 : x2.Canonical) :
    OutCanonical (execAbsentTimeout x1 x2) := by
  unfold execAbsentTimeout
  repeat' first | with_reducible assumption | with_reducible apply canonical_next | (refine fun (_ : State) (_ : State.Canonical _) => ?_) | (extract_lets +onlyGivenNames s; refine canonical_cut (s := s) ?_ (fun _ => ?_); rotate_left; clear_value s; rotate_left; subst s) | (extract_lets +onlyGivenNames s; refine mem_let s ?_; subst s) | (extract_lets +onlyGivenNames s; refine boot_let s ?_; subst s) | (extract_lets +onlyGivenNames s; clear_value s) | split | extract_lets | with_reducible apply State.put_canonical | with_reducible apply State.raise_canonical | with_reducible apply State.whenIng_canonical | refine State.canonical_mk ?_ rfl rfl

theorem execDiscGraceEnd_canonical {x1 : State} (h1 : x1.Canonical) :
    OutCanonical (execDiscGraceEnd x1) := by
  unfold execDiscGraceEnd
  repeat' first | with_reducible assumption | with_reducible apply canonical_next | (refine fun (_ : State) (_ : State.Canonical _) => ?_) | (extract_lets +onlyGivenNames s; refine canonical_cut (s := s) ?_ (fun _ => ?_); rotate_left; clear_value s; rotate_left; subst s) | (extract_lets +onlyGivenNames s; refine mem_let s ?_; subst s) | (extract_lets +onlyGivenNames s; refine boot_let s ?_; subst s) | (extract_lets +onlyGivenNames s; clear_value s) | split | extract_lets | refine State.canonical_mk ?_ rfl rfl

theorem State.goldenDue_canonical {x1 : State} {x2} (h1 : x1.Canonical) :
    (State.goldenDue x1 x2).Canonical := by
  unfold State.goldenDue
  repeat' first | with_reducible assumption | (refine fun (_ : State) (_ : State.Canonical _) => ?_) | (extract_lets +onlyGivenNames s; refine canonical_cut (s := s) ?_ (fun _ => ?_); rotate_left; clear_value s; rotate_left; subst s) | (extract_lets +onlyGivenNames s; refine mem_let s ?_; subst s) | (extract_lets +onlyGivenNames s; refine boot_let s ?_; subst s) | (extract_lets +onlyGivenNames s; clear_value s) | split | extract_lets | refine State.canonical_mk ?_ rfl rfl

theorem State.goldenWrite_canonical {x1 : State} {x2} {x3} {x4} (h1 : x1.Canonical) :
    (State.goldenWrite x1 x2 x3 x4).Canonical := by
  unfold State.goldenWrite
  repeat' first | with_reducible assumption | (refine fun (_ : State) (_ : State.Canonical _) => ?_) | (extract_lets +onlyGivenNames s; refine canonical_cut (s := s) ?_ (fun _ => ?_); rotate_left; clear_value s; rotate_left; subst s) | (extract_lets +onlyGivenNames s; refine mem_let s ?_; subst s) | (extract_lets +onlyGivenNames s; refine boot_let s ?_; subst s) | (extract_lets +onlyGivenNames s; clear_value s) | split | extract_lets | with_reducible apply State.putItem_canonical | refine State.canonical_mk ?_ rfl rfl

theorem execGoldenLineInject_canonical {x1} {x2 : State} (h2 : x2.Canonical) :
    OutCanonical (execGoldenLineInject x1 x2) := by
  unfold execGoldenLineInject
  repeat' first | with_reducible assumption | with_reducible apply canonical_next | (refine fun (_ : State) (_ : State.Canonical _) => ?_) | (extract_lets +onlyGivenNames s; refine canonical_cut (s := s) ?_ (fun _ => ?_); rotate_left; clear_value s; rotate_left; subst s) | (extract_lets +onlyGivenNames s; refine mem_let s ?_; subst s) | (extract_lets +onlyGivenNames s; refine boot_let s ?_; subst s) | (extract_lets +onlyGivenNames s; clear_value s) | split | extract_lets | with_reducible apply State.flushItem_canonical | with_reducible apply State.whenRx_canonical | with_reducible apply State.goldenDue_canonical | with_reducible apply State.goldenWrite_canonical | refine State.canonical_mk ?_ rfl rfl

theorem State.goldenPackets_canonical {x1 : State} {x2} {x3} {x4} {x5} (h1 : x1.Canonical) :
    (State.goldenPackets x1 x2 x3 x4 x5).Canonical := by
  revert h1
  fun_induction State.goldenPackets x1 x2 x3 x4 x5 <;> intro h1
  all_goals repeat' first | with_reducible assumption | (refine (by with_reducible assumption : State.Canonical _ → State.Canonical _) ?_) | (refine fun (_ : State) (_ : State.Canonical _) => ?_) | (extract_lets +onlyGivenNames s; refine canonical_cut (s := s) ?_ (fun _ => ?_); rotate_left; clear_value s; rotate_left; subst s) | (extract_lets +onlyGivenNames s; refine mem_let s ?_; subst s) | (extract_lets +onlyGivenNames s; refine boot_let s ?_; subst s) | (extract_lets +onlyGivenNames s; clear_value s) | split | extract_lets | with_reducible apply State.flushItem_canonical | with_reducible apply State.goldenWrite_canonical | refine State.canonical_mk ?_ rfl rfl

theorem execGoldenPacketInsert_canonical {x1} {x2 : State} (h2 : x2.Canonical) :
    OutCanonical (execGoldenPacketInsert x1 x2) := by
  unfold execGoldenPacketInsert
  repeat' first | with_reducible assumption | with_reducible apply canonical_next | (refine fun (_ : State) (_ : State.Canonical _) => ?_) | (extract_lets +onlyGivenNames s; refine canonical_cut (s := s) ?_ (fun _ => ?_); rotate_left; clear_value s; rotate_left; subst s) | (extract_lets +onlyGivenNames s; refine mem_let s ?_; subst s) | (extract_lets +onlyGivenNames s; refine boot_let s ?_; subst s) | (extract_lets +onlyGivenNames s; clear_value s) | split | extract_lets | with_reducible apply State.whenPort_canonical | with_reducible apply State.goldenDue_canonical | with_reducible apply State.goldenPackets_canonical | refine State.canonical_mk ?_ rfl rfl

end Sys2Proof.Machine
end

