-- ==== Sys2Proof/Laws/CanonicalTokens.lean ====
section
/-! SUPPORT. The canonical form is kept by every operation of Machine/Tokens.lean. -/

namespace Sys2Proof.Machine

theorem State.dropToken_canonical {x1 : State} {x2} {x3} {x4} (h1 : x1.Canonical) :
    (State.dropToken x1 x2 x3 x4).Canonical := by
  unfold State.dropToken
  repeat' first | with_reducible assumption | (refine fun (_ : State) (_ : State.Canonical _) => ?_) | (extract_lets +onlyGivenNames s; refine canonical_cut (s := s) ?_ (fun _ => ?_); rotate_left; clear_value s; rotate_left; subst s) | (extract_lets +onlyGivenNames s; refine mem_let s ?_; subst s) | (extract_lets +onlyGivenNames s; refine boot_let s ?_; subst s) | (extract_lets +onlyGivenNames s; clear_value s) | split | extract_lets | with_reducible apply State.satInc_canonical | refine State.canonical_mk ?_ rfl rfl

theorem execTokenReceive_canonical {x1} {x2 : State} (h2 : x2.Canonical) :
    OutCanonical (execTokenReceive x1 x2) := by
  unfold execTokenReceive
  repeat' first | with_reducible assumption | with_reducible apply canonical_next | (refine fun (_ : State) (_ : State.Canonical _) => ?_) | (extract_lets +onlyGivenNames s; refine canonical_cut (s := s) ?_ (fun _ => ?_); rotate_left; clear_value s; rotate_left; subst s) | (extract_lets +onlyGivenNames s; refine mem_let s ?_; subst s) | (extract_lets +onlyGivenNames s; refine boot_let s ?_; subst s) | (extract_lets +onlyGivenNames s; clear_value s) | split | extract_lets | with_reducible apply State.raise_canonical | with_reducible apply State.count_canonical | with_reducible apply State.log_canonical | with_reducible apply State.detect_canonical | with_reducible apply State.syncOps_canonical | with_reducible apply State.dropToken_canonical | refine State.canonical_mk ?_ rfl rfl

theorem execCreditReturn_canonical {x1} {x2 : State} (h2 : x2.Canonical) :
    OutCanonical (execCreditReturn x1 x2) := by
  unfold execCreditReturn
  repeat' first | with_reducible assumption | with_reducible apply canonical_next | (refine fun (_ : State) (_ : State.Canonical _) => ?_) | (extract_lets +onlyGivenNames s; refine canonical_cut (s := s) ?_ (fun _ => ?_); rotate_left; clear_value s; rotate_left; subst s) | (extract_lets +onlyGivenNames s; refine mem_let s ?_; subst s) | (extract_lets +onlyGivenNames s; refine boot_let s ?_; subst s) | (extract_lets +onlyGivenNames s; clear_value s) | split | extract_lets | with_reducible apply State.syncOps_canonical | refine State.canonical_mk ?_ rfl rfl

theorem State.takeInputs_canonical {x1 : State} {x2} {x3} {x4} {x5} (h1 : x1.Canonical) :
    (State.takeInputs x1 x2 x3 x4 x5).Canonical := by
  unfold State.takeInputs
  repeat' first | with_reducible assumption | (refine fun (_ : State) (_ : State.Canonical _) => ?_) | (extract_lets +onlyGivenNames s; refine canonical_cut (s := s) ?_ (fun _ => ?_); rotate_left; clear_value s; rotate_left; subst s) | (extract_lets +onlyGivenNames s; refine mem_let s ?_; subst s) | (extract_lets +onlyGivenNames s; refine boot_let s ?_; subst s) | (extract_lets +onlyGivenNames s; clear_value s) | split | extract_lets | (with_reducible apply foldl_canonical; intro _ _ _) | refine State.canonical_mk ?_ rfl rfl

theorem State.startUnit_canonical {x1 : State} {x2} {x3} {x4} {x5} {x6} (h1 : x1.Canonical) :
    (State.startUnit x1 x2 x3 x4 x5 x6).Canonical := by
  unfold State.startUnit
  repeat' first | with_reducible assumption | (refine fun (_ : State) (_ : State.Canonical _) => ?_) | (extract_lets +onlyGivenNames s; refine canonical_cut (s := s) ?_ (fun _ => ?_); rotate_left; clear_value s; rotate_left; subst s) | (extract_lets +onlyGivenNames s; refine mem_let s ?_; subst s) | (extract_lets +onlyGivenNames s; refine boot_let s ?_; subst s) | (extract_lets +onlyGivenNames s; clear_value s) | split | extract_lets | with_reducible apply State.arrFire_canonical | with_reducible apply State.atnFire_canonical | refine State.canonical_mk ?_ rfl rfl

theorem execEntryFire_canonical {x1} {x2} {x3} {x4} {x5 : State} (h5 : x5.Canonical) :
    OutCanonical (execEntryFire x1 x2 x3 x4 x5) := by
  unfold execEntryFire
  repeat' first | with_reducible assumption | with_reducible apply canonical_next | (refine fun (_ : State) (_ : State.Canonical _) => ?_) | (extract_lets +onlyGivenNames s; refine canonical_cut (s := s) ?_ (fun _ => ?_); rotate_left; clear_value s; rotate_left; subst s) | (extract_lets +onlyGivenNames s; refine mem_let s ?_; subst s) | (extract_lets +onlyGivenNames s; refine boot_let s ?_; subst s) | (extract_lets +onlyGivenNames s; clear_value s) | split | extract_lets | with_reducible apply State.raise_canonical | with_reducible apply State.count_canonical | with_reducible apply State.log_canonical | with_reducible apply State.detect_canonical | with_reducible apply State.syncOps_canonical | with_reducible apply State.completeEntry_canonical | with_reducible apply State.takeInputs_canonical | with_reducible apply State.startUnit_canonical | refine State.canonical_mk ?_ rfl rfl

set_option maxRecDepth 4000 in
theorem State.copyTimes_canonical {x1} {x2} {x3} {x4} {x5 : State} (h5 : x5.Canonical) :
    (State.copyTimes x1 x2 x3 x4 x5).1.Canonical := by
  revert h5
  fun_induction State.copyTimes x1 x2 x3 x4 x5 <;> intro h5
  all_goals repeat' first | with_reducible assumption | (refine (by with_reducible assumption : State.Canonical _ → State.Canonical _) ?_) | (refine fun (_ : State) (_ : State.Canonical _) => ?_) | (extract_lets +onlyGivenNames s; refine canonical_cut (s := s) ?_ (fun _ => ?_); rotate_left; clear_value s; rotate_left; subst s) | (extract_lets +onlyGivenNames s; refine canonical_cut (s := s.s) ?_ (fun _ => ?_); rotate_left; clear_value s; rotate_left; subst s) | (extract_lets +onlyGivenNames s; refine mem_let s ?_; subst s) | (extract_lets +onlyGivenNames s; refine boot_let s ?_; subst s) | (extract_lets +onlyGivenNames s; clear_value s) | split | extract_lets | with_reducible apply State.layCopy_canonical | refine State.canonical_mk ?_ rfl rfl

set_option maxRecDepth 4000 in
theorem State.entryOutcome_canonical {x1 : State} {x2} {x3} {x4} {x5} (h1 : x1.Canonical) :
    OptCanonical (Option.map Prod.fst (State.entryOutcome x1 x2 x3 x4 x5)) := by
  rw [State.entryOutcome]
  split
  · exact h1
  split
  · have h := State.arrEnded_canonical (x2 := x2.unit) (x3 := x2.run) (x4 := x2.index) h1
    generalize x1.arrEnded x2.unit x2.run x2.index = o at h
    cases o with
    | none => exact trivial
    | some y => exact h
  split
  · refine canonical_some3 (State.copyTimes_canonical ?_)
    split
    · exact h1
    · exact State.life_canonical h1
  split
  · generalize x1.atn.ended.find? (fun x => x.1 == x2.run && x.2.1 == x2.index) = o
    cases o with
    | none => exact trivial
    | some y => exact canonical_some3 (State.endBudget_canonical (State.canonical_mk h1 rfl rfl))
  split
  · generalize x1.kvc.ended.find? (fun x => x.1 == x2.run && x.2.1 == x2.index) = o
    cases o with
    | none => exact trivial
    | some y => exact canonical_some3 (State.canonical_mk h1 rfl rfl)
  · exact canonical_some3 h1

theorem execEntryComplete_canonical {x1} {x2} {x3} {x4} {x5} {x6 : State} (h6 : x6.Canonical) :
    OutCanonical (execEntryComplete x1 x2 x3 x4 x5 x6) := by
  unfold execEntryComplete
  repeat' first | with_reducible assumption | with_reducible apply canonical_next | (refine fun (_ : State) (_ : State.Canonical _) => ?_) | (extract_lets +onlyGivenNames s; refine canonical_cut (s := s) ?_ (fun _ => ?_); rotate_left; clear_value s; rotate_left; subst s) | (extract_lets +onlyGivenNames s; refine mem_let s ?_; subst s) | (extract_lets +onlyGivenNames s; refine boot_let s ?_; subst s) | (extract_lets +onlyGivenNames s; clear_value s) | split | extract_lets | with_reducible apply State.completeEntry_canonical | with_reducible apply State.entryOutcome_canonical | (refine canonical_of_some_pair (by with_reducible assumption) ?_) | refine State.canonical_mk ?_ rfl rfl

set_option maxRecDepth 4000 in
theorem State.restartBudgets_canonical {x1 : State} {x2} (h1 : x1.Canonical) :
    (State.restartBudgets x1 x2).Canonical := by
  unfold State.restartBudgets
  extract_lets +onlyGivenNames again
  have ha : ∀ (t : State) a b, t.Canonical → (again t a b).Canonical := by
    intro t a b h
    simp only [again]
    split
    · exact h
    · exact State.startBudget_canonical h
  clear_value again
  extract_lets +onlyGivenNames s
  have hs : State.Canonical s := by
    subst s
    split
    · exact ha _ _ _ (ha _ _ _ (ha _ _ _ h1))
    · exact h1
  clear_value s
  refine foldl_canonical ?_ hs
  intro t f h
  split
  · exact ha _ _ _ h
  · exact ha _ _ _ h
  · exact h

theorem execSquashDone_canonical {x1 : State} (h1 : x1.Canonical) :
    OutCanonical (execSquashDone x1) := by
  unfold execSquashDone
  apply canonical_next
  split
  · exact h1
  · exact State.syncOps_canonical (State.syncHead_canonical (State.put_canonical (foldl_canonical
      (fun _ _ h => State.restartBudgets_canonical (State.clearMaps_canonical h)) (State.canonical_mk h1 rfl rfl))))

theorem execBudgetOverrun_canonical {x1} {x2} {x3 : State} (h3 : x3.Canonical) :
    OutCanonical (execBudgetOverrun x1 x2 x3) := by
  unfold execBudgetOverrun
  repeat' first | with_reducible assumption | with_reducible apply canonical_next | (refine fun (_ : State) (_ : State.Canonical _) => ?_) | (extract_lets +onlyGivenNames s; refine canonical_cut (s := s) ?_ (fun _ => ?_); rotate_left; clear_value s; rotate_left; subst s) | (extract_lets +onlyGivenNames s; refine mem_let s ?_; subst s) | (extract_lets +onlyGivenNames s; refine boot_let s ?_; subst s) | (extract_lets +onlyGivenNames s; clear_value s) | split | extract_lets | with_reducible apply State.raise_canonical | with_reducible apply State.satInc_canonical | with_reducible apply State.log_canonical | with_reducible apply State.detect_canonical | refine State.canonical_mk ?_ rfl rfl

end Sys2Proof.Machine
end

