-- ==== Sys2Proof/Laws/CanonicalLinks.lean ====
section
/-! SUPPORT. The canonical form is kept by every operation of Machine/Links.lean. -/

namespace Sys2Proof.Machine

theorem State.updPort_canonical {x1 : State} {x2} {x3} (h1 : x1.Canonical) :
    (State.updPort x1 x2 x3).Canonical := by
  unfold State.updPort
  repeat' first | with_reducible assumption | (refine fun (_ : State) (_ : State.Canonical _) => ?_) | (extract_lets +onlyGivenNames s; refine canonical_cut (s := s) ?_ (fun _ => ?_); rotate_left; clear_value s; rotate_left; subst s) | (extract_lets +onlyGivenNames s; refine mem_let s ?_; subst s) | (extract_lets +onlyGivenNames s; refine boot_let s ?_; subst s) | (extract_lets +onlyGivenNames s; clear_value s) | split | extract_lets | refine State.canonical_mk ?_ rfl rfl

theorem State.setLink_canonical {x1 : State} {x2} {x3} (h1 : x1.Canonical) :
    (State.setLink x1 x2 x3).Canonical := by
  unfold State.setLink
  repeat' first | with_reducible assumption | (refine fun (_ : State) (_ : State.Canonical _) => ?_) | (extract_lets +onlyGivenNames s; refine canonical_cut (s := s) ?_ (fun _ => ?_); rotate_left; clear_value s; rotate_left; subst s) | (extract_lets +onlyGivenNames s; refine mem_let s ?_; subst s) | (extract_lets +onlyGivenNames s; refine boot_let s ?_; subst s) | (extract_lets +onlyGivenNames s; clear_value s) | split | extract_lets | with_reducible apply State.put_canonical | with_reducible apply State.raise_canonical | with_reducible apply State.flag_canonical | with_reducible apply State.log_canonical | with_reducible apply State.updPort_canonical | refine State.canonical_mk ?_ rfl rfl

theorem State.dropLink_canonical {x1 : State} {x2} {x3} (h1 : x1.Canonical) :
    (State.dropLink x1 x2 x3).Canonical := by
  unfold State.dropLink
  repeat' first | with_reducible assumption | (refine fun (_ : State) (_ : State.Canonical _) => ?_) | (extract_lets +onlyGivenNames s; refine canonical_cut (s := s) ?_ (fun _ => ?_); rotate_left; clear_value s; rotate_left; subst s) | (extract_lets +onlyGivenNames s; refine mem_let s ?_; subst s) | (extract_lets +onlyGivenNames s; refine boot_let s ?_; subst s) | (extract_lets +onlyGivenNames s; clear_value s) | split | extract_lets | with_reducible apply State.updPort_canonical | with_reducible apply State.setLink_canonical | refine State.canonical_mk ?_ rfl rfl

theorem State.handshake_canonical {x1 : State} {x2} (h1 : x1.Canonical) :
    (State.handshake x1 x2).Canonical := by
  unfold State.handshake
  repeat' first | with_reducible assumption | (refine fun (_ : State) (_ : State.Canonical _) => ?_) | (extract_lets +onlyGivenNames s; refine canonical_cut (s := s) ?_ (fun _ => ?_); rotate_left; clear_value s; rotate_left; subst s) | (extract_lets +onlyGivenNames s; refine mem_let s ?_; subst s) | (extract_lets +onlyGivenNames s; refine boot_let s ?_; subst s) | (extract_lets +onlyGivenNames s; clear_value s) | split | extract_lets | with_reducible apply State.emit_canonical | refine State.canonical_mk ?_ rfl rfl

theorem State.retrain_canonical {x1 : State} {x2} (h1 : x1.Canonical) :
    (State.retrain x1 x2).Canonical := by
  unfold State.retrain
  repeat' first | with_reducible assumption | (refine fun (_ : State) (_ : State.Canonical _) => ?_) | (extract_lets +onlyGivenNames s; refine canonical_cut (s := s) ?_ (fun _ => ?_); rotate_left; clear_value s; rotate_left; subst s) | (extract_lets +onlyGivenNames s; refine mem_let s ?_; subst s) | (extract_lets +onlyGivenNames s; refine boot_let s ?_; subst s) | (extract_lets +onlyGivenNames s; clear_value s) | split | extract_lets | with_reducible apply State.raise_canonical | with_reducible apply State.satInc_canonical | with_reducible apply State.life_canonical | with_reducible apply State.updPort_canonical | with_reducible apply State.setLink_canonical | with_reducible apply State.handshake_canonical | refine State.canonical_mk ?_ rfl rfl

theorem execTrainingStart_canonical {x1} {x2 : State} (h2 : x2.Canonical) :
    OutCanonical (execTrainingStart x1 x2) := by
  unfold execTrainingStart
  repeat' first | with_reducible assumption | with_reducible apply canonical_next | (refine fun (_ : State) (_ : State.Canonical _) => ?_) | (extract_lets +onlyGivenNames s; refine canonical_cut (s := s) ?_ (fun _ => ?_); rotate_left; clear_value s; rotate_left; subst s) | (extract_lets +onlyGivenNames s; refine mem_let s ?_; subst s) | (extract_lets +onlyGivenNames s; refine boot_let s ?_; subst s) | (extract_lets +onlyGivenNames s; clear_value s) | split | extract_lets | with_reducible apply State.updPort_canonical | with_reducible apply State.setLink_canonical | with_reducible apply State.handshake_canonical | refine State.canonical_mk ?_ rfl rfl

theorem execTrainingTimeout_canonical {x1} {x2 : State} (h2 : x2.Canonical) :
    OutCanonical (execTrainingTimeout x1 x2) := by
  unfold execTrainingTimeout
  repeat' first | with_reducible assumption | with_reducible apply canonical_next | (refine fun (_ : State) (_ : State.Canonical _) => ?_) | (extract_lets +onlyGivenNames s; refine canonical_cut (s := s) ?_ (fun _ => ?_); rotate_left; clear_value s; rotate_left; subst s) | (extract_lets +onlyGivenNames s; refine mem_let s ?_; subst s) | (extract_lets +onlyGivenNames s; refine boot_let s ?_; subst s) | (extract_lets +onlyGivenNames s; clear_value s) | split | extract_lets | with_reducible apply State.dropLink_canonical | refine State.canonical_mk ?_ rfl rfl

theorem execLinkTimeout_canonical {x1} {x2 : State} (h2 : x2.Canonical) :
    OutCanonical (execLinkTimeout x1 x2) := by
  unfold execLinkTimeout
  repeat' first | with_reducible assumption | with_reducible apply canonical_next | (refine fun (_ : State) (_ : State.Canonical _) => ?_) | (extract_lets +onlyGivenNames s; refine canonical_cut (s := s) ?_ (fun _ => ?_); rotate_left; clear_value s; rotate_left; subst s) | (extract_lets +onlyGivenNames s; refine mem_let s ?_; subst s) | (extract_lets +onlyGivenNames s; refine boot_let s ?_; subst s) | (extract_lets +onlyGivenNames s; clear_value s) | split | extract_lets | with_reducible apply State.dropLink_canonical | refine State.canonical_mk ?_ rfl rfl

theorem execLaneLockLoss_canonical {x1} {x2 : State} (h2 : x2.Canonical) :
    OutCanonical (execLaneLockLoss x1 x2) := by
  unfold execLaneLockLoss
  repeat' first | with_reducible assumption | with_reducible apply canonical_next | (refine fun (_ : State) (_ : State.Canonical _) => ?_) | (extract_lets +onlyGivenNames s; refine canonical_cut (s := s) ?_ (fun _ => ?_); rotate_left; clear_value s; rotate_left; subst s) | (extract_lets +onlyGivenNames s; refine mem_let s ?_; subst s) | (extract_lets +onlyGivenNames s; refine boot_let s ?_; subst s) | (extract_lets +onlyGivenNames s; clear_value s) | split | extract_lets | with_reducible apply State.retrain_canonical | refine State.canonical_mk ?_ rfl rfl

theorem State.sendFlit_canonical {x1 : State} {x2} {x3} {x4} {x5} {x6} (h1 : x1.Canonical) :
    (State.sendFlit x1 x2 x3 x4 x5 x6).Canonical := by
  unfold State.sendFlit
  repeat' first | with_reducible assumption | (refine fun (_ : State) (_ : State.Canonical _) => ?_) | (extract_lets +onlyGivenNames s; refine canonical_cut (s := s) ?_ (fun _ => ?_); rotate_left; clear_value s; rotate_left; subst s) | (extract_lets +onlyGivenNames s; refine mem_let s ?_; subst s) | (extract_lets +onlyGivenNames s; refine boot_let s ?_; subst s) | (extract_lets +onlyGivenNames s; clear_value s) | split | extract_lets | with_reducible apply State.emit_canonical | with_reducible apply State.updPort_canonical | refine State.canonical_mk ?_ rfl rfl

theorem State.pump_canonical {x1} {x2} {x3 : State} (h3 : x3.Canonical) :
    (State.pump x1 x2 x3).Canonical := by
  revert h3
  fun_induction State.pump x1 x2 x3 <;> intro h3
  all_goals repeat' first | with_reducible assumption | (refine (by with_reducible assumption : State.Canonical _ → State.Canonical _) ?_) | (refine fun (_ : State) (_ : State.Canonical _) => ?_) | (extract_lets +onlyGivenNames s; refine canonical_cut (s := s) ?_ (fun _ => ?_); rotate_left; clear_value s; rotate_left; subst s) | (extract_lets +onlyGivenNames s; refine mem_let s ?_; subst s) | (extract_lets +onlyGivenNames s; refine boot_let s ?_; subst s) | (extract_lets +onlyGivenNames s; clear_value s) | split | extract_lets | with_reducible apply State.updPort_canonical | with_reducible apply State.sendFlit_canonical | refine State.canonical_mk ?_ rfl rfl

theorem State.pumpAll_canonical {x1 : State} {x2} (h1 : x1.Canonical) :
    (State.pumpAll x1 x2).Canonical := by
  unfold State.pumpAll
  repeat' first | with_reducible assumption | (refine fun (_ : State) (_ : State.Canonical _) => ?_) | (extract_lets +onlyGivenNames s; refine canonical_cut (s := s) ?_ (fun _ => ?_); rotate_left; clear_value s; rotate_left; subst s) | (extract_lets +onlyGivenNames s; refine mem_let s ?_; subst s) | (extract_lets +onlyGivenNames s; refine boot_let s ?_; subst s) | (extract_lets +onlyGivenNames s; clear_value s) | split | extract_lets | with_reducible apply State.pump_canonical | refine State.canonical_mk ?_ rfl rfl

theorem execTrainingDone_canonical {x1} {x2} {x3} {x4 : State} (h4 : x4.Canonical) :
    OutCanonical (execTrainingDone x1 x2 x3 x4) := by
  unfold execTrainingDone
  repeat' first | with_reducible assumption | with_reducible apply canonical_next | (refine fun (_ : State) (_ : State.Canonical _) => ?_) | (extract_lets +onlyGivenNames s; refine canonical_cut (s := s) ?_ (fun _ => ?_); rotate_left; clear_value s; rotate_left; subst s) | (extract_lets +onlyGivenNames s; refine mem_let s ?_; subst s) | (extract_lets +onlyGivenNames s; refine boot_let s ?_; subst s) | (extract_lets +onlyGivenNames s; clear_value s) | split | extract_lets | with_reducible apply State.put_canonical | with_reducible apply State.raise_canonical | with_reducible apply State.updPort_canonical | with_reducible apply State.setLink_canonical | with_reducible apply State.dropLink_canonical | with_reducible apply State.pumpAll_canonical | refine State.canonical_mk ?_ rfl rfl

theorem State.ackFlits_canonical {x1 : State} {x2} {x3} (h1 : x1.Canonical) :
    (State.ackFlits x1 x2 x3).Canonical := by
  unfold State.ackFlits
  repeat' first | with_reducible assumption | (refine fun (_ : State) (_ : State.Canonical _) => ?_) | (extract_lets +onlyGivenNames s; refine canonical_cut (s := s) ?_ (fun _ => ?_); rotate_left; clear_value s; rotate_left; subst s) | (extract_lets +onlyGivenNames s; refine mem_let s ?_; subst s) | (extract_lets +onlyGivenNames s; refine boot_let s ?_; subst s) | (extract_lets +onlyGivenNames s; clear_value s) | split | extract_lets | with_reducible apply State.updPort_canonical | refine State.canonical_mk ?_ rfl rfl

theorem State.deliver_canonical {x1 : State} {x2} (h1 : x1.Canonical) :
    (State.deliver x1 x2).Canonical := by
  unfold State.deliver
  repeat' first | with_reducible assumption | (refine fun (_ : State) (_ : State.Canonical _) => ?_) | (extract_lets +onlyGivenNames s; refine canonical_cut (s := s) ?_ (fun _ => ?_); rotate_left; clear_value s; rotate_left; subst s) | (extract_lets +onlyGivenNames s; refine mem_let s ?_; subst s) | (extract_lets +onlyGivenNames s; refine boot_let s ?_; subst s) | (extract_lets +onlyGivenNames s; clear_value s) | split | extract_lets | with_reducible apply State.raise_canonical | with_reducible apply State.satInc_canonical | refine State.canonical_mk ?_ rfl rfl

theorem State.routePacket_canonical {x1 : State} {x2} {x3} {x4} (h1 : x1.Canonical) :
    (State.routePacket x1 x2 x3 x4).Canonical := by
  unfold State.routePacket
  repeat' first | with_reducible assumption | (refine fun (_ : State) (_ : State.Canonical _) => ?_) | (extract_lets +onlyGivenNames s; refine canonical_cut (s := s) ?_ (fun _ => ?_); rotate_left; clear_value s; rotate_left; subst s) | (extract_lets +onlyGivenNames s; refine mem_let s ?_; subst s) | (extract_lets +onlyGivenNames s; refine boot_let s ?_; subst s) | (extract_lets +onlyGivenNames s; clear_value s) | split | extract_lets | with_reducible apply State.raise_canonical | with_reducible apply State.updPort_canonical | with_reducible apply State.pumpAll_canonical | with_reducible apply State.deliver_canonical | refine State.canonical_mk ?_ rfl rfl

theorem State.acceptFlit_canonical {x1 : State} {x2} {x3} {x4} (h1 : x1.Canonical) :
    (State.acceptFlit x1 x2 x3 x4).Canonical := by
  unfold State.acceptFlit
  repeat' first | with_reducible assumption | (refine fun (_ : State) (_ : State.Canonical _) => ?_) | (extract_lets +onlyGivenNames s; refine canonical_cut (s := s) ?_ (fun _ => ?_); rotate_left; clear_value s; rotate_left; subst s) | (extract_lets +onlyGivenNames s; refine mem_let s ?_; subst s) | (extract_lets +onlyGivenNames s; refine boot_let s ?_; subst s) | (extract_lets +onlyGivenNames s; clear_value s) | split | extract_lets | with_reducible apply State.updPort_canonical | with_reducible apply State.sendFlit_canonical | with_reducible apply State.routePacket_canonical | refine State.canonical_mk ?_ rfl rfl

theorem execFlit_canonical {x1} {x2} {x3 : State} (h3 : x3.Canonical) :
    OutCanonical (execFlit x1 x2 x3) := by
  unfold execFlit
  repeat' first | with_reducible assumption | with_reducible apply canonical_next | (refine fun (_ : State) (_ : State.Canonical _) => ?_) | (extract_lets +onlyGivenNames s; refine canonical_cut (s := s) ?_ (fun _ => ?_); rotate_left; clear_value s; rotate_left; subst s) | (extract_lets +onlyGivenNames s; refine mem_let s ?_; subst s) | (extract_lets +onlyGivenNames s; refine boot_let s ?_; subst s) | (extract_lets +onlyGivenNames s; clear_value s) | split | extract_lets | with_reducible apply State.satInc_canonical | with_reducible apply State.updPort_canonical | with_reducible apply State.sendFlit_canonical | with_reducible apply State.pumpAll_canonical | with_reducible apply State.ackFlits_canonical | with_reducible apply State.acceptFlit_canonical | refine State.canonical_mk ?_ rfl rfl

theorem execNackFlit_canonical {x1} {x2} {x3 : State} (h3 : x3.Canonical) :
    OutCanonical (execNackFlit x1 x2 x3) := by
  unfold execNackFlit
  repeat' first | with_reducible assumption | with_reducible apply canonical_next | (refine fun (_ : State) (_ : State.Canonical _) => ?_) | (extract_lets +onlyGivenNames s; refine canonical_cut (s := s) ?_ (fun _ => ?_); rotate_left; clear_value s; rotate_left; subst s) | (extract_lets +onlyGivenNames s; refine mem_let s ?_; subst s) | (extract_lets +onlyGivenNames s; refine boot_let s ?_; subst s) | (extract_lets +onlyGivenNames s; clear_value s) | split | extract_lets | with_reducible apply State.satInc_canonical | with_reducible apply State.updPort_canonical | with_reducible apply State.retrain_canonical | with_reducible apply State.sendFlit_canonical | with_reducible apply State.ackFlits_canonical | (with_reducible apply foldl_canonical; intro _ _ _) | refine State.canonical_mk ?_ rfl rfl

theorem execCreditFlit_canonical {x1} {x2} {x3} {x4} {x5 : State} (h5 : x5.Canonical) :
    OutCanonical (execCreditFlit x1 x2 x3 x4 x5) := by
  unfold execCreditFlit
  repeat' first | with_reducible assumption | with_reducible apply canonical_next | (refine fun (_ : State) (_ : State.Canonical _) => ?_) | (extract_lets +onlyGivenNames s; refine canonical_cut (s := s) ?_ (fun _ => ?_); rotate_left; clear_value s; rotate_left; subst s) | (extract_lets +onlyGivenNames s; refine mem_let s ?_; subst s) | (extract_lets +onlyGivenNames s; refine boot_let s ?_; subst s) | (extract_lets +onlyGivenNames s; clear_value s) | split | extract_lets | with_reducible apply State.updPort_canonical | with_reducible apply State.pumpAll_canonical | with_reducible apply State.ackFlits_canonical | refine State.canonical_mk ?_ rfl rfl

theorem execKeepalive_canonical {x1} {x2} {x3} {x4} {x5 : State} (h5 : x5.Canonical) :
    OutCanonical (execKeepalive x1 x2 x3 x4 x5) := by
  unfold execKeepalive
  repeat' first | with_reducible assumption | with_reducible apply canonical_next | (refine fun (_ : State) (_ : State.Canonical _) => ?_) | (extract_lets +onlyGivenNames s; refine canonical_cut (s := s) ?_ (fun _ => ?_); rotate_left; clear_value s; rotate_left; subst s) | (extract_lets +onlyGivenNames s; refine mem_let s ?_; subst s) | (extract_lets +onlyGivenNames s; refine boot_let s ?_; subst s) | (extract_lets +onlyGivenNames s; clear_value s) | split | extract_lets | with_reducible apply State.raise_canonical | with_reducible apply State.putI_canonical | with_reducible apply State.updPort_canonical | with_reducible apply State.pumpAll_canonical | with_reducible apply State.ackFlits_canonical | refine State.canonical_mk ?_ rfl rfl

theorem execKeepaliveTx_canonical {x1} {x2 : State} (h2 : x2.Canonical) :
    OutCanonical (execKeepaliveTx x1 x2) := by
  unfold execKeepaliveTx
  repeat' first | with_reducible assumption | with_reducible apply canonical_next | (refine fun (_ : State) (_ : State.Canonical _) => ?_) | (extract_lets +onlyGivenNames s; refine canonical_cut (s := s) ?_ (fun _ => ?_); rotate_left; clear_value s; rotate_left; subst s) | (extract_lets +onlyGivenNames s; refine mem_let s ?_; subst s) | (extract_lets +onlyGivenNames s; refine boot_let s ?_; subst s) | (extract_lets +onlyGivenNames s; clear_value s) | split | extract_lets | with_reducible apply State.sendFlit_canonical | refine State.canonical_mk ?_ rfl rfl

theorem State.updCombine_canonical {x1 : State} {x2} {x3} {x4} (h1 : x1.Canonical) :
    (State.updCombine x1 x2 x3 x4).Canonical := by
  unfold State.updCombine
  repeat' first | with_reducible assumption | (refine fun (_ : State) (_ : State.Canonical _) => ?_) | (extract_lets +onlyGivenNames s; refine canonical_cut (s := s) ?_ (fun _ => ?_); rotate_left; clear_value s; rotate_left; subst s) | (extract_lets +onlyGivenNames s; refine mem_let s ?_; subst s) | (extract_lets +onlyGivenNames s; refine boot_let s ?_; subst s) | (extract_lets +onlyGivenNames s; clear_value s) | split | extract_lets | refine State.canonical_mk ?_ rfl rfl

set_option maxRecDepth 4000 in
theorem State.dispatchChoice_canonical {x1 : State} {x2} {x3} {x4} {x5} {x6} {x7} (h1 : x1.Canonical) :
    (State.dispatchChoice x1 x2 x3 x4 x5 x6 x7).Canonical := by
  unfold State.dispatchChoice
  extract_lets +onlyGivenNames mark
  have hm : ∀ u : State, u.Canonical → (mark u).Canonical := fun u h => State.updCombine_canonical h
  clear_value mark
  split
  · exact hm _ h1
  split
  · exact hm _ (State.raise_canonical h1)
  · exact State.routePacket_canonical (State.modInc_canonical h1)

theorem execDispatchCommand_canonical {x1} {x2} {x3} {x4 : State} (h4 : x4.Canonical) :
    OutCanonical (execDispatchCommand x1 x2 x3 x4) := by
  unfold execDispatchCommand
  repeat' first | with_reducible assumption | with_reducible apply canonical_next | (refine fun (_ : State) (_ : State.Canonical _) => ?_) | (extract_lets +onlyGivenNames s; refine canonical_cut (s := s) ?_ (fun _ => ?_); rotate_left; clear_value s; rotate_left; subst s) | (extract_lets +onlyGivenNames s; refine mem_let s ?_; subst s) | (extract_lets +onlyGivenNames s; refine boot_let s ?_; subst s) | (extract_lets +onlyGivenNames s; clear_value s) | split | extract_lets | with_reducible apply State.dispatchChoice_canonical | (with_reducible apply foldl_canonical; intro _ _ _) | refine State.canonical_mk ?_ rfl rfl

set_option maxRecDepth 4000 in
theorem State.takePacket_canonical {x1 : State} {x2} (h1 : x1.Canonical) :
    OptCanonical (Option.map Prod.fst (State.takePacket x1 x2)) := by
  rw [State.takePacket]
  generalize x1.bml.inbox.find? (fun b => pkKind b == x2) = o
  cases o with
  | none => exact trivial
  | some b => exact canonical_map_some (State.canonical_mk h1 rfl rfl)

theorem execDispatch_canonical {x1 : State} (h1 : x1.Canonical) :
    OutCanonical (execDispatch x1) := by
  unfold execDispatch
  repeat' first | with_reducible assumption | with_reducible apply canonical_next | (refine fun (_ : State) (_ : State.Canonical _) => ?_) | (extract_lets +onlyGivenNames s; refine canonical_cut (s := s) ?_ (fun _ => ?_); rotate_left; clear_value s; rotate_left; subst s) | (extract_lets +onlyGivenNames s; refine mem_let s ?_; subst s) | (extract_lets +onlyGivenNames s; refine boot_let s ?_; subst s) | (extract_lets +onlyGivenNames s; clear_value s) | split | extract_lets | with_reducible apply State.routePacket_canonical | with_reducible apply State.takePacket_canonical | (refine canonical_of_some_pair (by with_reducible assumption) ?_) | refine State.canonical_mk ?_ rfl rfl

theorem execServe_canonical {x1} {x2} {x3} {x4 : State} (h4 : x4.Canonical) :
    OutCanonical (execServe x1 x2 x3 x4) := by
  unfold execServe
  repeat' first | with_reducible assumption | with_reducible apply canonical_next | (refine fun (_ : State) (_ : State.Canonical _) => ?_) | (extract_lets +onlyGivenNames s; refine canonical_cut (s := s) ?_ (fun _ => ?_); rotate_left; clear_value s; rotate_left; subst s) | (extract_lets +onlyGivenNames s; refine mem_let s ?_; subst s) | (extract_lets +onlyGivenNames s; refine boot_let s ?_; subst s) | (extract_lets +onlyGivenNames s; clear_value s) | split | extract_lets | with_reducible apply State.routePacket_canonical | (with_reducible apply foldl_canonical; intro _ _ _) | refine State.canonical_mk ?_ rfl rfl

theorem execResult_canonical {x1 : State} (h1 : x1.Canonical) :
    OutCanonical (execResult x1) := by
  unfold execResult
  repeat' first | with_reducible assumption | with_reducible apply canonical_next | (refine fun (_ : State) (_ : State.Canonical _) => ?_) | (extract_lets +onlyGivenNames s; refine canonical_cut (s := s) ?_ (fun _ => ?_); rotate_left; clear_value s; rotate_left; subst s) | (extract_lets +onlyGivenNames s; refine mem_let s ?_; subst s) | (extract_lets +onlyGivenNames s; refine boot_let s ?_; subst s) | (extract_lets +onlyGivenNames s; clear_value s) | split | extract_lets | with_reducible apply State.satInc_canonical | with_reducible apply State.updCombine_canonical | with_reducible apply State.takePacket_canonical | (refine canonical_of_some_pair (by with_reducible assumption) ?_) | refine State.canonical_mk ?_ rfl rfl

theorem execRefuse_canonical {x1 : State} (h1 : x1.Canonical) :
    OutCanonical (execRefuse x1) := by
  unfold execRefuse
  repeat' first | with_reducible assumption | with_reducible apply canonical_next | (refine fun (_ : State) (_ : State.Canonical _) => ?_) | (extract_lets +onlyGivenNames s; refine canonical_cut (s := s) ?_ (fun _ => ?_); rotate_left; clear_value s; rotate_left; subst s) | (extract_lets +onlyGivenNames s; refine mem_let s ?_; subst s) | (extract_lets +onlyGivenNames s; refine boot_let s ?_; subst s) | (extract_lets +onlyGivenNames s; clear_value s) | split | extract_lets | with_reducible apply State.updCombine_canonical | with_reducible apply State.takePacket_canonical | (refine canonical_of_some_pair (by with_reducible assumption) ?_) | refine State.canonical_mk ?_ rfl rfl

theorem execCombineDeadline_canonical {x1} {x2} {x3 : State} (h3 : x3.Canonical) :
    OutCanonical (execCombineDeadline x1 x2 x3) := by
  unfold execCombineDeadline
  repeat' first | with_reducible assumption | with_reducible apply canonical_next | (refine fun (_ : State) (_ : State.Canonical _) => ?_) | (extract_lets +onlyGivenNames s; refine canonical_cut (s := s) ?_ (fun _ => ?_); rotate_left; clear_value s; rotate_left; subst s) | (extract_lets +onlyGivenNames s; refine mem_let s ?_; subst s) | (extract_lets +onlyGivenNames s; refine boot_let s ?_; subst s) | (extract_lets +onlyGivenNames s; clear_value s) | split | extract_lets | with_reducible apply State.raise_canonical | with_reducible apply State.satAdd_canonical | with_reducible apply State.emit_canonical | with_reducible apply State.updInst_canonical | refine State.canonical_mk ?_ rfl rfl

theorem LayOut.sendRemote_canonical {x1} {x2} {x3} {x4} (h1 : x1.s.Canonical) :
    (LayOut.sendRemote x1 x2 x3 x4).Canonical := by
  unfold LayOut.sendRemote
  repeat' first | with_reducible assumption | (refine fun (_ : State) (_ : State.Canonical _) => ?_) | (extract_lets +onlyGivenNames s; refine canonical_cut (s := s) ?_ (fun _ => ?_); rotate_left; clear_value s; rotate_left; subst s) | (extract_lets +onlyGivenNames s; refine canonical_cut (s := s.s) ?_ (fun _ => ?_); rotate_left; clear_value s; rotate_left; subst s) | (extract_lets +onlyGivenNames s; refine mem_let s ?_; subst s) | (extract_lets +onlyGivenNames s; refine boot_let s ?_; subst s) | (extract_lets +onlyGivenNames s; clear_value s) | split | extract_lets | with_reducible apply State.emit_canonical | with_reducible apply State.routePacket_canonical | (with_reducible apply foldl_canonical; intro _ _ _) | refine State.canonical_mk ?_ rfl rfl

set_option maxRecDepth 4000 in
theorem execRemoteCopy_canonical {x1} {x2} {x3} {x4} {x5 : State} (h5 : x5.Canonical) :
    OutCanonical (execRemoteCopy x1 x2 x3 x4 x5) := by
  unfold execRemoteCopy
  repeat' first | with_reducible assumption | with_reducible apply canonical_next | (refine fun (_ : State) (_ : State.Canonical _) => ?_) | (extract_lets +onlyGivenNames s; refine canonical_cut (s := s) ?_ (fun _ => ?_); rotate_left; clear_value s; rotate_left; subst s) | (extract_lets +onlyGivenNames s; refine canonical_cut (s := s.s) ?_ (fun _ => ?_); rotate_left; clear_value s; rotate_left; subst s) | (extract_lets +onlyGivenNames s; refine mem_let s ?_; subst s) | (extract_lets +onlyGivenNames s; refine boot_let s ?_; subst s) | (extract_lets +onlyGivenNames s; clear_value s) | split | extract_lets | with_reducible apply State.layRead_canonical | with_reducible apply LayOut.sendRemote_canonical | refine State.canonical_mk ?_ rfl rfl

theorem State.endRemote_canonical {x1 : State} {x2} {x3} (h1 : x1.Canonical) :
    (State.endRemote x1 x2 x3).Canonical := by
  unfold State.endRemote
  repeat' first | with_reducible assumption | (refine fun (_ : State) (_ : State.Canonical _) => ?_) | (extract_lets +onlyGivenNames s; refine canonical_cut (s := s) ?_ (fun _ => ?_); rotate_left; clear_value s; rotate_left; subst s) | (extract_lets +onlyGivenNames s; refine mem_let s ?_; subst s) | (extract_lets +onlyGivenNames s; refine boot_let s ?_; subst s) | (extract_lets +onlyGivenNames s; clear_value s) | split | extract_lets | with_reducible apply State.raise_canonical | with_reducible apply State.emit_canonical | refine State.canonical_mk ?_ rfl rfl

theorem State.remoteWrite_canonical {x1 : State} {x2} {x3} (h1 : x1.Canonical) :
    ExCanonical (State.remoteWrite x1 x2 x3) := by
  unfold State.remoteWrite
  repeat' first | with_reducible assumption | with_reducible exact canonical_error | with_reducible apply canonical_ok | (refine fun (_ : State) (_ : State.Canonical _) => ?_) | (extract_lets +onlyGivenNames s; refine canonical_cut (s := s) ?_ (fun _ => ?_); rotate_left; clear_value s; rotate_left; subst s) | (extract_lets +onlyGivenNames s; refine mem_let s ?_; subst s) | (extract_lets +onlyGivenNames s; refine boot_let s ?_; subst s) | (extract_lets +onlyGivenNames s; clear_value s) | split | extract_lets | with_reducible apply State.ctxWrite_canonical | (refine canonical_of_ok (by with_reducible assumption) ?_) | refine State.canonical_mk ?_ rfl rfl

theorem execCopy_canonical {x1} {x2 : State} (h2 : x2.Canonical) :
    OutCanonical (execCopy x1 x2) := by
  rw [execCopy]
  apply canonical_next
  split
  · exact h2
  have ht := State.takePacket_canonical (x2 := 3) h2
  generalize x2.takePacket 3 = o at ht
  split
  · exact h2
  rename_i s b
  replace ht : s.Canonical := ht
  extract_lets +onlyGivenNames src a forget
  have hf : ∀ u : State, u.Canonical → (forget u).Canonical := fun u h => State.canonical_mk h rfl rfl
  clear_value forget src a
  split
  · split
    · exact hf _ ht
    · exact ht
  split
  · extract_lets +onlyGivenNames s2 s3
    have h2 : State.Canonical s2 := State.log_canonical (State.raise_canonical ht)
    clear_value s2
    apply State.routePacket_canonical
    subst s3
    split
    · exact h2
    · exact State.canonical_mk h2 rfl rfl
  · rename_i e
    have h2 := canonical_of_ok e (State.remoteWrite_canonical ht)
    split
    · exact State.routePacket_canonical (State.queueWrite_canonical h2)
    · exact h2

theorem execCopyDone_canonical {x1 : State} (h1 : x1.Canonical) :
    OutCanonical (execCopyDone x1) := by
  unfold execCopyDone
  repeat' first | with_reducible assumption | with_reducible apply canonical_next | (refine fun (_ : State) (_ : State.Canonical _) => ?_) | (extract_lets +onlyGivenNames s; refine canonical_cut (s := s) ?_ (fun _ => ?_); rotate_left; clear_value s; rotate_left; subst s) | (extract_lets +onlyGivenNames s; refine mem_let s ?_; subst s) | (extract_lets +onlyGivenNames s; refine boot_let s ?_; subst s) | (extract_lets +onlyGivenNames s; clear_value s) | split | extract_lets | with_reducible apply State.takePacket_canonical | with_reducible apply State.endRemote_canonical | (refine canonical_of_some_pair (by with_reducible assumption) ?_) | refine State.canonical_mk ?_ rfl rfl

theorem execNack_canonical {x1 : State} (h1 : x1.Canonical) :
    OutCanonical (execNack x1) := by
  unfold execNack
  repeat' first | with_reducible assumption | with_reducible apply canonical_next | (refine fun (_ : State) (_ : State.Canonical _) => ?_) | (extract_lets +onlyGivenNames s; refine canonical_cut (s := s) ?_ (fun _ => ?_); rotate_left; clear_value s; rotate_left; subst s) | (extract_lets +onlyGivenNames s; refine mem_let s ?_; subst s) | (extract_lets +onlyGivenNames s; refine boot_let s ?_; subst s) | (extract_lets +onlyGivenNames s; clear_value s) | split | extract_lets | with_reducible apply State.takePacket_canonical | with_reducible apply State.endRemote_canonical | (refine canonical_of_some_pair (by with_reducible assumption) ?_) | refine State.canonical_mk ?_ rfl rfl

theorem execCopyTimeout_canonical {x1 : State} (h1 : x1.Canonical) :
    OutCanonical (execCopyTimeout x1) := by
  unfold execCopyTimeout
  repeat' first | with_reducible assumption | with_reducible apply canonical_next | (refine fun (_ : State) (_ : State.Canonical _) => ?_) | (extract_lets +onlyGivenNames s; refine canonical_cut (s := s) ?_ (fun _ => ?_); rotate_left; clear_value s; rotate_left; subst s) | (extract_lets +onlyGivenNames s; refine mem_let s ?_; subst s) | (extract_lets +onlyGivenNames s; refine boot_let s ?_; subst s) | (extract_lets +onlyGivenNames s; clear_value s) | split | extract_lets | with_reducible apply State.endRemote_canonical | refine State.canonical_mk ?_ rfl rfl

end Sys2Proof.Machine
end

