-- ==== Sys2Proof/Laws/CanonicalSecurity.lean ====
section
/-! SUPPORT. The canonical form is kept by every operation of Machine/Security.lean. -/

namespace Sys2Proof.Machine

theorem State.advanceRollback_canonical {x1 : State} {x2} (h1 : x1.Canonical) :
    (State.advanceRollback x1 x2).Canonical := by
  unfold State.advanceRollback
  repeat' first | with_reducible assumption | (refine fun (_ : State) (_ : State.Canonical _) => ?_) | (extract_lets +onlyGivenNames s; refine canonical_cut (s := s) ?_ (fun _ => ?_); rotate_left; clear_value s; rotate_left; subst s) | (extract_lets +onlyGivenNames s; refine mem_let s ?_; subst s) | (extract_lets +onlyGivenNames s; refine boot_let s ?_; subst s) | (extract_lets +onlyGivenNames s; clear_value s) | split | extract_lets | with_reducible apply State.put_canonical | with_reducible apply State.raise_canonical | refine State.canonical_mk ?_ rfl rfl

theorem execRollbackAdvance_canonical {x1} {x2 : State} (h2 : x2.Canonical) :
    OutCanonical (execRollbackAdvance x1 x2) := by
  unfold execRollbackAdvance
  repeat' first | with_reducible assumption | with_reducible apply canonical_next | (refine fun (_ : State) (_ : State.Canonical _) => ?_) | (extract_lets +onlyGivenNames s; refine canonical_cut (s := s) ?_ (fun _ => ?_); rotate_left; clear_value s; rotate_left; subst s) | (extract_lets +onlyGivenNames s; refine mem_let s ?_; subst s) | (extract_lets +onlyGivenNames s; refine boot_let s ?_; subst s) | (extract_lets +onlyGivenNames s; clear_value s) | split | extract_lets | with_reducible apply State.advanceRollback_canonical | refine State.canonical_mk ?_ rfl rfl

theorem State.blowRollback_canonical {x1 : State} (h1 : x1.Canonical) :
    (State.blowRollback x1).Canonical := by
  unfold State.blowRollback
  repeat' first | with_reducible assumption | (refine fun (_ : State) (_ : State.Canonical _) => ?_) | (extract_lets +onlyGivenNames s; refine canonical_cut (s := s) ?_ (fun _ => ?_); rotate_left; clear_value s; rotate_left; subst s) | (extract_lets +onlyGivenNames s; refine mem_let s ?_; subst s) | (extract_lets +onlyGivenNames s; refine boot_let s ?_; subst s) | (extract_lets +onlyGivenNames s; clear_value s) | split | extract_lets | with_reducible apply State.put_canonical | refine State.canonical_mk ?_ rfl rfl

theorem execRollbackFuseBlown_canonical {x1 : State} (h1 : x1.Canonical) :
    OutCanonical (execRollbackFuseBlown x1) := by
  unfold execRollbackFuseBlown
  repeat' first | with_reducible assumption | with_reducible apply canonical_next | (refine fun (_ : State) (_ : State.Canonical _) => ?_) | (extract_lets +onlyGivenNames s; refine canonical_cut (s := s) ?_ (fun _ => ?_); rotate_left; clear_value s; rotate_left; subst s) | (extract_lets +onlyGivenNames s; refine mem_let s ?_; subst s) | (extract_lets +onlyGivenNames s; refine boot_let s ?_; subst s) | (extract_lets +onlyGivenNames s; clear_value s) | split | extract_lets | with_reducible apply State.put_canonical | with_reducible apply State.raise_canonical | with_reducible apply State.blowRollback_canonical | refine State.canonical_mk ?_ rfl rfl

theorem State.startQuote_canonical {x1 : State} {x2} (h1 : x1.Canonical) :
    (State.startQuote x1 x2).Canonical := by
  unfold State.startQuote
  repeat' first | with_reducible assumption | (refine fun (_ : State) (_ : State.Canonical _) => ?_) | (extract_lets +onlyGivenNames s; refine canonical_cut (s := s) ?_ (fun _ => ?_); rotate_left; clear_value s; rotate_left; subst s) | (extract_lets +onlyGivenNames s; refine mem_let s ?_; subst s) | (extract_lets +onlyGivenNames s; refine boot_let s ?_; subst s) | (extract_lets +onlyGivenNames s; clear_value s) | split | extract_lets | refine State.canonical_mk ?_ rfl rfl

set_option maxRecDepth 4000 in
theorem execAttestReq_canonical {x1} {x2} {x3} {x4} {x5} {x6 : State} (h6 : x6.Canonical) :
    OutCanonical (execAttestReq x1 x2 x3 x4 x5 x6) := by
  unfold execAttestReq
  apply canonical_next
  apply State.hostFrame_canonical h6
  intro s hs
  extract_lets +onlyGivenNames q refuse
  have hr : ∀ n (u : State), u.Canonical → (refuse n u).Canonical := fun n u h => State.reply_canonical h
  clear_value refuse
  split
  · exact hr _ _ hs
  split
  · exact hr _ _ hs
  split
  · exact State.startQuote_canonical hs
  split
  · exact State.canonical_mk hs rfl rfl
  · exact hr _ _ (State.raise_canonical hs)

theorem execQuoteReady_canonical {x1 : State} (h1 : x1.Canonical) :
    OutCanonical (execQuoteReady x1) := by
  unfold execQuoteReady
  repeat' first | with_reducible assumption | with_reducible apply canonical_next | (refine fun (_ : State) (_ : State.Canonical _) => ?_) | (extract_lets +onlyGivenNames s; refine canonical_cut (s := s) ?_ (fun _ => ?_); rotate_left; clear_value s; rotate_left; subst s) | (extract_lets +onlyGivenNames s; refine mem_let s ?_; subst s) | (extract_lets +onlyGivenNames s; refine boot_let s ?_; subst s) | (extract_lets +onlyGivenNames s; clear_value s) | split | extract_lets | with_reducible apply State.modInc_canonical | with_reducible apply State.sendFrames_canonical | with_reducible apply State.startQuote_canonical | refine State.canonical_mk ?_ rfl rfl

theorem execChallengeRead_canonical {x1 : State} (h1 : x1.Canonical) :
    OutCanonical (execChallengeRead x1) := by
  unfold execChallengeRead
  repeat' first | with_reducible assumption | with_reducible apply canonical_next | (refine fun (_ : State) (_ : State.Canonical _) => ?_) | (extract_lets +onlyGivenNames s; refine canonical_cut (s := s) ?_ (fun _ => ?_); rotate_left; clear_value s; rotate_left; subst s) | (extract_lets +onlyGivenNames s; refine mem_let s ?_; subst s) | (extract_lets +onlyGivenNames s; refine boot_let s ?_; subst s) | (extract_lets +onlyGivenNames s; clear_value s) | split | extract_lets | with_reducible apply State.emit_canonical | with_reducible apply State.fresh_canonical | refine State.canonical_mk ?_ rfl rfl

theorem execResponseWrite_canonical {x1} {x2 : State} (h2 : x2.Canonical) :
    OutCanonical (execResponseWrite x1 x2) := by
  unfold execResponseWrite
  repeat' first | with_reducible assumption | with_reducible apply canonical_next | (refine fun (_ : State) (_ : State.Canonical _) => ?_) | (extract_lets +onlyGivenNames s; refine canonical_cut (s := s) ?_ (fun _ => ?_); rotate_left; clear_value s; rotate_left; subst s) | (extract_lets +onlyGivenNames s; refine mem_let s ?_; subst s) | (extract_lets +onlyGivenNames s; refine boot_let s ?_; subst s) | (extract_lets +onlyGivenNames s; clear_value s) | split | extract_lets | refine State.canonical_mk ?_ rfl rfl

theorem execDebugVerifyDone_canonical {x1 : State} (h1 : x1.Canonical) :
    OutCanonical (execDebugVerifyDone x1) := by
  unfold execDebugVerifyDone
  apply canonical_next
  split
  · exact h1
  rename_i r c t e
  extract_lets +onlyGivenNames s0 s
  have hs : State.Canonical s := State.canonical_mk h1 rfl rfl
  extract_lets +onlyGivenNames key scope good
  clear_value good
  split
  · exact State.canonical_mk (State.raise_canonical (State.put_canonical hs)) rfl rfl
  · extract_lets +onlyGivenNames n s2 s3
    have h2 : State.Canonical s2 := State.satInc_canonical (State.raise_canonical hs)
    have h3 : State.Canonical s3 := by
      simp only [s3]
      split
      · exact State.raise_canonical h2
      · exact h2
    exact State.canonical_mk h3 rfl rfl

theorem State.updFuses_canonical {x1 : State} {x2} (h1 : x1.Canonical) :
    (State.updFuses x1 x2).Canonical := by
  unfold State.updFuses
  repeat' first | with_reducible assumption | (refine fun (_ : State) (_ : State.Canonical _) => ?_) | (extract_lets +onlyGivenNames s; refine canonical_cut (s := s) ?_ (fun _ => ?_); rotate_left; clear_value s; rotate_left; subst s) | (extract_lets +onlyGivenNames s; refine mem_let s ?_; subst s) | (extract_lets +onlyGivenNames s; refine boot_let s ?_; subst s) | (extract_lets +onlyGivenNames s; clear_value s) | split | extract_lets | refine State.canonical_mk ?_ rfl rfl

theorem execKeyProvWrite_canonical {x1} {x2} {x3 : State} (h3 : x3.Canonical) :
    OutCanonical (execKeyProvWrite x1 x2 x3) := by
  unfold execKeyProvWrite
  repeat' first | with_reducible assumption | with_reducible apply canonical_next | (refine fun (_ : State) (_ : State.Canonical _) => ?_) | (extract_lets +onlyGivenNames s; refine canonical_cut (s := s) ?_ (fun _ => ?_); rotate_left; clear_value s; rotate_left; subst s) | (extract_lets +onlyGivenNames s; refine mem_let s ?_; subst s) | (extract_lets +onlyGivenNames s; refine boot_let s ?_; subst s) | (extract_lets +onlyGivenNames s; clear_value s) | split | extract_lets | with_reducible apply State.raise_canonical | with_reducible apply State.updFuses_canonical | refine State.canonical_mk ?_ rfl rfl

theorem execCakRevoke_canonical {x1} {x2 : State} (h2 : x2.Canonical) :
    OutCanonical (execCakRevoke x1 x2) := by
  unfold execCakRevoke
  repeat' first | with_reducible assumption | with_reducible apply canonical_next | (refine fun (_ : State) (_ : State.Canonical _) => ?_) | (extract_lets +onlyGivenNames s; refine canonical_cut (s := s) ?_ (fun _ => ?_); rotate_left; clear_value s; rotate_left; subst s) | (extract_lets +onlyGivenNames s; refine mem_let s ?_; subst s) | (extract_lets +onlyGivenNames s; refine boot_let s ?_; subst s) | (extract_lets +onlyGivenNames s; clear_value s) | split | extract_lets | with_reducible apply State.updFuses_canonical | refine State.canonical_mk ?_ rfl rfl

theorem execDecommission_canonical {x1 : State} (h1 : x1.Canonical) :
    OutCanonical (execDecommission x1) := by
  unfold execDecommission
  repeat' first | with_reducible assumption | with_reducible apply canonical_next | (refine fun (_ : State) (_ : State.Canonical _) => ?_) | (extract_lets +onlyGivenNames s; refine canonical_cut (s := s) ?_ (fun _ => ?_); rotate_left; clear_value s; rotate_left; subst s) | (extract_lets +onlyGivenNames s; refine mem_let s ?_; subst s) | (extract_lets +onlyGivenNames s; refine boot_let s ?_; subst s) | (extract_lets +onlyGivenNames s; clear_value s) | split | extract_lets | with_reducible apply State.showFuses_canonical | with_reducible apply State.updFuses_canonical | refine State.canonical_mk ?_ rfl rfl

theorem execDebugDisableBlow_canonical {x1 : State} (h1 : x1.Canonical) :
    OutCanonical (execDebugDisableBlow x1) := by
  unfold execDebugDisableBlow
  repeat' first | with_reducible assumption | with_reducible apply canonical_next | (refine fun (_ : State) (_ : State.Canonical _) => ?_) | (extract_lets +onlyGivenNames s; refine canonical_cut (s := s) ?_ (fun _ => ?_); rotate_left; clear_value s; rotate_left; subst s) | (extract_lets +onlyGivenNames s; refine mem_let s ?_; subst s) | (extract_lets +onlyGivenNames s; refine boot_let s ?_; subst s) | (extract_lets +onlyGivenNames s; clear_value s) | split | extract_lets | with_reducible apply State.showFuses_canonical | with_reducible apply State.updFuses_canonical | refine State.canonical_mk ?_ rfl rfl

theorem State.zeroise_canonical {x1 : State} (h1 : x1.Canonical) :
    (State.zeroise x1).Canonical := by
  unfold State.zeroise
  repeat' first | with_reducible assumption | (refine fun (_ : State) (_ : State.Canonical _) => ?_) | (extract_lets +onlyGivenNames s; refine canonical_cut (s := s) ?_ (fun _ => ?_); rotate_left; clear_value s; rotate_left; subst s) | (extract_lets +onlyGivenNames s; refine mem_let s ?_; subst s) | (extract_lets +onlyGivenNames s; refine boot_let s ?_; subst s) | (extract_lets +onlyGivenNames s; clear_value s) | split | extract_lets | with_reducible apply State.put_canonical | refine State.canonical_mk ?_ rfl rfl

theorem execTamperTrip_canonical {x1} {x2} {x3 : State} (h3 : x3.Canonical) :
    OutCanonical (execTamperTrip x1 x2 x3) := by
  unfold execTamperTrip
  repeat' first | with_reducible assumption | with_reducible apply canonical_next | (refine fun (_ : State) (_ : State.Canonical _) => ?_) | (extract_lets +onlyGivenNames s; refine canonical_cut (s := s) ?_ (fun _ => ?_); rotate_left; clear_value s; rotate_left; subst s) | (extract_lets +onlyGivenNames s; refine mem_let s ?_; subst s) | (extract_lets +onlyGivenNames s; refine boot_let s ?_; subst s) | (extract_lets +onlyGivenNames s; clear_value s) | split | extract_lets | with_reducible apply State.put_canonical | with_reducible apply State.satInc_canonical | with_reducible apply State.life_canonical | with_reducible apply State.eventTick_canonical | with_reducible apply State.resetTrigger_canonical | with_reducible apply State.zeroise_canonical | refine State.canonical_mk ?_ rfl rfl

theorem State.updMka_canonical {x1 : State} {x2} {x3} (h1 : x1.Canonical) :
    (State.updMka x1 x2 x3).Canonical := by
  unfold State.updMka
  repeat' first | with_reducible assumption | (refine fun (_ : State) (_ : State.Canonical _) => ?_) | (extract_lets +onlyGivenNames s; refine canonical_cut (s := s) ?_ (fun _ => ?_); rotate_left; clear_value s; rotate_left; subst s) | (extract_lets +onlyGivenNames s; refine mem_let s ?_; subst s) | (extract_lets +onlyGivenNames s; refine boot_let s ?_; subst s) | (extract_lets +onlyGivenNames s; clear_value s) | split | extract_lets | refine State.canonical_mk ?_ rfl rfl

theorem execMkaHello_canonical {x1} {x2 : State} (h2 : x2.Canonical) :
    OutCanonical (execMkaHello x1 x2) := by
  unfold execMkaHello
  repeat' first | with_reducible assumption | with_reducible apply canonical_next | (refine fun (_ : State) (_ : State.Canonical _) => ?_) | (extract_lets +onlyGivenNames s; refine canonical_cut (s := s) ?_ (fun _ => ?_); rotate_left; clear_value s; rotate_left; subst s) | (extract_lets +onlyGivenNames s; refine mem_let s ?_; subst s) | (extract_lets +onlyGivenNames s; refine boot_let s ?_; subst s) | (extract_lets +onlyGivenNames s; clear_value s) | split | extract_lets | with_reducible apply State.txSend_canonical | with_reducible apply State.updMka_canonical | refine State.canonical_mk ?_ rfl rfl

theorem execMkpdu_canonical {x1} {x2} {x3} {x4 : State} (h4 : x4.Canonical) :
    OutCanonical (execMkpdu x1 x2 x3 x4) := by
  unfold execMkpdu
  repeat' first | with_reducible assumption | with_reducible apply canonical_next | (refine fun (_ : State) (_ : State.Canonical _) => ?_) | (extract_lets +onlyGivenNames s; refine canonical_cut (s := s) ?_ (fun _ => ?_); rotate_left; clear_value s; rotate_left; subst s) | (extract_lets +onlyGivenNames s; refine mem_let s ?_; subst s) | (extract_lets +onlyGivenNames s; refine boot_let s ?_; subst s) | (extract_lets +onlyGivenNames s; clear_value s) | split | extract_lets | with_reducible apply State.raise_canonical | with_reducible apply State.updMka_canonical | refine State.canonical_mk ?_ rfl rfl

theorem execMacsecDrop_canonical {x1} {x2 : State} (h2 : x2.Canonical) :
    OutCanonical (execMacsecDrop x1 x2) := by
  unfold execMacsecDrop
  repeat' first | with_reducible assumption | with_reducible apply canonical_next | (refine fun (_ : State) (_ : State.Canonical _) => ?_) | (extract_lets +onlyGivenNames s; refine canonical_cut (s := s) ?_ (fun _ => ?_); rotate_left; clear_value s; rotate_left; subst s) | (extract_lets +onlyGivenNames s; refine mem_let s ?_; subst s) | (extract_lets +onlyGivenNames s; refine boot_let s ?_; subst s) | (extract_lets +onlyGivenNames s; clear_value s) | split | extract_lets | with_reducible apply State.dropUnprotected_canonical | refine State.canonical_mk ?_ rfl rfl

end Sys2Proof.Machine
end

