-- ==== Sys2Proof/Laws/CanonicalPower.lean ====
section
/-! SUPPORT. The canonical form is kept by every operation of Machine/Power.lean. -/

namespace Sys2Proof.Machine

theorem State.sleepPort_canonical {x1 : State} {x2} (h1 : x1.Canonical) :
    (State.sleepPort x1 x2).Canonical := by
  unfold State.sleepPort
  repeat' first | with_reducible assumption | (refine fun (_ : State) (_ : State.Canonical _) => ?_) | (extract_lets +onlyGivenNames s; refine canonical_cut (s := s) ?_ (fun _ => ?_); rotate_left; clear_value s; rotate_left; subst s) | (extract_lets +onlyGivenNames s; refine mem_let s ?_; subst s) | (extract_lets +onlyGivenNames s; refine boot_let s ?_; subst s) | (extract_lets +onlyGivenNames s; clear_value s) | split | extract_lets | with_reducible apply State.raise_canonical | refine State.canonical_mk ?_ rfl rfl

theorem execTc10SleepRequest_canonical {x1} {x2 : State} (h2 : x2.Canonical) :
    OutCanonical (execTc10SleepRequest x1 x2) := by
  unfold execTc10SleepRequest
  repeat' first | with_reducible assumption | with_reducible apply canonical_next | (refine fun (_ : State) (_ : State.Canonical _) => ?_) | (extract_lets +onlyGivenNames s; refine canonical_cut (s := s) ?_ (fun _ => ?_); rotate_left; clear_value s; rotate_left; subst s) | (extract_lets +onlyGivenNames s; refine mem_let s ?_; subst s) | (extract_lets +onlyGivenNames s; refine boot_let s ?_; subst s) | (extract_lets +onlyGivenNames s; clear_value s) | split | extract_lets | with_reducible apply State.sleepPort_canonical | refine State.canonical_mk ?_ rfl rfl

theorem execTc10SleepAck_canonical {x1} {x2 : State} (h2 : x2.Canonical) :
    OutCanonical (execTc10SleepAck x1 x2) := by
  unfold execTc10SleepAck
  repeat' first | with_reducible assumption | with_reducible apply canonical_next | (refine fun (_ : State) (_ : State.Canonical _) => ?_) | (extract_lets +onlyGivenNames s; refine canonical_cut (s := s) ?_ (fun _ => ?_); rotate_left; clear_value s; rotate_left; subst s) | (extract_lets +onlyGivenNames s; refine mem_let s ?_; subst s) | (extract_lets +onlyGivenNames s; refine boot_let s ?_; subst s) | (extract_lets +onlyGivenNames s; clear_value s) | split | extract_lets | with_reducible apply State.sleepPort_canonical | refine State.canonical_mk ?_ rfl rfl

theorem execTc10SleepTimeout_canonical {x1} {x2 : State} (h2 : x2.Canonical) :
    OutCanonical (execTc10SleepTimeout x1 x2) := by
  unfold execTc10SleepTimeout
  repeat' first | with_reducible assumption | with_reducible apply canonical_next | (refine fun (_ : State) (_ : State.Canonical _) => ?_) | (extract_lets +onlyGivenNames s; refine canonical_cut (s := s) ?_ (fun _ => ?_); rotate_left; clear_value s; rotate_left; subst s) | (extract_lets +onlyGivenNames s; refine mem_let s ?_; subst s) | (extract_lets +onlyGivenNames s; refine boot_let s ?_; subst s) | (extract_lets +onlyGivenNames s; clear_value s) | split | extract_lets | with_reducible apply State.sleepPort_canonical | refine State.canonical_mk ?_ rfl rfl

set_option maxRecDepth 4000 in
theorem State.copyRange_canonical {x1 : State} {x2} {x3} {x4} (h1 : x1.Canonical) :
    (State.copyRange x1 x2 x3 x4).Canonical := by
  unfold State.copyRange
  extract_lets +onlyGivenNames inSrc cells bad s m
  have hs : State.Canonical s := State.zeroFill_canonical h1
  have hm : Memory.wf m = true := foldl_keeps (P := fun l => Memory.wf l = true) (fun _ _ h => sparseWf_sparseSet h) hs.mem
  clear_value m s bad
  exact foldl_canonical (fun _ _ h => State.poisonWord_canonical h) ⟨hs.regs, hs.queues, hm, hs.flash⟩

theorem State.saveErrors_canonical {x1 : State} {x2} (h1 : x1.Canonical) :
    (State.saveErrors x1 x2).Canonical := by
  unfold State.saveErrors
  repeat' first | with_reducible assumption | (refine fun (_ : State) (_ : State.Canonical _) => ?_) | (extract_lets +onlyGivenNames s; refine canonical_cut (s := s) ?_ (fun _ => ?_); rotate_left; clear_value s; rotate_left; subst s) | (extract_lets +onlyGivenNames s; refine mem_let s ?_; subst s) | (extract_lets +onlyGivenNames s; refine boot_let s ?_; subst s) | (extract_lets +onlyGivenNames s; clear_value s) | split | extract_lets | with_reducible apply State.raise_canonical | with_reducible apply State.eccUncorr_canonical | (with_reducible apply foldl_canonical; intro _ _ _) | refine State.canonical_mk ?_ rfl rfl

theorem State.saveState_canonical {x1 : State} (h1 : x1.Canonical) :
    (State.saveState x1).Canonical := by
  unfold State.saveState
  repeat' first | with_reducible assumption | (refine fun (_ : State) (_ : State.Canonical _) => ?_) | (extract_lets +onlyGivenNames s; refine canonical_cut (s := s) ?_ (fun _ => ?_); rotate_left; clear_value s; rotate_left; subst s) | (extract_lets +onlyGivenNames s; refine mem_let s ?_; subst s) | (extract_lets +onlyGivenNames s; refine boot_let s ?_; subst s) | (extract_lets +onlyGivenNames s; clear_value s) | split | extract_lets | with_reducible apply State.raise_canonical | with_reducible apply State.writeBytes_canonical | with_reducible apply State.copyRange_canonical | (with_reducible apply foldl_canonical; intro _ _ _) | refine State.canonical_mk ?_ rfl rfl

theorem State.startWake_canonical {x1 : State} {x2} (h1 : x1.Canonical) :
    (State.startWake x1 x2).Canonical := by
  unfold State.startWake
  repeat' first | with_reducible assumption | (refine fun (_ : State) (_ : State.Canonical _) => ?_) | (extract_lets +onlyGivenNames s; refine canonical_cut (s := s) ?_ (fun _ => ?_); rotate_left; clear_value s; rotate_left; subst s) | (extract_lets +onlyGivenNames s; refine mem_let s ?_; subst s) | (extract_lets +onlyGivenNames s; refine boot_let s ?_; subst s) | (extract_lets +onlyGivenNames s; clear_value s) | split | extract_lets | with_reducible apply State.put_canonical | with_reducible apply State.raise_canonical | with_reducible apply State.emit_canonical | with_reducible apply State.startPlls_canonical | (with_reducible apply foldl_canonical; intro _ _ _) | refine State.canonical_mk ?_ rfl rfl

theorem State.wakeEvent_canonical {x1 : State} {x2} (h1 : x1.Canonical) :
    (State.wakeEvent x1 x2).Canonical := by
  unfold State.wakeEvent
  repeat' first | with_reducible assumption | (refine fun (_ : State) (_ : State.Canonical _) => ?_) | (extract_lets +onlyGivenNames s; refine canonical_cut (s := s) ?_ (fun _ => ?_); rotate_left; clear_value s; rotate_left; subst s) | (extract_lets +onlyGivenNames s; refine mem_let s ?_; subst s) | (extract_lets +onlyGivenNames s; refine boot_let s ?_; subst s) | (extract_lets +onlyGivenNames s; clear_value s) | split | extract_lets | with_reducible apply State.startWake_canonical | refine State.canonical_mk ?_ rfl rfl

theorem execTc10Wake_canonical {x1} {x2 : State} (h2 : x2.Canonical) :
    OutCanonical (execTc10Wake x1 x2) := by
  unfold execTc10Wake
  repeat' first | with_reducible assumption | with_reducible apply canonical_next | (refine fun (_ : State) (_ : State.Canonical _) => ?_) | (extract_lets +onlyGivenNames s; refine canonical_cut (s := s) ?_ (fun _ => ?_); rotate_left; clear_value s; rotate_left; subst s) | (extract_lets +onlyGivenNames s; refine mem_let s ?_; subst s) | (extract_lets +onlyGivenNames s; refine boot_let s ?_; subst s) | (extract_lets +onlyGivenNames s; clear_value s) | split | extract_lets | with_reducible apply State.wakeEvent_canonical | refine State.canonical_mk ?_ rfl rfl

theorem execLinkEnergy_canonical {x1} {x2 : State} (h2 : x2.Canonical) :
    OutCanonical (execLinkEnergy x1 x2) := by
  unfold execLinkEnergy
  repeat' first | with_reducible assumption | with_reducible apply canonical_next | (refine fun (_ : State) (_ : State.Canonical _) => ?_) | (extract_lets +onlyGivenNames s; refine canonical_cut (s := s) ?_ (fun _ => ?_); rotate_left; clear_value s; rotate_left; subst s) | (extract_lets +onlyGivenNames s; refine mem_let s ?_; subst s) | (extract_lets +onlyGivenNames s; refine boot_let s ?_; subst s) | (extract_lets +onlyGivenNames s; clear_value s) | split | extract_lets | with_reducible apply State.wakeEvent_canonical | refine State.canonical_mk ?_ rfl rfl

theorem execWakeN_canonical {x1 : State} (h1 : x1.Canonical) :
    OutCanonical (execWakeN x1) := by
  unfold execWakeN
  repeat' first | with_reducible assumption | with_reducible apply canonical_next | (refine fun (_ : State) (_ : State.Canonical _) => ?_) | (extract_lets +onlyGivenNames s; refine canonical_cut (s := s) ?_ (fun _ => ?_); rotate_left; clear_value s; rotate_left; subst s) | (extract_lets +onlyGivenNames s; refine mem_let s ?_; subst s) | (extract_lets +onlyGivenNames s; refine boot_let s ?_; subst s) | (extract_lets +onlyGivenNames s; clear_value s) | split | extract_lets | with_reducible apply State.wakeEvent_canonical | refine State.canonical_mk ?_ rfl rfl

theorem execWakeAlarm_canonical {x1 : State} (h1 : x1.Canonical) :
    OutCanonical (execWakeAlarm x1) := by
  unfold execWakeAlarm
  repeat' first | with_reducible assumption | with_reducible apply canonical_next | (refine fun (_ : State) (_ : State.Canonical _) => ?_) | (extract_lets +onlyGivenNames s; refine canonical_cut (s := s) ?_ (fun _ => ?_); rotate_left; clear_value s; rotate_left; subst s) | (extract_lets +onlyGivenNames s; refine mem_let s ?_; subst s) | (extract_lets +onlyGivenNames s; refine boot_let s ?_; subst s) | (extract_lets +onlyGivenNames s; clear_value s) | split | extract_lets | with_reducible apply State.wakeEvent_canonical | refine State.canonical_mk ?_ rfl rfl

theorem State.restInDoze_canonical {x1 : State} (h1 : x1.Canonical) :
    (State.restInDoze x1).Canonical := by
  unfold State.restInDoze
  repeat' first | with_reducible assumption | (refine fun (_ : State) (_ : State.Canonical _) => ?_) | (extract_lets +onlyGivenNames s; refine canonical_cut (s := s) ?_ (fun _ => ?_); rotate_left; clear_value s; rotate_left; subst s) | (extract_lets +onlyGivenNames s; refine mem_let s ?_; subst s) | (extract_lets +onlyGivenNames s; refine boot_let s ?_; subst s) | (extract_lets +onlyGivenNames s; clear_value s) | split | extract_lets | with_reducible apply State.put_canonical | with_reducible apply State.raise_canonical | with_reducible apply State.flag_canonical | with_reducible apply State.satInc_canonical | with_reducible apply State.stopPlls_canonical | with_reducible apply State.selectSources_canonical | refine State.canonical_mk ?_ rfl rfl

theorem execDozeEntryDone_canonical {x1} {x2 : State} (h2 : x2.Canonical) :
    OutCanonical (execDozeEntryDone x1 x2) := by
  unfold execDozeEntryDone
  repeat' first | with_reducible assumption | with_reducible apply canonical_next | (refine fun (_ : State) (_ : State.Canonical _) => ?_) | (extract_lets +onlyGivenNames s; refine canonical_cut (s := s) ?_ (fun _ => ?_); rotate_left; clear_value s; rotate_left; subst s) | (extract_lets +onlyGivenNames s; refine mem_let s ?_; subst s) | (extract_lets +onlyGivenNames s; refine boot_let s ?_; subst s) | (extract_lets +onlyGivenNames s; clear_value s) | split | extract_lets | with_reducible apply State.saveErrors_canonical | with_reducible apply State.saveState_canonical | with_reducible apply State.startWake_canonical | with_reducible apply State.restInDoze_canonical | refine State.canonical_mk ?_ rfl rfl

theorem State.restoreState_canonical {x1 : State} (h1 : x1.Canonical) :
    (State.restoreState x1).Canonical := by
  unfold State.restoreState
  repeat' first | with_reducible assumption | (refine fun (_ : State) (_ : State.Canonical _) => ?_) | (extract_lets +onlyGivenNames s; refine canonical_cut (s := s) ?_ (fun _ => ?_); rotate_left; clear_value s; rotate_left; subst s) | (extract_lets +onlyGivenNames s; refine mem_let s ?_; subst s) | (extract_lets +onlyGivenNames s; refine boot_let s ?_; subst s) | (extract_lets +onlyGivenNames s; clear_value s) | split | extract_lets | with_reducible apply State.zeroFill_canonical | with_reducible apply State.reloadHistory_canonical | with_reducible apply State.copyRange_canonical | (with_reducible apply foldl_canonical; intro _ _ _) | refine State.canonical_mk ?_ rfl rfl

theorem State.resumeTime_canonical {x1 : State} (h1 : x1.Canonical) :
    (State.resumeTime x1).Canonical := by
  unfold State.resumeTime
  repeat' first | with_reducible assumption | (refine fun (_ : State) (_ : State.Canonical _) => ?_) | (extract_lets +onlyGivenNames s; refine canonical_cut (s := s) ?_ (fun _ => ?_); rotate_left; clear_value s; rotate_left; subst s) | (extract_lets +onlyGivenNames s; refine mem_let s ?_; subst s) | (extract_lets +onlyGivenNames s; refine boot_let s ?_; subst s) | (extract_lets +onlyGivenNames s; clear_value s) | split | extract_lets | with_reducible apply State.put_canonical | with_reducible apply State.updDom_canonical | with_reducible apply State.enterHoldover_canonical | (with_reducible apply foldl_canonical; intro _ _ _) | refine State.canonical_mk ?_ rfl rfl

theorem State.restartTimers_canonical {x1 : State} (h1 : x1.Canonical) :
    (State.restartTimers x1).Canonical := by
  unfold State.restartTimers
  repeat' first | with_reducible assumption | (refine fun (_ : State) (_ : State.Canonical _) => ?_) | (extract_lets +onlyGivenNames s; refine canonical_cut (s := s) ?_ (fun _ => ?_); rotate_left; clear_value s; rotate_left; subst s) | (extract_lets +onlyGivenNames s; refine mem_let s ?_; subst s) | (extract_lets +onlyGivenNames s; refine boot_let s ?_; subst s) | (extract_lets +onlyGivenNames s; clear_value s) | split | extract_lets | refine State.canonical_mk ?_ rfl rfl

theorem execWakeDone_canonical {x1} {x2 : State} (h2 : x2.Canonical) :
    OutCanonical (execWakeDone x1 x2) := by
  unfold execWakeDone
  repeat' first | with_reducible assumption | with_reducible apply canonical_next | (refine fun (_ : State) (_ : State.Canonical _) => ?_) | (extract_lets +onlyGivenNames s; refine canonical_cut (s := s) ?_ (fun _ => ?_); rotate_left; clear_value s; rotate_left; subst s) | (extract_lets +onlyGivenNames s; refine mem_let s ?_; subst s) | (extract_lets +onlyGivenNames s; refine boot_let s ?_; subst s) | (extract_lets +onlyGivenNames s; clear_value s) | split | extract_lets | with_reducible apply State.put_canonical | with_reducible apply State.measureTuned_canonical | with_reducible apply State.returnActive_canonical | with_reducible apply State.saveErrors_canonical | with_reducible apply State.restoreState_canonical | with_reducible apply State.resumeTime_canonical | with_reducible apply State.restartTimers_canonical | refine State.canonical_mk ?_ rfl rfl

theorem State.standbyTicks_canonical {x1 : State} {x2} {x3} (h1 : x1.Canonical) :
    (State.standbyTicks x1 x2 x3).Canonical := by
  revert h1
  fun_induction State.standbyTicks x1 x2 x3 <;> intro h1
  all_goals repeat' first | with_reducible assumption | (refine (by with_reducible assumption : State.Canonical _ → State.Canonical _) ?_) | (refine fun (_ : State) (_ : State.Canonical _) => ?_) | (extract_lets +onlyGivenNames s; refine canonical_cut (s := s) ?_ (fun _ => ?_); rotate_left; clear_value s; rotate_left; subst s) | (extract_lets +onlyGivenNames s; refine mem_let s ?_; subst s) | (extract_lets +onlyGivenNames s; refine boot_let s ?_; subst s) | (extract_lets +onlyGivenNames s; clear_value s) | split | extract_lets | with_reducible apply State.lifeTick_canonical | with_reducible apply State.ringAppend_canonical | refine State.canonical_mk ?_ rfl rfl

theorem execStandbyWake_canonical {x1 : State} (h1 : x1.Canonical) :
    OutCanonical (execStandbyWake x1) := by
  unfold execStandbyWake
  repeat' first | with_reducible assumption | with_reducible apply canonical_next | (refine fun (_ : State) (_ : State.Canonical _) => ?_) | (extract_lets +onlyGivenNames s; refine canonical_cut (s := s) ?_ (fun _ => ?_); rotate_left; clear_value s; rotate_left; subst s) | (extract_lets +onlyGivenNames s; refine mem_let s ?_; subst s) | (extract_lets +onlyGivenNames s; refine boot_let s ?_; subst s) | (extract_lets +onlyGivenNames s; clear_value s) | split | extract_lets | with_reducible apply State.resetTrigger_canonical | with_reducible apply State.standbyTicks_canonical | refine State.canonical_mk ?_ rfl rfl

end Sys2Proof.Machine
end

