-- ==== Sys2Proof/Laws/CanonicalObserve.lean ====
section
/-! SUPPORT. The canonical form is kept by every operation of Machine/Observe.lean. -/

namespace Sys2Proof.Machine

theorem execErrorLogDrain_canonical {x1 : State} (h1 : x1.Canonical) :
    OutCanonical (execErrorLogDrain x1) := by
  unfold execErrorLogDrain
  repeat' first | with_reducible assumption | with_reducible apply canonical_next | (refine fun (_ : State) (_ : State.Canonical _) => ?_) | (extract_lets +onlyGivenNames s; refine canonical_cut (s := s) ?_ (fun _ => ?_); rotate_left; clear_value s; rotate_left; subst s) | (extract_lets +onlyGivenNames s; refine mem_let s ?_; subst s) | (extract_lets +onlyGivenNames s; refine boot_let s ?_; subst s) | (extract_lets +onlyGivenNames s; clear_value s) | split | extract_lets | with_reducible apply State.logDrain_canonical | refine State.canonical_mk ?_ rfl rfl

theorem execLifetimeInterval_canonical {x1} {x2} {x3} {x4} {x5 : State} (h5 : x5.Canonical) :
    OutCanonical (execLifetimeInterval x1 x2 x3 x4 x5) := by
  unfold execLifetimeInterval
  repeat' first | with_reducible assumption | with_reducible apply canonical_next | (refine fun (_ : State) (_ : State.Canonical _) => ?_) | (extract_lets +onlyGivenNames s; refine canonical_cut (s := s) ?_ (fun _ => ?_); rotate_left; clear_value s; rotate_left; subst s) | (extract_lets +onlyGivenNames s; refine mem_let s ?_; subst s) | (extract_lets +onlyGivenNames s; refine boot_let s ?_; subst s) | (extract_lets +onlyGivenNames s; clear_value s) | split | extract_lets | with_reducible apply State.put_canonical | with_reducible apply State.lifeTick_canonical | with_reducible apply State.ringAppend_canonical | refine State.canonical_mk ?_ rfl rfl

theorem execSectorEraseDone_canonical {x1 : State} (h1 : x1.Canonical) :
    OutCanonical (execSectorEraseDone x1) := by
  unfold execSectorEraseDone
  repeat' first | with_reducible assumption | with_reducible apply canonical_next | (refine fun (_ : State) (_ : State.Canonical _) => ?_) | (extract_lets +onlyGivenNames s; refine canonical_cut (s := s) ?_ (fun _ => ?_); rotate_left; clear_value s; rotate_left; subst s) | (extract_lets +onlyGivenNames s; refine mem_let s ?_; subst s) | (extract_lets +onlyGivenNames s; refine boot_let s ?_; subst s) | (extract_lets +onlyGivenNames s; clear_value s) | split | extract_lets | with_reducible apply State.put_canonical | with_reducible apply State.flashErase_canonical | refine State.canonical_mk ?_ rfl rfl

end Sys2Proof.Machine
end

