-- ==== Sys2Proof/Laws/CanonicalQueues.lean ====
section
/-! SUPPORT. The canonical form is kept by every operation of Machine/Queues.lean. -/

namespace Sys2Proof.Machine

theorem State.whenQueue_canonical {x1 : State} {x2} {x3} (h1 : x1.Canonical) (h3 : ∀ t : State, t.Canonical → (x3 t).Canonical) :
    (State.whenQueue x1 x2 x3).Canonical := by
  unfold State.whenQueue
  repeat' first | with_reducible assumption | (refine fun (_ : State) (_ : State.Canonical _) => ?_) | (extract_lets +onlyGivenNames s; refine canonical_cut (s := s) ?_ (fun _ => ?_); rotate_left; clear_value s; rotate_left; subst s) | (extract_lets +onlyGivenNames s; refine mem_let s ?_; subst s) | (extract_lets +onlyGivenNames s; refine boot_let s ?_; subst s) | (extract_lets +onlyGivenNames s; clear_value s) | split | extract_lets | apply h3 | refine State.canonical_mk ?_ rfl rfl

theorem State.whenSettled_canonical {x1 : State} {x2} {x3} (h1 : x1.Canonical) (h3 : ∀ t : State, t.Canonical → (x3 t).Canonical) :
    (State.whenSettled x1 x2 x3).Canonical := by
  unfold State.whenSettled
  repeat' first | with_reducible assumption | (refine fun (_ : State) (_ : State.Canonical _) => ?_) | (extract_lets +onlyGivenNames s; refine canonical_cut (s := s) ?_ (fun _ => ?_); rotate_left; clear_value s; rotate_left; subst s) | (extract_lets +onlyGivenNames s; refine mem_let s ?_; subst s) | (extract_lets +onlyGivenNames s; refine boot_let s ?_; subst s) | (extract_lets +onlyGivenNames s; clear_value s) | split | extract_lets | apply h3 | refine State.canonical_mk ?_ rfl rfl

theorem State.whenMark_canonical {x1 : State} {x2} {x3} {x4} (h1 : x1.Canonical) (h4 : ∀ t : State, t.Canonical → (x4 t).Canonical) :
    (State.whenMark x1 x2 x3 x4).Canonical := by
  unfold State.whenMark
  repeat' first | with_reducible assumption | (refine fun (_ : State) (_ : State.Canonical _) => ?_) | (extract_lets +onlyGivenNames s; refine canonical_cut (s := s) ?_ (fun _ => ?_); rotate_left; clear_value s; rotate_left; subst s) | (extract_lets +onlyGivenNames s; refine mem_let s ?_; subst s) | (extract_lets +onlyGivenNames s; refine boot_let s ?_; subst s) | (extract_lets +onlyGivenNames s; clear_value s) | split | extract_lets | with_reducible apply State.whenQueue_canonical | with_reducible apply State.whenSettled_canonical | apply h4 | refine State.canonical_mk ?_ rfl rfl

theorem execQueueWrite_canonical {x1} {x2} {x3 : State} (h3 : x3.Canonical) :
    OutCanonical (execQueueWrite x1 x2 x3) := by
  unfold execQueueWrite
  repeat' first | with_reducible assumption | with_reducible apply canonical_next | (refine fun (_ : State) (_ : State.Canonical _) => ?_) | (extract_lets +onlyGivenNames s; refine canonical_cut (s := s) ?_ (fun _ => ?_); rotate_left; clear_value s; rotate_left; subst s) | (extract_lets +onlyGivenNames s; refine mem_let s ?_; subst s) | (extract_lets +onlyGivenNames s; refine boot_let s ?_; subst s) | (extract_lets +onlyGivenNames s; clear_value s) | split | extract_lets | with_reducible apply State.queueWrite_canonical | with_reducible apply State.whenQueue_canonical | refine State.canonical_mk ?_ rfl rfl

theorem execFlushStrobe_canonical {x1} {x2 : State} (h2 : x2.Canonical) :
    OutCanonical (execFlushStrobe x1 x2) := by
  unfold execFlushStrobe
  repeat' first | with_reducible assumption | with_reducible apply canonical_next | (refine fun (_ : State) (_ : State.Canonical _) => ?_) | (extract_lets +onlyGivenNames s; refine canonical_cut (s := s) ?_ (fun _ => ?_); rotate_left; clear_value s; rotate_left; subst s) | (extract_lets +onlyGivenNames s; refine mem_let s ?_; subst s) | (extract_lets +onlyGivenNames s; refine boot_let s ?_; subst s) | (extract_lets +onlyGivenNames s; clear_value s) | split | extract_lets | with_reducible apply State.queueFlush_canonical | with_reducible apply State.whenQueue_canonical | with_reducible apply State.whenSettled_canonical | refine State.canonical_mk ?_ rfl rfl

theorem execPendingMarkerStore_canonical {x1} {x2 : State} (h2 : x2.Canonical) :
    OutCanonical (execPendingMarkerStore x1 x2) := by
  unfold execPendingMarkerStore
  repeat' first | with_reducible assumption | with_reducible apply canonical_next | (refine fun (_ : State) (_ : State.Canonical _) => ?_) | (extract_lets +onlyGivenNames s; refine canonical_cut (s := s) ?_ (fun _ => ?_); rotate_left; clear_value s; rotate_left; subst s) | (extract_lets +onlyGivenNames s; refine mem_let s ?_; subst s) | (extract_lets +onlyGivenNames s; refine boot_let s ?_; subst s) | (extract_lets +onlyGivenNames s; clear_value s) | split | extract_lets | with_reducible apply State.storePending_canonical | with_reducible apply State.whenQueue_canonical | with_reducible apply State.whenSettled_canonical | refine State.canonical_mk ?_ rfl rfl

theorem execMark_canonical {x1} {x2} {x3 : State} (h3 : x3.Canonical) :
    OutCanonical (execMark x1 x2 x3) := by
  unfold execMark
  repeat' first | with_reducible assumption | with_reducible apply canonical_next | (refine fun (_ : State) (_ : State.Canonical _) => ?_) | (extract_lets +onlyGivenNames s; refine canonical_cut (s := s) ?_ (fun _ => ?_); rotate_left; clear_value s; rotate_left; subst s) | (extract_lets +onlyGivenNames s; refine mem_let s ?_; subst s) | (extract_lets +onlyGivenNames s; refine boot_let s ?_; subst s) | (extract_lets +onlyGivenNames s; clear_value s) | split | extract_lets | with_reducible apply State.queueMark_canonical | with_reducible apply State.whenMark_canonical | refine State.canonical_mk ?_ rfl rfl

theorem execRewind_canonical {x1} {x2} {x3 : State} (h3 : x3.Canonical) :
    OutCanonical (execRewind x1 x2 x3) := by
  unfold execRewind
  repeat' first | with_reducible assumption | with_reducible apply canonical_next | (refine fun (_ : State) (_ : State.Canonical _) => ?_) | (extract_lets +onlyGivenNames s; refine canonical_cut (s := s) ?_ (fun _ => ?_); rotate_left; clear_value s; rotate_left; subst s) | (extract_lets +onlyGivenNames s; refine mem_let s ?_; subst s) | (extract_lets +onlyGivenNames s; refine boot_let s ?_; subst s) | (extract_lets +onlyGivenNames s; clear_value s) | split | extract_lets | with_reducible apply State.queueRewind_canonical | with_reducible apply State.whenMark_canonical | refine State.canonical_mk ?_ rfl rfl

theorem execRelease_canonical {x1} {x2} {x3 : State} (h3 : x3.Canonical) :
    OutCanonical (execRelease x1 x2 x3) := by
  unfold execRelease
  repeat' first | with_reducible assumption | with_reducible apply canonical_next | (refine fun (_ : State) (_ : State.Canonical _) => ?_) | (extract_lets +onlyGivenNames s; refine canonical_cut (s := s) ?_ (fun _ => ?_); rotate_left; clear_value s; rotate_left; subst s) | (extract_lets +onlyGivenNames s; refine mem_let s ?_; subst s) | (extract_lets +onlyGivenNames s; refine boot_let s ?_; subst s) | (extract_lets +onlyGivenNames s; clear_value s) | split | extract_lets | with_reducible apply State.queueRelease_canonical | with_reducible apply State.whenMark_canonical | refine State.canonical_mk ?_ rfl rfl

theorem execRead_canonical {x1} {x2} {x3} {x4} {x5 : State} (h5 : x5.Canonical) :
    OutCanonical (execRead x1 x2 x3 x4 x5) := by
  unfold execRead
  repeat' first | with_reducible assumption | with_reducible apply canonical_next | (refine fun (_ : State) (_ : State.Canonical _) => ?_) | (extract_lets +onlyGivenNames s; refine canonical_cut (s := s) ?_ (fun _ => ?_); rotate_left; clear_value s; rotate_left; subst s) | (extract_lets +onlyGivenNames s; refine mem_let s ?_; subst s) | (extract_lets +onlyGivenNames s; refine boot_let s ?_; subst s) | (extract_lets +onlyGivenNames s; clear_value s) | split | extract_lets | with_reducible apply State.queueRead_canonical | with_reducible apply State.whenQueue_canonical | with_reducible apply State.whenSettled_canonical | refine State.canonical_mk ?_ rfl rfl

theorem execReadTimeout_canonical {x1} {x2 : State} (h2 : x2.Canonical) :
    OutCanonical (execReadTimeout x1 x2) := by
  unfold execReadTimeout
  repeat' first | with_reducible assumption | with_reducible apply canonical_next | (refine fun (_ : State) (_ : State.Canonical _) => ?_) | (extract_lets +onlyGivenNames s; refine canonical_cut (s := s) ?_ (fun _ => ?_); rotate_left; clear_value s; rotate_left; subst s) | (extract_lets +onlyGivenNames s; refine mem_let s ?_; subst s) | (extract_lets +onlyGivenNames s; refine boot_let s ?_; subst s) | (extract_lets +onlyGivenNames s; clear_value s) | split | extract_lets | with_reducible apply State.queueTimeout_canonical | with_reducible apply State.whenQueue_canonical | with_reducible apply State.whenSettled_canonical | refine State.canonical_mk ?_ rfl rfl

theorem execPointerMismatch_canonical {x1} {x2 : State} (h2 : x2.Canonical) :
    OutCanonical (execPointerMismatch x1 x2) := by
  unfold execPointerMismatch
  repeat' first | with_reducible assumption | with_reducible apply canonical_next | (refine fun (_ : State) (_ : State.Canonical _) => ?_) | (extract_lets +onlyGivenNames s; refine canonical_cut (s := s) ?_ (fun _ => ?_); rotate_left; clear_value s; rotate_left; subst s) | (extract_lets +onlyGivenNames s; refine mem_let s ?_; subst s) | (extract_lets +onlyGivenNames s; refine boot_let s ?_; subst s) | (extract_lets +onlyGivenNames s; clear_value s) | split | extract_lets | with_reducible apply State.queueReset_canonical | with_reducible apply State.whenQueue_canonical | refine State.canonical_mk ?_ rfl rfl

end Sys2Proof.Machine
end

