-- ==== Sys2Proof/Laws/CanonicalRegister.lean ====
section
/-! SUPPORT. The canonical form is kept by every operation of Machine/Register.lean. -/

namespace Sys2Proof.Machine

theorem State.writeBaCmd_canonical {x1 : State} {x2} {x3} {x4} (h1 : x1.Canonical) :
    (State.writeBaCmd x1 x2 x3 x4).Canonical := by
  unfold State.writeBaCmd
  repeat' first | with_reducible assumption | (refine fun (_ : State) (_ : State.Canonical _) => ?_) | (extract_lets +onlyGivenNames s; refine canonical_cut (s := s) ?_ (fun _ => ?_); rotate_left; clear_value s; rotate_left; subst s) | (extract_lets +onlyGivenNames s; refine mem_let s ?_; subst s) | (extract_lets +onlyGivenNames s; refine boot_let s ?_; subst s) | (extract_lets +onlyGivenNames s; clear_value s) | split | extract_lets | with_reducible apply State.writeReg_canonical | with_reducible apply State.baStart_canonical | with_reducible apply State.baAbort_canonical | refine State.canonical_mk ?_ rfl rfl

theorem State.writeRstCtrl_canonical {x1 : State} {x2} {x3} {x4} (h1 : x1.Canonical) :
    (State.writeRstCtrl x1 x2 x3 x4).Canonical := by
  unfold State.writeRstCtrl
  repeat' first | with_reducible assumption | (refine fun (_ : State) (_ : State.Canonical _) => ?_) | (extract_lets +onlyGivenNames s; refine canonical_cut (s := s) ?_ (fun _ => ?_); rotate_left; clear_value s; rotate_left; subst s) | (extract_lets +onlyGivenNames s; refine mem_let s ?_; subst s) | (extract_lets +onlyGivenNames s; refine boot_let s ?_; subst s) | (extract_lets +onlyGivenNames s; clear_value s) | split | extract_lets | with_reducible apply State.resetTrigger_canonical | refine State.canonical_mk ?_ rfl rfl

theorem State.writeRollback_canonical {x1 : State} {x2} {x3} {x4} (h1 : x1.Canonical) :
    (State.writeRollback x1 x2 x3 x4).Canonical := by
  unfold State.writeRollback
  repeat' first | with_reducible assumption | (refine fun (_ : State) (_ : State.Canonical _) => ?_) | (extract_lets +onlyGivenNames s; refine canonical_cut (s := s) ?_ (fun _ => ?_); rotate_left; clear_value s; rotate_left; subst s) | (extract_lets +onlyGivenNames s; refine mem_let s ?_; subst s) | (extract_lets +onlyGivenNames s; refine boot_let s ?_; subst s) | (extract_lets +onlyGivenNames s; clear_value s) | split | extract_lets | with_reducible apply State.writeReg_canonical | with_reducible apply State.advanceRollback_canonical | refine State.canonical_mk ?_ rfl rfl

theorem State.writeWindow_canonical {x1 : State} {x2} {x3} {x4} (h1 : x1.Canonical) :
    (State.writeWindow x1 x2 x3 x4).Canonical := by
  unfold State.writeWindow
  repeat' first | with_reducible assumption | (refine fun (_ : State) (_ : State.Canonical _) => ?_) | (extract_lets +onlyGivenNames s; refine canonical_cut (s := s) ?_ (fun _ => ?_); rotate_left; clear_value s; rotate_left; subst s) | (extract_lets +onlyGivenNames s; refine mem_let s ?_; subst s) | (extract_lets +onlyGivenNames s; refine boot_let s ?_; subst s) | (extract_lets +onlyGivenNames s; clear_value s) | split | extract_lets | with_reducible apply State.writeReg_canonical | with_reducible apply State.writeClkSrc_canonical | with_reducible apply State.writeBaCmd_canonical | with_reducible apply State.writeRstCtrl_canonical | with_reducible apply State.writeRollback_canonical | refine State.canonical_mk ?_ rfl rfl

theorem execRegisterWrite_canonical {x1} {x2} {x3} {x4 : State} (h4 : x4.Canonical) :
    OutCanonical (execRegisterWrite x1 x2 x3 x4) := by
  unfold execRegisterWrite
  repeat' first | with_reducible assumption | with_reducible apply canonical_next | (refine fun (_ : State) (_ : State.Canonical _) => ?_) | (extract_lets +onlyGivenNames s; refine canonical_cut (s := s) ?_ (fun _ => ?_); rotate_left; clear_value s; rotate_left; subst s) | (extract_lets +onlyGivenNames s; refine mem_let s ?_; subst s) | (extract_lets +onlyGivenNames s; refine boot_let s ?_; subst s) | (extract_lets +onlyGivenNames s; clear_value s) | split | extract_lets | with_reducible apply State.writeWindow_canonical | refine State.canonical_mk ?_ rfl rfl

theorem execBaStart_canonical {x1} {x2 : State} (h2 : x2.Canonical) :
    OutCanonical (execBaStart x1 x2) := by
  unfold execBaStart
  repeat' first | with_reducible assumption | with_reducible apply canonical_next | (refine fun (_ : State) (_ : State.Canonical _) => ?_) | (extract_lets +onlyGivenNames s; refine canonical_cut (s := s) ?_ (fun _ => ?_); rotate_left; clear_value s; rotate_left; subst s) | (extract_lets +onlyGivenNames s; refine mem_let s ?_; subst s) | (extract_lets +onlyGivenNames s; refine boot_let s ?_; subst s) | (extract_lets +onlyGivenNames s; clear_value s) | split | extract_lets | with_reducible apply State.writeWindow_canonical | refine State.canonical_mk ?_ rfl rfl

theorem execBaAbort_canonical {x1} {x2 : State} (h2 : x2.Canonical) :
    OutCanonical (execBaAbort x1 x2) := by
  unfold execBaAbort
  repeat' first | with_reducible assumption | with_reducible apply canonical_next | (refine fun (_ : State) (_ : State.Canonical _) => ?_) | (extract_lets +onlyGivenNames s; refine canonical_cut (s := s) ?_ (fun _ => ?_); rotate_left; clear_value s; rotate_left; subst s) | (extract_lets +onlyGivenNames s; refine mem_let s ?_; subst s) | (extract_lets +onlyGivenNames s; refine boot_let s ?_; subst s) | (extract_lets +onlyGivenNames s; clear_value s) | split | extract_lets | with_reducible apply State.writeWindow_canonical | refine State.canonical_mk ?_ rfl rfl

theorem execRequiredUnitLoss_canonical {x1} {x2 : State} (h2 : x2.Canonical) :
    OutCanonical (execRequiredUnitLoss x1 x2) := by
  unfold execRequiredUnitLoss
  repeat' first | with_reducible assumption | with_reducible apply canonical_next | (refine fun (_ : State) (_ : State.Canonical _) => ?_) | (extract_lets +onlyGivenNames s; refine canonical_cut (s := s) ?_ (fun _ => ?_); rotate_left; clear_value s; rotate_left; subst s) | (extract_lets +onlyGivenNames s; refine mem_let s ?_; subst s) | (extract_lets +onlyGivenNames s; refine boot_let s ?_; subst s) | (extract_lets +onlyGivenNames s; clear_value s) | split | extract_lets | with_reducible apply State.loseUnit_canonical | refine State.canonical_mk ?_ rfl rfl

theorem State.coreLoad_canonical {x1 : State} {x2} {x3} (h1 : x1.Canonical) :
    (State.coreLoad x1 x2 x3).1.Canonical := by
  rw [State.coreLoad]
  repeat' first | with_reducible assumption | (refine fun (_ : State) (_ : State.Canonical _) => ?_) | (extract_lets +onlyGivenNames s; refine canonical_cut (s := s) ?_ (fun _ => ?_); rotate_left; clear_value s; rotate_left; subst s) | (extract_lets +onlyGivenNames s; refine mem_let s ?_; subst s) | (extract_lets +onlyGivenNames s; refine boot_let s ?_; subst s) | (extract_lets +onlyGivenNames s; clear_value s) | split | extract_lets | refine State.canonical_mk ?_ rfl rfl

theorem State.accessFault_canonical {x1 : State} {x2} {x3} {x4} (h1 : x1.Canonical) :
    (State.accessFault x1 x2 x3 x4).Canonical := by
  unfold State.accessFault
  repeat' first | with_reducible assumption | (refine fun (_ : State) (_ : State.Canonical _) => ?_) | (extract_lets +onlyGivenNames s; refine canonical_cut (s := s) ?_ (fun _ => ?_); rotate_left; clear_value s; rotate_left; subst s) | (extract_lets +onlyGivenNames s; refine mem_let s ?_; subst s) | (extract_lets +onlyGivenNames s; refine boot_let s ?_; subst s) | (extract_lets +onlyGivenNames s; clear_value s) | split | extract_lets | with_reducible apply State.emit_canonical | with_reducible apply State.count_canonical | refine State.canonical_mk ?_ rfl rfl

theorem State.countAccess_canonical {x1 : State} {x2} {x3} {x4} {x5} (h1 : x1.Canonical) :
    (State.countAccess x1 x2 x3 x4 x5).Canonical := by
  unfold State.countAccess
  repeat' first | with_reducible assumption | (refine fun (_ : State) (_ : State.Canonical _) => ?_) | (extract_lets +onlyGivenNames s; refine canonical_cut (s := s) ?_ (fun _ => ?_); rotate_left; clear_value s; rotate_left; subst s) | (extract_lets +onlyGivenNames s; refine mem_let s ?_; subst s) | (extract_lets +onlyGivenNames s; refine boot_let s ?_; subst s) | (extract_lets +onlyGivenNames s; clear_value s) | split | extract_lets | with_reducible apply State.count_canonical | refine State.canonical_mk ?_ rfl rfl

theorem execPralineAccess_canonical {x1} {x2} {x3} {x4} {x5} {x6} {x7} {x8 : State} (h8 : x8.Canonical) :
    OutCanonical (execPralineAccess x1 x2 x3 x4 x5 x6 x7 x8) := by
  unfold execPralineAccess
  repeat' first | with_reducible assumption | with_reducible apply canonical_next | (refine fun (_ : State) (_ : State.Canonical _) => ?_) | (extract_lets +onlyGivenNames s; refine canonical_cut (s := s) ?_ (fun _ => ?_); rotate_left; clear_value s; rotate_left; subst s) | (extract_lets +onlyGivenNames s; refine canonical_cut (s := s.1) ?_ (fun _ => ?_); rotate_left; clear_value s; rotate_left; subst s) | (extract_lets +onlyGivenNames s; refine mem_let s ?_; subst s) | (extract_lets +onlyGivenNames s; refine boot_let s ?_; subst s) | (extract_lets +onlyGivenNames s; clear_value s) | split | extract_lets | with_reducible apply State.emit_canonical | with_reducible apply State.writeLe_canonical | with_reducible apply State.count_canonical | with_reducible apply State.eccCorrected_canonical | with_reducible apply State.eccUncorr_canonical | with_reducible apply State.hole_canonical | with_reducible apply State.writeWindow_canonical | with_reducible apply State.coreLoad_canonical | with_reducible apply State.accessFault_canonical | with_reducible apply State.countAccess_canonical | (with_reducible apply foldl_canonical; intro _ _ _) | (refine canonical_of_pair (by with_reducible assumption) ?_) | refine State.canonical_mk ?_ rfl rfl

end Sys2Proof.Machine
end

