-- ==== Sys2Proof/Laws/CanonicalDispatch.lean ====
section
/-! SUPPORT. The canonical form is kept by every operation of Machine/Dispatch.lean. -/

namespace Sys2Proof.Machine

theorem exec_canonical {x1} {x2 : State} (h2 : x2.Canonical) :
    OutCanonical (exec x1 x2) := by
  unfold exec
  repeat' first | with_reducible assumption | with_reducible apply canonical_next | (refine fun (_ : State) (_ : State.Canonical _) => ?_) | (extract_lets +onlyGivenNames s; refine canonical_cut (s := s) ?_ (fun _ => ?_); rotate_left; clear_value s; rotate_left; subst s) | (extract_lets +onlyGivenNames s; refine mem_let s ?_; subst s) | (extract_lets +onlyGivenNames s; refine boot_let s ?_; subst s) | (extract_lets +onlyGivenNames s; clear_value s) | split | extract_lets | with_reducible apply execEccWriteBack_canonical | with_reducible apply execScrub_canonical | with_reducible apply execDdrScrub_canonical | with_reducible apply execAlertN_canonical | with_reducible apply execTileOperationDone_canonical | with_reducible apply execChainStoreDone_canonical | with_reducible apply execDropRange_canonical | with_reducible apply execShare_canonical | with_reducible apply execRenumber_canonical | with_reducible apply execClear_canonical | with_reducible apply execUndefine_canonical | with_reducible apply execCommit_canonical | with_reducible apply execGenerationChange_canonical | with_reducible apply execShadowCopyDone_canonical | with_reducible apply execWalk_canonical | with_reducible apply execPageCopyEnd_canonical | with_reducible apply execAppend_canonical | with_reducible apply execPrefetch_canonical | with_reducible apply execScoreDone_canonical | with_reducible apply execNormDone_canonical | with_reducible apply execValueDone_canonical | with_reducible apply execGradientDone_canonical | with_reducible apply execPointItemRead_canonical | with_reducible apply execIntakeEnd_canonical | with_reducible apply execPartCompensate_canonical | with_reducible apply execPoseWaitTimeout_canonical | with_reducible apply execTableClose_canonical | with_reducible apply execTableFree_canonical | with_reducible apply execSparseConvStart_canonical | with_reducible apply execDilate_canonical | with_reducible apply execStagingBlock_canonical | with_reducible apply execOutputBlock_canonical | with_reducible apply execWarpStart_canonical | with_reducible apply execTileHeadsDone_canonical | with_reducible apply execCompareDone_canonical | with_reducible apply execAmendWindowClose_canonical | with_reducible apply execAmendRecompute_canonical | with_reducible apply execReuseDeadline_canonical | with_reducible apply execSentinelRun_canonical | with_reducible apply execSentinelDone_canonical | with_reducible apply execGoldenCompareDone_canonical | with_reducible apply execGoldenSpan_canonical | with_reducible apply execGuardTileIssue_canonical | with_reducible apply execHeartbeatTimeout_canonical | with_reducible apply execWatchdogService_canonical | with_reducible apply execLockstep_canonical | with_reducible apply execSafSelf_canonical | with_reducible apply execSafePath_canonical | with_reducible apply execEnv_canonical | with_reducible apply execNoticeRepeat_canonical | with_reducible apply execPowerOnReset_canonical | with_reducible apply execVddAonFall_canonical | with_reducible apply execResetN_canonical | with_reducible apply execPwrGoodLow_canonical | with_reducible apply execWarm_canonical | with_reducible apply execWatchdogExpiry_canonical | with_reducible apply execClkSrcWrite_canonical | with_reducible apply execPllReady_canonical | with_reducible apply execRefclkLoss_canonical | with_reducible apply execRefclkRecovery_canonical | with_reducible apply execVidStep_canonical | with_reducible apply execLftItemRead_canonical | with_reducible apply execBackboneDone_canonical | with_reducible apply execLift_canonical | with_reducible apply execLiftBlockEmit_canonical | with_reducible apply execLiftDone_canonical | with_reducible apply execEgoSampleRead_canonical | with_reducible apply execRegistrationRecord_canonical | with_reducible apply execUpdateRecord_canonical | with_reducible apply execEgoIntakeClose_canonical | with_reducible apply execAsmBudgetExpiry_canonical | with_reducible apply execEgoIterationDone_canonical | with_reducible apply execEgoSolveDone_canonical | with_reducible apply execEgoPublish_canonical | with_reducible apply execBaStepDone_canonical | with_reducible apply execBaTimeout_canonical | with_reducible apply execResetRelease_canonical | with_reducible apply execBistDone_canonical | with_reducible apply execDdrTrainingDone_canonical | with_reducible apply execImageLoadDone_canonical | with_reducible apply execTimNowLowRead_canonical | with_reducible apply execSync_canonical | with_reducible apply execFollowUp_canonical | with_reducible apply execAnnounce_canonical | with_reducible apply execPdelay_canonical | with_reducible apply execSignaling_canonical | with_reducible apply execSyncReceiptTimeout_canonical | with_reducible apply execAnnounceReceiptTimeout_canonical | with_reducible apply execSlewComplete_canonical | with_reducible apply execAcqTimeout_canonical | with_reducible apply execHoldoverLimit_canonical | with_reducible apply execRevert_canonical | with_reducible apply execSensorPtpRx_canonical | with_reducible apply execSensorAnnounceTx_canonical | with_reducible apply execSensorSyncTx_canonical | with_reducible apply execSensorPdelayTx_canonical | with_reducible apply execSensorPdelay_canonical | with_reducible apply execHostPdelayTx_canonical | with_reducible apply execLaunchRequest_canonical | with_reducible apply execLaunch_canonical | with_reducible apply execTriggerEdge_canonical | with_reducible apply execTriggerPulseEnd_canonical | with_reducible apply execCommitNextBoundary_canonical | with_reducible apply execCommitAtTime_canonical | with_reducible apply execCommitCancel_canonical | with_reducible apply execCommitCheckDone_canonical | with_reducible apply execCommitApply_canonical | with_reducible apply execInstanceOpen_canonical | with_reducible apply execMalformedFrame_canonical | with_reducible apply execStatusRead_canonical | with_reducible apply execTileRead_canonical | with_reducible apply execTuneStage_canonical | with_reducible apply execTuneCommit_canonical | with_reducible apply execHeartbeat_canonical | with_reducible apply execHeartbeatResetReq_canonical | with_reducible apply execHeartbeatResetConfirm_canonical | with_reducible apply execLogReadErrorLog_canonical | with_reducible apply execLogReadStartRecord_canonical | with_reducible apply execLogReadLifetime_canonical | with_reducible apply execTrainBuild_canonical | with_reducible apply execHostLinkDown_canonical | with_reducible apply execHostLinkUp_canonical | with_reducible apply execFrameStart_canonical | with_reducible apply execFrameEnd_canonical | with_reducible apply execFrameEndTimeout_canonical | with_reducible apply execCsiLine_canonical | with_reducible apply execEmbeddedData_canonical | with_reducible apply execLidarDatagram_canonical | with_reducible apply execArpRequest_canonical | with_reducible apply execCanFrame_canonical | with_reducible apply execBusOff_canonical | with_reducible apply execBusOffRecovery_canonical | with_reducible apply execDataReadyEdge_canonical | with_reducible apply execSpiReadDone_canonical | with_reducible apply execEncoderEdge_canonical | with_reducible apply execEncoderIdleTimeout_canonical | with_reducible apply execAbsentTimeout_canonical | with_reducible apply execDiscGraceEnd_canonical | with_reducible apply execGoldenLineInject_canonical | with_reducible apply execGoldenPacketInsert_canonical | with_reducible apply execTokenReceive_canonical | with_reducible apply execCreditReturn_canonical | with_reducible apply execEntryFire_canonical | with_reducible apply execEntryComplete_canonical | with_reducible apply execSquashDone_canonical | with_reducible apply execBudgetOverrun_canonical | with_reducible apply execTrainingStart_canonical | with_reducible apply execTrainingTimeout_canonical | with_reducible apply execLinkTimeout_canonical | with_reducible apply execLaneLockLoss_canonical | with_reducible apply execTrainingDone_canonical | with_reducible apply execFlit_canonical | with_reducible apply execNackFlit_canonical | with_reducible apply execCreditFlit_canonical | with_reducible apply execKeepalive_canonical | with_reducible apply execKeepaliveTx_canonical | with_reducible apply execDispatchCommand_canonical | with_reducible apply execDispatch_canonical | with_reducible apply execServe_canonical | with_reducible apply execResult_canonical | with_reducible apply execRefuse_canonical | with_reducible apply execCombineDeadline_canonical | with_reducible apply execRemoteCopy_canonical | with_reducible apply execCopy_canonical | with_reducible apply execCopyDone_canonical | with_reducible apply execNack_canonical | with_reducible apply execCopyTimeout_canonical | with_reducible apply execRollbackAdvance_canonical | with_reducible apply execRollbackFuseBlown_canonical | with_reducible apply execAttestReq_canonical | with_reducible apply execQuoteReady_canonical | with_reducible apply execChallengeRead_canonical | with_reducible apply execResponseWrite_canonical | with_reducible apply execDebugVerifyDone_canonical | with_reducible apply execKeyProvWrite_canonical | with_reducible apply execCakRevoke_canonical | with_reducible apply execDecommission_canonical | with_reducible apply execDebugDisableBlow_canonical | with_reducible apply execTamperTrip_canonical | with_reducible apply execMkaHello_canonical | with_reducible apply execMkpdu_canonical | with_reducible apply execMacsecDrop_canonical | with_reducible apply execTc10SleepRequest_canonical | with_reducible apply execTc10SleepAck_canonical | with_reducible apply execTc10SleepTimeout_canonical | with_reducible apply execTc10Wake_canonical | with_reducible apply execLinkEnergy_canonical | with_reducible apply execWakeN_canonical | with_reducible apply execWakeAlarm_canonical | with_reducible apply execDozeEntryDone_canonical | with_reducible apply execWakeDone_canonical | with_reducible apply execStandbyWake_canonical | with_reducible apply execErrorLogDrain_canonical | with_reducible apply execLifetimeInterval_canonical | with_reducible apply execSectorEraseDone_canonical | with_reducible apply execQueueWrite_canonical | with_reducible apply execFlushStrobe_canonical | with_reducible apply execPendingMarkerStore_canonical | with_reducible apply execMark_canonical | with_reducible apply execRewind_canonical | with_reducible apply execRelease_canonical | with_reducible apply execRead_canonical | with_reducible apply execReadTimeout_canonical | with_reducible apply execPointerMismatch_canonical | with_reducible apply execRegisterWrite_canonical | with_reducible apply execBaStart_canonical | with_reducible apply execBaAbort_canonical | with_reducible apply execRequiredUnitLoss_canonical | with_reducible apply execPralineAccess_canonical | refine State.canonical_mk ?_ rfl rfl

end Sys2Proof.Machine
end

