-- ==== Sys2Proof/Laws/Fields.lean ====
section
/-! SUPPORT. Registers and their fields: what reads back after a write, and what a write leaves alone. -/

namespace Sys2Proof.Machine

theorem bitsAt_testBit {n lo w j : Nat} : (bitsAt n lo w).testBit j = (decide (j < w) && n.testBit (lo + j)) := by
  unfold bitsAt
  rw [Nat.testBit_mod_two_pow, Nat.testBit_div_two_pow, Nat.add_comm]

/-- A bit of a register value with a field replaced. -/
theorem Fld.getLsbD_into {f : Fld} {v : BitVec 64} {x i : Nat} (hi : i < 64) :
    (f.into v x).getLsbD i = if f.lo ≤ i ∧ i < f.lo + f.w then x.testBit (i - f.lo) else v.getLsbD i := by
  unfold Fld.into
  simp only [BitVec.getLsbD_or, BitVec.getLsbD_and, BitVec.getLsbD_not, BitVec.getLsbD_ofNat, hi, decide_true, Bool.true_and,
    Nat.testBit_mul_two_pow, Nat.testBit_mod_two_pow]
  by_cases h1 : f.lo ≤ i <;> by_cases h2 : i < f.lo + f.w
  · have : i - f.lo < f.w := by omega
    simp [h1, h2, this]
  · have : ¬ (i - f.lo < f.w) := by omega
    simp [h1, h2, this]
  · simp [h1]
  · simp [h1]

theorem Fld.of_testBit {f : Fld} {v : BitVec 64} {j : Nat} : (f.of v).testBit j = (decide (j < f.w) && v.getLsbD (f.lo + j)) := by
  unfold Fld.of
  rw [bitsAt_testBit]; rfl

/-- A field that was replaced reads back, modulo its width. -/
theorem Fld.of_into {f : Fld} {v : BitVec 64} {x : Nat} (h : f.lo + f.w ≤ 64) : f.of (f.into v x) = x % 2 ^ f.w := by
  apply Nat.eq_of_testBit_eq
  intro j
  rw [Fld.of_testBit, Nat.testBit_mod_two_pow]
  by_cases hj : j < f.w
  · rw [Fld.getLsbD_into (by omega), if_pos (by omega)]; simp
  · simp [hj]

/-- Replacing a field leaves every field apart from it alone. -/
theorem Fld.of_into_apart {f g : Fld} {v : BitVec 64} {x : Nat} (h : f.lo + f.w ≤ g.lo ∨ g.lo + g.w ≤ f.lo)
    (hg : g.lo + g.w ≤ 64) : g.of (f.into v x) = g.of v := by
  apply Nat.eq_of_testBit_eq
  intro j
  rw [Fld.of_testBit, Fld.of_testBit]
  by_cases hj : j < g.w
  · rw [Fld.getLsbD_into (by omega), if_neg (by omega)]
  · simp [hj]

/-- A field fits in a register. -/
def Fld.fits (f : Fld) : Bool := decide (f.lo + f.w ≤ 64)

/-- Two fields share no bit. -/
def Fld.apart (f g : Fld) : Bool :=
  decide (f.addr ≠ g.addr) || (decide (f.lo + f.w ≤ g.lo) || decide (g.lo + g.w ≤ f.lo)) && decide (g.lo + g.w ≤ 64)

variable {s : State} {f g : Fld} {x n a b : Nat} {v : BitVec 64}

@[simp] theorem State.reg_setReg_same : (s.setReg a v).reg a = v := by
  simp [State.setReg, State.reg]

theorem State.reg_setReg_ne (h : b ≠ a) : (s.setReg a v).reg b = s.reg b := by
  simp [State.setReg, State.reg, sparseGet_sparseSet_ne h]

/-- Setting a field leaves every other register alone. -/
theorem State.reg_put_ne (h : b ≠ f.addr) : (s.put f x).reg b = s.reg b := State.reg_setReg_ne h

/-- A field that was set reads back, modulo its width. -/
theorem State.get_put_same (h : f.fits = true) : (s.put f x).get f = x % 2 ^ f.w := by
  unfold State.put State.get
  rw [State.reg_setReg_same, Fld.of_into (by simpa [Fld.fits] using h)]

/-- Setting a field leaves every field apart from it alone. -/
theorem State.get_put_ne (h : f.apart g = true) : (s.put f x).get g = s.get g := by
  unfold State.get
  simp only [Fld.apart, Bool.or_eq_true, Bool.and_eq_true, decide_eq_true_eq] at h
  by_cases ha : g.addr = f.addr
  · rw [ha]
    unfold State.put
    rw [State.reg_setReg_same]
    rcases h with h | h
    · exact absurd ha.symm h
    · exact Fld.of_into_apart h.1 h.2
  · rw [State.reg_put_ne ha]

end Sys2Proof.Machine
end

