-- ==== Sys2Proof/Laws/State.lean ====
section
/-! SUPPORT. What each named update of the state leaves alone, one lemma per field; the register updates as State.put. -/

namespace Sys2Proof.Machine

variable {s : State} {f : Fld} {n a q : Nat} {v : BitVec 64} {x : Queue} {o : Out} {l : List Byte} {b : Bool} {i : Int}

@[simp] theorem State.pending_setReg : (s.setReg a v).pending = s.pending := rfl
@[simp] theorem State.tim_setReg : (s.setReg a v).tim = s.tim := rfl
@[simp] theorem State.ing_setReg : (s.setReg a v).ing = s.ing := rfl
@[simp] theorem State.queues_setReg : (s.setReg a v).queues = s.queues := rfl
@[simp] theorem State.glz_setReg : (s.setReg a v).glz = s.glz := rfl
@[simp] theorem State.pts_setReg : (s.setReg a v).pts = s.pts := rfl
@[simp] theorem State.lft_setReg : (s.setReg a v).lft = s.lft := rfl
@[simp] theorem State.spc_setReg : (s.setReg a v).spc = s.spc := rfl
@[simp] theorem State.spcGold_setReg : (s.setReg a v).spcGold = s.spcGold := rfl
@[simp] theorem State.slv_setReg : (s.setReg a v).slv = s.slv := rfl
@[simp] theorem State.tgs_setReg : (s.setReg a v).tgs = s.tgs := rfl
@[simp] theorem State.arr_setReg : (s.setReg a v).arr = s.arr := rfl
@[simp] theorem State.lay_setReg : (s.setReg a v).lay = s.lay := rfl
@[simp] theorem State.atn_setReg : (s.setReg a v).atn = s.atn := rfl
@[simp] theorem State.kvc_setReg : (s.setReg a v).kvc = s.kvc := rfl
@[simp] theorem State.bml_setReg : (s.setReg a v).bml = s.bml := rfl
@[simp] theorem State.mem_setReg : (s.setReg a v).mem = s.mem := rfl
@[simp] theorem State.saf_setReg : (s.setReg a v).saf = s.saf := rfl
@[simp] theorem State.chk_setReg : (s.setReg a v).chk = s.chk := rfl
@[simp] theorem State.boot_setReg : (s.setReg a v).boot = s.boot := rfl
@[simp] theorem State.sec_setReg : (s.setReg a v).sec = s.sec := rfl
@[simp] theorem State.hst_setReg : (s.setReg a v).hst = s.hst := rfl
@[simp] theorem State.pwr_setReg : (s.setReg a v).pwr = s.pwr := rfl
@[simp] theorem State.obs_setReg : (s.setReg a v).obs = s.obs := rfl
@[simp] theorem State.out_setReg : (s.setReg a v).out = s.out := rfl
@[simp] theorem State.free_setReg : (s.setReg a v).free = s.free := rfl

@[simp] theorem State.pending_put : (s.put f n).pending = s.pending := rfl
@[simp] theorem State.tim_put : (s.put f n).tim = s.tim := rfl
@[simp] theorem State.ing_put : (s.put f n).ing = s.ing := rfl
@[simp] theorem State.queues_put : (s.put f n).queues = s.queues := rfl
@[simp] theorem State.glz_put : (s.put f n).glz = s.glz := rfl
@[simp] theorem State.pts_put : (s.put f n).pts = s.pts := rfl
@[simp] theorem State.lft_put : (s.put f n).lft = s.lft := rfl
@[simp] theorem State.spc_put : (s.put f n).spc = s.spc := rfl
@[simp] theorem State.spcGold_put : (s.put f n).spcGold = s.spcGold := rfl
@[simp] theorem State.slv_put : (s.put f n).slv = s.slv := rfl
@[simp] theorem State.tgs_put : (s.put f n).tgs = s.tgs := rfl
@[simp] theorem State.arr_put : (s.put f n).arr = s.arr := rfl
@[simp] theorem State.lay_put : (s.put f n).lay = s.lay := rfl
@[simp] theorem State.atn_put : (s.put f n).atn = s.atn := rfl
@[simp] theorem State.kvc_put : (s.put f n).kvc = s.kvc := rfl
@[simp] theorem State.bml_put : (s.put f n).bml = s.bml := rfl
@[simp] theorem State.mem_put : (s.put f n).mem = s.mem := rfl
@[simp] theorem State.saf_put : (s.put f n).saf = s.saf := rfl
@[simp] theorem State.chk_put : (s.put f n).chk = s.chk := rfl
@[simp] theorem State.boot_put : (s.put f n).boot = s.boot := rfl
@[simp] theorem State.sec_put : (s.put f n).sec = s.sec := rfl
@[simp] theorem State.hst_put : (s.put f n).hst = s.hst := rfl
@[simp] theorem State.pwr_put : (s.put f n).pwr = s.pwr := rfl
@[simp] theorem State.obs_put : (s.put f n).obs = s.obs := rfl
@[simp] theorem State.out_put : (s.put f n).out = s.out := rfl
@[simp] theorem State.free_put : (s.put f n).free = s.free := rfl

@[simp] theorem State.pending_emit : (s.emit o).pending = s.pending := rfl
@[simp] theorem State.regs_emit : (s.emit o).regs = s.regs := rfl
@[simp] theorem State.tim_emit : (s.emit o).tim = s.tim := rfl
@[simp] theorem State.ing_emit : (s.emit o).ing = s.ing := rfl
@[simp] theorem State.queues_emit : (s.emit o).queues = s.queues := rfl
@[simp] theorem State.glz_emit : (s.emit o).glz = s.glz := rfl
@[simp] theorem State.pts_emit : (s.emit o).pts = s.pts := rfl
@[simp] theorem State.lft_emit : (s.emit o).lft = s.lft := rfl
@[simp] theorem State.spc_emit : (s.emit o).spc = s.spc := rfl
@[simp] theorem State.spcGold_emit : (s.emit o).spcGold = s.spcGold := rfl
@[simp] theorem State.slv_emit : (s.emit o).slv = s.slv := rfl
@[simp] theorem State.tgs_emit : (s.emit o).tgs = s.tgs := rfl
@[simp] theorem State.arr_emit : (s.emit o).arr = s.arr := rfl
@[simp] theorem State.lay_emit : (s.emit o).lay = s.lay := rfl
@[simp] theorem State.atn_emit : (s.emit o).atn = s.atn := rfl
@[simp] theorem State.kvc_emit : (s.emit o).kvc = s.kvc := rfl
@[simp] theorem State.bml_emit : (s.emit o).bml = s.bml := rfl
@[simp] theorem State.mem_emit : (s.emit o).mem = s.mem := rfl
@[simp] theorem State.saf_emit : (s.emit o).saf = s.saf := rfl
@[simp] theorem State.chk_emit : (s.emit o).chk = s.chk := rfl
@[simp] theorem State.boot_emit : (s.emit o).boot = s.boot := rfl
@[simp] theorem State.sec_emit : (s.emit o).sec = s.sec := rfl
@[simp] theorem State.hst_emit : (s.emit o).hst = s.hst := rfl
@[simp] theorem State.pwr_emit : (s.emit o).pwr = s.pwr := rfl
@[simp] theorem State.obs_emit : (s.emit o).obs = s.obs := rfl
@[simp] theorem State.free_emit : (s.emit o).free = s.free := rfl

@[simp] theorem State.pending_fresh : (s.fresh).pending = s.pending := rfl
@[simp] theorem State.regs_fresh : (s.fresh).regs = s.regs := rfl
@[simp] theorem State.tim_fresh : (s.fresh).tim = s.tim := rfl
@[simp] theorem State.ing_fresh : (s.fresh).ing = s.ing := rfl
@[simp] theorem State.queues_fresh : (s.fresh).queues = s.queues := rfl
@[simp] theorem State.glz_fresh : (s.fresh).glz = s.glz := rfl
@[simp] theorem State.pts_fresh : (s.fresh).pts = s.pts := rfl
@[simp] theorem State.lft_fresh : (s.fresh).lft = s.lft := rfl
@[simp] theorem State.spc_fresh : (s.fresh).spc = s.spc := rfl
@[simp] theorem State.spcGold_fresh : (s.fresh).spcGold = s.spcGold := rfl
@[simp] theorem State.slv_fresh : (s.fresh).slv = s.slv := rfl
@[simp] theorem State.tgs_fresh : (s.fresh).tgs = s.tgs := rfl
@[simp] theorem State.arr_fresh : (s.fresh).arr = s.arr := rfl
@[simp] theorem State.lay_fresh : (s.fresh).lay = s.lay := rfl
@[simp] theorem State.atn_fresh : (s.fresh).atn = s.atn := rfl
@[simp] theorem State.kvc_fresh : (s.fresh).kvc = s.kvc := rfl
@[simp] theorem State.bml_fresh : (s.fresh).bml = s.bml := rfl
@[simp] theorem State.mem_fresh : (s.fresh).mem = s.mem := rfl
@[simp] theorem State.saf_fresh : (s.fresh).saf = s.saf := rfl
@[simp] theorem State.chk_fresh : (s.fresh).chk = s.chk := rfl
@[simp] theorem State.boot_fresh : (s.fresh).boot = s.boot := rfl
@[simp] theorem State.sec_fresh : (s.fresh).sec = s.sec := rfl
@[simp] theorem State.hst_fresh : (s.fresh).hst = s.hst := rfl
@[simp] theorem State.pwr_fresh : (s.fresh).pwr = s.pwr := rfl
@[simp] theorem State.obs_fresh : (s.fresh).obs = s.obs := rfl
@[simp] theorem State.out_fresh : (s.fresh).out = s.out := rfl

@[simp] theorem State.pending_setQueue : (s.setQueue q x).pending = s.pending := rfl
@[simp] theorem State.regs_setQueue : (s.setQueue q x).regs = s.regs := rfl
@[simp] theorem State.tim_setQueue : (s.setQueue q x).tim = s.tim := rfl
@[simp] theorem State.ing_setQueue : (s.setQueue q x).ing = s.ing := rfl
@[simp] theorem State.glz_setQueue : (s.setQueue q x).glz = s.glz := rfl
@[simp] theorem State.pts_setQueue : (s.setQueue q x).pts = s.pts := rfl
@[simp] theorem State.lft_setQueue : (s.setQueue q x).lft = s.lft := rfl
@[simp] theorem State.spc_setQueue : (s.setQueue q x).spc = s.spc := rfl
@[simp] theorem State.spcGold_setQueue : (s.setQueue q x).spcGold = s.spcGold := rfl
@[simp] theorem State.slv_setQueue : (s.setQueue q x).slv = s.slv := rfl
@[simp] theorem State.tgs_setQueue : (s.setQueue q x).tgs = s.tgs := rfl
@[simp] theorem State.arr_setQueue : (s.setQueue q x).arr = s.arr := rfl
@[simp] theorem State.lay_setQueue : (s.setQueue q x).lay = s.lay := rfl
@[simp] theorem State.atn_setQueue : (s.setQueue q x).atn = s.atn := rfl
@[simp] theorem State.kvc_setQueue : (s.setQueue q x).kvc = s.kvc := rfl
@[simp] theorem State.bml_setQueue : (s.setQueue q x).bml = s.bml := rfl
@[simp] theorem State.mem_setQueue : (s.setQueue q x).mem = s.mem := rfl
@[simp] theorem State.saf_setQueue : (s.setQueue q x).saf = s.saf := rfl
@[simp] theorem State.chk_setQueue : (s.setQueue q x).chk = s.chk := rfl
@[simp] theorem State.boot_setQueue : (s.setQueue q x).boot = s.boot := rfl
@[simp] theorem State.sec_setQueue : (s.setQueue q x).sec = s.sec := rfl
@[simp] theorem State.hst_setQueue : (s.setQueue q x).hst = s.hst := rfl
@[simp] theorem State.pwr_setQueue : (s.setQueue q x).pwr = s.pwr := rfl
@[simp] theorem State.obs_setQueue : (s.setQueue q x).obs = s.obs := rfl
@[simp] theorem State.out_setQueue : (s.setQueue q x).out = s.out := rfl
@[simp] theorem State.free_setQueue : (s.setQueue q x).free = s.free := rfl

@[simp] theorem State.pending_writeBytes : (s.writeBytes a l).pending = s.pending := by unfold State.writeBytes; split <;> rfl
@[simp] theorem State.regs_writeBytes : (s.writeBytes a l).regs = s.regs := by unfold State.writeBytes; split <;> rfl
@[simp] theorem State.tim_writeBytes : (s.writeBytes a l).tim = s.tim := by unfold State.writeBytes; split <;> rfl
@[simp] theorem State.ing_writeBytes : (s.writeBytes a l).ing = s.ing := by unfold State.writeBytes; split <;> rfl
@[simp] theorem State.queues_writeBytes : (s.writeBytes a l).queues = s.queues := by unfold State.writeBytes; split <;> rfl
@[simp] theorem State.glz_writeBytes : (s.writeBytes a l).glz = s.glz := by unfold State.writeBytes; split <;> rfl
@[simp] theorem State.pts_writeBytes : (s.writeBytes a l).pts = s.pts := by unfold State.writeBytes; split <;> rfl
@[simp] theorem State.lft_writeBytes : (s.writeBytes a l).lft = s.lft := by unfold State.writeBytes; split <;> rfl
@[simp] theorem State.spc_writeBytes : (s.writeBytes a l).spc = s.spc := by unfold State.writeBytes; split <;> rfl
@[simp] theorem State.spcGold_writeBytes : (s.writeBytes a l).spcGold = s.spcGold := by unfold State.writeBytes; split <;> rfl
@[simp] theorem State.slv_writeBytes : (s.writeBytes a l).slv = s.slv := by unfold State.writeBytes; split <;> rfl
@[simp] theorem State.tgs_writeBytes : (s.writeBytes a l).tgs = s.tgs := by unfold State.writeBytes; split <;> rfl
@[simp] theorem State.arr_writeBytes : (s.writeBytes a l).arr = s.arr := by unfold State.writeBytes; split <;> rfl
@[simp] theorem State.lay_writeBytes : (s.writeBytes a l).lay = s.lay := by unfold State.writeBytes; split <;> rfl
@[simp] theorem State.atn_writeBytes : (s.writeBytes a l).atn = s.atn := by unfold State.writeBytes; split <;> rfl
@[simp] theorem State.kvc_writeBytes : (s.writeBytes a l).kvc = s.kvc := by unfold State.writeBytes; split <;> rfl
@[simp] theorem State.bml_writeBytes : (s.writeBytes a l).bml = s.bml := by unfold State.writeBytes; split <;> rfl
@[simp] theorem State.saf_writeBytes : (s.writeBytes a l).saf = s.saf := by unfold State.writeBytes; split <;> rfl
@[simp] theorem State.chk_writeBytes : (s.writeBytes a l).chk = s.chk := by unfold State.writeBytes; split <;> rfl
@[simp] theorem State.boot_writeBytes : (s.writeBytes a l).boot = s.boot := by unfold State.writeBytes; split <;> rfl
@[simp] theorem State.sec_writeBytes : (s.writeBytes a l).sec = s.sec := by unfold State.writeBytes; split <;> rfl
@[simp] theorem State.hst_writeBytes : (s.writeBytes a l).hst = s.hst := by unfold State.writeBytes; split <;> rfl
@[simp] theorem State.pwr_writeBytes : (s.writeBytes a l).pwr = s.pwr := by unfold State.writeBytes; split <;> rfl
@[simp] theorem State.obs_writeBytes : (s.writeBytes a l).obs = s.obs := by unfold State.writeBytes; split <;> rfl
@[simp] theorem State.out_writeBytes : (s.writeBytes a l).out = s.out := by unfold State.writeBytes; split <;> rfl
@[simp] theorem State.free_writeBytes : (s.writeBytes a l).free = s.free := by unfold State.writeBytes; split <;> rfl

@[simp] theorem State.raise_eq : s.raise f = s.put f 1 := rfl
@[simp] theorem State.flag_eq : s.flag f b = s.put f (if b then 1 else 0) := rfl
@[simp] theorem State.putI_eq : s.putI f i = s.put f (ofInt f.w i) := rfl
@[simp] theorem State.satAdd_eq : s.satAdd f n = s.put f (satNat f.w (s.get f + n)) := rfl
@[simp] theorem State.satInc_eq : s.satInc f = s.put f (satNat f.w (s.get f + 1)) := rfl
@[simp] theorem State.modAdd_eq : s.modAdd f n = s.put f (s.get f + n) := rfl
@[simp] theorem State.modInc_eq : s.modInc f = s.put f (s.get f + 1) := rfl

/-- A field's value fits its width. -/
theorem State.get_lt : s.get f < 2 ^ f.w := Nat.mod_lt _ (Nat.two_pow_pos _)

/-- A field depends on the registers alone. -/
theorem State.get_of_regs {t : State} (h : t.regs = s.regs) : t.get f = s.get f := by
  unfold State.get State.reg; rw [h]

/-- A field depends on its register alone. -/
theorem State.get_of_reg {t : State} (h : t.reg f.addr = s.reg f.addr) : t.get f = s.get f := by
  unfold State.get; rw [h]

@[simp] theorem State.get_emit : (s.emit o).get f = s.get f := rfl
@[simp] theorem State.get_fresh : s.fresh.get f = s.get f := rfl
@[simp] theorem State.get_setQueue : (s.setQueue q x).get f = s.get f := rfl
@[simp] theorem State.get_writeBytes : (s.writeBytes a l).get f = s.get f := State.get_of_regs (by simp)
@[simp] theorem State.reg_emit : (s.emit o).reg n = s.reg n := rfl
@[simp] theorem State.reg_fresh : s.fresh.reg n = s.reg n := rfl
@[simp] theorem State.reg_setQueue : (s.setQueue q x).reg n = s.reg n := rfl
@[simp] theorem State.reg_writeBytes : (s.writeBytes a l).reg n = s.reg n := by unfold State.reg; simp
@[simp] theorem State.byte_setReg : (s.setReg a v).byte n = s.byte n := rfl
@[simp] theorem State.byte_put {m : Nat} : (s.put f m).byte n = s.byte n := rfl
@[simp] theorem State.byte_emit : (s.emit o).byte n = s.byte n := rfl
@[simp] theorem State.byte_setQueue : (s.setQueue q x).byte n = s.byte n := rfl
@[simp] theorem State.queue_put {p m : Nat} : (s.put f m).queue p = s.queue p := rfl
@[simp] theorem State.queue_emit {p : Nat} : (s.emit o).queue p = s.queue p := rfl

/-- A queue that was set reads back, both copies of its pointers at their place (R62). -/
@[simp] theorem State.queue_setQueue_same :
    (s.setQueue q x).queue q = { x with rdCopy := (x.rdWord, x.rdByte), wrCopy := x.wr } := by simp [State.setQueue, State.queue]

/-- Setting a queue leaves the others alone. -/
theorem State.queue_setQueue_ne {p : Nat} (h : p ≠ q) : (s.setQueue q x).queue p = s.queue p := by
  simp [State.setQueue, State.queue, sparseGet_sparseSet_ne h]

/-! ## Counting events (R360): only registers of OBS change -/

/-- What one step of a fold keeps, the fold keeps. -/
theorem foldl_inv {α β : Type} {P : β → Prop} {y : β} {xs : List α} {g : β → α → β}
    (hg : ∀ (t : β) (z : α), P t → P (g t z)) (h : P y) : P (xs.foldl g y) := by
  induction xs generalizing y with
  | nil => exact h
  | cons z r ih => exact ih (hg y z h)

/-- t differs from s in registers of OBS alone. -/
def State.ObsRegs (s t : State) : Prop :=
  t = { s with regs := t.regs } ∧ ∀ a, (a < 0xE00170000 ∨ 0xE00180000 ≤ a) → t.reg a = s.reg a

theorem State.ObsRegs.rfl : State.ObsRegs s s := ⟨by cases s; exact Eq.refl _, fun _ _ => Eq.refl _⟩

theorem State.ObsRegs.put {t : State} (h : State.ObsRegs s t) (hf : 0xE00170000 ≤ f.addr ∧ f.addr < 0xE00180000) :
    State.ObsRegs s (t.put f n) := by
  refine ⟨?_, fun a ha => ?_⟩
  · have := h.1
    show ({ t with regs := _ } : State) = _
    rw [this]
    exact Eq.refl _
  · rw [State.reg_put_ne (by omega)]; exact h.2 a ha

theorem State.ObsRegs.reg {t : State} (h : State.ObsRegs s t) (ha : a < 0xE00170000 ∨ 0xE00180000 ≤ a) : t.reg a = s.reg a :=
  h.2 a ha

theorem State.counterWrapped_obs {t : State} {k : Nat} (h : State.ObsRegs s t) (hk : k < 256) :
    State.ObsRegs s (t.counterWrapped k) := by
  unfold State.counterWrapped
  refine State.ObsRegs.put (State.ObsRegs.put h ?_) (by decide)
  show 0xE00170000 ≤ 0xe00170060 + 8 * (k / 64) ∧ _
  show _ ∧ 0xe00170060 + 8 * (k / 64) < 0xE00180000
  omega

theorem State.counterAdd_obs {t : State} {k n : Nat} (h : State.ObsRegs s t) (hk : k < 256) :
    State.ObsRegs s (t.counterAdd k n) := by
  have hc : ∀ j, j < 256 → 0xE00170000 ≤ (F.OBS_CNT_COUNT j).addr ∧ (F.OBS_CNT_COUNT j).addr < 0xE00180000 := by
    intro j hj
    show 0xE00170000 ≤ 0xe00171000 + 8 * j ∧ 0xe00171000 + 8 * j < 0xE00180000
    omega
  unfold State.counterAdd
  have h1 := State.ObsRegs.put (n := t.get (F.OBS_CNT_COUNT k) + n) h (hc k hk)
  dsimp only
  split
  · exact h1
  split
  · rename_i hk2
    have hk3 : k + 1 < 256 := by
      simp only [Bool.and_eq_true, decide_eq_true_eq] at hk2
      omega
    split
    · exact State.ObsRegs.put h1 (hc _ hk3)
    · exact State.counterWrapped_obs (State.ObsRegs.put h1 (hc _ hk3)) hk3
  · exact State.counterWrapped_obs h1 hk

theorem foldl_inv_mem {α β : Type} {P : β → Prop} {y : β} {xs : List α} {g : β → α → β}
    (hg : ∀ (t : β) (z : α), z ∈ xs → P t → P (g t z)) (h : P y) : P (xs.foldl g y) := by
  induction xs generalizing y with
  | nil => exact h
  | cons z r ih => exact ih (fun t w hw => hg t w (List.mem_cons_of_mem _ hw)) (hg y z List.mem_cons_self h)

/-- Counting an event changes registers of OBS alone (R360). -/
theorem State.count_obs {cls bit k pr : Nat} {m ad : Option Nat} : State.ObsRegs s (s.count cls bit k m ad pr) := by
  unfold State.count
  split
  · exact State.ObsRegs.rfl
  · refine foldl_inv_mem (P := State.ObsRegs s) ?_ State.ObsRegs.rfl
    intro t z hz h
    split
    · exact State.counterAdd_obs h (List.mem_range.mp hz)
    · exact h

theorem State.reg_count {cls bit k pr : Nat} {m ad : Option Nat} (ha : a < 0xE00170000 ∨ 0xE00180000 ≤ a) :
    (s.count cls bit k m ad pr).reg a = s.reg a := State.count_obs.reg ha

theorem State.get_count {cls bit k pr : Nat} {m ad : Option Nat} (ha : f.addr < 0xE00170000 ∨ 0xE00180000 ≤ f.addr) :
    (s.count cls bit k m ad pr).get f = s.get f := State.get_of_reg (State.reg_count ha)

@[simp] theorem State.pending_count {cls bit k pr : Nat} {m ad : Option Nat} : (s.count cls bit k m ad pr).pending = s.pending := by
  rw [(State.count_obs (s := s) (cls := cls) (bit := bit) (k := k) (m := m) (ad := ad) (pr := pr)).1]
@[simp] theorem State.tim_count {cls bit k pr : Nat} {m ad : Option Nat} : (s.count cls bit k m ad pr).tim = s.tim := by
  rw [(State.count_obs (s := s) (cls := cls) (bit := bit) (k := k) (m := m) (ad := ad) (pr := pr)).1]
@[simp] theorem State.ing_count {cls bit k pr : Nat} {m ad : Option Nat} : (s.count cls bit k m ad pr).ing = s.ing := by
  rw [(State.count_obs (s := s) (cls := cls) (bit := bit) (k := k) (m := m) (ad := ad) (pr := pr)).1]
@[simp] theorem State.queues_count {cls bit k pr : Nat} {m ad : Option Nat} : (s.count cls bit k m ad pr).queues = s.queues := by
  rw [(State.count_obs (s := s) (cls := cls) (bit := bit) (k := k) (m := m) (ad := ad) (pr := pr)).1]
@[simp] theorem State.glz_count {cls bit k pr : Nat} {m ad : Option Nat} : (s.count cls bit k m ad pr).glz = s.glz := by
  rw [(State.count_obs (s := s) (cls := cls) (bit := bit) (k := k) (m := m) (ad := ad) (pr := pr)).1]
@[simp] theorem State.pts_count {cls bit k pr : Nat} {m ad : Option Nat} : (s.count cls bit k m ad pr).pts = s.pts := by
  rw [(State.count_obs (s := s) (cls := cls) (bit := bit) (k := k) (m := m) (ad := ad) (pr := pr)).1]
@[simp] theorem State.lft_count {cls bit k pr : Nat} {m ad : Option Nat} : (s.count cls bit k m ad pr).lft = s.lft := by
  rw [(State.count_obs (s := s) (cls := cls) (bit := bit) (k := k) (m := m) (ad := ad) (pr := pr)).1]
@[simp] theorem State.spc_count {cls bit k pr : Nat} {m ad : Option Nat} : (s.count cls bit k m ad pr).spc = s.spc := by
  rw [(State.count_obs (s := s) (cls := cls) (bit := bit) (k := k) (m := m) (ad := ad) (pr := pr)).1]
@[simp] theorem State.spcGold_count {cls bit k pr : Nat} {m ad : Option Nat} : (s.count cls bit k m ad pr).spcGold = s.spcGold := by
  rw [(State.count_obs (s := s) (cls := cls) (bit := bit) (k := k) (m := m) (ad := ad) (pr := pr)).1]
@[simp] theorem State.slv_count {cls bit k pr : Nat} {m ad : Option Nat} : (s.count cls bit k m ad pr).slv = s.slv := by
  rw [(State.count_obs (s := s) (cls := cls) (bit := bit) (k := k) (m := m) (ad := ad) (pr := pr)).1]
@[simp] theorem State.tgs_count {cls bit k pr : Nat} {m ad : Option Nat} : (s.count cls bit k m ad pr).tgs = s.tgs := by
  rw [(State.count_obs (s := s) (cls := cls) (bit := bit) (k := k) (m := m) (ad := ad) (pr := pr)).1]
@[simp] theorem State.arr_count {cls bit k pr : Nat} {m ad : Option Nat} : (s.count cls bit k m ad pr).arr = s.arr := by
  rw [(State.count_obs (s := s) (cls := cls) (bit := bit) (k := k) (m := m) (ad := ad) (pr := pr)).1]
@[simp] theorem State.lay_count {cls bit k pr : Nat} {m ad : Option Nat} : (s.count cls bit k m ad pr).lay = s.lay := by
  rw [(State.count_obs (s := s) (cls := cls) (bit := bit) (k := k) (m := m) (ad := ad) (pr := pr)).1]
@[simp] theorem State.atn_count {cls bit k pr : Nat} {m ad : Option Nat} : (s.count cls bit k m ad pr).atn = s.atn := by
  rw [(State.count_obs (s := s) (cls := cls) (bit := bit) (k := k) (m := m) (ad := ad) (pr := pr)).1]
@[simp] theorem State.kvc_count {cls bit k pr : Nat} {m ad : Option Nat} : (s.count cls bit k m ad pr).kvc = s.kvc := by
  rw [(State.count_obs (s := s) (cls := cls) (bit := bit) (k := k) (m := m) (ad := ad) (pr := pr)).1]
@[simp] theorem State.bml_count {cls bit k pr : Nat} {m ad : Option Nat} : (s.count cls bit k m ad pr).bml = s.bml := by
  rw [(State.count_obs (s := s) (cls := cls) (bit := bit) (k := k) (m := m) (ad := ad) (pr := pr)).1]
@[simp] theorem State.mem_count {cls bit k pr : Nat} {m ad : Option Nat} : (s.count cls bit k m ad pr).mem = s.mem := by
  rw [(State.count_obs (s := s) (cls := cls) (bit := bit) (k := k) (m := m) (ad := ad) (pr := pr)).1]
@[simp] theorem State.saf_count {cls bit k pr : Nat} {m ad : Option Nat} : (s.count cls bit k m ad pr).saf = s.saf := by
  rw [(State.count_obs (s := s) (cls := cls) (bit := bit) (k := k) (m := m) (ad := ad) (pr := pr)).1]
@[simp] theorem State.chk_count {cls bit k pr : Nat} {m ad : Option Nat} : (s.count cls bit k m ad pr).chk = s.chk := by
  rw [(State.count_obs (s := s) (cls := cls) (bit := bit) (k := k) (m := m) (ad := ad) (pr := pr)).1]
@[simp] theorem State.boot_count {cls bit k pr : Nat} {m ad : Option Nat} : (s.count cls bit k m ad pr).boot = s.boot := by
  rw [(State.count_obs (s := s) (cls := cls) (bit := bit) (k := k) (m := m) (ad := ad) (pr := pr)).1]
@[simp] theorem State.sec_count {cls bit k pr : Nat} {m ad : Option Nat} : (s.count cls bit k m ad pr).sec = s.sec := by
  rw [(State.count_obs (s := s) (cls := cls) (bit := bit) (k := k) (m := m) (ad := ad) (pr := pr)).1]
@[simp] theorem State.hst_count {cls bit k pr : Nat} {m ad : Option Nat} : (s.count cls bit k m ad pr).hst = s.hst := by
  rw [(State.count_obs (s := s) (cls := cls) (bit := bit) (k := k) (m := m) (ad := ad) (pr := pr)).1]
@[simp] theorem State.pwr_count {cls bit k pr : Nat} {m ad : Option Nat} : (s.count cls bit k m ad pr).pwr = s.pwr := by
  rw [(State.count_obs (s := s) (cls := cls) (bit := bit) (k := k) (m := m) (ad := ad) (pr := pr)).1]
@[simp] theorem State.obs_count {cls bit k pr : Nat} {m ad : Option Nat} : (s.count cls bit k m ad pr).obs = s.obs := by
  rw [(State.count_obs (s := s) (cls := cls) (bit := bit) (k := k) (m := m) (ad := ad) (pr := pr)).1]
@[simp] theorem State.out_count {cls bit k pr : Nat} {m ad : Option Nat} : (s.count cls bit k m ad pr).out = s.out := by
  rw [(State.count_obs (s := s) (cls := cls) (bit := bit) (k := k) (m := m) (ad := ad) (pr := pr)).1]
@[simp] theorem State.free_count {cls bit k pr : Nat} {m ad : Option Nat} : (s.count cls bit k m ad pr).free = s.free := by
  rw [(State.count_obs (s := s) (cls := cls) (bit := bit) (k := k) (m := m) (ad := ad) (pr := pr)).1]
@[simp] theorem State.byte_count {cls bit k pr : Nat} {m ad : Option Nat} : (s.count cls bit k m ad pr).byte n = s.byte n := by
  unfold State.byte; simp
@[simp] theorem State.queue_count {cls bit k pr : Nat} {m ad : Option Nat} : (s.count cls bit k m ad pr).queue n = s.queue n := by
  unfold State.queue; simp

/-! ## The error log (R364): registers of OBS and OBS's own state -/

theorem State.reg_log {bl code sev unit det : Nat} (ha : a < 0xE00170000 ∨ 0xE00180000 ≤ a) :
    (s.log bl code sev unit det).reg a = s.reg a := by
  have h1 : F.OBS_LOG_COUNTS_DROPPED.addr = 0xe00170020 := rfl
  have h2 : F.OBS_EVENT_LOG_DROP.addr = 0xe00170010 := rfl
  have h3 : F.OBS_LOG_NEXT.addr = 0xe00170018 := rfl
  unfold State.log
  generalize hm : (if unit = 0xFF then none else some unit) = m
  have hc : (s.count 6 2 1 m (some det)).reg a = s.reg a := State.reg_count ha
  generalize s.count 6 2 1 m (some det) = c at hc ⊢
  rw [← hc]
  dsimp only
  split
  · rw [State.raise_eq, State.reg_put_ne (by omega), State.satInc_eq, State.reg_put_ne (by omega)]
  · exact State.reg_put_ne (by omega)

theorem State.get_log {bl code sev unit det : Nat} (ha : f.addr < 0xE00170000 ∨ 0xE00180000 ≤ f.addr) :
    (s.log bl code sev unit det).get f = s.get f := State.get_of_reg (State.reg_log ha)

@[simp] theorem State.pending_log {bl code sev unit det : Nat} : (s.log bl code sev unit det).pending = s.pending := by
  unfold State.log
  generalize (if unit = 0xFF then none else some unit) = m
  dsimp only
  split <;> simp
@[simp] theorem State.tim_log {bl code sev unit det : Nat} : (s.log bl code sev unit det).tim = s.tim := by
  unfold State.log
  generalize (if unit = 0xFF then none else some unit) = m
  dsimp only
  split <;> simp
@[simp] theorem State.ing_log {bl code sev unit det : Nat} : (s.log bl code sev unit det).ing = s.ing := by
  unfold State.log
  generalize (if unit = 0xFF then none else some unit) = m
  dsimp only
  split <;> simp
@[simp] theorem State.queues_log {bl code sev unit det : Nat} : (s.log bl code sev unit det).queues = s.queues := by
  unfold State.log
  generalize (if unit = 0xFF then none else some unit) = m
  dsimp only
  split <;> simp
@[simp] theorem State.glz_log {bl code sev unit det : Nat} : (s.log bl code sev unit det).glz = s.glz := by
  unfold State.log
  generalize (if unit = 0xFF then none else some unit) = m
  dsimp only
  split <;> simp
@[simp] theorem State.pts_log {bl code sev unit det : Nat} : (s.log bl code sev unit det).pts = s.pts := by
  unfold State.log
  generalize (if unit = 0xFF then none else some unit) = m
  dsimp only
  split <;> simp
@[simp] theorem State.lft_log {bl code sev unit det : Nat} : (s.log bl code sev unit det).lft = s.lft := by
  unfold State.log
  generalize (if unit = 0xFF then none else some unit) = m
  dsimp only
  split <;> simp
@[simp] theorem State.spc_log {bl code sev unit det : Nat} : (s.log bl code sev unit det).spc = s.spc := by
  unfold State.log
  generalize (if unit = 0xFF then none else some unit) = m
  dsimp only
  split <;> simp
@[simp] theorem State.spcGold_log {bl code sev unit det : Nat} : (s.log bl code sev unit det).spcGold = s.spcGold := by
  unfold State.log
  generalize (if unit = 0xFF then none else some unit) = m
  dsimp only
  split <;> simp
@[simp] theorem State.slv_log {bl code sev unit det : Nat} : (s.log bl code sev unit det).slv = s.slv := by
  unfold State.log
  generalize (if unit = 0xFF then none else some unit) = m
  dsimp only
  split <;> simp
@[simp] theorem State.tgs_log {bl code sev unit det : Nat} : (s.log bl code sev unit det).tgs = s.tgs := by
  unfold State.log
  generalize (if unit = 0xFF then none else some unit) = m
  dsimp only
  split <;> simp
@[simp] theorem State.arr_log {bl code sev unit det : Nat} : (s.log bl code sev unit det).arr = s.arr := by
  unfold State.log
  generalize (if unit = 0xFF then none else some unit) = m
  dsimp only
  split <;> simp
@[simp] theorem State.lay_log {bl code sev unit det : Nat} : (s.log bl code sev unit det).lay = s.lay := by
  unfold State.log
  generalize (if unit = 0xFF then none else some unit) = m
  dsimp only
  split <;> simp
@[simp] theorem State.atn_log {bl code sev unit det : Nat} : (s.log bl code sev unit det).atn = s.atn := by
  unfold State.log
  generalize (if unit = 0xFF then none else some unit) = m
  dsimp only
  split <;> simp
@[simp] theorem State.kvc_log {bl code sev unit det : Nat} : (s.log bl code sev unit det).kvc = s.kvc := by
  unfold State.log
  generalize (if unit = 0xFF then none else some unit) = m
  dsimp only
  split <;> simp
@[simp] theorem State.bml_log {bl code sev unit det : Nat} : (s.log bl code sev unit det).bml = s.bml := by
  unfold State.log
  generalize (if unit = 0xFF then none else some unit) = m
  dsimp only
  split <;> simp
@[simp] theorem State.mem_log {bl code sev unit det : Nat} : (s.log bl code sev unit det).mem = s.mem := by
  unfold State.log
  generalize (if unit = 0xFF then none else some unit) = m
  dsimp only
  split <;> simp
@[simp] theorem State.saf_log {bl code sev unit det : Nat} : (s.log bl code sev unit det).saf = s.saf := by
  unfold State.log
  generalize (if unit = 0xFF then none else some unit) = m
  dsimp only
  split <;> simp
@[simp] theorem State.chk_log {bl code sev unit det : Nat} : (s.log bl code sev unit det).chk = s.chk := by
  unfold State.log
  generalize (if unit = 0xFF then none else some unit) = m
  dsimp only
  split <;> simp
@[simp] theorem State.boot_log {bl code sev unit det : Nat} : (s.log bl code sev unit det).boot = s.boot := by
  unfold State.log
  generalize (if unit = 0xFF then none else some unit) = m
  dsimp only
  split <;> simp
@[simp] theorem State.sec_log {bl code sev unit det : Nat} : (s.log bl code sev unit det).sec = s.sec := by
  unfold State.log
  generalize (if unit = 0xFF then none else some unit) = m
  dsimp only
  split <;> simp
@[simp] theorem State.hst_log {bl code sev unit det : Nat} : (s.log bl code sev unit det).hst = s.hst := by
  unfold State.log
  generalize (if unit = 0xFF then none else some unit) = m
  dsimp only
  split <;> simp
@[simp] theorem State.pwr_log {bl code sev unit det : Nat} : (s.log bl code sev unit det).pwr = s.pwr := by
  unfold State.log
  generalize (if unit = 0xFF then none else some unit) = m
  dsimp only
  split <;> simp
@[simp] theorem State.out_log {bl code sev unit det : Nat} : (s.log bl code sev unit det).out = s.out := by
  unfold State.log
  generalize (if unit = 0xFF then none else some unit) = m
  dsimp only
  split <;> simp
@[simp] theorem State.free_log {bl code sev unit det : Nat} : (s.log bl code sev unit det).free = s.free := by
  unfold State.log
  generalize (if unit = 0xFF then none else some unit) = m
  dsimp only
  split <;> simp
@[simp] theorem State.byte_log {bl code sev unit det : Nat} : (s.log bl code sev unit det).byte n = s.byte n := by
  unfold State.byte; simp
@[simp] theorem State.queue_log {bl code sev unit det : Nat} : (s.log bl code sev unit det).queue n = s.queue n := by
  unfold State.queue; simp

/-! ## The lifetime record (R366): OBS's own state alone -/

@[simp] theorem State.pending_life : (s.life a n).pending = s.pending := by unfold State.life; dsimp only; split <;> rfl
@[simp] theorem State.regs_life : (s.life a n).regs = s.regs := by unfold State.life; dsimp only; split <;> rfl
@[simp] theorem State.tim_life : (s.life a n).tim = s.tim := by unfold State.life; dsimp only; split <;> rfl
@[simp] theorem State.ing_life : (s.life a n).ing = s.ing := by unfold State.life; dsimp only; split <;> rfl
@[simp] theorem State.queues_life : (s.life a n).queues = s.queues := by unfold State.life; dsimp only; split <;> rfl
@[simp] theorem State.glz_life : (s.life a n).glz = s.glz := by unfold State.life; dsimp only; split <;> rfl
@[simp] theorem State.pts_life : (s.life a n).pts = s.pts := by unfold State.life; dsimp only; split <;> rfl
@[simp] theorem State.lft_life : (s.life a n).lft = s.lft := by unfold State.life; dsimp only; split <;> rfl
@[simp] theorem State.spc_life : (s.life a n).spc = s.spc := by unfold State.life; dsimp only; split <;> rfl
@[simp] theorem State.spcGold_life : (s.life a n).spcGold = s.spcGold := by unfold State.life; dsimp only; split <;> rfl
@[simp] theorem State.slv_life : (s.life a n).slv = s.slv := by unfold State.life; dsimp only; split <;> rfl
@[simp] theorem State.tgs_life : (s.life a n).tgs = s.tgs := by unfold State.life; dsimp only; split <;> rfl
@[simp] theorem State.arr_life : (s.life a n).arr = s.arr := by unfold State.life; dsimp only; split <;> rfl
@[simp] theorem State.lay_life : (s.life a n).lay = s.lay := by unfold State.life; dsimp only; split <;> rfl
@[simp] theorem State.atn_life : (s.life a n).atn = s.atn := by unfold State.life; dsimp only; split <;> rfl
@[simp] theorem State.kvc_life : (s.life a n).kvc = s.kvc := by unfold State.life; dsimp only; split <;> rfl
@[simp] theorem State.bml_life : (s.life a n).bml = s.bml := by unfold State.life; dsimp only; split <;> rfl
@[simp] theorem State.mem_life : (s.life a n).mem = s.mem := by unfold State.life; dsimp only; split <;> rfl
@[simp] theorem State.saf_life : (s.life a n).saf = s.saf := by unfold State.life; dsimp only; split <;> rfl
@[simp] theorem State.chk_life : (s.life a n).chk = s.chk := by unfold State.life; dsimp only; split <;> rfl
@[simp] theorem State.boot_life : (s.life a n).boot = s.boot := by unfold State.life; dsimp only; split <;> rfl
@[simp] theorem State.sec_life : (s.life a n).sec = s.sec := by unfold State.life; dsimp only; split <;> rfl
@[simp] theorem State.hst_life : (s.life a n).hst = s.hst := by unfold State.life; dsimp only; split <;> rfl
@[simp] theorem State.pwr_life : (s.life a n).pwr = s.pwr := by unfold State.life; dsimp only; split <;> rfl
@[simp] theorem State.out_life : (s.life a n).out = s.out := by unfold State.life; dsimp only; split <;> rfl
@[simp] theorem State.free_life : (s.life a n).free = s.free := by unfold State.life; dsimp only; split <;> rfl

@[simp] theorem State.reg_life {k : Nat} : (s.life a n).reg k = s.reg k := by unfold State.reg; simp
@[simp] theorem State.get_life : (s.life a n).get f = s.get f := State.get_of_regs (by simp)
@[simp] theorem State.byte_life {k : Nat} : (s.life a n).byte k = s.byte k := by unfold State.byte; simp


/-! ## A state written out with some fields new: its registers, queues and memory are those it names -/

@[simp] theorem State.get_mk {pending'}{tim'}{ing'}{queues'}{glz'}{pts'}{lft'}{spc'}{spcGold'}{slv'}{tgs'}{arr'}{lay'}{atn'}{kvc'}{bml'}{mem'}{saf'}{chk'}{boot'}{sec'}{hst'}{pwr'}{obs'}{out'}{free'} : (State.mk pending' s.regs tim' ing' queues' glz' pts' lft' spc' spcGold' slv' tgs' arr' lay' atn' kvc' bml' mem' saf' chk' boot' sec' hst' pwr' obs' out' free').get f = s.get f := rfl
@[simp] theorem State.reg_mk {pending'}{tim'}{ing'}{queues'}{glz'}{pts'}{lft'}{spc'}{spcGold'}{slv'}{tgs'}{arr'}{lay'}{atn'}{kvc'}{bml'}{mem'}{saf'}{chk'}{boot'}{sec'}{hst'}{pwr'}{obs'}{out'}{free'} : (State.mk pending' s.regs tim' ing' queues' glz' pts' lft' spc' spcGold' slv' tgs' arr' lay' atn' kvc' bml' mem' saf' chk' boot' sec' hst' pwr' obs' out' free').reg n = s.reg n := rfl
@[simp] theorem State.queue_mk {pending'}{regs'}{tim'}{ing'}{glz'}{pts'}{lft'}{spc'}{spcGold'}{slv'}{tgs'}{arr'}{lay'}{atn'}{kvc'}{bml'}{mem'}{saf'}{chk'}{boot'}{sec'}{hst'}{pwr'}{obs'}{out'}{free'} : (State.mk pending' regs' tim' ing' s.queues glz' pts' lft' spc' spcGold' slv' tgs' arr' lay' atn' kvc' bml' mem' saf' chk' boot' sec' hst' pwr' obs' out' free').queue n = s.queue n := rfl
@[simp] theorem State.byte_mk {pending'}{regs'}{tim'}{ing'}{queues'}{glz'}{pts'}{lft'}{spc'}{spcGold'}{slv'}{tgs'}{arr'}{lay'}{atn'}{kvc'}{bml'}{saf'}{chk'}{boot'}{sec'}{hst'}{pwr'}{obs'}{out'}{free'} : (State.mk pending' regs' tim' ing' queues' glz' pts' lft' spc' spcGold' slv' tgs' arr' lay' atn' kvc' bml' s.mem saf' chk' boot' sec' hst' pwr' obs' out' free').byte n = s.byte n := rfl

end Sys2Proof.Machine
end

