-- ==== Sys2Proof/Laws/Queues.lean ====
section
/-! SUPPORT. Lists updated in place, and what freeing queue space leaves alone. -/

namespace Sys2Proof.Machine

/-- An element updated in place is read back updated. -/
theorem getD_modifyAt {α : Type} {f : α → α} {l : List α} {i : Nat} {d : α} (h : i < l.length) :
    (modifyAt f i l).getD i d = f (l.getD i d) := by
  induction l generalizing i with
  | nil => simp at h
  | cons x r ih =>
    cases i with
    | zero => simp [modifyAt]
    | succ n => simp only [modifyAt, List.getD_cons_succ]; exact ih (by simpa using h)

/-- Another element is not. -/
theorem getD_modifyAt_ne {α : Type} {f : α → α} {l : List α} {i j : Nat} {d : α} (h : i ≠ j) :
    (modifyAt f i l).getD j d = l.getD j d := by
  induction l generalizing i j with
  | nil => simp [modifyAt]
  | cons x r ih =>
    cases i with
    | zero =>
      cases j with
      | zero => exact absurd rfl h
      | succ m => simp [modifyAt]
    | succ n =>
      cases j with
      | zero => simp [modifyAt]
      | succ m => simp only [modifyAt, List.getD_cons_succ]; exact ih (fun e => h (by rw [e]))

theorem getD_of_some {α : Type} {l : List (Option α)} {i : Nat} {m : α} (h : l.getD i none = some m) : i < l.length := by
  rcases Nat.lt_or_ge i l.length with h1 | h1
  · exact h1
  · rw [List.getD_eq_default _ _ h1] at h; simp at h

theorem Queue.free_marks {x : Queue} : x.free.marks = x.marks := by
  unfold Queue.free; dsimp only; split <;> rfl
theorem Queue.free_rdWord {x : Queue} : x.free.rdWord = x.rdWord := by
  unfold Queue.free; dsimp only; split <;> rfl
theorem Queue.free_rdByte {x : Queue} : x.free.rdByte = x.rdByte := by
  unfold Queue.free; dsimp only; split <;> rfl

/-- The reset of a queue, written out (R62). -/
theorem State.queueReset_eq {s : State} {q : Nat} : s.queueReset q = (((((s.setQueue q
    { words := [mkWord (gapMarker q 0xFFFFFFFF 0 1) 64 true false]
      base := (s.queue q).wr + (if (s.queue q).packing.isEmpty then 0 else 1)
      rdWord := (s.queue q).wr + (if (s.queue q).packing.isEmpty then 0 else 1)
      marks := (s.queue q).marks.map (fun m => m.map (fun _ => ((s.queue q).wr + (if (s.queue q).packing.isEmpty then 0 else 1), 0)))
      pendItems := (s.queue q).pendItems, pendBytes := (s.queue q).pendBytes, timer := (s.queue q).timer
      resetAt := some s.pwr.refclk }).sqErr q
    F.SQ_EVENT_PTR_MISMATCH).satInc (F.SQ_QDROP_RESETS q)).log wSQ 3 2 0xFF q).detect cCONTAINED 0xFF q) := rfl

/-- A register outside the OBS window, as State.reg_count wants it. -/
theorem windowOf_ne_obs {a : Nat} (ha : windowOf a ≠ some wOBS) : a < 0xE00170000 ∨ 0xE00180000 ≤ a := by
  by_contra hc
  apply ha
  have h : windowBase ≤ a ∧ a < windowBase + 25 * 65536 := by unfold windowBase; omega
  have e : (a - windowBase) / 65536 = wOBS := by
    have : a - windowBase = a - 60129542144 := rfl
    rw [this]; show _ = 23; omega
  unfold windowOf
  rw [if_pos h, e]

end Sys2Proof.Machine
end

