-- ==== Sys2Proof/Laws/Sending.lean ====
section
/-! SUPPORT. What sending on the Ethernet ports can change (R29, 02; R318, 19; R333, 20): the state of TIM, the registers, what has left
the device, and SEC's packet numbers, and nothing else. -/

namespace Sys2Proof.Machine

variable {s t u : State}

/-- t differs from s at most in TIM's state, the registers, what has left the device, and SEC's state. -/
def State.Sends (s t : State) : Prop := t = { s with tim := t.tim, regs := t.regs, out := t.out, sec := t.sec }

theorem State.Sends.rfl : State.Sends s s := by cases s; exact Eq.refl _

theorem State.Sends.trans (h : State.Sends s t) (h' : State.Sends t u) : State.Sends s u := by
  refine Eq.trans h' ?_
  rw [h]

theorem State.Sends.ite {c : Prop} [Decidable c] (h : State.Sends s t) (h' : State.Sends s u) :
    State.Sends s (if c then t else u) := by
  split <;> assumption

theorem State.Sends.put {f : Fld} {n : Nat} : State.Sends s (s.put f n) := Eq.refl _

theorem State.Sends.count {cls bit k pr : Nat} {m ad : Option Nat} : State.Sends s (s.count cls bit k m ad pr) :=
  (State.count_obs.1).trans (by rw [State.tim_count, State.out_count, State.sec_count])

theorem State.Sends.emit {o : Out} : State.Sends s (s.emit o) := Eq.refl _

theorem State.Sends.tim {x : Tim} : State.Sends s { s with tim := x } := Eq.refl _

theorem State.Sends.sec {x : Sec} : State.Sends s { s with sec := x } := Eq.refl _

theorem State.Sends.updTx {p : Nat} {f : TxPort → TxPort} : State.Sends s (s.updTx p f) := State.Sends.tim

theorem State.Sends.countPn {p : Nat} : State.Sends s (s.countPn p) := by
  unfold State.countPn
  exact .ite .sec .rfl

theorem State.Sends.judgeHead {p : Nat} : State.Sends s (s.judgeHead p) := State.Sends.tim

theorem State.Sends.ptpDeparts {p kind : Nat} {l : List Int} : State.Sends s (s.ptpDeparts p kind l) := by
  unfold State.ptpDeparts
  split
  · exact .emit
  · exact State.Sends.emit.trans .tim
  · exact State.Sends.emit.trans .updTx
  · exact .emit

theorem State.Sends.departs {p : Nat} {k : TxKind} : State.Sends s (s.departs p k) := by
  unfold State.departs
  split
  · exact ((State.Sends.emit.trans .put).trans .countPn).trans .count
  · exact ((State.Sends.emit.trans .put).trans .put).trans .count
  · exact .ptpDeparts
  · exact .emit
  · exact .emit
  · exact .emit
  · exact .rfl

theorem State.Sends.txTake {p : Nat} : State.Sends s (s.txTake p) := by
  unfold State.txTake
  dsimp only
  split
  · exact .rfl
  · split
    · exact .rfl
    · split
      · exact .rfl
      · exact .ite ((State.Sends.updTx.trans .departs).trans .judgeHead) (State.Sends.updTx.trans .departs)

/-- A frame becomes ready on a port. -/
theorem State.Sends.txSend {p : Nat} {x : TxItem} : State.Sends s (s.txSend p x) := State.Sends.updTx.trans .txTake

theorem State.Sends.sendFrame {p cls dst : Nat} {b : List Byte} : State.Sends s (s.sendFrame p cls dst b) := .ite .txSend .rfl

theorem State.Sends.sendFrames {p cls dst : Nat} {l : List (List Byte)} : State.Sends s (s.sendFrames p cls dst l) := by
  induction l generalizing s with
  | nil => exact .rfl
  | cons f r ih => exact State.Sends.sendFrame.trans ih

/-- A reply leaves, or waits for its turn. -/
theorem State.Sends.reply {p dst ty st q a b : Nat} {l : List Byte} : State.Sends s (s.reply p dst ty st q a b l) := .sendFrame

theorem State.Sends.noteTx {k : Nat} : State.Sends s (s.noteTx k) := State.Sends.tim

/-- A launch entry is queued, or refused (R29). -/
theorem State.Sends.queueLaunch {p : Nat} {e : Launch} : State.Sends s (s.queueLaunch p e) := by
  unfold State.queueLaunch
  dsimp only
  split
  · exact State.Sends.put.trans .put
  · exact .ite (State.Sends.tim.trans .judgeHead) .tim

end Sys2Proof.Machine
end

