-- ==== Sys2Proof/WellFormed.lean ====
section
/-! DEFINITION. Well-formed commands: every operand lies in the range that the spec gives the thing it names (ports, streams,
queues, slots, field widths, lengths). A command outside these ranges is none that the device can receive; its meaning is total
all the same. -/

namespace Sys2Proof

/-- A list of tile cells, one per cell of a tile (R145). -/
def cellsOk (l : List (BitVec 64)) : Bool := l.length == 1024

/-- The cells of a sentinel output: 128 by 128 (R275). -/
def sentOk (l : List SentCell) : Bool := l.length == 16384 && l.all (fun c => decide (c.occ < 256) && decide (c.eg < 256) && decide (c.egConf < 256))

/-- A commit request's items: at most 64, of a 16-bit identifier and a 64-bit value (R304). -/
def itemsOk (l : List (Nat × Nat)) : Bool := decide (l.length ≤ 64) && l.all (fun x => decide (x.1 < 2 ^ 16) && decide (x.2 < 2 ^ 64))

/-- The host channel of a commit request: port, source address, request identifier (R304, R335). -/
def channelOk : Option (Nat × Nat × Nat) → Bool
  | none => true
  | some (p, a, r) => decide (p < 2) && decide (a < 2 ^ 48) && decide (r < 2 ^ 32)

/-- A host frame's port, source address and request identifier (R322, R323). -/
def hostOk (port src reqId : Nat) : Bool := decide (port < 2) && decide (src < 2 ^ 48) && decide (reqId < 2 ^ 32)

/-- An Announce message's sender: the field widths of IEEE 802.1AS (R21). -/
def announcerOk (m : Announcer) : Bool :=
  decide (m.id < 2 ^ 64) && decide (m.prio1 < 256) && decide (m.accuracy < 256) && decide (m.variance < 2 ^ 16) && decide (m.prio2 < 256)
    && decide (m.steps < 2 ^ 16) && decide (m.sender < 2 ^ 80)

/-- The operands of a command lie in their ranges. -/
def Instr.wellFormed (i : Instr) : Bool :=
  match i with
  | .registerWrite a v h => decide (a < 2 ^ 40) && decide (v < 2 ^ 64) && (if h then a % 4 == 0 && decide (v < 2 ^ 32) else a % 8 == 0)
  | .timNowLowRead => true
  | .requiredUnitLoss u => match u with
    | .enabled w => decide (w < 25)
    | _ => true
  | .instanceOpen => true
  | .sync p d q _ _ _ l => decide (p < 2) && decide (d < 128) && decide (q < 65536) && decide (-128 ≤ l) && decide (l < 128)
  | .followUp p d q _ _ => decide (p < 2) && decide (d < 128) && decide (q < 65536)
  | .announce p d c m _ l => decide (p < 2) && decide (d < 128) && decide (c < 256) && announcerOk m && decide (-128 ≤ l) && decide (l < 128)
  | .pdelay p k _ => decide (p < 2) && decide (k < 3)
  | .signaling p => decide (p < 2)
  | .syncReceiptTimeout k p => decide (k < 2) && decide (p < 2)
  | .announceReceiptTimeout k p => decide (k < 2) && decide (p < 2)
  | .slewComplete => true
  | .acqTimeout => true
  | .holdoverLimit => true
  | .revert => true
  | .sensorPtpRx p _ => decide (p < 6)
  | .sensorAnnounceTx p => decide (p < 6)
  | .sensorSyncTx p => decide (p < 6)
  | .sensorPdelayTx p => decide (p < 6)
  | .launchRequest p _ _ d l => decide (p < 8) && decide (d < 2 ^ 48) && decide (l.length ≤ 1500)
  | .launch p => decide (p < 8)
  | .triggerEdge o => decide (o < 12)
  | .triggerPulseEnd o => decide (o < 12)
  | .frameStart r v n => decide (r < 12) && decide (v < 4) && decide (n < 65536)
  | .csiLine r v t l _ _ => decide (r < 12) && decide (v < 4) && decide (t < 64) && decide (l.length < 65536)
  | .frameEnd r v n => decide (r < 12) && decide (v < 4) && decide (n < 65536)
  | .embeddedData r v l _ => decide (r < 12) && decide (v < 4) && decide (l.length < 65536)
  | .frameEndTimeout i => decide (i < 64)
  | .lidarDatagram p l => decide (p < 6) && decide (l.length ≤ 1522)
  | .arpRequest p a b => decide (p < 6) && decide (a < 2 ^ 32) && decide (b < 2 ^ 32)
  | .canFrame c n _ _ _ l => decide (c < 4) && decide (n < 2 ^ 29) && decide (l.length ≤ 64)
  | .busOff c => decide (c < 4)
  | .busOffRecovery c => decide (c < 4)
  | .dataReadyEdge k => decide (k < 4)
  | .spiReadDone k l => decide (k < 4) && decide (l.length ≤ 64)
  | .encoderEdge k _ h _ => decide (k < 8) && decide (h < 2 ^ 32)
  | .encoderIdleTimeout i => decide (i < 64)
  | .absentTimeout i => decide (i < 64)
  | .discGraceEnd => true
  | .goldenLineInject r => decide (r < 12)
  | .goldenPacketInsert p => decide (p < 6)
  | .queueWrite q _ => decide (q < 1024)
  | .flushStrobe q => decide (q < 1024)
  | .pendingMarkerStore q => decide (q < 1024)
  | .mark q k => decide (q < 1024) && decide (k < 4)
  | .rewind q k => decide (q < 1024) && decide (k < 4)
  | .release q k => decide (q < 1024) && decide (k < 4)
  | .read q _ _ _ => decide (q < 1024)
  | .readTimeout q => decide (q < 1024)
  | .pointerMismatch q => decide (q < 1024)
  | .pointItemRead k => decide (k.src < 16)
  | .intakeEnd => true
  | .partCompensate k => decide (k < 16)
  | .poseWaitTimeout k => decide (k < 16)
  | .tableClose => true
  | .tableFree => true
  | .sparseConvStart _ => true
  | .dilate _ => true
  | .stagingBlock _ => true
  | .outputBlock _ => true
  | .lftItemRead c => decide (c.src < 16)
  | .backboneDone k _ => decide (k < 32) || k == 255
  | .lift => true
  | .liftBlockEmit => true
  | .liftDone => true
  | .egoSampleRead q => decide (q.src < 1024)
  | .registrationRecord => true
  | .updateRecord => true
  | .egoIntakeClose => true
  | .asmBudgetExpiry _ => true
  | .egoIterationDone => true
  | .egoSolveDone _ => true
  | .egoPublish => true
  | .baStart v => decide (v < 2 ^ 64)
  | .baAbort v => decide (v < 2 ^ 64)
  | .baStepDone => true
  | .baTimeout => true
  | .warpStart => true
  | .tileHeadsDone c t l _ => decide (c < 2 ^ 32) && decide (t < 256) && cellsOk l
  | .compareDone c t => decide (c < 2 ^ 32) && decide (t < 256)
  | .amendWindowClose => true
  | .amendRecompute t l => decide (t < 256) && cellsOk l.cells
  | .reuseDeadline => true
  | .tokenReceive l => l.length == 16
  | .entryFire u g k t => decide (u < 104) && decide (g < 16) && decide (k < 4) && decide (t < 256)
  | .entryComplete u g k _ a => decide (u < 104) && decide (g < 16) && decide (k < 4) && decide (a < 2 ^ 64)
  | .creditReturn e => decide (e < 65536)
  | .squashDone => true
  | .budgetOverrun c k => decide (c < 10) && decide (k < 2 ^ 32)
  | .tileOperationDone t f _ => decide (t < 64) && decide (f < 4)
  | .chainStoreDone t _ f _ => decide (t < 64) && decide (f < 4)
  | .pralineAccess c p _ a n v e => decide (c < 32) && decide (p < 3) && decide (a < 2 ^ 40) && decide (1 ≤ n) && decide (n ≤ 64) && decide (v < 2 ^ (8 * n)) && decide (e < 3)
  | .eccWriteBack b => decide (b < 64)
  | .scrub b e => decide (b < 64) && decide (e < 3)
  | .ddrScrub c e => decide (c < 8) && decide (e < 3)
  | .alertN c a _ => decide (c < 8) && decide (a < 2 ^ 40)
  | .scoreDone => true
  | .normDone k _ => decide (k < 16)
  | .valueDone k _ => decide (k < 16)
  | .gradientDone k _ => decide (k < 16)
  | .generationChange => true
  | .shadowCopyDone => true
  | .dropRange => true
  | .share => true
  | .renumber => true
  | .clear => true
  | .undefine => true
  | .commit => true
  | .walk _ _ b => match b with
    | none => true
    | some p => decide (p.1 < 32768)
  | .append => true
  | .prefetch => true
  | .trainingStart p => decide (p < 6)
  | .trainingDone p d _ => decide (p < 6) && decide (d < 64)
  | .trainingTimeout p => decide (p < 6)
  | .linkTimeout p => decide (p < 6)
  | .laneLockLoss p => decide (p < 6)
  | .flit p l => decide (p < 6) && l.length == 72
  | .nackFlit p a => decide (p < 6) && decide (a < 4096)
  | .creditFlit p v n a => decide (p < 6) && decide (v < 2) && decide (n < 256) && decide (a < 4096)
  | .keepalive p a _ _ => decide (p < 6) && decide (a < 4096)
  | .keepaliveTx p => decide (p < 6)
  | .dispatchCommand l r _ => decide (l < 8) && r.all (fun x => decide (x < 2 ^ 64))
  | .dispatch => true
  | .result => true
  | .refuse => true
  | .serve l k _ => decide (l < 8) && decide (k < 32)
  | .combineDeadline l _ => decide (l < 8)
  | .remoteCopy c d x t => decide (c < 32) && decide (d < 2 ^ 40) && decide (x < 64) && decide (t < 2 ^ 40)
  | .copy _ => true
  | .copyDone => true
  | .nack => true
  | .copyTimeout => true
  | .sentinelRun c => decide (c < 2 ^ 32)
  | .sentinelDone c l => decide (c < 2 ^ 32) && sentOk l.cells && decide (l.fault < 3)
  | .goldenCompareDone n _ => decide (n < 2 ^ 32)
  | .goldenSpan => true
  | .guardTileIssue l => sentOk l
  | .heartbeatTimeout => true
  | .watchdogService => true
  | .watchdogExpiry => true
  | .lockstep _ => true
  | .safSelf => true
  | .safePath => true
  | .env n => decide (n < 8)
  | .noticeRepeat => true
  | .commitNextBoundary h n l _ => channelOk h && decide (n < 2 ^ 32) && itemsOk l
  | .commitAtTime h n _ l _ => channelOk h && decide (n < 2 ^ 32) && itemsOk l
  | .commitCancel h n _ => channelOk h && decide (n < 2 ^ 32)
  | .commitCheckDone => true
  | .commitApply => true
  | .powerOnReset => true
  | .resetN => true
  | .pwrGoodLow => true
  | .warm => true
  | .resetRelease _ _ _ _ b => decide (b < 4)
  | .bistDone _ c t u b p => decide (c < 2 ^ 32) && decide (t < 2 ^ 64) && decide (u < 2 ^ 64) && decide (b < 2 ^ 64) && decide (p < 64)
  | .ddrTrainingDone c => decide (c < 256)
  | .imageLoadDone _ l => decide (l < 2 ^ 32)
  | .rollbackAdvance t => decide (t < 128)
  | .rollbackFuseBlown => true
  | .attestReq p a r n f => hostOk p a r && decide (n.length ≤ 1476) && decide (f < 256)
  | .quoteReady => true
  | .challengeRead => true
  | .responseWrite l => l.length == 16280
  | .debugVerifyDone => true
  | .keyProvWrite k n => k.length == 32 && n.length == 16
  | .cakRevoke k => decide (k < 4)
  | .decommission => true
  | .debugDisableBlow => true
  | .tamperTrip m r => decide (m < 6) && decide (r < 8)
  | .mkaHello p => decide (p < 2)
  | .macsecDrop p => decide (p < 2)
  | .statusRead p a r => hostOk p a r
  | .tileRead p a r c o m => hostOk p a r && decide (c < 2 ^ 32) && decide (o < 256) && decide (m < 2 ^ 256)
  | .tuneStage p a r q f l => hostOk p a r && decide (q < 2 ^ 32) && decide (f < 256) && itemsOk l
  | .tuneCommit p a r h => hostOk p a r && decide (h.length ≤ 1476)
  | .heartbeat p a r q f => hostOk p a r && decide (q < 2 ^ 32) && decide (f < 2 ^ 32)
  | .heartbeatResetReq p a r q _ => hostOk p a r && decide (q < 2 ^ 32)
  | .heartbeatResetConfirm p a r q n _ => hostOk p a r && decide (q < 2 ^ 32) && decide (n < 2 ^ 64)
  | .logReadErrorLog p a r i n => hostOk p a r && decide (i < 2 ^ 32) && decide (n < 65536)
  | .logReadStartRecord p a r => hostOk p a r
  | .logReadLifetime p a r => hostOk p a r
  | .malformedFrame p _ => decide (p < 2)
  | .trainBuild k c => decide (k < 8) && decide (c < 2 ^ 32)
  | .hostLinkDown p _ => decide (p < 2)
  | .hostLinkUp p => decide (p < 2)
  | .tc10SleepRequest p => decide (p < 2)
  | .tc10Wake p => decide (p < 2)
  | .wakeN => true
  | .wakeAlarm => true
  | .wakeDone l => l.all (fun a => a % 64 == 0)
  | .standbyWake => true
  | .pllReady k => decide (k < 4)
  | .clkSrcWrite v => decide (v < 2 ^ 64)
  | .refclkLoss => true
  | .refclkRecovery _ => true
  | .vidStep _ => true
  | .errorLogDrain => true
  | .lifetimeInterval _ t d _ => decide (t < 16) && decide (d < 16)
  | .sectorEraseDone => true
  | .hostPdelayTx p => decide (p < 2)
  | .sensorPdelay p k _ => decide (p < 6) && decide (k < 3)
  | .mkpdu p k _ => decide (p < 2) && decide (k < 2)
  | .tc10SleepAck p => decide (p < 2)
  | .tc10SleepTimeout p => decide (p < 2)
  | .linkEnergy p => decide (p < 2)
  | .dozeEntryDone l => l.all (fun a => a % 64 == 0)
  | .pageCopyEnd p => decide (p < 32768)
  | .vddAonFall => true

end Sys2Proof
end

