-- ==== Sys2Proof/Tests/Slice0.lean ====
section
/-! SUPPORT. Tests: ill-formed commands that the check refuses, a few values that the spec gives, and for every clause of a
statement that has hypotheses a state and operands that meet them. -/

set_option Elab.async false

namespace Sys2Proof
open Machine

/-! ## States -/

/-- Write fields of a state, one after another. -/
def Tests.cfg (s : State) (l : List (Fld × Nat)) : State := l.foldl (fun t p => t.put p.1 p.2) s
/-- A device in operation with every block on and one stream queue. -/
def Tests.up : State :=
  Tests.cfg { State.reset with
      boot := { State.reset.boot with step := .up, running := none, level := some 3, cores := 2 ^ 32 - 1, locked := true, entry := some 0 }
      tim := { State.reset.tim with streamsUp := true, time := 5000000000 }
      pwr := { State.reset.pwr with refclk := 125000000 } }
    [(F.CLK_EN_EN, 2 ^ 25 - 1), (F.ARR_PRESENT_MASK, 2 ^ 64 - 1), (F.NGT_STATUS_READY, 1), (F.NGT_STATUS_BANKS_OK, 64),
     (F.SQ_QCFG_ENABLE 5, 1), (F.SQ_QCFG_SIZE 5, 8), (F.SQ_QCFG_PACKING 5, 1),
     (F.GLZ_CTRL_ENABLE, 1), (F.PTS_CTRL_ENABLE, 1), (F.SLV_CTRL_ENABLE, 1), (F.LFT_CTRL_ENABLE, 1), (F.ARR_CTRL_ENABLE, 1),
     (F.TGS_CTRL_ENABLE, 1), (F.ATN_CTRL_ENABLE, 1), (F.KVC_CTRL_ENABLE, 1), (F.LAY_CTRL_ENABLE, 1), (F.CHK_CTRL_ENABLE, 1),
     (F.BML_CTRL_ENABLE, 1), (F.OBS_CTRL_ENABLE, 1), (F.ING_CTRL_CSI_EN, 0xFFF), (F.ING_CTRL_ETH_EN, 0x3F), (F.ING_CTRL_ENC_EN, 0xFF)]
/-- A UDP datagram of four payload bytes in an Ethernet frame to address 0. -/
def Tests.udp (port : Nat) (p : List Byte) : List Byte :=
  zeroBytes 12 ++ [8, 0, 0x45, 0, 0, 0x20, 0, 0, 0, 0, 0, 17, 0xBA, 0xCE] ++ zeroBytes 8
    ++ [0, 0, BitVec.ofNat 8 (port / 256), BitVec.ofNat 8 port, 0, 12, 0, 0] ++ p
/-- Two golden entries, a burst in progress and a lidar frame armed. -/
def Tests.golden : State :=
  let s := Tests.cfg Tests.up [(F.ING_CTRL_GOLDEN_EN, 1), (F.ING_STR_CFG_ENABLE 3, 1), (F.ING_STR_CFG_SOURCE 3, 2), (F.ING_STR_STAT_STATE 3, 2),
    (F.ING_STR_CFG_ENABLE 9, 1), (F.ING_STR_CFG_KIND 9, 1), (F.ING_STR_CFG_SOURCE 9, 1), (F.ING_STR_STAT_STATE 9, 2)]
  let s := { s with ing := { s.ing with bursts := [{ rx := 2, num := 0, entry := 0 }] }
                    saf := { s.saf with golden := [{ num := 1, entry := 1, extra := false, kind := 1 }] } }
  (s.writeBytes 4 [2, 0, 4, 0]).writeBytes 66 [2, 0, 1, 0, 4, 0]
/-- The header of an ingest item of four payload bytes. -/
def Tests.item (stream flags : Nat) : List Byte := zeroBytes 8 ++ natLe 2 4 ++ natLe 1 stream ++ natLe 1 flags ++ zeroBytes 4
/-- An instance whose window is open, its table, a lidar with an item in its queue, and a completed part. -/
def Tests.lidar : State :=
  let s := Tests.cfg Tests.up [(F.PTS_LIDAR_CFG_ENABLE 0, 1), (F.PTS_LIDAR_CFG_STREAM 0, 9), (F.ING_STR_CFG_ENABLE 9, 1), (F.ING_STR_CFG_KIND 9, 1),
    (F.ING_STR_CFG_SOURCE 9, 1), (F.ING_STR_CFG_QUEUE 9, 5), (F.ING_STR_STAT_STATE 9, 2)]
  let s := { s with
    glz := { s.glz with fresh := false, insts := [{ cycle := 7, tov := 100, deadline := 200, winStart := 0, openedAt := 0 }] }
    pts := { s.pts with
      wins := [{ cycle := 7, saved := [], geom := (0, 0), ext := [] }], tables := [{ index := 0, cycle := 7, p := 0 }]
      parts := [{ cycle := 7, slot := 0, slice := 0, mid := 5 }] } }
  s.setQueue 5 { words := [mkWord (padTo 64 (Tests.item 9 0 ++ [1, 2, 3, 4])) 20 false false] }
/-- A convolution at its first layer. -/
def Tests.conv : Spc := { table := { index := 0, cycle := 7, p := 0, closed := true }, ego := (256, 256), cell := 1, geom := (0, 0) }
/-- A camera slot with an item of the given flags in its queue. -/
def Tests.camera (flags : Nat) : State :=
  (Tests.cfg Tests.up [(F.LFT_CAM_CFG_ENABLE 0, 1), (F.LFT_CAM_CFG_STREAM 0, 9), (F.ING_STR_CFG_ENABLE 9, 1), (F.ING_STR_CFG_QUEUE 9, 5),
    (F.ING_STR_STAT_STATE 9, 2)]).setQueue 5 { words := [mkWord (padTo 64 (Tests.item 9 flags ++ [1, 2, 3, 4])) 20 false false] }
/-- A lift in progress over a table of one run with no entry. -/
def Tests.lifting : State :=
  let s := Tests.cfg Tests.up [(F.LFT_CTRL_LIFT_BUFS, 4)]
  { s.writeBytes (s.tableBase 0 0) [1] with
    lft := { lifting := some { bank := 0, frame := { cam := 0, slot := 0, stream := 9, startSeq := 0, stamp := 5, norm := 0, gain := 0, phase := .columns } } } }
/-- An instance in flight, its ToV passed. -/
def Tests.opened : State :=
  { Tests.up with glz := { Tests.up.glz with
      fresh := false, insts := [{ cycle := 7, tov := 100, deadline := 200, winStart := 0, openedAt := 0 }] } }
/-- A commit waiting for the next boundary. -/
def Tests.commit : Commit := { host := none, id := 1, atTime := false, items := [], crcOk := true }
/-- That instance with its warp made. -/
def Tests.warpedInst : Inst := { cycle := 7, tov := 100, deadline := 200, winStart := 0, openedAt := 0, warped := true, pillarDone := true }
def Tests.warped : State := { Tests.opened with glz := { Tests.opened.glz with insts := [Tests.warpedInst] } }
/-- A composed tile. -/
def Tests.tile : Tile :=
  { index := 3, seq := 0, tov := 100, age := 0, domain := 0, included := 0, excluded := 0, flags := 0, amend := 0, cycle := 7, cells := [] }
/-- The instance with tile 3 composed and in the given phase. -/
def Tests.tileInst (p : TilePhase) : Inst :=
  { Tests.warpedInst.updTile 3 (fun x => { x with phase := p, tile := some Tests.tile, pendingAmend := p == .issued }) with
    amendClosed := p == .issued }
def Tests.comparing (p : TilePhase) : State :=
  { Tests.opened with
    glz := { Tests.opened.glz with insts := [Tests.tileInst p] }, chk := { Tests.opened.chk with sentinels := [{ cycle := 7, cells := [] }] } }
/-- The ego kind running, with a CAN FD item in queue 5. -/
def Tests.ego : State :=
  (Tests.cfg Tests.up [(F.SLV_CTRL_EGO_EN, 1), (F.ING_STR_CFG_ENABLE 9, 1), (F.ING_STR_CFG_KIND 9, 2), (F.ING_STR_CFG_QUEUE 9, 5), (F.SLV_QUEUES_REG_Q, 6),
    (F.SLV_QUEUES_UPD_Q, 6), (F.SLV_TIMING_NODE_PERIOD, 5000000), (F.SQ_QCFG_ENABLE 6, 1), (F.SQ_QCFG_SIZE 6, 8)]).setQueue 5
    { words := [mkWord (padTo 64 (Tests.item 9 0 ++ [1, 2, 3, 4])) 20 false false] }
def Tests.egoPast : State := { Tests.ego with slv := { closed := some 1000 } }
/-- A registration record in queue 6; a node whose interval contains its time; a record that fails its CRC. -/
def Tests.reg : State := Tests.ego.setQueue 6 { words := [mkWord (withCrc (zeroBytes 60)) 64 false false] }
def Tests.regIn : State := { Tests.reg with slv := { nodes := [{ time := 10, prev := 0 }] } }
def Tests.regBad : State := Tests.ego.setQueue 6 { words := [mkWord (List.replicate 64 1) 64 false false] }
/-- An update record of a segment in queue 6, without and with its CRC. -/
def Tests.upd : State := (Tests.ego.put F.SLV_CTRL_ASM_EN 0).setQueue 6
  { words := [{ mkWord (zeroBytes 10 ++ [1] ++ zeroBytes 53) 64 false false with poison := true }, mkWord (zeroBytes 64) 60 false false] }
def Tests.updHead : List Byte := zeroBytes 8 ++ [39, 0, 1] ++ zeroBytes 49
def Tests.updBytes : List Byte := Tests.updHead ++ natLe 4 1018040055 ++ zeroBytes 60
theorem Tests.updCrc1 : Tests.updHead.foldl crc32cByte 0xFFFFFFFF#32 = 4087118166#32 := by decide +kernel
theorem Tests.updCrc2 : (zeroBytes 60).foldl crc32cByte 4087118166#32 = 3276927240#32 := by decide +kernel
theorem Tests.updCrc : (crc32c (Tests.updBytes.take 60 ++ Tests.updBytes.drop 64) == leAt Tests.updBytes 60 4) = true := by
  have e : Tests.updBytes.take 60 ++ Tests.updBytes.drop 64 = Tests.updHead ++ zeroBytes 60 := by decide +kernel
  rw [e, crc32c, List.foldl_append, Tests.updCrc1, Tests.updCrc2]
  decide +kernel
def Tests.updOk : State :=
  ((Tests.ego.put F.SLV_CTRL_ASM_EN 0).put F.SLV_CTRL_WINDOW 2).setQueue 6 { words := [mkWord (Tests.updBytes.take 64) 64 false false, mkWord (zeroBytes 64) 60 false false] }
def Tests.solving (x : EgoSolve) : State := { Tests.ego with slv := { solve := some x } }
/-- A write and a read descriptor without positions, and what LAY makes of them. -/
def Tests.wdesc : List Byte := ((zeroBytes 124).set 0 1 |>.set 2 1) ++ natLe 4 562652052
def Tests.rdesc : List Byte := (zeroBytes 124).set 2 1 ++ natLe 4 1436448427
theorem Tests.crc_split (a b : List Byte) (x y : BitVec 32) (h1 : a.foldl crc32cByte 0xFFFFFFFF#32 = x) (h2 : b.foldl crc32cByte x = y)
    (n : Nat) (h3 : (y ^^^ 0xFFFFFFFF#32).toNat = n) : crc32c (a ++ b) = n := by
  rw [crc32c, List.foldl_append, h1, h2, h3]
theorem Tests.wdesc_ok : crcOk Tests.wdesc = true := by
  have e0 : Tests.wdesc.take (Tests.wdesc.length - 4) = (((zeroBytes 124).set 0 1 |>.set 2 1).take 62) ++ zeroBytes 62 := by decide +kernel
  have e : crc32c (Tests.wdesc.take (Tests.wdesc.length - 4)) = 562652052 := by
    rw [e0]
    exact Tests.crc_split _ _ 298378035#32 3732315243#32 (by decide +kernel) (by decide +kernel) _ (by decide +kernel)
  unfold crcOk
  rw [e]
  decide +kernel
theorem Tests.rdesc_ok : crcOk Tests.rdesc = true := by
  have e0 : Tests.rdesc.take (Tests.rdesc.length - 4) = (((zeroBytes 124).set 2 1).take 62) ++ zeroBytes 62 := by decide +kernel
  have e : crc32c (Tests.rdesc.take (Tests.rdesc.length - 4)) = 1436448427 := by
    rw [e0]
    exact Tests.crc_split _ _ 490268821#32 2858518868#32 (by decide +kernel) (by decide +kernel) _ (by decide +kernel)
  unfold crcOk
  rw [e]
  decide +kernel
theorem Tests.wcheck (s : State) (unit : Nat) (a : Bool) (h : s.ctxAllowed 0 unit = true) : s.layCheck Tests.wdesc unit true a none = none := by
  have e1 : ∀ a o, layBadField Tests.wdesc a o = false := by decide +kernel
  have e2 : layIsWrite Tests.wdesc = true := by decide +kernel
  have e3 : layMisaligned Tests.wdesc = false := by decide +kernel
  have e4 : layInjective Tests.wdesc = true := by decide +kernel
  have e5 : layCtx Tests.wdesc = 0 := by decide +kernel
  have e6 : layGroup Tests.wdesc = 0 := by decide +kernel
  have o : layOwner Tests.wdesc = false := by decide +kernel
  have e7 : s.layExtent Tests.wdesc none = none := by
    simp only [State.layExtent, o, Bool.not_false, if_true]; decide +kernel
  simp only [State.layCheck, Tests.wdesc_ok, e1, e2, e3, e4, e5, e6, e7, h]
  simp
theorem Tests.rcheck (s : State) (unit : Nat) (h : s.ctxAllowed 0 unit = true) : s.layCheck Tests.rdesc unit false false none = none := by
  have e1 : ∀ a o, layBadField Tests.rdesc a o = false := by decide +kernel
  have e2 : layIsWrite Tests.rdesc = false := by decide +kernel
  have e3 : layMisaligned Tests.rdesc = false := by decide +kernel
  have e5 : layCtx Tests.rdesc = 0 := by decide +kernel
  have e6 : layGroup Tests.rdesc = 0 := by decide +kernel
  have o : layOwner Tests.rdesc = false := by decide +kernel
  have e7 : s.layExtent Tests.rdesc none = none := by
    simp only [State.layExtent, o, Bool.not_false, if_true]; decide +kernel
  simp only [State.layCheck, Tests.rdesc_ok, e1, e2, e3, e5, e6, e7, h]
  simp
theorem Tests.layWrite_gen (d : List Byte) (s : State) (u : LayUser) (data : List Byte) (p : Bool) (c : Option AddComb) (w : LaySel)
    (h2 : s.layCheck d u.unit true c.isSome none = none) (e8 : layIndexes (layDims d) none = []) (e6 : layGroup d = 0) :
    s.layWriteDesc u d none data p c false w = { s := if w.fin then s.modInc F.LAY_COUNTS_DESCRIPTORS else s, poison := p } := by
  simp only [State.layWriteDesc, h2, e8, State.layBegin, e6, laySelect, List.foldl_nil, List.reverse_nil, LayRun.close, bne_self_eq_false,
    Bool.false_and, Bool.or_self, Bool.false_eq_true, reduceIte]
theorem Tests.layWrite (s : State) (u : LayUser) (at_ : Nat) (rep : Option Nat) (data : List Byte) (p : Bool) (c : Option AddComb) (w : LaySel)
    (h0 : rep = none) (h1 : s.readBytes at_ 128 = Tests.wdesc) (h2 : s.ctxAllowed 0 u.unit = true) :
    s.layWrite u at_ rep data p c false w = { s := if w.fin then s.modInc F.LAY_COUNTS_DESCRIPTORS else s, poison := p } := by
  subst h0
  unfold State.layWrite
  rw [h1]
  exact Tests.layWrite_gen Tests.wdesc s u data p c w (Tests.wcheck s u.unit c.isSome h2) (by decide +kernel) (by decide +kernel)
theorem Tests.layRead_gen (d : List Byte) (s : State) (u : LayUser) (w : LaySel)
    (h2 : s.layCheck d u.unit false false none = none) (e8 : layIndexes (layDims d) none = []) (e6 : layGroup d = 0) :
    s.layReadDesc u d none false w = { s := if w.fin then s.modInc F.LAY_COUNTS_DESCRIPTORS else s } := by
  simp only [State.layReadDesc, h2, e8, State.layBegin, e6, laySelect, List.foldl_nil, List.reverse_nil, LayRun.close, bne_self_eq_false,
    Bool.false_and, Bool.or_self, Bool.false_eq_true, reduceIte]
theorem Tests.layRead (s : State) (u : LayUser) (at_ : Nat) (w : LaySel)
    (h1 : s.readBytes at_ 128 = Tests.rdesc) (h2 : s.ctxAllowed 0 u.unit = true) :
    s.layRead u at_ none false w = { s := if w.fin then s.modInc F.LAY_COUNTS_DESCRIPTORS else s } := by
  unfold State.layRead
  rw [h1]
  exact Tests.layRead_gen Tests.rdesc s u  w (Tests.rcheck s u.unit h2) (by decide +kernel) (by decide +kernel)
/-- The two descriptors at 0x1000 and 0x2000, context 0 open to every unit 0 and 101, a page from context address 0. -/
def Tests.lay : State :=
  let s := Tests.cfg Tests.up [(F.LAY_CTX_CFG_ENABLE 0, 1), (F.LAY_ALLOW_MASK0 0, 1), (F.LAY_ALLOW_MASK1 25, 1), (F.LAY_ALLOW_MASK0 16, 1), (F.ATN_CTRL_SCORE_SLOTS, 4)]
  { (s.writeBytes 0x1000 Tests.wdesc).writeBytes 0x2000 Tests.rdesc with lay := { store := [(0, 65549), (256, 14)] } }
def Tests.run : RunId := { graph := 0, slot := 3, epoch := 0, cycle := 7 }
/-- An operation list of unit 64 with one entry of the given COUNT; another of unit 0. -/
def Tests.list (count : Nat) : State :=
  let s := Tests.cfg Tests.opened [(F.TGS_LIST_BASE_BASE, 1), (F.TGS_EDGE_BASE_BASE, 2), (F.TGS_CTRL_GRAPHS, 1)]
  (s.writeBytes (16 * 64 + 4) [1]).writeBytes 0x10000 (withCrc (zeroBytes 4 ++ natLe 4 count ++ zeroBytes 20))
/-- An entry of unit 64 on one input, edge 5, whose consumer it is. -/
def Tests.edge : State :=
  let s := Tests.cfg Tests.opened [(F.TGS_LIST_BASE_BASE, 1), (F.TGS_EDGE_BASE_BASE, 2), (F.TGS_CTRL_GRAPHS, 1)]
  let s := (s.writeBytes (16 * 64 + 4) [1]).writeBytes 0x10000 (withCrc (zeroBytes 4 ++ natLe 4 1 ++ [0, 1, 0, 0, 5, 0] ++ zeroBytes 14))
  s.writeBytes (0x20000 + 40) (natLe 2 (64 * 128))
def Tests.token (edge : Nat) : List Byte := withCrc (natLe 2 edge ++ [0, 3] ++ natLe 4 7 ++ zeroBytes 4)
/-- A forward step descriptor whose Q and O descriptors are the two above: 32 channels, INT8. -/
def Tests.step : List Byte := [0, 0, 1, 0] ++ zeroBytes 76 ++ natLe 8 0x2000 ++ natLe 8 0x1000 ++ zeroBytes 32
theorem Tests.stepWrite_code (s : State) (st : AtnStep) (at_ : Nat) (rows : List (AtnRow × List Byte)) (fin : Bool)
    (h1 : s.readBytes at_ 128 = Tests.wdesc) (h2 : s.ctxAllowed 0 101 = true) : (s.stepWrite st at_ rows fin).code = none := by
  simp only [State.stepWrite, Tests.layWrite s (atnUser st.run) at_ none _ false none _ rfl h1 h2]
theorem Tests.stepRead_eq (s : State) (st : AtnStep) (at_ : Nat) (rows : List AtnRow) (fin : Bool)
    (h1 : s.readBytes at_ 128 = Tests.rdesc) (h2 : s.ctxAllowed 0 101 = true) :
    (s.stepRead st at_ rows fin).1 = { s := if fin then s.modInc F.LAY_COUNTS_DESCRIPTORS else s } := by
  simp only [State.stepRead, Tests.layRead s (atnUser st.run) at_ _ h1 h2]
/-- A step of one row without candidates, ready to be scored. -/
def Tests.scoreRow : AtnRow := { row := 0, seq := 0, k := 0, pos := 0, len := 0, cands := [] }
def Tests.scoreStep : AtnStep :=
  { id := 4, run := Tests.run, index := 0, desc := Tests.step, gen := 0, bank := 0, core := 2, seqIds := [], masks := [], grads := []
    rows := [Tests.scoreRow], walks := [(0, [], true)] }
def Tests.scoring : State := { Tests.lay with atn := { steps := [Tests.scoreStep] } }
theorem Tests.scoreQ : (Tests.scoring.stepRead Tests.scoreStep (leAt Tests.scoreStep.desc 80 5) [Tests.scoreRow] true).1
    = { s := Tests.scoring.modInc F.LAY_COUNTS_DESCRIPTORS } :=
  Tests.stepRead_eq _ _ _ _ _ (by decide +kernel) (by decide +kernel)
abbrev Tests.scoreIn := Tests.scoring.stepInputs Tests.scoreStep [Tests.scoreRow] (decide (Tests.scoreStep.rows.length ≤ [Tests.scoreRow].length))
theorem Tests.scoreAll : Tests.scoreIn.1.1 = { s := Tests.scoring.modInc F.LAY_COUNTS_DESCRIPTORS } ∧
    Tests.scoreIn.2.1.1 = { s := Tests.scoring.modInc F.LAY_COUNTS_DESCRIPTORS } ∧ Tests.scoreIn.2.2.1 = { s := Tests.scoring.modInc F.LAY_COUNTS_DESCRIPTORS } := by
  have e : sdBackward Tests.scoreStep.desc = false := by decide +kernel
  have d : decide (Tests.scoreStep.rows.length ≤ [Tests.scoreRow].length) = true := by decide +kernel
  simp only [Tests.scoreIn, State.stepInputs, d, Tests.scoreQ, e, Bool.false_eq_true, reduceIte, and_self]
theorem Tests.scoreA : Tests.scoreIn.1.1.code = none ∧ Tests.scoreIn.2.1.1.code = none ∧ Tests.scoreIn.2.2.1.code = none := by
  rw [Tests.scoreAll.1, Tests.scoreAll.2.1, Tests.scoreAll.2.2]; exact ⟨rfl, rfl, rfl⟩
theorem Tests.scoreB : Tests.scoreIn.1.1.poison = false ∧ Tests.scoreIn.2.1.1.poison = false ∧ Tests.scoreIn.2.2.1.poison = false := by
  rw [Tests.scoreAll.1, Tests.scoreAll.2.1, Tests.scoreAll.2.2]; exact ⟨rfl, rfl, rfl⟩
theorem Tests.scoreC : (Tests.scoreIn.2.2.1.s.scoreBlock Tests.scoreStep 0 [Tests.scoreRow] Tests.scoreIn).code = none := by
  rw [Tests.scoreAll.2.2]
  decide +kernel
/-- A backward step with a block of no rows in its last phase. -/
def Tests.gradStep : AtnStep :=
  { id := 4, run := Tests.run, index := 0, gen := 0, bank := 0, core := 2, seqIds := [], masks := [], grads := [], rows := []
    desc := [1, 0, 1, 0] ++ zeroBytes 76 ++ natLe 8 0x2000 ++ natLe 8 0 ++ natLe 8 0x2000 ++ natLe 8 0x1000 ++ zeroBytes 16 }
def Tests.gradBlock : AtnBlock := { step := 4, slot := 0, golden := false, core := 2, head := 0, rows := [], phase := .value }
def Tests.grading : State := { Tests.lay with atn := { steps := [Tests.gradStep], blocks := [Tests.gradBlock] } }
abbrev Tests.gradQ := Tests.grading.stepRead Tests.gradStep (leAt Tests.gradStep.desc 80 5) Tests.gradBlock.rows false
abbrev Tests.gradO := Tests.gradQ.1.s.stepRead Tests.gradStep (leAt Tests.gradStep.desc 96 5) Tests.gradBlock.rows false
theorem Tests.gradQ_eq : Tests.gradQ.1 = { s := Tests.grading } :=
  Tests.stepRead_eq _ _ _ _ _ (by decide +kernel) (by decide +kernel)
theorem Tests.gradO_eq : Tests.gradO.1 = { s := Tests.grading } := by
  unfold Tests.gradO
  rw [Tests.gradQ_eq]
  exact Tests.stepRead_eq _ _ _ _ _ (by decide +kernel) (by decide +kernel)
theorem Tests.gradA : Tests.gradQ.1.code = none ∧ Tests.gradO.1.code = none ∧ Tests.gradQ.1.poison = false ∧ Tests.gradO.1.poison = false := by
  rw [Tests.gradO_eq, Tests.gradQ_eq]; exact ⟨rfl, rfl, rfl, rfl⟩
abbrev Tests.gradX := Tests.gradO.1.s.gradBlock Tests.gradStep (blockRows true (Tests.grading.slotAddr false 0) Tests.gradBlock.rows) Tests.gradQ.2 Tests.gradO.2
  (layFmt (Tests.grading.readBytes (leAt Tests.gradStep.desc 96 5) 128))
theorem Tests.grad_nil (s : State) (st : AtnStep) (a : Nat) (q o : Nat → List Nat) (f : Nat) : s.gradBlock st (blockRows true a []) q o f = ({ s }, []) := rfl
theorem Tests.gradX_eq : Tests.gradX = ({ s := Tests.grading }, []) := by
  unfold Tests.gradX
  rw [show Tests.gradBlock.rows = [] from rfl, Tests.grad_nil, Tests.gradO_eq]
theorem Tests.gradC : Tests.gradX.1.code = none := by rw [Tests.gradX_eq]
theorem Tests.gradB : (Tests.gradX.1.s.stepWrite Tests.gradStep (leAt Tests.gradStep.desc 104 5) Tests.gradX.2 (Tests.grading.lastBlock Tests.gradBlock Tests.gradStep)).code = none := by
  rw [Tests.gradX_eq]
  exact Tests.stepWrite_code _ _ _ _ _ (by decide +kernel) (by decide +kernel)
/-- An edit record of an operation at the front of the edit queue. -/
def Tests.edit (op : Nat) : List Byte := withCrc (natLe 1 op ++ zeroBytes 59)
def Tests.edits (op : Nat) : State :=
  (Tests.cfg Tests.up [(F.KVC_QUEUES_EDIT_Q, 6), (F.SQ_QCFG_ENABLE 6, 1), (F.SQ_QCFG_SIZE 6, 8)]).setQueue 6
    { words := [mkWord (Tests.edit op) 64 false false] }
/-- An APPEND or PREFETCH entry fired on unit 102, its descriptor at 0x4000. -/
def Tests.kvcFire : Firing := { unit := 102, run := Tests.run, index := 0, error := false }
def Tests.kvcState (d : List Byte) : State :=
  let s := Tests.cfg Tests.lay [(F.TGS_LIST_BASE_BASE, 1), (F.TGS_CTRL_GRAPHS, 1), (F.LAY_ALLOW_MASK2 25, 1)]
  let s := ((s.writeBytes (16 * 102 + 4) [1]).writeBytes 0x10000 (withCrc (natLe 4 0x100 ++ natLe 4 1 ++ zeroBytes 20))).writeBytes 0x4000 d
  { s with tgs := { firing := [Tests.kvcFire] }, glz := Tests.opened.glz }
def Tests.kvcDesc : List Byte := withCrc ([0, 0x10, 0, 0, 1, 0, 0, 0] ++ natLe 8 0x3000 ++ natLe 8 0x2000 ++ natLe 8 0x2000 ++ zeroBytes 28)
def Tests.appending : State := Tests.kvcState Tests.kvcDesc
def Tests.fetching : State := Tests.kvcState (withCrc ([1, 0, 0, 0, 1] ++ zeroBytes 4 ++ [0x30] ++ zeroBytes 50))
def Tests.staged : State :=
  let u := ((Tests.edits 6).takeEdit 6).1
  (({ u with kvc := { u.kvc with edits := [], overflow := false } } : State).stage [] [[]]).getD State.reset
/-- A step whose sequence 0 has a directory entry without list entries. -/
def Tests.walking : State :=
  { (Tests.up.put F.KVC_CTRL_SEQS 4).writeBytes 0 (natLe 8 (2 ^ 47)) with atn := { steps :=
      [{ id := 4, run := Tests.run, index := 0, desc := Tests.step, gen := 0, bank := 0, core := 2, seqIds := [0], masks := [], grads := [], rows := [] }] } }
theorem Tests.andThen_ok {α : Type} (k : LayOut) (f : LayOut → State × Except Nat α) (h : k.code = none) : k.andThen f = f k := by
  unfold LayOut.andThen
  rw [h]
theorem Tests.appendReads_of (s a b : State) (f : Firing) (d t : List Byte) (h1 : s.ctxAllowed (kdCtx d % 16) 102 = true)
    (h2 : s.ctxTable (kdCtx d % 16) (leAt d 8 8) (2 * kdRows d) = .ok (t, false))
    (h3 : s.layRead (kvcUser f) (leAt d 16 8) none = { s := a }) (h4 : a.layRead (kvcUser f) (leAt d 24 8) none = { s := b }) :
    s.appendReads f d = (b, .ok (t, [], [])) := by
  unfold State.appendReads
  rw [h1, h2, if_neg (by decide)]
  show LayOut.andThen (s.layRead (kvcUser f) (leAt d 16 8) none) _ = _
  rw [h3, Tests.andThen_ok _ _ rfl]
  beta_reduce
  rw [h4, Tests.andThen_ok _ _ rfl]
  beta_reduce
  exact if_neg (show ¬ (false || false || false) = true by decide)
theorem Tests.appendReads : Tests.appending.appendReads Tests.kvcFire Tests.kvcDesc
    = ((Tests.appending.modInc F.LAY_COUNTS_DESCRIPTORS).modInc F.LAY_COUNTS_DESCRIPTORS, .ok (zeroBytes 2, [], [])) := by
  have e3 := Tests.layRead Tests.appending (kvcUser Tests.kvcFire) (leAt Tests.kvcDesc 16 8) layAll (by decide +kernel) (by decide +kernel)
  have e4 := Tests.layRead (Tests.appending.modInc F.LAY_COUNTS_DESCRIPTORS) (kvcUser Tests.kvcFire) (leAt Tests.kvcDesc 24 8) layAll (by decide +kernel) (by decide +kernel)
  rw [if_pos (show layAll.fin = true from rfl)] at e3 e4
  exact Tests.appendReads_of _ _ _ _ _ _ (by decide +kernel) (by decide +kernel) e3 e4
theorem Tests.appendR : (Tests.appending.appendReads Tests.kvcFire Tests.kvcDesc).2 = .ok (zeroBytes 2, [], []) := by rw [Tests.appendReads]
theorem Tests.appendI : (Tests.appending.appendReads Tests.kvcFire Tests.kvcDesc).1.inst Tests.kvcFire.run.cycle =
    some { cycle := 7, tov := 100, deadline := 200, winStart := 0, openedAt := 0 } := by
  rw [Tests.appendReads]
  decide +kernel
/-- Port 0 of the links up; a packet of the given kind from device 3 delivered; an instance in flight. -/
def Tests.link : State := Tests.cfg Tests.up [(F.BML_PORT_CFG_ENABLE 0, 1), (F.BML_PORT_STAT_STATE 0, 2)]
def Tests.pack (kind : Nat) (p : List Byte) : List Byte := packet kind 2 0 3 0 0 0 0 100 p
def Tests.inbox (kind : Nat) : State :=
  { Tests.link with bml := { Tests.link.bml with inbox := [Tests.pack kind [1]] }, glz := Tests.opened.glz }
def Tests.taken (kind : Nat) : State := { Tests.inbox kind with bml := { Tests.link.bml with inbox := [] } }
def Tests.combine : Combine := { layer := 0, cycle := 7, stamp := 100, slots := [[.empty, .empty]] }
def Tests.waiting (kind : Nat) : State :=
  let s := Tests.inbox kind
  { s with tim := { s.tim with time := 50 }, bml := { s.bml with combine := [Tests.combine] } }
def Tests.waitingTaken (kind : Nat) : State :=
  { Tests.waiting kind with bml := { (Tests.waiting kind).bml with inbox := [] } }
def Tests.copies : List RemoteCopy := [{ core := 1, dest := 3, start := 0 }]
def Tests.copying (kind : Nat) : State :=
  { Tests.inbox kind with bml := { (Tests.inbox kind).bml with copies := Tests.copies } }
def Tests.copyTaken (kind : Nat) : State :=
  { Tests.inbox kind with bml := { (Tests.inbox kind).bml with copies := Tests.copies, inbox := [] } }
/-- Flits without a payload: the first data flit, and one whose check fails. -/
def Tests.flit : List Byte := zeroBytes 64 ++ natLe 2 8192 ++ natLe 2 0 ++ natLe 4 961134076
theorem Tests.flit_ok : crcOk (padTo 72 Tests.flit) = true := by
  have e0 : (padTo 72 Tests.flit).take ((padTo 72 Tests.flit).length - 4) = zeroBytes 34 ++ (zeroBytes 30 ++ [0, 32, 0, 0]) := by decide +kernel
  have e : crc32c ((padTo 72 Tests.flit).take ((padTo 72 Tests.flit).length - 4)) = 961134076 := by
    rw [e0]
    exact Tests.crc_split _ _ 650462792#32 3333833219#32 (by decide +kernel) (by decide +kernel) _ (by decide +kernel)
  unfold crcOk
  rw [e]
  decide +kernel
def Tests.badFlit : List Byte := zeroBytes 64 ++ natLe 2 8192 ++ natLe 2 0 ++ natLe 4 0
theorem Tests.badFlit_bad : crcOk (padTo 72 Tests.badFlit) = false := by
  have e0 : (padTo 72 Tests.badFlit).take ((padTo 72 Tests.badFlit).length - 4) = zeroBytes 34 ++ (zeroBytes 30 ++ [0, 32, 0, 0]) := by decide +kernel
  have e : crc32c ((padTo 72 Tests.badFlit).take ((padTo 72 Tests.badFlit).length - 4)) = 961134076 := by
    rw [e0]
    exact Tests.crc_split _ _ 650462792#32 3333833219#32 (by decide +kernel) (by decide +kernel) _ (by decide +kernel)
  unfold crcOk
  rw [e]
  decide +kernel
/-- Expert 0 of layer 0 in slot 2 of this device, before collection closes. -/
def Tests.admitting : State :=
  let s := (Tests.inbox 0).put F.BML_EXPERT_CAPACITY 4
  { s.writeBytes 0 (natLe 2 (2 ^ 15 + 2 * 64)) with tim := { s.tim with time := 50 } }
def Tests.admitted : State := { Tests.admitting with bml := { Tests.admitting.bml with inbox := [] } }
/-- A COPY packet of one byte in the inbox, and context 0 writable. -/
def Tests.copyIn : State := { Tests.lay with bml := { Tests.lay.bml with inbox := [Tests.pack 3 [1]] } }
def Tests.copyInTaken : State := { Tests.copyIn with bml := { Tests.copyIn.bml with inbox := [] } }
def Tests.copyWritten : State := Tests.copyInTaken.writeBytes 100 [1]
/-- Domain slot 0 on ports A and B: a two-step Sync waits on port B, receipts are old, a peer delay measurement is half done on port A. -/
def Tests.ptp : State :=
  let s := Tests.cfg Tests.up [(F.TIM_CTRL_DOM0_EN, 1), (F.TIM_DOM_CFG0_PORTS, 3), (F.TIM_DOM_CFG0_DOMAIN_NUMBER, 0), (F.TIM_CTRL_REVERT_HOLD, 5)]
  { s with tim := { s.tim with
      time := 2 ^ 40, doms := [{ twoStep := [(1, 7, 10, 3, 0)], syncRx := [(0, 0, 0)], announceRx := [(0, 0, 0)], qualSince := some 0 }, {}]
      ports := [{ t1 := some 10, resp := some (20, 40) }, {}] } }
/-- Queue 5 with one mark. -/
def Tests.marked : State := Tests.up.setQueue 5 { words := [mkWord (zeroBytes 64) 64 false false], marks := [some (0, 3), none, none, none] }
/-- Instance 7 with its point table closed. -/
def Tests.closedTable : State := { Tests.opened with pts := { Tests.opened.pts with tables := [{ index := 0, cycle := 7, p := 0, closed := true }] } }
/-- Golden frame 1 of entry 1, which has no range. -/
def Tests.goldenRun : State :=
  let s := { Tests.up with saf := { Tests.up.saf with golden := [{ num := 1, entry := 1, extra := false, kind := 1, due := some (0, 0) }] } }
  s.writeBytes 124 ((withCrc (zeroBytes 60)).drop 60)
theorem Tests.goldenRun_bad : Tests.goldenRun.goldenEntryBad 1 = false := by
  have e : Tests.goldenRun.readBytes (Tests.goldenRun.goldenEntryAt 1) 64 = withCrc (zeroBytes 60) := by decide +kernel
  have e1 : crcOk (withCrc (zeroBytes 60)) = true := by decide +kernel
  unfold State.goldenEntryBad
  rw [e, e1]
  decide +kernel
/-- Golden frame 1 of entry 1, whose one range holds no value. -/
def Tests.goldenOut : State :=
  ((((Tests.goldenRun.writeBytes 81 [16]).writeBytes 88 [1]).writeBytes 4102 [1]).writeBytes 4104 [255, 255, 255, 255])
/-- Level Guard with guard tiles on. -/
def Tests.guard : State :=
  let s := Tests.cfg Tests.up [(F.CHK_CTRL_GUARD_OUT, 1), (F.GLZ_TOV_PERIOD, 4000000000)]
  { s with boot := { s.boot with level := some 2 } }
def Tests.aNotice : Notice :=
  { detectTime := 0, state := 3, prev := 0, level := 3, domain := 0, cause := 1, unit := 0, cycle := 0, lastValid := 0, seq := 0, logIndex := 0 }
/-- A tunable of the firmware channel, and a commit of it under check. -/
def Tests.tuneCommit : Commit := { host := none, id := 1, atTime := true, time := 6000000000, items := [(3, 100)], crcOk := true }
def Tests.checkingCommit : State :=
  { Tests.up with boot := { Tests.up.boot with
      tunables := [{ id := 3, kind := 0, signed := false, host := false, fw := true, lsb := 16, width := 12, slot := 0
                     addr := F.SAF_TIMING_HB_TIMEOUT.addr, min := 1, max := 4000 }]
      checking := [Tests.tuneCommit] } }
/-- An image of SVN 5 loaded, two rollback fuses blown after the next one. -/
def Tests.rolling : State :=
  let s := Tests.cfg Tests.up [(F.SEC_STATUS_IMAGE_LOADED, 1)]
  { s with boot := { s.boot with start := { s.boot.start with svn := 5 } } }
def Tests.quote : QuoteReq := { port := 0, src := 7, reqId := 1, nonce := [], tuned := false }
/-- A response under verification whose scope is BSCAN, on a device with no slot loaded. -/
def Tests.response : List Byte := zeroBytes 48 ++ [1, 0]
def Tests.debugging : State :=
  { Tests.up with sec := { Tests.up.sec with
      response := some (Tests.response, [1], 0), fuses := { Tests.up.sec.fuses with ownerHash := sha256 (zeroBytes 48), lifecycle := 1 } } }
/-- Port A up with MACsec required and a CAK in force. -/
def Tests.mka : State :=
  let s := Tests.cfg Tests.up [(F.HST_CTRL_ENABLE_A, 1), (F.HST_STATUS_LINK_A, 1), (F.SEC_MACSEC_EN_A, 1), (F.SEC_MACSEC_REQUIRE, 1),
    (F.SEC_STATUS_IMAGE_LOADED, 1)]
  { s with sec := { s.sec with cak := some [] } }
/-- Port A enabled and up. -/
def Tests.hostA : State := Tests.cfg Tests.up [(F.HST_CTRL_ENABLE_A, 1), (F.HST_STATUS_LINK_A, 1)]
/-- Port A with MKA live and link resets enabled. -/
def Tests.mkaLive : State := Tests.cfg Tests.mka [(F.SEC_STATUS_MKA_A, 1), (F.HST_CTRL_LINK_RESET_EN, 1)]
/-- One entry in the error log. -/
def Tests.logEntry : LogEntry := { time := 0, index := 0, block := 0, code := 0, severity := 0, unit := 0, cycle := 0, detail := 0 }
def Tests.logged : State := { Tests.hostA.put F.OBS_LOG_NEXT 1 with obs := { Tests.hostA.obs with ring := [Tests.logEntry] } }
/-- Cycle 7 past, tile 0 of it in the store and subscribed to. -/
def Tests.trainReady : State :=
  let s := { Tests.hostA with glz := { Tests.hostA.glz with
    nextCycle := 8, past := [{ cycle := 7, tov := 100, ego := Tests.hostA.egoCell, issueOrder := [], subs := [(true, 0, 1)] }] } }
  (s.writeBytes (s.storeAddr 7 0) [0x5A, 0x1D, 0, 0]).writeBytes (s.storeAddr 7 0 + 44) [7, 0, 0, 0]
/-- At rest in Doze. -/
def Tests.dozing : State := Tests.cfg Tests.up [(F.PWR_STATUS_STATE, 2)]
/-- The steps of Doze entry under way. -/
def Tests.dozeEntry : State := Tests.cfg Tests.up [(F.PWR_STATUS_STATE, 1), (F.PWR_STATUS_TRANSITION, 1)]
theorem Tests.dozeEntry_wake : (Tests.dozeEntry.saveErrors []).saveState.restInDoze.pwr.wakeSrc = none := by
  show (Tests.dozeEntry.saveErrors []).saveState.pwr.wakeSrc = none
  have h : ∀ b, ((Tests.dozeEntry.saveErrors []).writeBytes ((Tests.dozeEntry.saveErrors []).base F.PWR_SAVE_BASE_BASE) b).ddrInstalled = 0 := by
    intro b
    have : (Tests.dozeEntry.saveErrors []).ddrInstalled = 0 := by decide +kernel
    rw [← this]
    unfold State.ddrInstalled
    simp only [State.on, State.get_writeBytes]
    rfl
  unfold State.saveState
  simp only [h, if_true]
  show (State.writeBytes _ _ _).pwr.wakeSrc = none
  rw [State.pwr_writeBytes]
  decide +kernel
/-- The node that closes at the ego kind's first intake, and the window slid over it. -/
def Tests.egoNode : State × SlvNode := Tests.ego.formNode Tests.ego.nextNode (Tests.ego.slv.closed.getD (Tests.ego.nextNode - Tests.ego.nodePeriod))
def Tests.egoSlide : List SlvNode × List Int :=
  slideWindow Tests.egoNode.1.slvParam Tests.egoNode.1.nodePeriod (Tests.ego.slvSetAt Tests.ego.nextNode).window Tests.egoNode.1.slv.nodes
    Tests.egoNode.1.slv.prior Tests.egoNode.2
/-- The state a command answers. -/
def Tests.after (c : Instr) (s : State) : State := match exec c s with
  | .next t => t
  | _ => s
/-- A frame waiting for its backbone, its records carried by queue 6; a lift whose one header has been emitted. -/
def Tests.liftWait : State :=
  let s := Tests.cfg (Tests.up.put F.TGS_CTRL_RUNAHEAD_EN 1) [(F.TGS_LIST_BASE_BASE, 1), (F.TGS_EDGE_BASE_BASE, 2), (F.TGS_CTRL_GRAPHS, 1),
    (F.SQ_QCFG_ENABLE 6, 1), (F.SQ_QCFG_SIZE 6, 8)]
  { ((s.writeBytes 1572 [1]).writeBytes 0x10009 [1]).writeBytes 0x20000 (natLe 4 (6 * 2 ^ 22)) with lft := { frames := [{ cam := 0, slot := 0, stream := 9, startSeq := 0, stamp := 5, norm := 0, gain := 0, phase := .waiting }] } }
def Tests.liftEnd : State :=
  { Tests.up with lft := { lifting := some { frame := { cam := 0, slot := 0, stream := 9, startSeq := 0, stamp := 5, norm := 0, gain := 0 }, bank := 0, run := 1 } } }

/-! ## Worked examples of the spec -/

/-- No row of the opcode table gives bits, so no word spells a command. -/
theorem test_no_word_spells_a_command : decodeTableWord 32 0 = none := rfl

/-- The trigger example of spec/02_time_base.md. -/
def Tests.trigger : State :=
  Tests.cfg State.reset [(F.TIM_TRIG_TIME_NUM 4, 100000000), (F.TIM_TRIG_TIME_DEN 4, 3), (F.TIM_TRIG_CTL_PHASE 4, 11111111)]

theorem test_trigger_edge_before : Tests.trigger.trigEdgeBefore 4 5011231111 = some 5011111111 := by decide +kernel

theorem test_trigger_edge_after : Tests.trigger.trigEdgeAfter 4 4999999999 = 5011111111 := by decide +kernel

/-- The address examples of spec/13_memory.md, under the default partition. -/
theorem test_activations_bank : State.reset.bankRow 0x01234540 = (5, 18641) := by decide +kernel

theorem test_weights_bank : State.reset.bankRow 0x0A000040 = (33, 16384) := by decide +kernel

/-- The slice example of spec/05_point_pipeline.md: slot 2, 64 slices of a period of 50 ms. -/
def Tests.sliced : State :=
  ((Tests.cfg Tests.up [(F.PTS_LIDAR_CFG_SLICES 2, 64), (F.PTS_LIDAR_CFG_STREAM 2, 9), (F.ING_STR_TIME_PERIOD 9, 50000000)]).slicePoint 2 7
    5000012500000).slicePoint 2 7 5000035900000

theorem test_slice_of_a_point :
    ((Tests.sliced.lslot 2).part.map (fun p => (p.slice, p.mid))) = some (29, 5000012500000 + 23046875) := by decide +kernel

/-- The bucket of the example cell of spec/05_point_pipeline.md. -/
theorem test_bucket_of_a_cell : hashKey 123197 17 32768 = 30574 := by decide +kernel

/-- The time of validity of the example of spec/09_fusion_alignment.md: LATEST, 10 ms, budgets of 4 to 12 ms, margin 500 µs. -/
def Tests.latest : State :=
  let s := Tests.cfg State.reset [(F.GLZ_CTRL_MODE, 1), (F.GLZ_TOV_PERIOD, 10000000), (F.GLZ_TOV_PHASE, 0),
    (F.GLZ_LATEST_B_MIN, 4000), (F.GLZ_LATEST_B_MAX, 12000), (F.GLZ_LATEST_MARGIN, 500)]
  { s with
    tim := { s.tim with time := 1000000001000000 }
    glz := { s.glz with headTimes := List.replicate 8 (some 7600000) } }

theorem test_latest_time_of_validity :
    Tests.latest.chooseTov false 1000000001000000 9000000 = (1000000011625000, 1000000020000000, 8375000) := by decide +kernel

/-! ## Ill-formed commands, one for each check, are refused -/

theorem test_wellFormed_refuses_1 : ([
    .registerWrite (2 ^ 40) 0 false,
    .registerWrite 0 (2 ^ 64) false,
    .sync 2 0 0 false 0 0 0,
    .sync 0 128 0 false 0 0 0,
    .sync 0 0 65536 false 0 0 0,
    .sync 0 0 0 false 0 0 (-129),
    .sync 0 0 0 false 0 0 128,
    .followUp 2 0 0 0 0,
    .followUp 0 128 0 0 0,
    .followUp 0 0 65536 0 0,
    .announce 0 0 0 ⟨(2 ^ 64), 0, 0, 0, 0, 0, 0⟩ 0 0,
    .announce 0 0 0 ⟨0, 256, 0, 0, 0, 0, 0⟩ 0 0,
    .announce 0 0 0 ⟨0, 0, 256, 0, 0, 0, 0⟩ 0 0,
    .announce 0 0 0 ⟨0, 0, 0, 65536, 0, 0, 0⟩ 0 0,
    .announce 0 0 0 ⟨0, 0, 0, 0, 256, 0, 0⟩ 0 0,
    .announce 0 0 0 ⟨0, 0, 0, 0, 0, 65536, 0⟩ 0 0,
    .announce 0 0 0 ⟨0, 0, 0, 0, 0, 0, (2 ^ 80)⟩ 0 0,
    .announce 2 0 0 ⟨0, 0, 0, 0, 0, 0, 0⟩ 0 0,
    .announce 0 128 0 ⟨0, 0, 0, 0, 0, 0, 0⟩ 0 0,
    .announce 0 0 256 ⟨0, 0, 0, 0, 0, 0, 0⟩ 0 0,
    .announce 0 0 0 ⟨0, 0, 0, 0, 0, 0, 0⟩ 0 (-129),
    .announce 0 0 0 ⟨0, 0, 0, 0, 0, 0, 0⟩ 0 128,
    .pdelay 2 0 0,
    .pdelay 0 3 0] : List Instr).all (fun c => !c.wellFormed) = true := by decide +kernel

theorem test_wellFormed_refuses_2 : ([
    .signaling 2,
    .syncReceiptTimeout 2 0,
    .syncReceiptTimeout 0 2,
    .announceReceiptTimeout 2 0,
    .announceReceiptTimeout 0 2,
    .sensorPtpRx 6 false,
    .sensorAnnounceTx 6,
    .sensorSyncTx 6,
    .sensorPdelayTx 6,
    .launchRequest 8 0 false 0 [],
    .launchRequest 0 0 false (2 ^ 48) [],
    .launchRequest 0 0 false 0 (List.replicate 1501 0),
    .launch 8,
    .triggerEdge 12,
    .triggerPulseEnd 12,
    .frameStart 12 0 0,
    .frameStart 0 4 0,
    .frameStart 0 0 65536,
    .csiLine 12 0 0 [] false false,
    .csiLine 0 4 0 [] false false,
    .csiLine 0 0 64 [] false false,
    .frameEnd 12 0 0,
    .frameEnd 0 4 0,
    .frameEnd 0 0 65536] : List Instr).all (fun c => !c.wellFormed) = true := by decide +kernel

theorem test_wellFormed_refuses_3 : ([
    .embeddedData 12 0 [] false,
    .embeddedData 0 4 [] false,
    .frameEndTimeout 64,
    .lidarDatagram 6 [],
    .lidarDatagram 0 (List.replicate 1523 0),
    .arpRequest 6 0 0,
    .arpRequest 0 (2 ^ 32) 0,
    .arpRequest 0 0 (2 ^ 32),
    .canFrame 4 0 false false false [],
    .canFrame 0 (2 ^ 29) false false false [],
    .canFrame 0 0 false false false (List.replicate 65 0),
    .busOff 4,
    .busOffRecovery 4,
    .dataReadyEdge 4,
    .spiReadDone 4 [],
    .spiReadDone 0 (List.replicate 65 0),
    .encoderEdge 8 false 0 false,
    .encoderEdge 0 false (2 ^ 32) false,
    .encoderIdleTimeout 64,
    .absentTimeout 64,
    .goldenLineInject 12,
    .goldenPacketInsert 6,
    .queueWrite 1024 [],
    .flushStrobe 1024] : List Instr).all (fun c => !c.wellFormed) = true := by decide +kernel

theorem test_wellFormed_refuses_4 : ([
    .pendingMarkerStore 1024,
    .mark 1024 0,
    .mark 0 4,
    .rewind 1024 0,
    .rewind 0 4,
    .release 1024 0,
    .release 0 4,
    .read 1024 ⟨false, false, false⟩ false false,
    .readTimeout 1024,
    .pointerMismatch 1024,
    .pointItemRead ⟨16, false, false⟩,
    .partCompensate 16,
    .poseWaitTimeout 16,
    .lftItemRead ⟨16, false, false⟩,
    .egoSampleRead ⟨1024, false, false⟩,
    .baStart (2 ^ 64),
    .baAbort (2 ^ 64),
    .tileHeadsDone 0 0 [] false,
    .tileHeadsDone (2 ^ 32) 0 (List.replicate 1024 0) false,
    .tileHeadsDone 0 256 (List.replicate 1024 0) false,
    .compareDone (2 ^ 32) 0,
    .compareDone 0 256,
    .amendRecompute 0 ⟨[], false⟩,
    .amendRecompute 256 ⟨List.replicate 1024 0, false⟩] : List Instr).all (fun c => !c.wellFormed) = true := by decide +kernel

theorem test_wellFormed_refuses_5 : ([
    .tokenReceive [],
    .entryFire 104 0 0 0,
    .entryFire 0 16 0 0,
    .entryFire 0 0 4 0,
    .entryFire 0 0 0 256,
    .entryComplete 104 0 0 false 0,
    .entryComplete 0 16 0 false 0,
    .entryComplete 0 0 4 false 0,
    .entryComplete 0 0 0 false (2 ^ 64),
    .creditReturn 65536,
    .budgetOverrun 10 0,
    .budgetOverrun 0 (2 ^ 32),
    .tileOperationDone 64 0 false,
    .tileOperationDone 0 4 false,
    .chainStoreDone 64 false 0 false,
    .chainStoreDone 0 false 4 false,
    .pralineAccess 32 0 false 0 8 0 0,
    .pralineAccess 0 3 false 0 8 0 0,
    .pralineAccess 0 0 false (2 ^ 40) 8 0 0,
    .pralineAccess 0 0 false 0 (0) 0 0,
    .pralineAccess 0 0 false 0 65 0 0,
    .pralineAccess 0 0 false 0 8 0 3,
    .pralineAccess 0 0 false 0 8 (2 ^ 64) 0,
    .eccWriteBack 64] : List Instr).all (fun c => !c.wellFormed) = true := by decide +kernel

theorem test_wellFormed_refuses_6 : ([
    .scrub 64 0,
    .scrub 0 3,
    .ddrScrub 8 0,
    .ddrScrub 0 3,
    .alertN 8 0 false,
    .alertN 0 (2 ^ 40) false,
    .normDone 16 false,
    .valueDone 16 false,
    .gradientDone 16 false,
    .trainingStart 6,
    .trainingDone 6 0 false,
    .trainingDone 0 64 false,
    .trainingTimeout 6,
    .linkTimeout 6,
    .laneLockLoss 6,
    .flit 0 [],
    .flit 6 (zeroBytes 72),
    .nackFlit 6 0,
    .nackFlit 0 4096,
    .creditFlit 6 0 0 0,
    .creditFlit 0 2 0 0,
    .creditFlit 0 0 256 0,
    .creditFlit 0 0 0 4096,
    .keepalive 6 0 0 0] : List Instr).all (fun c => !c.wellFormed) = true := by decide +kernel

theorem test_wellFormed_refuses_7 : ([
    .keepalive 0 4096 0 0,
    .keepaliveTx 6,
    .dispatchCommand 8 [] [],
    .dispatchCommand 0 [2 ^ 64] [],
    .serve 8 0 [],
    .serve 0 32 [],
    .combineDeadline 8 [],
    .remoteCopy 32 0 0 0,
    .remoteCopy 0 (2 ^ 40) 0 0,
    .remoteCopy 0 0 64 0,
    .remoteCopy 0 0 0 (2 ^ 40),
    .sentinelRun (2 ^ 32),
    .sentinelDone 0 ⟨[], 0⟩,
    .sentinelDone (2 ^ 32) ⟨List.replicate 16384 ⟨0, 0, 0⟩, 0⟩,
    .sentinelDone 0 ⟨List.replicate 16384 ⟨0, 0, 0⟩, 3⟩,
    .goldenCompareDone (2 ^ 32) false,
    .guardTileIssue [],
    .env 8,
    .commitNextBoundary none 0 (List.replicate 65 (0, 0)) false,
    .commitNextBoundary none 0 [(65536, 0)] false,
    .commitNextBoundary (some (2, 0, 0)) 0 [] false,
    .commitNextBoundary (some (0, 2 ^ 48, 0)) 0 [] false,
    .commitNextBoundary (some (0, 0, 2 ^ 32)) 0 [] false,
    .commitNextBoundary none (2 ^ 32) [] false] : List Instr).all (fun c => !c.wellFormed) = true := by decide +kernel

theorem test_wellFormed_refuses_8 : ([
    .commitAtTime none 0 0 (List.replicate 65 (0, 0)) false,
    .commitAtTime none 0 0 [(65536, 0)] false,
    .commitAtTime (some (2, 0, 0)) 0 0 [] false,
    .commitAtTime (some (0, 2 ^ 48, 0)) 0 0 [] false,
    .commitAtTime (some (0, 0, 2 ^ 32)) 0 0 [] false,
    .commitAtTime none (2 ^ 32) 0 [] false,
    .commitCancel (some (2, 0, 0)) 0 false,
    .commitCancel (some (0, 2 ^ 48, 0)) 0 false,
    .commitCancel (some (0, 0, 2 ^ 32)) 0 false,
    .commitCancel none (2 ^ 32) false,
    .resetRelease false false false false 4,
    .bistDone [] (2 ^ 32) 0 0 0 0,
    .bistDone [] 0 (2 ^ 64) 0 0 0,
    .bistDone [] 0 0 (2 ^ 64) 0 0,
    .bistDone [] 0 0 0 (2 ^ 64) 0,
    .bistDone [] 0 0 0 0 64,
    .ddrTrainingDone 256,
    .imageLoadDone false (2 ^ 32),
    .rollbackAdvance 128,
    .attestReq 2 0 0 [] 0,
    .attestReq 0 (2 ^ 48) 0 [] 0,
    .attestReq 0 0 (2 ^ 32) [] 0,
    .attestReq 0 0 0 (List.replicate 1477 0) 0,
    .attestReq 0 0 0 [] 256] : List Instr).all (fun c => !c.wellFormed) = true := by decide +kernel

theorem test_wellFormed_refuses_9 : ([
    .responseWrite [],
    .keyProvWrite [] (zeroBytes 16),
    .keyProvWrite (zeroBytes 32) [],
    .cakRevoke 4,
    .tamperTrip 6 0,
    .tamperTrip 0 8,
    .mkaHello 2,
    .macsecDrop 2,
    .statusRead 2 0 0,
    .statusRead 0 (2 ^ 48) 0,
    .statusRead 0 0 (2 ^ 32),
    .tileRead 2 0 0 0 0 0,
    .tileRead 0 (2 ^ 48) 0 0 0 0,
    .tileRead 0 0 (2 ^ 32) 0 0 0,
    .tileRead 0 0 0 (2 ^ 32) 0 0,
    .tileRead 0 0 0 0 256 0,
    .tileRead 0 0 0 0 0 (2 ^ 256),
    .tuneStage 0 0 0 0 0 (List.replicate 65 (0, 0)),
    .tuneStage 0 0 0 0 0 [(65536, 0)],
    .tuneStage 2 0 0 0 0 [],
    .tuneStage 0 (2 ^ 48) 0 0 0 [],
    .tuneStage 0 0 (2 ^ 32) 0 0 [],
    .tuneStage 0 0 0 (2 ^ 32) 0 [],
    .tuneStage 0 0 0 0 256 []] : List Instr).all (fun c => !c.wellFormed) = true := by decide +kernel

theorem test_wellFormed_refuses_10 : ([
    .tuneCommit 2 0 0 [],
    .tuneCommit 0 (2 ^ 48) 0 [],
    .tuneCommit 0 0 (2 ^ 32) [],
    .tuneCommit 0 0 0 (List.replicate 1477 0),
    .heartbeat 2 0 0 0 0,
    .heartbeat 0 (2 ^ 48) 0 0 0,
    .heartbeat 0 0 (2 ^ 32) 0 0,
    .heartbeat 0 0 0 (2 ^ 32) 0,
    .heartbeat 0 0 0 0 (2 ^ 32),
    .heartbeatResetReq 2 0 0 0 false,
    .heartbeatResetReq 0 (2 ^ 48) 0 0 false,
    .heartbeatResetReq 0 0 (2 ^ 32) 0 false,
    .heartbeatResetReq 0 0 0 (2 ^ 32) false,
    .heartbeatResetConfirm 2 0 0 0 0 false,
    .heartbeatResetConfirm 0 (2 ^ 48) 0 0 0 false,
    .heartbeatResetConfirm 0 0 (2 ^ 32) 0 0 false,
    .heartbeatResetConfirm 0 0 0 (2 ^ 32) 0 false,
    .heartbeatResetConfirm 0 0 0 0 (2 ^ 64) false,
    .logReadErrorLog 2 0 0 0 0,
    .logReadErrorLog 0 (2 ^ 48) 0 0 0,
    .logReadErrorLog 0 0 (2 ^ 32) 0 0,
    .logReadErrorLog 0 0 0 (2 ^ 32) 0,
    .logReadErrorLog 0 0 0 0 65536,
    .logReadStartRecord 2 0 0] : List Instr).all (fun c => !c.wellFormed) = true := by decide +kernel

theorem test_wellFormed_refuses_11 : ([
    .logReadStartRecord 0 (2 ^ 48) 0,
    .logReadStartRecord 0 0 (2 ^ 32),
    .logReadLifetime 2 0 0,
    .logReadLifetime 0 (2 ^ 48) 0,
    .logReadLifetime 0 0 (2 ^ 32),
    .malformedFrame 2 false,
    .trainBuild 8 0,
    .trainBuild 0 (2 ^ 32),
    .hostLinkDown 2 false,
    .hostLinkUp 2,
    .tc10SleepRequest 2,
    .tc10Wake 2,
    .wakeDone [1],
    .pllReady 4,
    .clkSrcWrite (2 ^ 64),
    .lifetimeInterval false 16 0 0,
    .lifetimeInterval false 0 16 0,
    .hostPdelayTx 2,
    .sensorPdelay 6 0 0,
    .sensorPdelay 0 3 0,
    .mkpdu 2 0 0,
    .mkpdu 0 2 0,
    .tc10SleepAck 2,
    .tc10SleepTimeout 2] : List Instr).all (fun c => !c.wellFormed) = true := by decide +kernel

theorem test_wellFormed_refuses_12 : ([
    .linkEnergy 2,
    .dozeEntryDone [1],
    .pageCopyEnd 32768,
    .registerWrite (2 ^ 40) 0 false,
    .registerWrite 0 (2 ^ 64) false,
    .registerWrite 4 0 false,
    .registerWrite 2 0 true,
    .registerWrite 0 (2 ^ 32) true,
    .requiredUnitLoss (.enabled 25),
    .walk 0 0 (some (32768, false))] : List Instr).all (fun c => !c.wellFormed) = true := by decide +kernel

theorem test_wellFormed_refuses_long_0 : (.csiLine 0 0 0 (List.replicate 65536 0) false false : Instr).wellFormed = false := by
  simp only [Instr.wellFormed, List.length_replicate]; decide

theorem test_wellFormed_refuses_long_1 : (.embeddedData 0 0 (List.replicate 65536 0) false : Instr).wellFormed = false := by
  simp only [Instr.wellFormed, List.length_replicate]; decide


/-! ## Witnesses: general -/

theorem wit_EmptyQueueTicks_0 : ∃ s : State, (s.pending = []) ∧ (s.pwr.refLost = true) :=
  ⟨({ State.reset with pwr := { State.reset.pwr with refLost := true } } : State), by decide +kernel⟩
theorem wit_EmptyQueueTicks_1 : ∃ s : State, (s.pending = []) ∧ (s.pwr.refLost = false) ∧ (s.pwr.off = false) :=
  ⟨State.reset, by decide +kernel⟩
theorem wit_EmptyQueueTicks_2 : ∃ s : State, (s.pending = []) ∧ (s.pwr.refLost = false) ∧ (s.pwr.off = false) ∧ (∀ p, p < 8 → (s.txPort p).cur = none ∧ (s.txPort p).queue = []) :=
  ⟨State.reset, by decide +kernel⟩
theorem wit_StepKeepsCanonical_0 : ∃ s : State, ∃ (t : State), (s.Canonical) ∧ (step s = .next t) :=
  ⟨State.reset, State.reset.tick, by constructor <;> decide, rfl⟩
theorem wit_RunAheadLeavesACredit_0 : ∃ s : State, ∃ (unit : Nat), ∃ (run : RunId), ∃ (e : ListEntry), (e = s.entryOf run.graph unit (s.tgs.firedCount unit run)) :=
  ⟨Tests.up, 64, { graph := 0, slot := 0, epoch := 0, cycle := 7 }, _, rfl⟩
theorem wit_PllsCountFromEnable_0 : ∃ s : State, ∃ (p t : Nat), (s.pwr.pllStart.getD p none = some t) ∧ (s.pwr.refLost = false) ∧ (s.pwr.refclk < t + 8192) :=
  ⟨({ Tests.up with pwr := { pllStart := [some 5], refclk := 100 } } : State), 0, 5, by decide +kernel⟩
theorem wit_PllsCountFromEnable_1 : ∃ s : State, ∃ (p t : Nat), (s.pwr.pllStart.getD p none = some t) ∧ (s.pwr.refLost = false) ∧ (t + 8192 ≤ s.pwr.refclk) ∧ (p < 4) :=
  ⟨({ Tests.up with pwr := { Tests.up.pwr with pllStart := [some 5] } } : State), 0, 5, by decide +kernel⟩
theorem wit_PllsCountFromEnable_2 : ∃ s : State, ∃ (v p : Nat), (s.boot.locked = false) ∧ (∀ k, k < 4 → bitSet v (8 + k) = true → bitSet (s.get F.CLK_STATUS_READY) k = true) ∧ (∀ k, k < 4 → bitSet (s.get F.CLK_STATUS_ACTIVE) k = true → bitSet v k = true) ∧ (p < 4) ∧ (bitSet v p = false) :=
  ⟨State.reset, 1, 2, by decide +kernel⟩
theorem wit_PllsCountFromEnable_3 : ∃ s : State, ∃ (v p : Nat), (s.boot.locked = false) ∧ (∀ k, k < 4 → bitSet v (8 + k) = true → bitSet (s.get F.CLK_STATUS_READY) k = true) ∧ (∀ k, k < 4 → bitSet (s.get F.CLK_STATUS_ACTIVE) k = true → bitSet v k = true) ∧ (p < 4) ∧ (bitSet v p = true) ∧ (bitSet (s.get F.CLK_SRC_PLL_EN) p = false) :=
  ⟨State.reset, 1, 0, by decide +kernel⟩
theorem wit_PllsCountFromEnable_4 : ∃ s : State, ∃ (v : Nat), ∃ (t : State), (exec (.clkSrcWrite v) s = .next t) :=
  ⟨Tests.up, 0, (Tests.up.writeClkSrc F.CLK_SRC_SEL.addr 0 false), rfl⟩
theorem wit_PowerGoodResets_0 : ∃ s : State, (s.pwr.mainEn = true) :=
  ⟨({ Tests.up with pwr := { Tests.up.pwr with mainEn := true } } : State), by decide +kernel⟩
theorem wit_PowerGoodResets_1 : ∃ s : State, (s.pwr.mainEn = false) :=
  ⟨({ Tests.up with pwr := { Tests.up.pwr with mainEn := false } } : State), by decide +kernel⟩
theorem wit_PowerGoodResets_2 : ∃ s : State, ∃ (t : State), (s.pwr.mainEn = true) ∧ (s.pwr.off = false) ∧ (s.boot.held = false) ∧ (s.boot.running = none) ∧ (exec .pwrGoodLow s = .next t) :=
  ⟨({ Tests.up with pwr := { Tests.up.pwr with mainEn := true } } : State), (({ Tests.up with pwr := { Tests.up.pwr with mainEn := true } } : State).doReset 2 0 0), rfl, rfl, rfl, rfl, rfl⟩

/-! ## Witnesses: register -/

theorem wit_WritesDiscarded_0 : ∃ s : State, ∃ (a v w : Nat), ∃ (half : Bool), (windowOf (a / 8 * 8) = some w) ∧ (regRow (a / 8 * 8) = none ∨ s.gated w = true) :=
  ⟨State.reset, F.ARR_CTRL_ENABLE.addr, 1, 0, false, by decide +kernel⟩
theorem wit_RegisterWriteByAccessType_0 : ∃ s : State, ∃ (a v w : Nat), ∃ (half : Bool), ∃ (r : RegRow), (s.reachable = true) ∧ (windowOf (a / 8 * 8) = some w) ∧ (regRow (a / 8 * 8) = some r) ∧ (s.gated w = false) ∧ (a / 8 * 8 ∉ [F.CLK_SRC_SEL.addr, F.SLV_BA_CMD_START.addr, F.RST_CTRL_WARM.addr, F.SEC_ROLLBACK_CMD_ADVANCE.addr, F.CLK_EN_EN.addr]) ∧ (w ≠ wOBS) ∧ (s.boot.locked = false ∨ r.rwl &&& writeMask a half = 0#64) :=
  ⟨Tests.up, F.TIM_EVENT_SWITCH.addr, 1, wTIM, false, ⟨0xe000c00b8, 0, 1, 0, 1, 0x0, 0x3ff, 0x0, 0x0, 0x0, 0x0, 0x0⟩, by decide +kernel⟩
theorem wit_LockedWritesSetLockErr_0 : ∃ s : State, ∃ (a v w : Nat), ∃ (half : Bool), ∃ (r : RegRow), ∃ (f : Fld), (s.reachable = true) ∧ (s.boot.locked = true) ∧ (windowOf (a / 8 * 8) = some w) ∧ (regRow (a / 8 * 8) = some r) ∧ (s.gated w = false) ∧ (a / 8 * 8 ∉ [F.CLK_SRC_SEL.addr, F.SLV_BA_CMD_START.addr, F.RST_CTRL_WARM.addr, F.SEC_ROLLBACK_CMD_ADVANCE.addr, F.CLK_EN_EN.addr]) ∧ (w ≠ wOBS) ∧ (r.rwl &&& writeMask a half ≠ 0#64) ∧ (lockErr (a / 8 * 8) = some f) ∧ (f.addr ≠ a / 8 * 8) ∧ (f.lo < 64 ∧ f.w = 1) :=
  ⟨Tests.up, F.ARR_CTRL_ENABLE.addr, 0, 0, false, ⟨0xe00000000, 0, 1, 0, 1, 0x0, 0x0, 0x0, 0x3, 0x0, 0x0, 0x0⟩, F.ARR_EVENT_LOCK_ERR, by decide +kernel⟩
theorem wit_UnitLossActs_0 : ∃ s : State, ∃ (u : ReqUnit), ∃ (old new : Nat), (s.pwr.off = false) ∧ (s.pwr.refLost = false) ∧ ((s.addLost u).boot.level = some old) ∧ ((s.addLost u).levelNow = some new) ∧ (new < old) :=
  ⟨Tests.up, .solver, 3, 0, by decide +kernel⟩
theorem wit_UnitLossActs_1 : ∃ s : State, ∃ (u : ReqUnit), ∃ (old new : Nat), (s.pwr.off = false) ∧ (s.pwr.refLost = false) ∧ ((s.addLost u).boot.level = some old) ∧ ((s.addLost u).levelNow = some new) ∧ (old ≤ new) :=
  ⟨{ Tests.up with boot := { Tests.up.boot with level := some 0 } }, .solver, 0, 0, by decide +kernel⟩
theorem wit_RegisterLawsHold_0 : ∃ s : State, ∃ (f : Fld), ∃ (n : Nat), (f.lo + f.w ≤ 64) :=
  ⟨State.reset, F.TIM_STATUS_STATE, 1, by decide +kernel⟩
theorem wit_RegisterLawsHold_1 : ∃ s : State, ∃ (f g : Fld), ∃ (n : Nat), (f.addr ≠ g.addr ∨ f.lo + f.w ≤ g.lo ∨ g.lo + g.w ≤ f.lo) ∧ (g.lo + g.w ≤ 64) :=
  ⟨State.reset, F.TIM_STATUS_STATE, F.TIM_EVENT_SWITCH, 1, by decide +kernel⟩

/-! ## Witnesses: time -/

theorem wit_TimeEngineActs_0 : ∃ s : State, (s.gated wTIM = false) ∧ (s.pwr.refLost = false) :=
  ⟨Tests.up, by decide +kernel⟩
theorem wit_TimeEngineActs_1 : ∃ s : State, ∃ (p : Nat), (s.gated wTIM = false) ∧ (s.pwr.refLost = false) :=
  ⟨Tests.up, 0, by decide +kernel⟩
theorem wit_TimeEngineActs_2 : ∃ s : State, ∃ (p : Nat), ∃ (b : Bool), (s.gated wTIM = false) ∧ (s.pwr.refLost = false) ∧ (p < 6) :=
  ⟨Tests.up, 0, true, by decide +kernel⟩
theorem wit_TimeEngineActs_3 : ∃ s : State, (s.gated wTIM = false) ∧ (s.pwr.refLost = false) ∧ (s.get F.TIM_STATUS_STATE = 2) ∧ (s.getI F.TIM_SLEW_REMAIN_VALUE = 0) :=
  ⟨Tests.cfg Tests.up [(F.TIM_STATUS_STATE, 2)], by decide +kernel⟩
theorem wit_TimeEngineActs_4 : ∃ s : State, ∃ (t0 : Int), (s.gated wTIM = false) ∧ (s.pwr.refLost = false) ∧ (s.get F.TIM_STATUS_STATE = 3) ∧ (s.tim.holdSince = some t0) ∧ (t0 + s.get F.TIM_CTRL_HOLDOVER_LIMIT * 1000000000 ≤ s.tim.time) :=
  ⟨({ Tests.cfg Tests.up [(F.TIM_STATUS_STATE, 3)] with tim := { Tests.up.tim with holdSince := some 0, time := 2 ^ 40 } } : State), 0, by decide +kernel⟩
theorem wit_PtpMessagesAct_0 : ∃ s : State, ∃ (p d q k : Nat), ∃ (o c l : Int), ∃ (u : State), (s.gated wTIM = false) ∧ (s.pwr.refLost = false) ∧ (s.slotFor p d = some k) ∧ (u = s.updDom k (fun x => { x with syncRx := (p, s.tim.time, l) :: x.syncRx.filter (fun y => y.1 != p) })) ∧ (u.passive k p = false) :=
  ⟨Tests.ptp, 0, 0, 7, 0, 100, 0, -3, _, by decide +kernel, by decide +kernel, by decide +kernel, rfl, by decide +kernel⟩
theorem wit_PtpMessagesAct_1 : ∃ s : State, ∃ (p d q k : Nat), ∃ (o c l : Int), ∃ (u : State), (s.gated wTIM = false) ∧ (s.pwr.refLost = false) ∧ (s.slotFor p d = some k) ∧ (u = s.updDom k (fun x => { x with syncRx := (p, s.tim.time, l) :: x.syncRx.filter (fun y => y.1 != p) })) ∧ (u.passive k p = false) :=
  ⟨Tests.ptp, 0, 0, 7, 0, 100, 0, -3, _, by decide +kernel, by decide +kernel, by decide +kernel, rfl, by decide +kernel⟩
theorem wit_PtpMessagesAct_2 : ∃ s : State, ∃ (p d q k : Nat), ∃ (two : Bool), ∃ (o c l : Int), ∃ (u : State), (s.gated wTIM = false) ∧ (s.pwr.refLost = false) ∧ (s.slotFor p d = some k) ∧ (u = s.updDom k (fun x => { x with syncRx := (p, s.tim.time, l) :: x.syncRx.filter (fun y => y.1 != p) })) ∧ (u.passive k p = true) :=
  ⟨({ Tests.ptp with tim := { Tests.ptp.tim with doms := [{ vectors := [(1, [6])] }, {}] } } : State), 0, 0, 7, 0, true, 100, 0, -3, _, by decide +kernel, by decide +kernel, by decide +kernel, rfl, by decide +kernel⟩
theorem wit_PtpMessagesAct_3 : ∃ s : State, ∃ (p d q k : Nat), ∃ (o c rx c0 sl : Int), ∃ (u : State), (s.gated wTIM = false) ∧ (s.pwr.refLost = false) ∧ (s.slotFor p d = some k) ∧ ((s.dom k).twoStep.find? (fun x => x.1 == p && x.2.1 == q) = some (p, q, rx, c0, sl)) ∧ (u = s.updDom k (fun x => { x with twoStep := x.twoStep.filter (fun y => y.1 != p) })) ∧ (u.passive k p = false) :=
  ⟨Tests.ptp, 1, 0, 7, 0, 100, 0, 10, 3, 0, _, by decide +kernel, by decide +kernel, by decide +kernel, by decide +kernel, rfl, by decide +kernel⟩
theorem wit_PtpMessagesAct_4 : ∃ s : State, ∃ (p d cls k : Nat), ∃ (gm : Announcer), ∃ (utc l : Int), (s.gated wTIM = false) ∧ (s.pwr.refLost = false) ∧ (s.slotFor p d = some k) ∧ (cls ≤ s.get F.TIM_QUALIFY_CLASS_LIMIT) ∧ (((s.dom k).announced = true → (s.dom k).gmId = gm.id)) :=
  ⟨Tests.ptp, 0, 0, 6, 0, ⟨9, 1, 2, 3, 4, 5, 6⟩, 37, 0, by decide +kernel⟩
theorem wit_PtpMessagesAct_5 : ∃ s : State, ∃ (k : Nat), ∃ (a b : List Nat), (s.gated wTIM = false) ∧ (s.pwr.refLost = false) ∧ (k < 2) ∧ (bitSet (s.get (slotPorts k)) 0 = true) ∧ (bitSet (s.get (slotPorts k)) 1 = true) ∧ ((s.dom k).vectors = [(0, a), (1, b)]) :=
  ⟨({ Tests.ptp with tim := { Tests.ptp.tim with doms := [{ vectors := [(0, [6]), (1, [7])] }, {}] } } : State), 0, [6], [7], by decide +kernel⟩
theorem wit_PtpMessagesAct_6 : ∃ s : State, ∃ (p : Nat), ∃ (st : Int), (s.gated wTIM = false) ∧ (s.pwr.refLost = false) ∧ (p < 2) :=
  ⟨Tests.up, 0, 0, by decide +kernel⟩
theorem wit_PtpMessagesAct_7 : ∃ s : State, ∃ (p : Nat), ∃ (st t1 t2 t4 : Int), (s.gated wTIM = false) ∧ (s.pwr.refLost = false) ∧ (p < 2) ∧ ((s.tim.ports.getD p {}).t1 = some t1) ∧ ((s.tim.ports.getD p {}).resp = some (t2, t4)) :=
  ⟨Tests.ptp, 0, 30, 10, 20, 40, by decide +kernel⟩
theorem wit_PtpMessagesAct_8 : ∃ s : State, ∃ (k p : Nat), ∃ (l : List (Nat × Time × Int)), (s.gated wTIM = false) ∧ (s.pwr.refLost = false) ∧ (k < 2) ∧ ((s.dom k).syncRx = l) ∧ (s.on (slotEn k) = true) ∧ ((l.filter (fun x => bitSet (s.get (slotPorts k)) x.1)).any (fun x =>
      x.1 == p && s.rxExpired (s.get F.TIM_QUALIFY_SYNC_TIMEOUT) x) = true) :=
  ⟨Tests.ptp, 0, 0, [(0, 0, 0)], by decide +kernel⟩
theorem wit_PtpMessagesAct_9 : ∃ s : State, ∃ (k p : Nat), ∃ (l : List (Nat × Time × Int)), (s.gated wTIM = false) ∧ (s.pwr.refLost = false) ∧ (k < 2) ∧ ((s.dom k).announceRx = l) ∧ (s.on (slotEn k) = true) ∧ ((l.filter (fun x => bitSet (s.get (slotPorts k)) x.1)).any (fun x =>
      x.1 == p && s.rxExpired (s.get F.TIM_QUALIFY_ANNOUNCE_TIMEOUT) x) = true) :=
  ⟨Tests.ptp, 0, 0, [(0, 0, 0)], by decide +kernel⟩
theorem wit_TimeStateActs_0 : ∃ s : State, ∃ (t0 : Int), (s.gated wTIM = false) ∧ (s.pwr.refLost = false) ∧ (s.tim.acqStart = some t0) ∧ (s.get F.TIM_STATUS_STATE = 0) ∧ (t0 + s.get F.TIM_CTRL_ACQ_TIMEOUT * 1000000000 ≤ s.tim.time) :=
  ⟨({ Tests.up with tim := { Tests.up.tim with acqStart := some 0, time := 2 ^ 40 } } : State), 0, by decide +kernel⟩
theorem wit_TimeStateActs_1 : ∃ s : State, ∃ (k : Nat), ∃ (t0 : Int), (s.gated wTIM = false) ∧ (s.pwr.refLost = false) ∧ (s.get F.TIM_CTRL_PREFERRED = k) ∧ (s.on F.TIM_CTRL_REVERT = true) ∧ (s.on (slotQual k) = true) ∧ (s.follows (1 - k) = true) ∧ ((s.dom k).qualSince = some t0) ∧ (t0 + s.get F.TIM_CTRL_REVERT_HOLD * 1000000000 ≤ s.tim.time) :=
  ⟨Tests.cfg Tests.ptp [(F.TIM_CTRL_PREFERRED, 0), (F.TIM_CTRL_REVERT, 1), (F.TIM_STATUS_DOM0_QUALIFIED, 1), (F.TIM_STATUS_STATE, 1), (F.TIM_STATUS_ACTIVE_SLOT, 1)], 0, 0, by decide +kernel⟩
theorem wit_TimeStateActs_2 : ∃ s : State, ∃ (k : Nat), (s.gated wTIM = false) ∧ (s.pwr.refLost = false) ∧ (k < 2) ∧ (s.getI (slotOffset k) ≠ 0) ∧ ((s.getI (slotOffset k)).natAbs ≤ s.get F.TIM_DISC_THRESHOLD_THRESHOLD) :=
  ⟨Tests.cfg Tests.up [(F.TIM_DOM_OFFSET0_VALUE, 50), (F.TIM_DISC_THRESHOLD_THRESHOLD, 100)], 0, by decide +kernel⟩
theorem wit_TimedOutputsAct_0 : ∃ s : State, ∃ (p : Nat), (s.gated wTIM = false) ∧ (s.pwr.refLost = false) ∧ (s.sensorMaster p = true) ∧ (s.txDue (10 * p + 1) 1000000000 = true) ∧ (s.get F.TIM_STATUS_STATE = 1) :=
  ⟨Tests.cfg Tests.up [(F.TIM_SENSOR_DOM_PORT_EN, 1), (F.TIM_STATUS_STATE, 1)], 0, by decide +kernel⟩
theorem wit_TimedOutputsAct_1 : ∃ s : State, ∃ (p : Nat), (s.gated wTIM = false) ∧ (s.pwr.refLost = false) ∧ (s.sensorMaster p = true) ∧ (s.txDue (10 * p) (logSeconds (s.getI F.TIM_SENSOR_DOM_SYNC_LOG_INTERVAL)) = true) :=
  ⟨Tests.cfg Tests.up [(F.TIM_SENSOR_DOM_PORT_EN, 1), (F.TIM_STATUS_STATE, 1)], 0, by decide +kernel⟩
theorem wit_TimedOutputsAct_2 : ∃ s : State, ∃ (p : Nat), (s.gated wTIM = false) ∧ (s.pwr.refLost = false) ∧ (s.sensorMaster p = true) ∧ (s.txDue (10 * p + 2) (logSeconds (s.getI F.TIM_SENSOR_DOM_PDELAY_LOG_INTERVAL)) = true) :=
  ⟨Tests.cfg Tests.up [(F.TIM_SENSOR_DOM_PORT_EN, 1), (F.TIM_STATUS_STATE, 1)], 0, by decide +kernel⟩
theorem wit_TimedOutputsAct_3 : ∃ s : State, ∃ (p : Nat), (s.gated wTIM = false) ∧ (s.pwr.refLost = false) ∧ (p < 2) ∧ (s.portUp p = true) ∧ (s.txDue (100 + p) (logSeconds (s.getI F.TIM_QUALIFY_PDELAY_LOG_INTERVAL)) = true) :=
  ⟨Tests.cfg Tests.up [(F.HST_CTRL_ENABLE_A, 1), (F.HST_STATUS_LINK_A, 1)], 0, by decide +kernel⟩
theorem wit_TimedOutputsAct_4 : ∃ s : State, ∃ (p : Nat), ∃ (st : Int), (s.gated wTIM = false) ∧ (s.pwr.refLost = false) ∧ (s.sensorMaster p = true) :=
  ⟨Tests.cfg Tests.up [(F.TIM_SENSOR_DOM_PORT_EN, 1), (F.TIM_STATUS_STATE, 1)], 0, 0, by decide +kernel⟩
theorem wit_TimedOutputsAct_5 : ∃ s : State, ∃ (p kind : Nat), ∃ (f : List Int), (s.gated wTIM = false) ∧ (s.pwr.refLost = false) ∧ (p < s.tim.tx.length) ∧ (s.txPort p = {}) ∧ (s.txUp p = true) ∧ (s.guarded p = false) ∧ (kind = 0 ∨ kind = 2) :=
  ⟨Tests.cfg Tests.up [(F.TIM_SENSOR_DOM_PORT_EN, 1), (F.TIM_STATUS_STATE, 1)], 2, 0, [], by decide +kernel⟩
theorem wit_TimedOutputsAct_6 : ∃ s : State, ∃ (p dst : Nat), ∃ (ti : Int), ∃ (dl : Bool), ∃ (pl : List Byte), (s.gated wTIM = false) ∧ (s.pwr.refLost = false) ∧ (p < 8) ∧ (s.tim.launch.getD p [] = []) ∧ (s.launching p = false) ∧ (s.tim.time < ti + 40) ∧ ((s.txPort p).last = none) :=
  ⟨Tests.up, 0, 7, 6000000000, false, [], by decide +kernel⟩
theorem wit_TimedOutputsAct_7 : ∃ s : State, ∃ (p dst : Nat), ∃ (ti : Int), ∃ (dl : Bool), ∃ (pl : List Byte), ∃ (h : Launch), ∃ (r : List Launch), (s.gated wTIM = false) ∧ (s.pwr.refLost = false) ∧ (p < 8) ∧ (s.tim.launch.getD p [] = h :: r) ∧ (h.time ≤ ti) ∧ (r.length + 1 < launchDepth p) :=
  ⟨({ Tests.up with tim := { Tests.up.tim with launch := [[{ time := 5, dropLate := false, frames := [] }]] } } : State), 0, 7, 100, false, [], { time := 5, dropLate := false, frames := [] }, [], by decide +kernel⟩
theorem wit_TimedOutputsAct_8 : ∃ s : State, ∃ (p : Nat), ∃ (e : Launch), ∃ (r : List Launch), (s.gated wTIM = false) ∧ (s.pwr.refLost = false) ∧ (s.tim.launch.getD p [] = e :: r) ∧ (e.train = none) ∧ (e.time ≤ s.tim.time) ∧ (e.late = false) ∧ (s.launching p = false) :=
  ⟨({ Tests.up with tim := { Tests.up.tim with launch := [[{ time := 5000000000, dropLate := false, frames := [] }]] } } : State), 0, { time := 5000000000, dropLate := false, frames := [] }, [], by decide +kernel⟩
theorem wit_TimedOutputsAct_9 : ∃ s : State, ∃ (o : Nat), ∃ (e : Int), (s.gated wTIM = false) ∧ (s.pwr.refLost = false) ∧ (o < 12) ∧ (s.on (F.TIM_TRIG_CTL_ENABLE o) = true) ∧ (s.trigEdgeBefore o s.tim.time = some e) ∧ (s.tim.lastEdge.getD o none = none) ∧ (s.tim.time ≤ e + 40) :=
  ⟨Tests.cfg Tests.up [(F.TIM_TRIG_CTL_ENABLE 0, 1), (F.TIM_TRIG_TIME_NUM 0, 1000000000), (F.TIM_TRIG_TIME_DEN 0, 1)], 0, 5000000000, by decide +kernel⟩
theorem wit_TimedOutputsAct_10 : ∃ s : State, ∃ (o : Nat), ∃ (e : Int), ∃ (a : Bool), (s.gated wTIM = false) ∧ (s.pwr.refLost = false) ∧ (s.tim.pulse.getD o none = some (e, a)) ∧ (e ≤ s.tim.time) :=
  ⟨({ Tests.up with tim := { Tests.up.tim with pulse := [some (5, true)] } } : State), 0, 5, true, by decide +kernel⟩

/-! ## Witnesses: ingest -/

theorem wit_CamerasAct_0 : ∃ s : State, ∃ (rx vc n i : Nat), (s.gated wING = false) ∧ (s.pwr.refLost = false) ∧ (s.tim.streamsUp = true) ∧ (rx < 12) ∧ (bitSet (s.get F.ING_CTRL_CSI_EN) rx = true) ∧ (s.ing.bursts.any (fun b => b.rx == rx) = false) ∧ (s.camsOf rx vc = [i]) ∧ (s.frameOf i = none) ∧ (0 < n) ∧ (n < 65536) ∧ (s.on (F.ING_STR_CFG_STAMP_SRC i) = false) :=
  ⟨Tests.cfg Tests.up [(F.ING_STR_CFG_ENABLE 3, 1), (F.ING_STR_CFG_KIND 3, 0), (F.ING_STR_CFG_SOURCE 3, 2), (F.ING_STR_MATCH_SEL_A 3, 0x2C * 4), (F.ING_STR_STAT_STATE 3, 2)], 2, 0, 7, 3, by decide +kernel⟩
theorem wit_CamerasAct_1 : ∃ s : State, ∃ (rx vc n : Nat), (s.gated wING = false) ∧ (s.pwr.refLost = false) ∧ (s.tim.streamsUp = true) ∧ (rx < 12) ∧ (bitSet (s.get F.ING_CTRL_CSI_EN) rx = true) ∧ (s.ing.bursts.any (fun b => b.rx == rx) = false) ∧ (s.camsOf rx vc = []) :=
  ⟨Tests.up, 2, 0, 7, by decide +kernel⟩
theorem wit_CamerasAct_2 : ∃ s : State, ∃ (rx vc dt i : Nat), ∃ (d : List Byte), ∃ (f : OpenFrame), ∃ (u : State), (s.gated wING = false) ∧ (s.pwr.refLost = false) ∧ (s.tim.streamsUp = true) ∧ (rx < 12) ∧ (bitSet (s.get F.ING_CTRL_CSI_EN) rx = true) ∧ (s.isGoldenType rx vc dt = false) ∧ (dt ≠ 0x12) ∧ (dt ≠ 0x02) ∧ (dt ≠ 0x03) ∧ (s.camOf rx vc dt = some i) ∧ (s.frameOf i = some f) ∧ (f.lines < 2160) ∧ (d.length ≤ lineLimit dt) ∧ (u = s.updOpen i (fun f => { f with lines := f.lines + 1 })) ∧ ((u.bufferTake rx (linePixels dt d)).2 = true) :=
  ⟨{ (Tests.cfg Tests.up [(F.ING_STR_CFG_ENABLE 3, 1), (F.ING_STR_CFG_KIND 3, 0), (F.ING_STR_CFG_SOURCE 3, 2), (F.ING_STR_MATCH_SEL_A 3, 0x2C * 4), (F.ING_STR_STAT_STATE 3, 2)]) with ing := { Tests.up.ing with frames := [{ stream := 3, arrival := 0 }] } }, 2, 0, 0x2C, 3, [1, 2, 3], { stream := 3, arrival := 0 }, _, by decide +kernel, by decide +kernel, by decide +kernel, by decide +kernel, by decide +kernel, by decide +kernel, by decide +kernel, by decide +kernel, by decide +kernel, by decide +kernel, by decide +kernel, by decide +kernel, by decide +kernel, rfl, by decide +kernel⟩
theorem wit_CamerasAct_3 : ∃ s : State, ∃ (rx vc dt : Nat), ∃ (d : List Byte), ∃ (c : Bool), (s.gated wING = false) ∧ (s.pwr.refLost = false) ∧ (s.tim.streamsUp = true) ∧ (rx < 12) ∧ (bitSet (s.get F.ING_CTRL_CSI_EN) rx = true) ∧ (dt = 0x02 ∨ dt = 0x03) ∧ (vc < 4) :=
  ⟨{ (Tests.cfg Tests.up [(F.ING_STR_CFG_ENABLE 3, 1), (F.ING_STR_CFG_KIND 3, 0), (F.ING_STR_CFG_SOURCE 3, 2), (F.ING_STR_MATCH_SEL_A 3, 0x2C * 4), (F.ING_STR_STAT_STATE 3, 2)]) with ing := { Tests.up.ing with frames := [{ stream := 3, arrival := 0 }] } }, 2, 0, 2, [], true, by decide +kernel⟩
theorem wit_CamerasAct_4 : ∃ s : State, ∃ (rx vc i : Nat), ∃ (d : List Byte), ∃ (f : OpenFrame), (s.gated wING = false) ∧ (s.pwr.refLost = false) ∧ (s.tim.streamsUp = true) ∧ (rx < 12) ∧ (bitSet (s.get F.ING_CTRL_CSI_EN) rx = true) ∧ (s.camsOf rx vc = [i]) ∧ (s.frameOf i = some f) ∧ (s.get (F.ING_STR_CFG_CHECK i) = 2) ∧ (f.embSeen = false) :=
  ⟨Tests.cfg ({ (Tests.cfg Tests.up [(F.ING_STR_CFG_ENABLE 3, 1), (F.ING_STR_CFG_KIND 3, 0), (F.ING_STR_CFG_SOURCE 3, 2), (F.ING_STR_MATCH_SEL_A 3, 0x2C * 4), (F.ING_STR_STAT_STATE 3, 2)]) with ing := { Tests.up.ing with frames := [{ stream := 3, arrival := 0 }] } }) [(F.ING_STR_CFG_CHECK 3, 2)], 2, 0, 3, [1], { stream := 3, arrival := 0 }, by decide +kernel⟩
theorem wit_CamerasAct_5 : ∃ s : State, ∃ (rx vc n : Nat), ∃ (f : OpenFrame), (s.gated wING = false) ∧ (s.pwr.refLost = false) ∧ (s.tim.streamsUp = true) ∧ (rx < 12) ∧ (bitSet (s.get F.ING_CTRL_CSI_EN) rx = true) ∧ ((s.camsOf rx vc).filterMap s.frameOf = [f]) :=
  ⟨{ (Tests.cfg Tests.up [(F.ING_STR_CFG_ENABLE 3, 1), (F.ING_STR_CFG_KIND 3, 0), (F.ING_STR_CFG_SOURCE 3, 2), (F.ING_STR_MATCH_SEL_A 3, 0x2C * 4), (F.ING_STR_STAT_STATE 3, 2)]) with ing := { Tests.up.ing with frames := [{ stream := 3, arrival := 0 }] } }, 2, 0, 7, { stream := 3, arrival := 0 }, by decide +kernel⟩
theorem wit_CamerasAct_6 : ∃ s : State, ∃ (i : Nat), ∃ (f : OpenFrame), (s.gated wING = false) ∧ (s.pwr.refLost = false) ∧ (s.tim.streamsUp = true) ∧ (s.frameOf i = some f) ∧ (f.arrival + s.get (F.ING_STR_TIME_PERIOD i) ≤ s.tim.time) :=
  ⟨{ (Tests.cfg Tests.up [(F.ING_STR_CFG_ENABLE 3, 1), (F.ING_STR_CFG_KIND 3, 0), (F.ING_STR_CFG_SOURCE 3, 2), (F.ING_STR_MATCH_SEL_A 3, 0x2C * 4), (F.ING_STR_STAT_STATE 3, 2)]) with ing := { Tests.up.ing with frames := [{ stream := 3, arrival := 0 }] } }, 3, { stream := 3, arrival := 0 }, by decide +kernel⟩
theorem wit_SensorsAct_0 : ∃ s : State, ∃ (p ip dst i : Nat), ∃ (fr d : List Byte), (s.gated wING = false) ∧ (s.pwr.refLost = false) ∧ (s.tim.streamsUp = true) ∧ (p < 6) ∧ (bitSet (s.get F.ING_CTRL_ETH_EN) p = true) ∧ (acceptUdp (s.get (F.ING_ETH_MAC_MAC p)) (if s.on (F.ING_ETH_CFG_VLAN_EN p) then some (s.get (F.ING_ETH_CFG_VLAN_ID p)) else none) fr = some (ip, dst, d)) ∧ (s.lidarOf p dst ip = some i) :=
  ⟨Tests.cfg Tests.up [(F.ING_STR_CFG_ENABLE 9, 1), (F.ING_STR_CFG_KIND 9, 1), (F.ING_STR_CFG_SOURCE 9, 1), (F.ING_STR_MATCH_SEL_A 9, 7500), (F.ING_STR_STAT_STATE 9, 2)], 1, 0, 7500, 9, (Tests.udp 7500 [1, 2, 3, 4]), [1, 2, 3, 4], by decide +kernel⟩
theorem wit_SensorsAct_1 : ∃ s : State, ∃ (p : Nat), ∃ (fr : List Byte), (s.gated wING = false) ∧ (s.pwr.refLost = false) ∧ (s.tim.streamsUp = true) ∧ (p < 6) ∧ (bitSet (s.get F.ING_CTRL_ETH_EN) p = true) ∧ (acceptUdp (s.get (F.ING_ETH_MAC_MAC p)) (if s.on (F.ING_ETH_CFG_VLAN_EN p) then some (s.get (F.ING_ETH_CFG_VLAN_ID p)) else none) fr = none) :=
  ⟨Tests.up, 1, [], by decide +kernel⟩
theorem wit_SensorsAct_2 : ∃ s : State, ∃ (p a b : Nat), (s.gated wING = false) ∧ (s.pwr.refLost = false) ∧ (s.tim.streamsUp = true) ∧ (p < 6) ∧ (bitSet (s.get F.ING_CTRL_ETH_EN) p = true) :=
  ⟨Tests.up, 1, 7, 0, by decide +kernel⟩
theorem wit_SensorsAct_3 : ∃ s : State, ∃ (c id i : Nat), ∃ (ide : Bool), ∃ (d : List Byte), (s.gated wING = false) ∧ (s.pwr.refLost = false) ∧ (s.tim.streamsUp = true) ∧ (c < 4) ∧ (bitSet (s.get F.ING_CTRL_CAN_EN) c = true) ∧ (s.ing.busOff.getD c false = false) ∧ (d.length ≤ 8) ∧ (id < 2 ^ 29) ∧ ((s.streamsOf 2 c).filter (fun i => s.filterTakes c (bitsAt (s.get (F.ING_STR_MATCH_SEL_A i)) 0 5) id ide) = [i]) :=
  ⟨Tests.cfg Tests.up [(F.ING_CTRL_CAN_EN, 15), (F.ING_STR_CFG_ENABLE 9, 1), (F.ING_STR_CFG_KIND 9, 2), (F.ING_STR_CFG_SOURCE 9, 1), (F.ING_CAN_FLT_ENABLE 1 0, 1), (F.ING_STR_STAT_STATE 9, 2)], 1, 5, 9, false, [1], by decide +kernel⟩
theorem wit_SensorsAct_4 : ∃ s : State, ∃ (c : Nat), (s.gated wING = false) ∧ (s.pwr.refLost = false) ∧ (s.tim.streamsUp = true) ∧ (c < 4) ∧ (bitSet (s.get F.ING_CTRL_CAN_EN) c = true) :=
  ⟨Tests.cfg Tests.up [(F.ING_CTRL_CAN_EN, 15)], 1, by decide +kernel⟩
theorem wit_SensorsAct_5 : ∃ s : State, ∃ (c : Nat), (s.gated wING = false) ∧ (s.pwr.refLost = false) ∧ (s.tim.streamsUp = true) :=
  ⟨Tests.up, 1, by decide +kernel⟩
theorem wit_SensorsAct_6 : ∃ s : State, ∃ (k : Nat), (s.gated wING = false) ∧ (s.pwr.refLost = false) ∧ (s.tim.streamsUp = true) ∧ (k < 4) ∧ (bitSet (s.get F.ING_CTRL_SPI_EN) k = true) ∧ (s.ing.spiEdge.getD k none = none) :=
  ⟨Tests.cfg Tests.up [(F.ING_CTRL_SPI_EN, 15)], 1, by decide +kernel⟩
theorem wit_SensorsAct_7 : ∃ s : State, ∃ (k i : Nat), ∃ (t : Time), ∃ (d : List Byte), ∃ (l : List Nat), (s.gated wING = false) ∧ (s.pwr.refLost = false) ∧ (s.tim.streamsUp = true) ∧ (s.ing.spiRead.getD k none = some t) ∧ (s.streamsOf 3 k = i :: l) :=
  ⟨{ Tests.cfg Tests.up [(F.ING_STR_CFG_ENABLE 9, 1), (F.ING_STR_CFG_KIND 9, 3), (F.ING_STR_CFG_SOURCE 9, 1), (F.ING_STR_STAT_STATE 9, 2)] with ing := { Tests.up.ing with spiRead := [none, some 5, none, none] } }, 1, 9, 5, [1], [], by decide +kernel⟩
theorem wit_SensorsAct_8 : ∃ s : State, ∃ (e i held : Nat), ∃ (l : List Nat), ∃ (u : State), (s.gated wING = false) ∧ (s.pwr.refLost = false) ∧ (s.tim.streamsUp = true) ∧ (e < 8) ∧ (s.get (F.ING_ENC_CFG_FILTER e) ≤ held) ∧ (s.encInput e = e) ∧ (bitSet (s.get F.ING_CTRL_ENC_EN) e = true) ∧ (s.get (F.ING_ENC_CFG_MODE e) = 0) ∧ ((s.encIn e).level = some false) ∧ (u = (s.updEnc e (fun x => { x with level := some true, edgeAt := some s.tim.time })).updEnc e (fun x => { x with count := x.count + 1, lastIdle := some s.tim.time })) ∧ (s.streamsOf 4 e = i :: l) ∧ ((s.ing.lastRx.lookup i).getD s.tim.time + s.get (F.ING_ENC_CFG_INTERVAL e) * 1000 ≤ s.tim.time) :=
  ⟨{ Tests.cfg Tests.up [(F.ING_STR_CFG_ENABLE 9, 1), (F.ING_STR_CFG_KIND 9, 4), (F.ING_STR_CFG_SOURCE 9, 1), (F.ING_STR_STAT_STATE 9, 2)] with ing := { Tests.up.ing with lastRx := [(9, 0)], enc := Tests.up.ing.enc.map (fun x => { x with level := some false }) } }, 1, 9, 5, [], _, by decide +kernel, by decide +kernel, by decide +kernel, by decide +kernel, by decide +kernel, by decide +kernel, by decide +kernel, by decide +kernel, by decide +kernel, rfl, by decide +kernel, by decide +kernel⟩
theorem wit_SensorsAct_9 : ∃ s : State, ∃ (e held : Nat), ∃ (rising : Bool), (s.gated wING = false) ∧ (s.pwr.refLost = false) ∧ (s.tim.streamsUp = true) ∧ (e < 8) ∧ (held < s.get (F.ING_ENC_CFG_FILTER e)) :=
  ⟨Tests.cfg Tests.up [(F.ING_ENC_CFG_FILTER 1, 3)], 1, 2, true, by decide +kernel⟩
theorem wit_SensorsAct_10 : ∃ s : State, ∃ (e held : Nat), ∃ (rising : Bool), (s.gated wING = false) ∧ (s.pwr.refLost = false) ∧ (s.tim.streamsUp = true) ∧ (e < 8) ∧ ((s.encIn e).level = some rising) :=
  ⟨{ Tests.up with ing := { Tests.up.ing with enc := Tests.up.ing.enc.map (fun x => { x with level := some true }) } }, 1, 7, true, by decide +kernel⟩
theorem wit_SensorsAct_11 : ∃ s : State, ∃ (i : Nat), (s.gated wING = false) ∧ (s.pwr.refLost = false) ∧ (s.tim.streamsUp = true) ∧ ((s.streamsOf 4 (s.get (F.ING_STR_CFG_SOURCE i))).contains i = true) ∧ (bitSet (s.get F.ING_CTRL_ENC_EN) (s.get (F.ING_STR_CFG_SOURCE i)) = true) ∧ (s.get (F.ING_ENC_CFG_IDLE_TIMEOUT (s.get (F.ING_STR_CFG_SOURCE i))) ≠ 0) ∧ (((s.encIn (s.get (F.ING_STR_CFG_SOURCE i))).lastIdle.or (s.ing.lastRx.lookup i)).getD s.tim.time
        + s.get (F.ING_ENC_CFG_IDLE_TIMEOUT (s.get (F.ING_STR_CFG_SOURCE i))) * 1000000 ≤ s.tim.time) :=
  ⟨{ Tests.cfg Tests.up [(F.ING_STR_CFG_ENABLE 9, 1), (F.ING_STR_CFG_KIND 9, 4), (F.ING_STR_CFG_SOURCE 9, 1), (F.ING_STR_STAT_STATE 9, 2), (F.ING_ENC_CFG_IDLE_TIMEOUT 1, 1)] with ing := { Tests.up.ing with lastRx := [(9, 0)] } }, 9, by decide +kernel⟩
theorem wit_SensorsAct_12 : ∃ s : State, ∃ (i : Nat), ∃ (t : Time), (s.gated wING = false) ∧ (s.pwr.refLost = false) ∧ (s.tim.streamsUp = true) ∧ (i < 64) ∧ (s.get (F.ING_STR_STAT_STATE i) = 2) ∧ (s.get (F.ING_STR_TIME_ABSENT_PERIODS i) ≠ 0) ∧ (s.ing.lastRx.lookup i = some t) ∧ (t + s.get (F.ING_STR_TIME_ABSENT_PERIODS i) * s.get (F.ING_STR_TIME_PERIOD i) ≤ s.tim.time) :=
  ⟨{ Tests.cfg Tests.up [(F.ING_STR_STAT_STATE 9, 2), (F.ING_STR_TIME_ABSENT_PERIODS 9, 3)] with ing := { Tests.up.ing with lastRx := [(9, 0)] } }, 9, 0, by decide +kernel⟩
theorem wit_SensorsAct_13 : ∃ s : State, (s.gated wING = false) ∧ (s.pwr.refLost = false) ∧ (s.tim.streamsUp = true) ∧ (s.inGrace = false) :=
  ⟨Tests.up, by decide +kernel⟩
theorem wit_GoldenInjectionActs_0 : ∃ s : State, ∃ (rx i : Nat), ∃ (b : Burst), ∃ (l : List Nat), (s.gated wING = false) ∧ (s.pwr.refLost = false) ∧ (s.tim.streamsUp = true) ∧ (s.on F.ING_CTRL_GOLDEN_EN = true) ∧ (s.power = 0) ∧ (rx < 12) ∧ (bitSet (s.get F.ING_CTRL_CSI_EN) rx = true) ∧ (s.burstFor rx = some b) ∧ (s.streamsOf 0 rx = i :: l) ∧ (b.next + 1 < s.goldenUnits b.entry) :=
  ⟨{ Tests.golden with ing := { Tests.golden.ing with bursts := [{ rx := 2, num := 0, entry := 0 }] } }, 2, 3, { rx := 2, entry := 0, num := 0, next := 0 }, [], by decide +kernel⟩
theorem wit_GoldenInjectionActs_1 : ∃ s : State, ∃ (rx i : Nat), ∃ (b : Burst), ∃ (l : List Nat), (s.gated wING = false) ∧ (s.pwr.refLost = false) ∧ (s.tim.streamsUp = true) ∧ (s.on F.ING_CTRL_GOLDEN_EN = true) ∧ (s.power = 0) ∧ (rx < 12) ∧ (bitSet (s.get F.ING_CTRL_CSI_EN) rx = true) ∧ (s.burstFor rx = some b) ∧ (s.streamsOf 0 rx = i :: l) ∧ (s.goldenUnits b.entry ≤ b.next + 1) :=
  ⟨{ Tests.golden with ing := { Tests.golden.ing with bursts := [{ rx := 2, num := 0, entry := 0, next := 1 }] } }, 2, 3, { rx := 2, entry := 0, num := 0, next := 1 }, [], by decide +kernel⟩
theorem wit_GoldenInjectionActs_2 : ∃ s : State, ∃ (p i : Nat), ∃ (g : Golden), ∃ (l : List Nat), (s.gated wING = false) ∧ (s.pwr.refLost = false) ∧ (s.tim.streamsUp = true) ∧ (s.on F.ING_CTRL_GOLDEN_EN = true) ∧ (s.power = 0) ∧ (p < 6) ∧ (bitSet (s.get F.ING_CTRL_ETH_EN) p = true) ∧ (s.saf.golden.find? (fun g => g.kind == 1 && g.due.isNone && s.goldenPort g.entry == some p) = some g) ∧ (s.streamsOf 1 p = i :: l) :=
  ⟨Tests.golden, 1, 9, { num := 1, entry := 1, extra := false, kind := 1 }, [], by decide +kernel⟩

/-! ## Witnesses: queue -/

theorem wit_QueueCommandsAct_0 : ∃ s : State, ∃ (q : Nat), ∃ (d : List Byte), (s.gated wSQ = false) ∧ (q < 1024) ∧ (s.on (F.SQ_QCFG_ENABLE q) = true) ∧ (d.isEmpty = false) ∧ (s.on (F.SQ_QCFG_PACKING q) = false) ∧ ((s.queue q).resetAt = none) ∧ ((s.queue q).pendItems = 0) ∧ (s.itemFits q d.length = true) ∧ ((s.queue q).isEmpty = false) :=
  ⟨Tests.cfg (Tests.up.setQueue 5 { words := [{ data := [] }] }) [(F.SQ_QCFG_PACKING 5, 0)], 5, [1], by decide +kernel⟩
theorem wit_QueueCommandsAct_1 : ∃ s : State, ∃ (q : Nat), ∃ (d : List Byte), (s.gated wSQ = false) ∧ (q < 1024) ∧ (s.on (F.SQ_QCFG_ENABLE q) = true) ∧ (d.isEmpty = false) ∧ ((s.queue q).resetAt = none) ∧ ((s.queue q).pendItems = 0) ∧ (s.itemFits q d.length = false) ∧ ((s.queue q).markerOpen = false) ∧ ((s.queue q).packing.isEmpty = true) ∧ ((s.queue q).used < s.get (F.SQ_QCFG_SIZE q)) :=
  ⟨Tests.up.setQueue 5 { words := List.replicate 7 { data := [] } }, 5, [1], by decide +kernel⟩
theorem wit_QueueCommandsAct_2 : ∃ s : State, ∃ (q : Nat), ∃ (d : List Byte), (s.gated wSQ = false) ∧ (q < 1024) ∧ (s.on (F.SQ_QCFG_ENABLE q) = true) ∧ (d.isEmpty = false) ∧ ((s.queue q).resetAt = some s.pwr.refclk) :=
  ⟨Tests.up.setQueue 5 { resetAt := some Tests.up.pwr.refclk }, 5, [1], by decide +kernel⟩
theorem wit_QueueCommandsAct_3 : ∃ s : State, ∃ (q : Nat), (s.gated wSQ = false) ∧ (q < 1024) ∧ (s.on (F.SQ_QCFG_ENABLE q) = true) ∧ ((s.queue q).resetAt = none) ∧ ((s.queue q).packing.isEmpty = false) :=
  ⟨Tests.up.setQueue 5 { packing := [1] }, 5, by decide +kernel⟩
theorem wit_QueueCommandsAct_4 : ∃ s : State, ∃ (q : Nat), (s.gated wSQ = false) ∧ (q < 1024) ∧ (s.on (F.SQ_QCFG_ENABLE q) = true) ∧ ((s.queue q).resetAt = none) ∧ ((s.queue q).packing.isEmpty = true) ∧ ((s.queue q).pendItems ≠ 0) ∧ ((s.queue q).used < s.get (F.SQ_QCFG_SIZE q)) :=
  ⟨Tests.up.setQueue 5 { pendItems := 3, pendBytes := 9 }, 5, by decide +kernel⟩
theorem wit_QueueCommandsAct_5 : ∃ s : State, ∃ (q : Nat), ∃ (w : QWord), ∃ (l : List QWord), (s.gated wSQ = false) ∧ (q < 1024) ∧ (s.on (F.SQ_QCFG_ENABLE q) = true) ∧ ((s.queue q).resetAt = none) ∧ (s.storedWords q = w :: l) ∧ (w.bad {} = false) ∧ (s.get (F.SQ_QCFG_READ_TIMEOUT q) = 0) :=
  ⟨Tests.up.setQueue 5 { words := [mkWord [7] 1 false true] }, 5, mkWord [7] 1 false true, [], by decide +kernel⟩
theorem wit_QueueCommandsAct_6 : ∃ s : State, ∃ (q : Nat), ∃ (w : QWord), ∃ (l : List QWord), ∃ (p : StageParity), ∃ (d e : Bool), (s.gated wSQ = false) ∧ (q < 1024) ∧ (s.on (F.SQ_QCFG_ENABLE q) = true) ∧ ((s.queue q).resetAt = none) ∧ (s.storedWords q = w :: l) ∧ ((p.head || p.mid || p.tail || d || e) = true) :=
  ⟨Tests.up.setQueue 5 { words := [mkWord [7] 1 false true] }, 5, mkWord [7] 1 false true, [], ⟨true, false, false⟩, false, false, by decide +kernel⟩
theorem wit_QueueCommandsAct_7 : ∃ s : State, ∃ (q t0 : Nat), (s.gated wSQ = false) ∧ (q < 1024) ∧ (s.on (F.SQ_QCFG_ENABLE q) = true) ∧ ((s.queue q).resetAt = none) ∧ (s.pending = []) ∧ ((s.queue q).timer = some t0) ∧ ((s.queue q).isEmpty = false) ∧ (t0 + 25 * s.get (F.SQ_QCFG_READ_TIMEOUT q) ≤ s.pwr.refclk) :=
  ⟨Tests.up.setQueue 5 { packing := [1], timer := some 0 }, 5, 0, by decide +kernel⟩
theorem wit_QueueCommandsAct_8 : ∃ s : State, ∃ (q : Nat), (s.gated wSQ = false) ∧ (q < 1024) ∧ (s.on (F.SQ_QCFG_ENABLE q) = true) :=
  ⟨Tests.up, 5, by decide +kernel⟩
theorem wit_QueueCommandsAct_9 : ∃ s : State, ∃ (q : Nat), ∃ (x : Queue), (s.gated wSQ = false) ∧ (x.words.length ≤ 16) ∧ ((s.queue q).words.length ≤ 16) :=
  ⟨Tests.marked, 5, {}, by decide +kernel⟩

/-! ## Witnesses: qmarks -/

theorem wit_QueueMarksAct_0 : ∃ s : State, ∃ (q k : Nat), (q < 1024) ∧ (k < 4) ∧ (s.on (F.SQ_QCFG_ENABLE q) = true) ∧ (s.runs wSQ = true) ∧ (s.resetting q = false) ∧ ((s.queue q).marks.length = 4) ∧ ((s.queue q).marks.getD k none = none) :=
  ⟨Tests.marked, 5, 1, by decide +kernel⟩
theorem wit_QueueMarksAct_1 : ∃ s : State, ∃ (q k : Nat), ∃ (m : Nat × Nat), (q < 1024) ∧ (k < 4) ∧ (s.on (F.SQ_QCFG_ENABLE q) = true) ∧ (s.runs wSQ = true) ∧ (s.resetting q = false) ∧ ((s.queue q).marks.getD k none = some m) :=
  ⟨Tests.marked, 5, 0, (0, 3), by decide +kernel⟩
theorem wit_QueueMarksAct_2 : ∃ s : State, ∃ (q k : Nat), ∃ (m : Nat × Nat), (q < 1024) ∧ (k < 4) ∧ (s.on (F.SQ_QCFG_ENABLE q) = true) ∧ (s.runs wSQ = true) ∧ (s.resetting q = false) ∧ ((s.queue q).marks.getD k none = some m) :=
  ⟨Tests.marked, 5, 0, (0, 3), by decide +kernel⟩

/-! ## Witnesses: points -/

theorem wit_PointEngineActs_0 : ∃ s : State, ∃ (k l c stream : Nat), ∃ (hd pl : List Byte), ∃ (steps : Int), ∃ (late : Bool), (s.on F.PTS_CTRL_ENABLE = true) ∧ (s.gated wPTS = false) ∧ (s.pwr.refLost = false) ∧ (k < 16) ∧ (s.on (F.PTS_LIDAR_CFG_ENABLE k) = true) ∧ (s.peekItem (s.get (F.ING_STR_CFG_QUEUE (s.lidarStream k))) {} = .item hd pl false steps) ∧ (leAt hd 10 1 % 64 = stream) ∧ (s.slotOfStream stream = some l) ∧ (bitSet (leAt hd 11 1) 6 = false) ∧ (bitSet (leAt hd 11 1) 0 = false) ∧ (s.itemWindow (s.itemStamp hd steps + s.get (F.ING_STR_CFG_LATENCY stream)) = .window c late) ∧ ((s.inst c).any (fun i => bitSet i.excluded stream) = false) :=
  ⟨Tests.lidar, 0, 0, 7, 9, (Tests.item 9 0), [1, 2, 3, 4], 0, false, by decide +kernel⟩
theorem wit_PointEngineActs_1 : ∃ s : State, ∃ (k l : Nat), ∃ (hd pl : List Byte), ∃ (steps : Int), ∃ (a b : Bool), (s.on F.PTS_CTRL_ENABLE = true) ∧ (s.gated wPTS = false) ∧ (s.pwr.refLost = false) ∧ (k < 16) ∧ (s.on (F.PTS_LIDAR_CFG_ENABLE k) = true) ∧ (s.peekItem (s.get (F.ING_STR_CFG_QUEUE (s.lidarStream k))) { tailPar := a, crc := b } = .item hd pl true steps) ∧ (s.slotOfStream (leAt hd 10 1 % 64) = some l) :=
  ⟨Tests.lidar, 0, 0, (Tests.item 9 0), [1, 2, 3, 4], 0, true, false, by decide +kernel⟩
theorem wit_PointEngineActs_2 : ∃ s : State, ∃ (k items : Nat), ∃ (reset : Bool), (s.on F.PTS_CTRL_ENABLE = true) ∧ (s.gated wPTS = false) ∧ (s.pwr.refLost = false) ∧ (k < 16) ∧ (s.on (F.PTS_LIDAR_CFG_ENABLE k) = true) ∧ (s.peekItem (s.get (F.ING_STR_CFG_QUEUE (s.lidarStream k))) {} = .gap reset items) :=
  ⟨Tests.lidar.setQueue 5 { words := [mkWord (gapMarker 5 3 0 0) 64 true false] }, 0, 3, false, by decide +kernel⟩
theorem wit_PointEngineActs_3 : ∃ s : State, ∃ (w : PtsWin), ∃ (a close : Time), ∃ (t : PTable), (s.on F.PTS_CTRL_ENABLE = true) ∧ (s.gated wPTS = false) ∧ (s.pwr.refLost = false) ∧ (s.pts.wins.find? (fun w => !w.ended) = some w) ∧ (s.window w.cycle = some (a, close)) ∧ (s.ptable w.cycle = some t) ∧ (close + 50000 ≤ s.tim.time) ∧ (w.waited = false) :=
  ⟨Tests.lidar, { cycle := 7, saved := [], geom := (0, 0), ext := [] }, 0, 100, { index := 0, cycle := 7, p := 0 }, by decide +kernel⟩
theorem wit_PointEngineActs_4 : ∃ s : State, ∃ (k : Nat), ∃ (p : Part), (s.on F.PTS_CTRL_ENABLE = true) ∧ (s.gated wPTS = false) ∧ (s.pwr.refLost = false) ∧ (s.pts.parts.find? (fun p => p.slot == k) = some p) ∧ (s.trajCovers p.mid = true) :=
  ⟨Tests.lidar, 0, { cycle := 7, slot := 0, slice := 0, mid := 5 }, by decide +kernel⟩
theorem wit_PointEngineActs_5 : ∃ s : State, ∃ (k : Nat), ∃ (p : Part), (s.on F.PTS_CTRL_ENABLE = true) ∧ (s.gated wPTS = false) ∧ (s.pwr.refLost = false) ∧ (s.pts.parts.find? (fun p => p.slot == k) = some p) ∧ (s.trajCovers p.mid = false) ∧ (p.doneAt + s.get F.PTS_CTRL_POSE_WAIT * 1000 ≤ s.tim.time) :=
  ⟨{ Tests.lidar with glz := { Tests.lidar.glz with traj := [(1, 0)] } }, 0, { cycle := 7, slot := 0, slice := 0, mid := 5 }, by decide +kernel⟩
theorem wit_PointEngineActs_6 : ∃ s : State, ∃ (t : PTable), (s.on F.PTS_CTRL_ENABLE = true) ∧ (s.gated wPTS = false) ∧ (s.pwr.refLost = false) ∧ (s.pts.tables.find? (fun t => !t.closed && (s.ptsWin t.cycle).any (·.ended) && !s.pts.parts.any (fun p => p.cycle == t.cycle) && s.mayRun t.cycle) = some t) :=
  ⟨{ Tests.lidar with pts := { Tests.lidar.pts with parts := [], wins := [{ cycle := 7, saved := [], geom := (0, 0), ext := [], ended := true }] } }, { index := 0, cycle := 7, p := 0 }, by decide +kernel⟩
theorem wit_PointEngineActs_7 : ∃ s : State, ∃ (t : PTable), (s.on F.PTS_CTRL_ENABLE = true) ∧ (s.gated wPTS = false) ∧ (s.pwr.refLost = false) ∧ (s.pts.tables.find? (fun t => t.consumed && (t.read || !s.on F.CHK_CTRL_ENABLE || s.gated wCHK)) = some t) :=
  ⟨{ Tests.lidar with pts := { Tests.lidar.pts with tables := [{ index := 0, cycle := 7, p := 0, consumed := true, read := true }] } }, { index := 0, cycle := 7, p := 0, consumed := true, read := true }, by decide +kernel⟩
theorem wit_SparseConvolutionActs_0 : ∃ s : State, ∃ (t : PTable), ∃ (w : PtsWin), ∃ (i : Inst), (s.on F.PTS_CTRL_ENABLE = true) ∧ (s.gated wPTS = false) ∧ (s.pwr.refLost = false) ∧ (s.spc = none) ∧ (s.glz.insts.find? (fun i => !i.pillarDone) = some i) ∧ (s.ptable i.cycle = some t) ∧ (s.ptsWin i.cycle = some w) ∧ (t.closed = true) ∧ (t.consumed = false) ∧ (s.mayRun i.cycle = true) :=
  ⟨{ Tests.lidar with pts := { Tests.lidar.pts with tables := [{ index := 0, cycle := 7, p := 0, closed := true }] } }, { index := 0, cycle := 7, p := 0, closed := true }, { cycle := 7, saved := [], geom := (0, 0), ext := [] }, { cycle := 7, tov := 100, deadline := 200, winStart := 0, openedAt := 0 }, by decide +kernel⟩
theorem wit_SparseConvolutionActs_1 : ∃ s : State, ∃ (t : PTable), (s.on F.PTS_CTRL_ENABLE = true) ∧ (s.gated wPTS = false) ∧ (s.pwr.refLost = false) ∧ (s.spcGold = none) ∧ (s.pts.golden = some t) :=
  ⟨{ Tests.lidar with pts := { Tests.lidar.pts with golden := some { index := 4, cycle := 0, p := 0, closed := true } } }, { index := 4, cycle := 0, p := 0, closed := true }, by decide +kernel⟩
theorem wit_SparseConvolutionActs_2 : ∃ s : State, ∃ (g : Bool), ∃ (x : Spc), ∃ (u : State), (s.on F.PTS_CTRL_ENABLE = true) ∧ (s.gated wPTS = false) ∧ (s.pwr.refLost = false) ∧ (s.spcOf g = some x) ∧ (x.dilated = false) ∧ (x.layer < s.layers) ∧ (u = s.unitDone 96 g x.table.cycle x.layer) ∧ ((u.layer x.layer).1 = false ∨ (u.layer x.layer).2.1 = true) :=
  ⟨{ Tests.lidar with spc := some { Tests.conv with dilated := false } }, false, { Tests.conv with dilated := false }, _, by decide +kernel, by decide +kernel, by decide +kernel, by decide +kernel, by decide +kernel, by decide +kernel, rfl, by decide +kernel⟩
theorem wit_SparseConvolutionActs_3 : ∃ s : State, ∃ (g : Bool), ∃ (x : Spc), ∃ (u : State), (s.on F.PTS_CTRL_ENABLE = true) ∧ (s.gated wPTS = false) ∧ (s.pwr.refLost = false) ∧ (s.spcOf g = some x) ∧ (x.dilated = false) ∧ (x.layer < s.layers) ∧ (u = s.unitDone 96 g x.table.cycle x.layer) ∧ ((u.layer x.layer).1 = true) ∧ ((u.layer x.layer).2.1 = false) :=
  ⟨({ Tests.lidar with spc := some { Tests.conv with dilated := false } } : State).writeBytes (Tests.lidar.base F.PTS_LAYER_BASE_BASE) [1], false, { Tests.conv with dilated := false }, _, by decide +kernel, by decide +kernel, by decide +kernel, by decide +kernel, by decide +kernel, by decide +kernel, rfl, by decide +kernel, by decide +kernel⟩
theorem wit_SparseConvolutionActs_4 : ∃ s : State, ∃ (g : Bool), ∃ (x : Spc), (s.on F.PTS_CTRL_ENABLE = true) ∧ (s.gated wPTS = false) ∧ (s.pwr.refLost = false) ∧ (s.spcOf g = some x) ∧ (x.layer < s.layers) ∧ (x.dilated = true) ∧ (g = true ∨ s.spcGold.any (fun y => decide (y.layer < s.layers)) = false) ∧ (x.sites ≠ []) :=
  ⟨{ Tests.lidar with spc := some { Tests.conv with sites := List.replicate 65 (0, 0) } }, false, { Tests.conv with sites := List.replicate 65 (0, 0) }, by decide +kernel⟩
theorem wit_SparseConvolutionActs_5 : ∃ s : State, ∃ (g : Bool), ∃ (x : Spc), (s.on F.PTS_CTRL_ENABLE = true) ∧ (s.gated wPTS = false) ∧ (s.pwr.refLost = false) ∧ (s.spcOf g = some x) ∧ (x.layer < s.layers) ∧ (x.dilated = true) ∧ (g = true ∨ s.spcGold.any (fun y => decide (y.layer < s.layers)) = false) ∧ (x.sites = []) :=
  ⟨{ Tests.lidar with spc := some Tests.conv }, false, Tests.conv, by decide +kernel⟩
theorem wit_SparseConvolutionActs_6 : ∃ s : State, ∃ (g : Bool), ∃ (x y : Spc), ∃ (b : Block), (s.on F.PTS_CTRL_ENABLE = true) ∧ (s.gated wPTS = false) ∧ (s.pwr.refLost = false) ∧ (s.spcOf g = some x) ∧ (s.layers ≤ x.layer) ∧ ((x.sites.zipIdx.filter (fun c => tileOfKey c.1.1 == x.tile)).isEmpty = true) ∧ (b = { tile := x.tile, buffer := 0, empty := true, degraded := x.degraded, overflow := x.ovfTiles.contains x.tile }) ∧ (y = { x with tile := x.tile + 1, blocks := x.blocks ++ [{ b with header := outHeader b (slotByte g x.table.cycle) x.table.p }], degraded := x.degraded || x.degraded }) :=
  ⟨{ Tests.lidar with spc := some { Tests.conv with layer := 20 } }, false, { Tests.conv with layer := 20 }, _, _, by decide +kernel, by decide +kernel, by decide +kernel, by decide +kernel, by decide +kernel, by decide +kernel, rfl, rfl⟩
theorem wit_SparseConvolutionActs_7 : ∃ s : State, ∃ (g : Bool), ∃ (x : Spc), ∃ (k : Nat), (s.on F.PTS_CTRL_ENABLE = true) ∧ (s.gated wPTS = false) ∧ (s.pwr.refLost = false) ∧ (s.spcOf g = some x) ∧ (s.layers ≤ x.layer) ∧ ((x.sites.zipIdx.filter (fun c => tileOfKey c.1.1 == x.tile)).isEmpty = false) ∧ ((List.range (s.get F.PTS_SPC_CTRL_TILE_BUFS)).find? (fun b => !s.heldBuffers.contains b) = some k) :=
  ⟨Tests.cfg { Tests.lidar with spc := some { Tests.conv with layer := 20, sites := [(0, 0)] } } [(F.PTS_SPC_CTRL_TILE_BUFS, 4)], false, { Tests.conv with layer := 20, sites := [(0, 0)] }, 0, by decide +kernel⟩

/-! ## Witnesses: lift -/

theorem wit_LiftEngineActs_0 : ∃ s : State, ∃ (k c : Nat), ∃ (hd pl : List Byte), ∃ (steps : Int), (s.on F.LFT_CTRL_ENABLE = true) ∧ (s.gated wLFT = false) ∧ (s.pwr.refLost = false) ∧ (k < 16) ∧ (s.on (F.LFT_CAM_CFG_ENABLE k) = true) ∧ (s.peekItem (s.get (F.ING_STR_CFG_QUEUE (s.camStream k))) {} = .item hd pl false steps) ∧ (s.camOfStream (leAt hd 10 1 % 64) = some c) ∧ (s.newItem c (leAt hd 12 4) = true) ∧ (bitSet (leAt hd 11 1) 0 = false) ∧ (bitSet (leAt hd 11 1) 3 = false) ∧ (bitSet (leAt hd 11 1) 4 = false) :=
  ⟨Tests.camera 0, 0, 0, (Tests.item 9 0), [1, 2, 3, 4], 0, by decide +kernel⟩
theorem wit_LiftEngineActs_1 : ∃ s : State, ∃ (k c : Nat), ∃ (hd pl : List Byte), ∃ (steps : Int), (s.on F.LFT_CTRL_ENABLE = true) ∧ (s.gated wLFT = false) ∧ (s.pwr.refLost = false) ∧ (k < 16) ∧ (s.on (F.LFT_CAM_CFG_ENABLE k) = true) ∧ (s.peekItem (s.get (F.ING_STR_CFG_QUEUE (s.camStream k))) {} = .item hd pl false steps) ∧ (s.camOfStream (leAt hd 10 1 % 64) = some c) ∧ (s.newItem c (leAt hd 12 4) = true) ∧ (bitSet (leAt hd 11 1) 0 = false) ∧ (bitSet (leAt hd 11 1) 3 = true) :=
  ⟨Tests.camera 8, 0, 0, (Tests.item 9 8), [1, 2, 3, 4], 0, by decide +kernel⟩
theorem wit_LiftEngineActs_2 : ∃ s : State, ∃ (k : Nat), ∃ (f : LftFrame), ∃ (r : List (List Byte)), (s.on F.LFT_CTRL_ENABLE = true) ∧ (s.gated wLFT = false) ∧ (s.pwr.refLost = false) ∧ (k ≠ 255) ∧ (s.backboneFrame k = some f) ∧ (f.golden = false) ∧ (s.mayRun f.cycle = true) ∧ (s.poisoned (s.frameArea f).1 (s.frameArea f).2 = false) ∧ (s.liftQueue = none) :=
  ⟨{ Tests.up.put F.TGS_CTRL_RUNAHEAD_EN 1 with lft := { frames := [{ ({ cam := 0, slot := 0, stream := 9, startSeq := 0, stamp := 5, norm := 0, gain := 0 } : LftFrame) with phase := .waiting }] } }, 0, { ({ cam := 0, slot := 0, stream := 9, startSeq := 0, stamp := 5, norm := 0, gain := 0 } : LftFrame) with phase := .waiting }, [], by decide +kernel⟩
theorem wit_LiftEngineActs_3 : ∃ s : State, ∃ (k q : Nat), ∃ (f : LftFrame), ∃ (r rs : List (List Byte)), ∃ (t : State), (s.on F.LFT_CTRL_ENABLE = true) ∧ (s.gated wLFT = false) ∧ (s.pwr.refLost = false) ∧ (k ≠ 255) ∧ (s.backboneFrame k = some f) ∧ (f.golden = false) ∧ (s.mayRun f.cycle = true) ∧ (s.poisoned (s.frameArea f).1 (s.frameArea f).2 = false) ∧ (s.liftQueue = some q) ∧ (rs = (r.map (padTo s.recordBytes)).take (s.get (F.LFT_CAM_CFG_U_COLS f.cam))) ∧ (s.accepts q (rs.length * s.recordBytes) = true) ∧ (t = rs.foldl (fun u x => u.queueWrite q x) s) :=
  ⟨Tests.liftWait, 0, 6, { ({ cam := 0, slot := 0, stream := 9, startSeq := 0, stamp := 5, norm := 0, gain := 0 } : LftFrame) with phase := .waiting }, [], [], Tests.liftWait, by decide +kernel⟩
theorem wit_LiftEngineActs_4 : ∃ s : State, ∃ (f : LftFrame), ∃ (r : List (List Byte)), (s.on F.LFT_CTRL_ENABLE = true) ∧ (s.gated wLFT = false) ∧ (s.pwr.refLost = false) ∧ (s.goldenFrame = some f) ∧ (f.golden = true) ∧ (s.poisoned (s.frameArea f).1 (s.frameArea f).2 = false) :=
  ⟨{ Tests.up with saf := { Tests.up.saf with golden := [{ num := 1, entry := 1, extra := false, kind := 0, due := some (0, 0) }] } }, { cam := 0, slot := 255, stream := 0, startSeq := 0, stamp := 0, norm := 0, gain := 0, golden := true, cycle := 1 }, [], by decide +kernel⟩
theorem wit_LiftEngineActs_5 : ∃ s : State, ∃ (f : LftFrame), ∃ (bank : Nat), ∃ (t : State), ∃ (r : List (List Byte)), (s.on F.LFT_CTRL_ENABLE = true) ∧ (s.gated wLFT = false) ∧ (s.pwr.refLost = false) ∧ (s.lft.lifting = none) ∧ (s.nextLift = some f) ∧ (f.golden = true ∨ s.mayRun f.cycle = true) ∧ (bank = (if f.golden then 2 else match s.inst f.cycle with
        | some i => i.banks.getD f.cam 0
        | none => s.get (F.LFT_CAM_STAT_ACTIVE_BANK f.cam))) ∧ (s.takeRecords f = (t, some (r, false))) ∧ (t.poisoned (t.tableBase f.cam bank) 16 = false) :=
  ⟨{ Tests.up.put F.TGS_CTRL_RUNAHEAD_EN 1 with lft := { frames := [{ ({ cam := 0, slot := 0, stream := 9, startSeq := 0, stamp := 5, norm := 0, gain := 0 } : LftFrame) with phase := .columns }] } }, { ({ cam := 0, slot := 0, stream := 9, startSeq := 0, stamp := 5, norm := 0, gain := 0 } : LftFrame) with phase := .columns }, 0, { Tests.up.put F.TGS_CTRL_RUNAHEAD_EN 1 with lft := { frames := [{ ({ cam := 0, slot := 0, stream := 9, startSeq := 0, stamp := 5, norm := 0, gain := 0 } : LftFrame) with phase := .columns }] } }, [], by decide +kernel⟩
theorem wit_LiftEngineActs_6 : ∃ s : State, ∃ (l : Lifting), ∃ (b a tile count first : Nat), (s.on F.LFT_CTRL_ENABLE = true) ∧ (s.gated wLFT = false) ∧ (s.pwr.refLost = false) ∧ (s.lft.lifting = some l) ∧ (a = s.tableBase l.frame.cam l.bank) ∧ (l.run < (s.liftTable l).1) ∧ (s.poisoned (a + 16 + 8 * l.run) 8 = false) ∧ (tile = s.readLe (a + 16 + 8 * l.run) 2) ∧ (count = s.readLe (a + 16 + 8 * l.run + 2) 2) ∧ (first = s.readLe (a + 16 + 8 * l.run + 4) 4) ∧ (tile ≤ 255 ∧ first + count ≤ (s.liftTable l).2.1) ∧ (s.poisoned (a + 16 + 8 * (s.liftTable l).1 + 4 * first) (4 * count) = false) ∧ ((List.range (s.get F.LFT_CTRL_LIFT_BUFS)).find? (fun b => !s.liftBuffers.contains b) = some b) :=
  ⟨Tests.lifting, { frame := { ({ cam := 0, slot := 0, stream := 9, startSeq := 0, stamp := 5, norm := 0, gain := 0 } : LftFrame) with phase := .columns }, bank := 0 }, 0, (Tests.lifting.tableBase 0 0), 0, 0, 0, by decide +kernel⟩
theorem wit_LiftEngineActs_7 : ∃ s : State, ∃ (l : Lifting), (s.on F.LFT_CTRL_ENABLE = true) ∧ (s.gated wLFT = false) ∧ (s.pwr.refLost = false) ∧ (s.lft.lifting = some l) ∧ (l.run = 0) ∧ ((s.liftTable l).1 = 0) :=
  ⟨{ Tests.up with lft := { lifting := some { frame := { cam := 0, slot := 0, stream := 9, startSeq := 0, stamp := 5, norm := 0, gain := 0 }, bank := 0 } } }, { frame := { cam := 0, slot := 0, stream := 9, startSeq := 0, stamp := 5, norm := 0, gain := 0 }, bank := 0 }, by decide +kernel⟩
theorem wit_LiftEngineActs_8 : ∃ s : State, ∃ (l : Lifting), ∃ (t : State), ∃ (bs : List Block), (s.on F.LFT_CTRL_ENABLE = true) ∧ (s.gated wLFT = false) ∧ (s.pwr.refLost = false) ∧ (s.lft.lifting = some l) ∧ (max 1 (s.liftTable l).1 ≤ l.run) ∧ (l.frame.golden = false) ∧ (s.degradeLift l = (t, bs)) :=
  ⟨Tests.liftEnd, { frame := { cam := 0, slot := 0, stream := 9, startSeq := 0, stamp := 5, norm := 0, gain := 0 }, bank := 0, run := 1 }, Tests.liftEnd, [], by decide +kernel⟩

/-! ## Witnesses: solver -/

theorem wit_SolverTakesItsInputs_0 : ∃ s : State, ∃ (q : Nat), ∃ (u : State), ∃ (hd pl : List Byte), ∃ (steps : Int), ∃ (x : EgoItem), (s.egoOn = true) ∧ ((List.range 64).any (fun i => s.on (F.ING_STR_CFG_ENABLE i) && s.get (F.ING_STR_CFG_QUEUE i) == q && decide (2 ≤ s.get (F.ING_STR_CFG_KIND i))) = true) ∧ (s.takeItem q {} = (u, .item hd pl false steps)) ∧ (bitSet (leAt hd 11 1) 6 = false) ∧ (bitSet (leAt hd 11 1) 0 = false) ∧ ((u.get (F.ING_STR_CFG_KIND (bitsAt (leAt hd 10 1) 0 6)) == 4 && bitSet (leAt pl 4 4) 1) = false) ∧ (egoItemOf u.slvParam (u.get (F.ING_STR_CFG_KIND (bitsAt (leAt hd 10 1) 0 6))) (bitsAt (leAt hd 10 1) 0 6) (u.itemStamp hd steps) pl (u.tim.steps - steps) = some x) ∧ (u.slv.closed = none) :=
  ⟨Tests.ego, 5, (Tests.ego.takeItem 5).1, Tests.item 9 0, [1, 2, 3, 4], 0, .can 0, by decide +kernel⟩
theorem wit_SolverTakesItsInputs_1 : ∃ s : State, ∃ (q : Nat), ∃ (u : State), ∃ (hd pl : List Byte), ∃ (steps : Int), ∃ (x : EgoItem), ∃ (c : Time), (s.egoOn = true) ∧ ((List.range 64).any (fun i => s.on (F.ING_STR_CFG_ENABLE i) && s.get (F.ING_STR_CFG_QUEUE i) == q && decide (2 ≤ s.get (F.ING_STR_CFG_KIND i))) = true) ∧ (s.takeItem q {} = (u, .item hd pl false steps)) ∧ (bitSet (leAt hd 11 1) 6 = false) ∧ (bitSet (leAt hd 11 1) 0 = false) ∧ ((u.get (F.ING_STR_CFG_KIND (bitsAt (leAt hd 10 1) 0 6)) == 4 && bitSet (leAt pl 4 4) 1) = false) ∧ (egoItemOf u.slvParam (u.get (F.ING_STR_CFG_KIND (bitsAt (leAt hd 10 1) 0 6))) (bitsAt (leAt hd 10 1) 0 6) (u.itemStamp hd steps) pl (u.tim.steps - steps) = some x) ∧ (u.slv.closed = some c) ∧ (x.stamp < c) :=
  ⟨Tests.egoPast, 5, (Tests.egoPast.takeItem 5).1, Tests.item 9 0, [1, 2, 3, 4], 0, .can 0, 1000, by decide +kernel⟩
theorem wit_SolverTakesItsInputs_2 : ∃ s : State, ∃ (u : State), ∃ (b : List Byte), (s.egoOn = true) ∧ (s.takeBytes (s.get F.SLV_QUEUES_REG_Q) 64 = (u, some (b, false))) ∧ (crcOk b = true) ∧ (u.slv.nodes.any (fun n => decide (n.prev ≤ regTime b) && decide (regTime b < n.time)) = false) ∧ (u.slv.closed = none) :=
  ⟨Tests.reg, (Tests.reg.takeBytes 6 64).1, withCrc (zeroBytes 60), by decide +kernel⟩
theorem wit_SolverTakesItsInputs_3 : ∃ s : State, ∃ (u : State), ∃ (b : List Byte), (s.egoOn = true) ∧ (s.takeBytes (s.get F.SLV_QUEUES_REG_Q) 64 = (u, some (b, false))) ∧ (crcOk b = true) ∧ (u.slv.nodes.any (fun n => decide (n.prev ≤ regTime b) && decide (regTime b < n.time)) = true) :=
  ⟨Tests.regIn, (Tests.regIn.takeBytes 6 64).1, withCrc (zeroBytes 60), by decide +kernel⟩
theorem wit_SolverTakesItsInputs_4 : ∃ s : State, ∃ (u : State), ∃ (b : List Byte), (s.egoOn = true) ∧ (s.takeBytes (s.get F.SLV_QUEUES_REG_Q) 64 = (u, some (b, false))) ∧ (crcOk b = false) :=
  ⟨Tests.regBad, (Tests.regBad.takeBytes 6 64).1, List.replicate 64 1, by decide +kernel⟩
theorem wit_SolverTakesItsInputs_5 : ∃ s : State, ∃ (u : State), ∃ (b : List Byte), (s.egoOn = true) ∧ (s.on F.SLV_CTRL_ASM_EN = false) ∧ (s.takeBytes (s.get F.SLV_QUEUES_UPD_Q) (64 + if leAt (s.peekBytes (s.get F.SLV_QUEUES_UPD_Q) 64) 10 1 = 0 then 900 else 60) = (u, some (b, true))) :=
  ⟨Tests.upd, (Tests.upd.takeBytes 6 124).1, zeroBytes 10 ++ [1] ++ zeroBytes 113, by decide +kernel⟩
theorem wit_SolverTakesItsInputs_6 : ∃ s : State, ∃ (u : State), ∃ (b : List Byte), (s.egoOn = true) ∧ (s.on F.SLV_CTRL_ASM_EN = false) ∧ (s.takeBytes (s.get F.SLV_QUEUES_UPD_Q) (64 + if leAt (s.peekBytes (s.get F.SLV_QUEUES_UPD_Q) 64) 10 1 = 0 then 900 else 60) = (u, some (b, false))) ∧ ((crc32c (b.take 60 ++ b.drop 64) == leAt b 60 4) = true) ∧ (((List.range (u.slvSetAt u.nextNode).window).map (fun (i : Nat) => (u.nextSlot u.nextNode + 64 - i) % 64)).contains (leAt b 8 1) = true) ∧ (leAt (s.peekBytes (s.get F.SLV_QUEUES_UPD_Q) 64) 10 1 = 1) :=
  ⟨Tests.updOk, (Tests.updOk.takeBytes 6 124).1, Tests.updBytes, by decide +kernel, by decide +kernel, by decide +kernel, Tests.updCrc, by decide +kernel, by decide +kernel⟩
theorem wit_SolverSolves_0 : ∃ s : State, ∃ (u : State), ∃ (n : SlvNode), ∃ (nodes : List SlvNode), ∃ (prior : List Int), (s.egoOn = true) ∧ (s.slv.solve = none) ∧ (s.nextNode + s.egoIntake ≤ s.tim.time) ∧ (s.formNode s.nextNode (s.slv.closed.getD (s.nextNode - s.nodePeriod)) = (u, n)) ∧ (u.on F.SLV_CTRL_ASM_EN = true) ∧ (slideWindow u.slvParam u.nodePeriod (s.slvSetAt s.nextNode).window u.slv.nodes u.slv.prior n = (nodes, prior)) ∧ (u.slv.sig = none) ∧ (u.slv.last = none) :=
  ⟨Tests.ego, Tests.egoNode.1, Tests.egoNode.2, Tests.egoSlide.1, Tests.egoSlide.2, by decide +kernel, by decide +kernel, by decide +kernel, (Prod.mk.eta (p := Tests.egoNode)).symm, by decide +kernel, (Prod.mk.eta (p := Tests.egoSlide)).symm, by decide +kernel, by decide +kernel⟩
theorem wit_SolverSolves_1 : ∃ s : State, ∃ (x : EgoSolve), ∃ (k : Nat), (s.egoOn = true) ∧ (s.slv.solve = some x) ∧ (x.finished = false) ∧ (x.cut = none) ∧ (x.start + x.set.asmBudget * 1000 ≤ s.tim.time) ∧ (s.on F.SLV_CTRL_ASM_EN = true) :=
  ⟨(Tests.solving ({ time := 5, set := ({ iters := 4, window := 2, pivotMin := 0, lambda := 0, asmBudget := 0, egoConv := 0, baConv := 0, baTimeout := 0, predictMax := 0 } : SlvSet), nodes := [], prior := [], sig := 9, start := 7 } : EgoSolve)).put F.SLV_CTRL_ASM_EN 1, ({ time := 5, set := ({ iters := 4, window := 2, pivotMin := 0, lambda := 0, asmBudget := 0, egoConv := 0, baConv := 0, baTimeout := 0, predictMax := 0 } : SlvSet), nodes := [], prior := [], sig := 9, start := 7 } : EgoSolve), 3, by decide +kernel⟩
theorem wit_SolverSolves_2 : ∃ s : State, ∃ (x : EgoSolve), (s.egoOn = true) ∧ (s.slv.solve = some x) ∧ (x.finished = false) :=
  ⟨Tests.solving ({ time := 5, set := ({ iters := 4, window := 2, pivotMin := 0, lambda := 0, asmBudget := 0, egoConv := 0, baConv := 0, baTimeout := 0, predictMax := 0 } : SlvSet), nodes := [], prior := [], sig := 9, start := 7 } : EgoSolve), ({ time := 5, set := ({ iters := 4, window := 2, pivotMin := 0, lambda := 0, asmBudget := 0, egoConv := 0, baConv := 0, baTimeout := 0, predictMax := 0 } : SlvSet), nodes := [], prior := [], sig := 9, start := 7 } : EgoSolve), by decide +kernel⟩
theorem wit_SolverSolves_3 : ∃ s : State, ∃ (x : EgoSolve), (s.egoOn = true) ∧ (s.slv.solve = some x) ∧ (x.ended = false) ∧ (x.finished = true) ∧ (x.failed = false) ∧ (x.nougat = false) ∧ (bitSet x.flags eWARM = false) :=
  ⟨Tests.solving { ({ time := 5, set := ({ iters := 4, window := 2, pivotMin := 0, lambda := 0, asmBudget := 0, egoConv := 0, baConv := 0, baTimeout := 0, predictMax := 0 } : SlvSet), nodes := [], prior := [], sig := 9, start := 7 } : EgoSolve) with finished := true }, { ({ time := 5, set := ({ iters := 4, window := 2, pivotMin := 0, lambda := 0, asmBudget := 0, egoConv := 0, baConv := 0, baTimeout := 0, predictMax := 0 } : SlvSet), nodes := [], prior := [], sig := 9, start := 7 } : EgoSolve) with finished := true }, by decide +kernel⟩
theorem wit_SolverSolves_4 : ∃ s : State, ∃ (x : EgoSolve), (s.egoOn = true) ∧ (s.slv.solve = some x) ∧ (x.ended = true) ∧ (x.time + s.egoDeadline ≤ s.tim.time) :=
  ⟨Tests.solving { ({ time := 5, set := ({ iters := 4, window := 2, pivotMin := 0, lambda := 0, asmBudget := 0, egoConv := 0, baConv := 0, baTimeout := 0, predictMax := 0 } : SlvSet), nodes := [], prior := [], sig := 9, start := 7 } : EgoSolve) with ended := true }, { ({ time := 5, set := ({ iters := 4, window := 2, pivotMin := 0, lambda := 0, asmBudget := 0, egoConv := 0, baConv := 0, baTimeout := 0, predictMax := 0 } : SlvSet), nodes := [], prior := [], sig := 9, start := 7 } : EgoSolve) with ended := true }, by decide +kernel⟩
theorem wit_SolverSolves_5 : ∃ s : State, ∃ (x : EgoSolve), (s.egoOn = true) ∧ (s.slv.solve = some x) ∧ (x.ended = false) ∧ (x.time + s.egoDeadline ≤ s.tim.time) :=
  ⟨Tests.solving ({ time := 5, set := ({ iters := 4, window := 2, pivotMin := 0, lambda := 0, asmBudget := 0, egoConv := 0, baConv := 0, baTimeout := 0, predictMax := 0 } : SlvSet), nodes := [], prior := [], sig := 9, start := 7 } : EgoSolve), ({ time := 5, set := ({ iters := 4, window := 2, pivotMin := 0, lambda := 0, asmBudget := 0, egoConv := 0, baConv := 0, baTimeout := 0, predictMax := 0 } : SlvSet), nodes := [], prior := [], sig := 9, start := 7 } : EgoSolve), by decide +kernel⟩
theorem wit_BundleAdjustmentActs_0 : ∃ s : State, ∃ (value : Nat), (s.gated wSLV = false) ∧ (s.reachable = true) ∧ (F.SLV_BA_CMD_ABORT.of (writeData F.SLV_BA_CMD_START.addr (setBit value 0) false &&& writeMask F.SLV_BA_CMD_START.addr false) ≠ 1) ∧ (F.SLV_BA_CMD_START.of (writeData F.SLV_BA_CMD_START.addr (setBit value 0) false &&& writeMask F.SLV_BA_CMD_START.addr false) = 1) :=
  ⟨Tests.up, 0, by decide +kernel⟩
theorem wit_BundleAdjustmentActs_1 : ∃ s : State, ∃ (value : Nat), (s.gated wSLV = false) ∧ (s.reachable = true) ∧ (F.SLV_BA_CMD_ABORT.of (writeData F.SLV_BA_CMD_START.addr (setBit value 1) false &&& writeMask F.SLV_BA_CMD_START.addr false) = 1) ∧ (F.SLV_BA_CMD_START.of (writeData F.SLV_BA_CMD_START.addr (setBit value 1) false &&& writeMask F.SLV_BA_CMD_START.addr false) ≠ 1) :=
  ⟨Tests.up, 0, by decide +kernel⟩
theorem wit_BundleAdjustmentActs_2 : ∃ s : State, ∃ (b : BaStep), (s.gated wSLV = false) ∧ (s.slv.ba = some b) ∧ (b.paused = false) ∧ (s.runs wSLV = true) :=
  ⟨{ Tests.up with slv := { ba := some ({ cams := 1, kfs := 0, lms := 1, obs := 0, warm := false, discarded := false, sig := 9, set := ({ iters := 4, window := 2, pivotMin := 0, lambda := 0, asmBudget := 0, egoConv := 0, baConv := 0, baTimeout := 0, predictMax := 0 } : SlvSet), start := 7 } : BaStep) } }, ({ cams := 1, kfs := 0, lms := 1, obs := 0, warm := false, discarded := false, sig := 9, set := ({ iters := 4, window := 2, pivotMin := 0, lambda := 0, asmBudget := 0, egoConv := 0, baConv := 0, baTimeout := 0, predictMax := 0 } : SlvSet), start := 7 } : BaStep), by decide +kernel⟩
theorem wit_BundleAdjustmentActs_3 : ∃ s : State, ∃ (b : BaStep), (s.gated wSLV = false) ∧ (s.slv.ba = some b) ∧ (b.start + b.set.baTimeout * 1000000 ≤ s.tim.time) ∧ (s.runs wSLV = true) :=
  ⟨{ Tests.up with slv := { ba := some ({ cams := 1, kfs := 0, lms := 1, obs := 0, warm := false, discarded := false, sig := 9, set := ({ iters := 4, window := 2, pivotMin := 0, lambda := 0, asmBudget := 0, egoConv := 0, baConv := 0, baTimeout := 0, predictMax := 0 } : SlvSet), start := 7 } : BaStep) } }, ({ cams := 1, kfs := 0, lms := 1, obs := 0, warm := false, discarded := false, sig := 9, set := ({ iters := 4, window := 2, pivotMin := 0, lambda := 0, asmBudget := 0, egoConv := 0, baConv := 0, baTimeout := 0, predictMax := 0 } : SlvSet), start := 7 } : BaStep), by decide +kernel⟩

/-! ## Witnesses: fusion -/

theorem wit_FusionOpensAndWarps_0 : ∃ s : State, (s.on F.GLZ_CTRL_ENABLE = true) ∧ (s.gated wGLZ = false) ∧ (s.pwr.refLost = false) ∧ (s.openDue = true) ∧ (s.commitsDue.isEmpty = true) ∧ (s.atTov.openDue = true) :=
  ⟨Tests.up, by decide +kernel⟩
theorem wit_FusionOpensAndWarps_1 : ∃ s : State, (s.on F.GLZ_CTRL_ENABLE = true) ∧ (s.gated wGLZ = false) ∧ (s.pwr.refLost = false) ∧ (s.openDue = true) ∧ (s.commitsDue.isEmpty = false) :=
  ⟨{ Tests.up with boot := { Tests.up.boot with pending := [Tests.commit] } }, by decide +kernel⟩
theorem wit_FusionOpensAndWarps_2 : ∃ s : State, (s.on F.GLZ_CTRL_ENABLE = true) ∧ (s.gated wGLZ = false) ∧ (s.pwr.refLost = false) ∧ (s.openDue = false) :=
  ⟨{ Tests.up with pwr := { Tests.up.pwr with goingTo := some 2 } }, by decide +kernel⟩
theorem wit_FusionOpensAndWarps_3 : ∃ s : State, ∃ (i : Inst), (s.on F.GLZ_CTRL_ENABLE = true) ∧ (s.gated wGLZ = false) ∧ (s.pwr.refLost = false) ∧ (s.glz.insts.find? (fun i => !i.warped && s.mayRun i.cycle) = some i) ∧ (i.tov ≤ s.tim.time) ∧ (s.trajCovers i.tov = true) :=
  ⟨Tests.opened, ({ cycle := 7, tov := 100, deadline := 200, winStart := 0, openedAt := 0 } : Inst), by decide +kernel⟩
theorem wit_FusionOpensAndWarps_4 : ∃ s : State, ∃ (i : Inst), (s.on F.GLZ_CTRL_ENABLE = true) ∧ (s.gated wGLZ = false) ∧ (s.pwr.refLost = false) ∧ (s.glz.insts.find? (fun i => !i.warped && s.mayRun i.cycle) = some i) ∧ (s.tim.time < i.tov) :=
  ⟨{ Tests.opened with tim := { Tests.opened.tim with time := 50 } }, ({ cycle := 7, tov := 100, deadline := 200, winStart := 0, openedAt := 0 } : Inst), by decide +kernel⟩
theorem wit_FusionComparesTiles_0 : ∃ s : State, ∃ (cycle tile : Nat), ∃ (cells : List (BitVec 64)), ∃ (bad : Bool), ∃ (i : Inst), ∃ (t : Tile), ∃ (u v w : State), (s.on F.GLZ_CTRL_ENABLE = true) ∧ (s.gated wGLZ = false) ∧ (s.pwr.refLost = false) ∧ (s.inst cycle = some i) ∧ (tile < 256) ∧ (i.warped = true) ∧ ((i.tile tile).phase = .waiting) ∧ ((i.reuseDone && s.isHead cycle) = false) ∧ (s.frontDone i = true) ∧ (s.inOrder i tile = true) ∧ (s.mayRun cycle = true) ∧ (s.glzError cycle = false) ∧ ((s.composeInput i tile).2 = false) ∧ (w = (s.composeInput i tile).1) ∧ (t = w.composeTile i tile cells bad) ∧ (u = w.composeEvents t bad (w.readsStale i tile)) ∧ (v = u.updInst cycle (fun i => { i.updTile tile (fun x => { x with phase := .comparing, tile := some t, fired := some u.now }) with lastDone := some u.now })) ∧ (v.chkOn = true) :=
  ⟨Tests.warped, 7, 3, [], false, Tests.warpedInst, _, _, _, _, by decide +kernel, by decide +kernel, by decide +kernel, by decide +kernel, by decide +kernel, by decide +kernel, by decide +kernel, by decide +kernel, by decide +kernel, by decide +kernel, by decide +kernel, by decide +kernel, by decide +kernel, rfl, rfl, rfl, rfl, by decide +kernel⟩
theorem wit_FusionComparesTiles_1 : ∃ s : State, ∃ (cycle tile : Nat), ∃ (cells : List (BitVec 64)), ∃ (bad : Bool), ∃ (i : Inst), ∃ (t : Tile), ∃ (u v w : State), (s.on F.GLZ_CTRL_ENABLE = true) ∧ (s.gated wGLZ = false) ∧ (s.pwr.refLost = false) ∧ (s.inst cycle = some i) ∧ (tile < 256) ∧ (i.warped = true) ∧ ((i.tile tile).phase = .waiting) ∧ ((i.reuseDone && s.isHead cycle) = false) ∧ (s.frontDone i = true) ∧ (s.inOrder i tile = true) ∧ (s.mayRun cycle = true) ∧ (s.glzError cycle = false) ∧ ((s.composeInput i tile).2 = false) ∧ (w = (s.composeInput i tile).1) ∧ (t = w.composeTile i tile cells bad) ∧ (u = w.composeEvents t bad (w.readsStale i tile)) ∧ (v = u.updInst cycle (fun i => { i.updTile tile (fun x => { x with phase := .comparing, tile := some t, fired := some u.now }) with lastDone := some u.now })) ∧ (v.chkOn = false) :=
  ⟨(Tests.warped.put F.CHK_CTRL_ENABLE 0), 7, 3, [], false, Tests.warpedInst, _, _, _, _, by decide +kernel, by decide +kernel, by decide +kernel, by decide +kernel, by decide +kernel, by decide +kernel, by decide +kernel, by decide +kernel, by decide +kernel, by decide +kernel, by decide +kernel, by decide +kernel, by decide +kernel, rfl, rfl, rfl, rfl, by decide +kernel⟩
theorem wit_FusionComparesTiles_2 : ∃ s : State, ∃ (cycle tile : Nat), ∃ (i : Inst), ∃ (x : Sentinel), ∃ (t : Tile), (s.on F.GLZ_CTRL_ENABLE = true) ∧ (s.gated wGLZ = false) ∧ (s.pwr.refLost = false) ∧ (s.inst cycle = some i) ∧ (s.sentinel cycle = some x) ∧ ((i.tile tile).phase = .comparing) ∧ ((i.tile tile).tile = some t) ∧ (s.chkOn = true) :=
  ⟨Tests.comparing .comparing, 7, 3, (Tests.tileInst .comparing), { cycle := 7, cells := [] }, Tests.tile, by decide +kernel⟩
theorem wit_FusionComparesTiles_3 : ∃ s : State, ∃ (cycle tile : Nat), ∃ (i : Inst), ∃ (x : Sentinel), ∃ (t : Tile), (s.on F.GLZ_CTRL_ENABLE = true) ∧ (s.gated wGLZ = false) ∧ (s.pwr.refLost = false) ∧ (s.inst cycle = some i) ∧ (s.sentinel cycle = some x) ∧ ((i.tile tile).phase = .recomparing) ∧ ((i.tile tile).tile = some t) ∧ (s.chkOn = true) :=
  ⟨Tests.comparing .recomparing, 7, 3, (Tests.tileInst .recomparing), { cycle := 7, cells := [] }, Tests.tile, by decide +kernel⟩
theorem wit_FusionAmendsAndReuses_0 : ∃ s : State, (s.on F.GLZ_CTRL_ENABLE = true) ∧ (s.gated wGLZ = false) ∧ (s.pwr.refLost = false) ∧ (s.glz.insts.any (fun i => !i.amendClosed && decide (i.tov + i.amendWin ≤ s.tim.time)) = true) :=
  ⟨Tests.opened, by decide +kernel⟩
theorem wit_FusionAmendsAndReuses_1 : ∃ s : State, ∃ (tile : Nat), ∃ (cells : HeadCells), ∃ (i : Inst), ∃ (old t : Tile), ∃ (v w : State), (s.on F.GLZ_CTRL_ENABLE = true) ∧ (s.gated wGLZ = false) ∧ (s.pwr.refLost = false) ∧ (s.head = some i) ∧ ((i.tile tile).tile = some old) ∧ (i.amendClosed = true) ∧ (i.reuseDone = false) ∧ ((i.tile tile).pendingAmend = true) ∧ ((i.tile tile).phase = .issued) ∧ (s.amendOutstanding i = false) ∧ (s.glzError i.cycle = false) ∧ ((s.composeInput i tile).2 = false) ∧ (w = (s.composeInput i tile).1) ∧ (t = { w.composeTile i tile cells.cells cells.poisoned with seq := old.seq }) ∧ (v = (w.composeEvents t cells.poisoned (w.readsStale i tile)).updInst i.cycle (fun i => i.updTile tile (fun x => { x with phase := .recomparing, tile := some t, pendingAmend := false }))) ∧ (v.chkOn = true) :=
  ⟨Tests.comparing .issued, 3, ⟨[], false⟩, Tests.tileInst .issued, Tests.tile, _, _, _, by decide +kernel, by decide +kernel, by decide +kernel, by decide +kernel, by decide +kernel, by decide +kernel, by decide +kernel, by decide +kernel, by decide +kernel, by decide +kernel, by decide +kernel, by decide +kernel, rfl, rfl, rfl, by decide +kernel⟩
theorem wit_FusionAmendsAndReuses_2 : ∃ s : State, ∃ (i : Inst), ∃ (m : List Nat), ∃ (w v : State), (s.on F.GLZ_CTRL_ENABLE = true) ∧ (s.gated wGLZ = false) ∧ (s.pwr.refLost = false) ∧ (s.head = some i) ∧ (i.reuseDone = false) ∧ (i.deadline - s.get F.GLZ_DEADLINE_REUSE_LEAD * 1000 ≤ s.tim.time) ∧ (s.safety ≠ stHalted) ∧ (i.tiles.countP (fun t => t.pendingAmend || t.phase == .recomparing) = 0) ∧ (i.late.all (·.2) = true) ∧ (w = (s.updInst i.cycle (fun i => { i with
          reuseDone := true, amendClosed := true
          tiles := i.tiles.map (fun t => { t with pendingAmend := false, phase := if t.phase = .recomparing then .issued else t.phase }) })).satAdd F.GLZ_COUNTS_LATE 0) ∧ (m = (List.range 256).filter (fun t => (i.tile t).phase == .waiting)) ∧ (v = m.foldl (fun u t => u.reuseTile i.cycle t) (if m.isEmpty then w
          else (i.tov :: ((w.glz.past.find? (fun r => r.cycle == (i.cycle + 2 ^ 32 - 1) % 2 ^ 32)).map (·.tov)).toList).foldl (fun u t => u.usePose i.cycle t) w)) ∧ (v.chkOn = true) ∧ ((v.sentinel i.cycle).isSome = true) :=
  ⟨Tests.comparing .waiting, Tests.tileInst .waiting, _, _, _, by decide +kernel, by decide +kernel, by decide +kernel, by decide +kernel, by decide +kernel, by decide +kernel, by decide +kernel, by decide +kernel, by decide +kernel, rfl, rfl, rfl, by decide +kernel, by decide +kernel⟩

/-! ## Witnesses: work -/

theorem wit_SchedulerMovesTokens_0 : ∃ s : State, ∃ (b : List Byte), ∃ (k : Token), ∃ (u : State), (s.tgsRuns = true) ∧ (crcOk (padTo 16 b) = true) ∧ (k = tokenOf (padTo 16 b)) ∧ (u = { s.count 3 3 1 with tgs := { (s.count 3 3 1).tgs with sent := removeFirst (fun x => x.sameWire k) (s.count 3 3 1).tgs.sent } }) ∧ (u.tokenStale k = true) :=
  ⟨Tests.up, Tests.token 5, _, _, by decide +kernel, by decide +kernel, rfl, rfl, by decide +kernel⟩
theorem wit_SchedulerMovesTokens_1 : ∃ s : State, ∃ (b : List Byte), ∃ (k : Token), ∃ (u : State), ∃ (dst : Nat × Nat × Nat), ∃ (c : Nat), (s.tgsRuns = true) ∧ (crcOk (padTo 16 b) = true) ∧ (k = tokenOf (padTo 16 b)) ∧ (u = { s.count 3 3 1 with tgs := { (s.count 3 3 1).tgs with sent := removeFirst (fun x => x.sameWire k) (s.count 3 3 1).tgs.sent } }) ∧ (u.tokenStale k = false) ∧ (u.goldenGone k = false) ∧ (u.consumerOf k.edge = some dst) ∧ (k.kind ≠ 2) ∧ (c = (if k.golden = true then k.cycle else ((u.glz.insts.find? (fun i => slotOf i.cycle == k.slot)).map (fun i => i.cycle)).getD k.cycle)) ∧ (u.tableRoom ({ k with dst := dst, cycle := c } : Token).run dst.2.1 dst.2.2 = true) :=
  ⟨Tests.edge, Tests.token 5, _, _, (0, 64, 0), _, by decide +kernel, by decide +kernel, rfl, rfl, by decide +kernel, by decide +kernel, by decide +kernel, by decide +kernel, rfl, by decide +kernel⟩
theorem wit_SchedulerMovesTokens_2 : ∃ s : State, ∃ (e : Nat), (s.tgsRuns = true) ∧ (s.tgs.used.contains e = true) :=
  ⟨{ Tests.up with tgs := { used := [5] } }, 5, by decide +kernel⟩
theorem wit_SchedulerMovesTokens_3 : ∃ s : State, ∃ (cls key n : Nat), ∃ (b : Budget), (s.tgsRuns = true) ∧ (s.tgs.budgets.find? (fun b => b.cls == cls && b.key == key && !b.reported) = some b) ∧ (s.budgetLimit b = some n) ∧ (b.start + n ≤ s.pwr.refclk) :=
  ⟨({ Tests.up with tgs := { budgets := [{ cls := 2, key := 7, cycle := 7, start := 0 }] } } : State).put (F.TGS_BUDGET_EN 2) 1, 2, 7, 25 * Tests.up.get (F.TGS_BUDGET_BUDGET 2), { cls := 2, key := 7, cycle := 7, start := 0 }, by decide +kernel⟩
theorem wit_SchedulerRunsEntries_0 : ∃ s : State, ∃ (unit graph slot tile : Nat), ∃ (run : RunId), ∃ (e : ListEntry), (s.runOf graph slot = some run) ∧ (s.tgsRuns = true) ∧ (graph < s.graphs) ∧ (64 ≤ unit) ∧ (unit < 104) ∧ (s.ready unit run = true) ∧ (s.picked tile unit run = true) ∧ (s.tableRoom run unit (s.tgs.firedCount unit run) = true) ∧ (e = s.entryOf graph unit (s.tgs.firedCount unit run)) ∧ (e.ok = true) ∧ (e.count ≠ 0) ∧ (e.ins.all (fun x => !(s.tgs.input run x).any (fun k => k.kind == 3)) = true) :=
  ⟨Tests.list 1, 64, 0, 3, 0, Tests.run, _, by decide +kernel, by decide +kernel, by decide +kernel, by decide +kernel, by decide +kernel, by decide +kernel, by decide +kernel, by decide +kernel, rfl, by decide +kernel, by decide +kernel, by decide +kernel⟩
theorem wit_SchedulerRunsEntries_1 : ∃ s : State, ∃ (unit graph slot : Nat), ∃ (error : Bool), ∃ (arg : Nat), ∃ (run : RunId), ∃ (f : Firing), ∃ (r : State × Option Nat × Nat), (s.runOf graph slot = some run) ∧ (s.tgs.firing.find? (fun f => f.unit == unit && f.run == run) = some f) ∧ (s.tgsRuns = true) ∧ (s.entryOutcome f (s.entryOf graph unit f.index) error (arg % 2 ^ 32) = some r) :=
  ⟨{ Tests.list 1 with tgs := { firing := [{ unit := 64, run := Tests.run, index := 0, error := false }] } }, 64, 0, 3, false, 9, Tests.run, { unit := 64, run := Tests.run, index := 0, error := false }, ({ Tests.list 1 with tgs := { firing := [{ unit := 64, run := Tests.run, index := 0, error := false }] } }, none, 9), by decide +kernel⟩
theorem wit_SchedulerRunsEntries_2 : ∃ s : State, ∃ (unit graph slot : Nat), ∃ (error : Bool), ∃ (arg : Nat), ∃ (run : RunId), ∃ (f : Firing), (s.runOf graph slot = some run) ∧ (s.tgs.firing.find? (fun f => f.unit == unit && f.run == run) = some f) ∧ (s.entryOutcome f (s.entryOf graph unit f.index) error (arg % 2 ^ 32) = none) :=
  ⟨{ Tests.list 1 with tgs := { firing := [{ unit := 0, run := Tests.run, index := 0, error := false }] } }, 0, 0, 3, false, 9, Tests.run, { unit := 0, run := Tests.run, index := 0, error := false }, by decide +kernel⟩
theorem wit_SchedulerRunsEntries_3 : ∃ s : State, ∃ (slots cs : Nat), ∃ (t : Time), ∃ (u v : State), (s.tgs.squash = some (slots, cs, t)) ∧ (u = { s with tgs := { s.tgs with squash := none }, atn := { s.atn with deadSlots := [] } }) ∧ (v = (u.glz.insts.filter (fun i => bitSet slots (slotOf i.cycle))).foldl (fun v i => (v.clearMaps (slotOf i.cycle)).restartBudgets i) u) :=
  ⟨{ Tests.opened with tgs := { squash := some (8, 1, 0) } }, 8, 1, 0, _, _, by decide +kernel, rfl, rfl⟩
theorem wit_ArrayTilesAct_0 : ∃ s : State, ∃ (tile : Nat), ∃ (o : ArrOp), ∃ (b : ArrBuf), ∃ (t : State), (s.arrRuns = true) ∧ (t = s.tileStart tile) ∧ (t.opOn tile = some o) ∧ (t.arr.bufs.find? (fun b => b.fits o) = some b) ∧ (b.code = none) ∧ (b.bad = false) :=
  ⟨{ Tests.lay with arr := { ops := [({ tile := 2, unit := 0, run := Tests.run, index := 0, desc := zeroBytes 64, count := 1, block := 1 } : ArrOp)], bufs := [({ tile := 2, half := 0, unit := 0, run := Tests.run, index := 0, rep := 0, block := 1, weights := [], rows := [], bad := false, code := none, started := true } : ArrBuf)] } }, 2, ({ tile := 2, unit := 0, run := Tests.run, index := 0, desc := zeroBytes 64, count := 1, block := 1 } : ArrOp), ({ tile := 2, half := 0, unit := 0, run := Tests.run, index := 0, rep := 0, block := 1, weights := [], rows := [], bad := false, code := none, started := true } : ArrBuf), _, by decide +kernel, rfl, by decide +kernel, by decide +kernel, by decide +kernel, by decide +kernel⟩
theorem wit_ArrayTilesAct_1 : ∃ s : State, ∃ (tile : Nat), ∃ (g te : Bool), ∃ (o : ArrOp), ∃ (a w : LayOut), ∃ (rows : List (List Nat)), ∃ (out : List (List Byte × Nat × Nat)), (s.arr.ops.find? (fun o => o.tile == tile && o.run.golden == g && o.phase == .storing) = some o) ∧ (s.arrRuns = true) ∧ (s.storeRows o te = (a, rows)) ∧ (a.code = none) ∧ (a.poison = false) ∧ (adQ o.desc = 0) ∧ (out = a.s.storedRows o rows) ∧ ((adAdd o.desc && adOutFmt o.desc == 6) = false) ∧ (w = a.s.layWrite o.user (adO o.desc) o.repOf (out.flatMap (·.1)) false (if adAdd o.desc then some (addStore (adOutFmt o.desc == 5)) else none) te) ∧ (w.lost = false) ∧ (w.code = none) ∧ ((out.map (·.2.1)).foldl (· + ·) 0 + w.sats = 0) ∧ ((out.map (·.2.2)).foldl (· + ·) 0 = 0) ∧ (o.count ≤ o.rep + 1) :=
  ⟨{ Tests.lay with arr := { ops := [({ tile := 2, unit := 0, run := Tests.run, index := 0, desc := zeroBytes 24 ++ natLe 2 0x1000 ++ zeroBytes 38, count := 1, phase := .storing } : ArrOp)] } }, 2, false, false, ({ tile := 2, unit := 0, run := Tests.run, index := 0, desc := zeroBytes 24 ++ natLe 2 0x1000 ++ zeroBytes 38, count := 1, phase := .storing } : ArrOp), { s := { Tests.lay with arr := { ops := [({ tile := 2, unit := 0, run := Tests.run, index := 0, desc := zeroBytes 24 ++ natLe 2 0x1000 ++ zeroBytes 38, count := 1, phase := .storing } : ArrOp)] } } }, _, [], _, by decide +kernel, by decide +kernel, by decide +kernel, by decide +kernel, by decide +kernel, by decide +kernel, rfl, by decide +kernel, rfl, by rw [Tests.layWrite _ _ _ _ _ _ _ _ (by decide +kernel) (by decide +kernel) (by decide +kernel)], by rw [Tests.layWrite _ _ _ _ _ _ _ _ (by decide +kernel) (by decide +kernel) (by decide +kernel)], by rw [Tests.layWrite _ _ _ _ _ _ _ _ (by decide +kernel) (by decide +kernel) (by decide +kernel)]; rfl, by decide +kernel, by decide +kernel⟩

/-! ## Witnesses: attention -/

theorem wit_AttentionBlocksAct_0 : ∃ s : State, ∃ (st : AtnStep), ∃ (slot : Nat), ∃ (rows : List AtnRow), ∃ (r : (LayOut × (Nat → List Nat)) × (LayOut × (Nat → List Nat)) × (LayOut × (Nat → List Nat))), ∃ (x : PhaseRun), (s.atnRuns = true) ∧ (s.scoreChoice = some (st, slot)) ∧ (rows = takeBlock (sdBackward st.desc) s.slotBytes st.rows) ∧ (rows.isEmpty = false) ∧ (rows.any (fun r => (st.pages r.seq).isNone) = false) ∧ (r = s.stepInputs st rows (decide (st.rows.length ≤ rows.length))) ∧ (r.1.1.code = none ∧ r.2.1.1.code = none ∧ r.2.2.1.code = none) ∧ (r.1.1.poison = false ∧ r.2.1.1.poison = false ∧ r.2.2.1.poison = false) ∧ (x = r.2.2.1.s.scoreBlock st slot rows r) ∧ (x.code = none) :=
  ⟨Tests.scoring, Tests.scoreStep, 0, [Tests.scoreRow], _, _, by decide +kernel, by decide +kernel, by decide +kernel, by decide +kernel, by decide +kernel, rfl, Tests.scoreA, Tests.scoreB, rfl, Tests.scoreC⟩
theorem wit_AttentionBlocksAct_1 : ∃ s : State, ∃ (slot : Nat), ∃ (g : Bool), ∃ (b : AtnBlock), ∃ (st : AtnStep), ∃ (x : PhaseRun), (s.atnRuns = true) ∧ (s.blockOf slot g .norm = some (b, st)) ∧ (s.coreTurn b = true) ∧ (x = s.normBlock st (blockRows (sdBackward st.desc) (s.slotAddr g slot) b.rows)) ∧ (x.code = none) :=
  ⟨{ Tests.lay with atn := { steps := [({ id := 4, run := Tests.run, index := 0, desc := Tests.step, gen := 0, bank := 0, core := 2, seqIds := [], masks := [], grads := [], rows := [], walks := [(0, [], true)] } : AtnStep)], blocks := [({ step := 4, slot := 0, golden := false, core := 2, head := 0, rows := [] } : AtnBlock)] } }, 0, false, ({ step := 4, slot := 0, golden := false, core := 2, head := 0, rows := [] } : AtnBlock), ({ id := 4, run := Tests.run, index := 0, desc := Tests.step, gen := 0, bank := 0, core := 2, seqIds := [], masks := [], grads := [], rows := [], walks := [(0, [], true)] } : AtnStep), _, by decide +kernel, by decide +kernel, by decide +kernel, rfl, by decide +kernel⟩
theorem wit_AttentionBlocksAct_2 : ∃ s : State, ∃ (slot : Nat), ∃ (g : Bool), ∃ (b : AtnBlock), ∃ (st : AtnStep), ∃ (x : PhaseRun × List (AtnRow × List Byte)), ∃ (w : LayOut), (s.atnRuns = true) ∧ (s.blockOf slot g .value = some (b, st)) ∧ (sdBackward st.desc = false) ∧ (x = s.valueBlock st (blockRows false (s.slotAddr g slot) b.rows)) ∧ (x.1.code = none) ∧ (w = x.1.s.stepWrite st (leAt st.desc 88 5) x.2 (s.lastBlock b st)) ∧ (w.code = none) :=
  ⟨{ Tests.lay with atn := { steps := [({ id := 4, run := Tests.run, index := 0, desc := Tests.step, gen := 0, bank := 0, core := 2, seqIds := [], masks := [], grads := [], rows := [], walks := [(0, [], true)] } : AtnStep)], blocks := [{ ({ step := 4, slot := 0, golden := false, core := 2, head := 0, rows := [] } : AtnBlock) with phase := .value }] } }, 0, false, { ({ step := 4, slot := 0, golden := false, core := 2, head := 0, rows := [] } : AtnBlock) with phase := .value }, ({ id := 4, run := Tests.run, index := 0, desc := Tests.step, gen := 0, bank := 0, core := 2, seqIds := [], masks := [], grads := [], rows := [], walks := [(0, [], true)] } : AtnStep), _, _, by decide +kernel, by decide +kernel, by decide +kernel, rfl, by decide +kernel, rfl, Tests.stepWrite_code _ _ _ _ _ (by decide +kernel) (by decide +kernel)⟩
theorem wit_AttentionBlocksAct_3 : ∃ s : State, ∃ (slot : Nat), ∃ (g : Bool), ∃ (b : AtnBlock), ∃ (st : AtnStep), ∃ (q dO : LayOut × (Nat → List Nat)), ∃ (x : PhaseRun × List (AtnRow × List Byte)), ∃ (w : LayOut), (s.atnRuns = true) ∧ (s.blockOf slot g .value = some (b, st)) ∧ (sdBackward st.desc = true) ∧ (q = s.stepRead st (leAt st.desc 80 5) b.rows false) ∧ (dO = q.1.s.stepRead st (leAt st.desc 96 5) b.rows false) ∧ (q.1.code = none ∧ dO.1.code = none ∧ q.1.poison = false ∧ dO.1.poison = false) ∧ (x = dO.1.s.gradBlock st (blockRows true (s.slotAddr g slot) b.rows) q.2 dO.2 (layFmt (s.readBytes (leAt st.desc 96 5) 128))) ∧ (x.1.code = none) ∧ (w = x.1.s.stepWrite st (leAt st.desc 104 5) x.2 (s.lastBlock b st)) ∧ (w.code = none) :=
  ⟨Tests.grading, 0, false, Tests.gradBlock, Tests.gradStep, Tests.gradQ, Tests.gradO, Tests.gradX, _, by decide +kernel, by decide +kernel, by decide +kernel, rfl, rfl, Tests.gradA, rfl, Tests.gradC, rfl, Tests.gradB⟩

/-! ## Witnesses: memory -/

theorem wit_MemoryAccessesAct_0 : ∃ s : State, ∃ (core priv addr size value err : Nat), (s.reachable = true) ∧ (bitSet s.boot.cores core = true) ∧ (priv ≤ 2) ∧ (s.boot.entry.isNone = false) ∧ (inWindows addr = false) ∧ ((s.count 5 1 1 (some (64 + core)) (some addr) priv).populatedRange addr size = true) :=
  ⟨Tests.up, 0, 0, 4096, 8, 7, 0, by decide +kernel⟩
theorem wit_MemoryAccessesAct_1 : ∃ s : State, ∃ (core priv addr size value err : Nat), ∃ (u : State), (s.reachable = true) ∧ (bitSet s.boot.cores core = true) ∧ (priv ≤ 2) ∧ (s.boot.entry.isNone = false) ∧ (inWindows addr = false) ∧ ((s.count 5 1 1 (some (64 + core)) (some addr) priv).populatedRange addr size = true) ∧ (u = (s.count 5 1 1 (some (64 + core)) (some addr) priv).countAccess core priv false addr) ∧ ((u.badWords addr size) = []) :=
  ⟨Tests.up, 0, 0, 4096, 8, 7, 0, _, by decide +kernel, by decide +kernel, by decide +kernel, by decide +kernel, by decide +kernel, by decide +kernel, rfl, by decide +kernel⟩
theorem wit_MemoryAccessesAct_2 : ∃ s : State, ∃ (core priv addr size value err : Nat), (s.reachable = true) ∧ (bitSet s.boot.cores core = true) ∧ (priv ≤ 2) ∧ (s.boot.entry.isNone = false) ∧ (inWindows addr = false) ∧ ((s.count 5 1 1 (some (64 + core)) (some addr) priv).populatedRange addr size = false) :=
  ⟨Tests.up, 0, 0, 268435456, 8, 7, 0, by decide +kernel⟩
theorem wit_MemoryAccessesAct_3 : ∃ s : State, ∃ (core priv addr size value err : Nat), (s.reachable = true) ∧ (bitSet s.boot.cores core = true) ∧ (priv ≤ 2) ∧ (s.boot.entry.isNone = false) ∧ (inWindows addr = true) ∧ (size = 4 ∨ size = 8) ∧ (addr % size = 0) ∧ ((s.count 5 1 1 (some (64 + core)) (some addr) priv).userDenied priv true addr = true) :=
  ⟨Tests.up, 0, 2, F.OBS_CTRL_ENABLE.addr, 8, 7, 0, by decide +kernel⟩
theorem wit_MemoryAccessesAct_4 : ∃ s : State, ∃ (core priv addr size value err : Nat), (s.reachable = true) ∧ (bitSet s.boot.cores core = true) ∧ (priv ≤ 2) ∧ (s.boot.entry.isNone = false) ∧ (inWindows addr = true) ∧ (size = 4 ∨ size = 8) ∧ (addr % size = 0) ∧ ((s.count 5 1 1 (some (64 + core)) (some addr) priv).userDenied priv true addr = false) :=
  ⟨Tests.up, 0, 0, F.SLV_CTRL_ENABLE.addr, 8, 7, 0, by decide +kernel⟩
theorem wit_MemoryAccessesAct_5 : ∃ s : State, ∃ (core priv addr size value err : Nat), (s.reachable = true) ∧ (bitSet s.boot.cores core = true) ∧ (priv ≤ 2) ∧ (s.boot.entry.isNone = false) ∧ (inWindows addr = true) ∧ (size = 4 ∨ size = 8) ∧ (addr % size = 0) ∧ ((s.count 5 1 1 (some (64 + core)) (some addr) priv).userDenied priv false addr = false) :=
  ⟨Tests.up, 0, 0, F.SLV_CTRL_ENABLE.addr, 8, 7, 0, by decide +kernel⟩
theorem wit_MemoryPatrolsAct_1 : ∃ s : State, ∃ (bank : Nat), (bank < 64) ∧ (s.on F.NGT_CTRL_SCRUB_EN = true) ∧ (s.on F.NGT_STATUS_READY = true) ∧ (s.power < 2) ∧ (bitSet (s.get F.NGT_FAIL_MASK) bank = false) :=
  ⟨Tests.up.put F.NGT_CTRL_SCRUB_EN 1, 3, by decide +kernel⟩
theorem wit_MemoryPatrolsAct_2 : ∃ s : State, ∃ (bank : Nat), (bank < 64) ∧ (s.on F.NGT_CTRL_SCRUB_EN = true) ∧ (s.on F.NGT_STATUS_READY = true) ∧ (s.power < 2) ∧ (bitSet (s.get F.NGT_FAIL_MASK) bank = false) :=
  ⟨Tests.up.put F.NGT_CTRL_SCRUB_EN 1, 3, by decide +kernel⟩
theorem wit_MemoryPatrolsAct_3 : ∃ s : State, ∃ (bank : Nat), (bank < 64) ∧ (s.on F.NGT_CTRL_SCRUB_EN = true) ∧ (s.on F.NGT_STATUS_READY = true) ∧ (s.power < 2) ∧ (bitSet (s.get F.NGT_FAIL_MASK) bank = false) ∧ ((s.advanceScrub bank).mem.poison.contains (s.rowAddr bank (sparseGet (fun _ => 0) s.mem.scrubRow bank)) = false) :=
  ⟨Tests.up.put F.NGT_CTRL_SCRUB_EN 1, 3, by decide +kernel⟩
theorem wit_MemoryPatrolsAct_4 : ∃ s : State, ∃ (channel : Nat), (channel < s.ddrChannels) ∧ (s.on F.DDR_CTRL_SCRUB_EN = true) ∧ (s.ddrInstalled ≠ 0) ∧ (s.on F.DDR_STATUS_SELF_REFRESH = false) ∧ (s.gated wDDR = false) :=
  ⟨Tests.cfg Tests.up [(F.DDR_CTRL_SCRUB_EN, 1), (F.DDR_STATUS_INSTALLED, 1), (F.DDR_CTRL_CH_EN, 255)], 3, by decide +kernel⟩
theorem wit_MemoryPatrolsAct_5 : ∃ s : State, ∃ (channel : Nat), (channel < s.ddrChannels) ∧ (s.on F.DDR_CTRL_SCRUB_EN = true) ∧ (s.ddrInstalled ≠ 0) ∧ (s.on F.DDR_STATUS_SELF_REFRESH = false) ∧ (s.gated wDDR = false) :=
  ⟨Tests.cfg Tests.up [(F.DDR_CTRL_SCRUB_EN, 1), (F.DDR_STATUS_INSTALLED, 1), (F.DDR_CTRL_CH_EN, 255)], 3, by decide +kernel⟩
theorem wit_MemoryPatrolsAct_6 : ∃ s : State, ∃ (channel addr : Nat), (channel < 8) ∧ (s.on F.DDR_CTRL_CA_PARITY = true) ∧ (s.ddrInstalled ≠ 0) :=
  ⟨Tests.cfg Tests.up [(F.DDR_STATUS_INSTALLED, 1), (F.DDR_CTRL_CA_PARITY, 1), (F.DDR_CTRL_CH_EN, 255)], 3, 4096, by decide +kernel⟩
theorem wit_MemoryPatrolsAct_7 : ∃ s : State, ∃ (channel addr : Nat), (channel < 8) ∧ (s.on F.DDR_CTRL_CA_PARITY = true) ∧ (s.ddrInstalled ≠ 0) ∧ (sparseGet (fun _ => 0) s.mem.caRetry channel = 2) :=
  ⟨({ Tests.cfg Tests.up [(F.DDR_STATUS_INSTALLED, 1), (F.DDR_CTRL_CA_PARITY, 1), (F.DDR_CTRL_CH_EN, 255)] with mem := { caRetry := [(3, 2)] } } : State), 3, 4096, by decide +kernel⟩
theorem wit_HistoryEditsAndGenerations_0 : ∃ s : State, ∃ (u : State), ∃ (r : List Byte), (s.kvcRuns = true) ∧ (s.takeEdit 1 = (u, some r)) ∧ (u.kvc.edits.length < 1024) :=
  ⟨Tests.edits 1, ((Tests.edits 1).takeEdit 1).1, Tests.edit 1, by decide +kernel⟩
theorem wit_HistoryEditsAndGenerations_1 : ∃ s : State, ∃ (u : State), ∃ (r : List Byte), (s.kvcRuns = true) ∧ (s.takeEdit 2 = (u, some r)) ∧ (u.kvc.edits.length < 1024) :=
  ⟨Tests.edits 2, ((Tests.edits 2).takeEdit 2).1, Tests.edit 2, by decide +kernel⟩
theorem wit_HistoryEditsAndGenerations_2 : ∃ s : State, ∃ (u : State), ∃ (r : List Byte), (s.kvcRuns = true) ∧ (s.takeEdit 3 = (u, some r)) ∧ (u.kvc.edits.length < 1024) :=
  ⟨Tests.edits 3, ((Tests.edits 3).takeEdit 3).1, Tests.edit 3, by decide +kernel⟩
theorem wit_HistoryEditsAndGenerations_3 : ∃ s : State, ∃ (u : State), ∃ (r : List Byte), (s.kvcRuns = true) ∧ (s.takeEdit 4 = (u, some r)) ∧ (u.kvc.edits.length < 1024) :=
  ⟨Tests.edits 4, ((Tests.edits 4).takeEdit 4).1, Tests.edit 4, by decide +kernel⟩
theorem wit_HistoryEditsAndGenerations_4 : ∃ s : State, ∃ (u : State), ∃ (r : List Byte), (s.kvcRuns = true) ∧ (s.takeEdit 5 = (u, some r)) ∧ (u.kvc.edits.length < 1024) :=
  ⟨Tests.edits 5, ((Tests.edits 5).takeEdit 5).1, Tests.edit 5, by decide +kernel⟩
theorem wit_HistoryEditsAndGenerations_5 : ∃ s : State, ∃ (u : State), ∃ (r : List Byte), (s.kvcRuns = true) ∧ (s.takeEdit 1 = (u, some r)) ∧ (1024 ≤ u.kvc.edits.length) :=
  ⟨{ Tests.edits 1 with kvc := { edits := List.replicate 1024 [] } }, (({ Tests.edits 1 with kvc := { edits := List.replicate 1024 [] } } : State).takeEdit 1).1, Tests.edit 1, by decide +kernel⟩
theorem wit_HistoryEditsAndGenerations_6 : ∃ s : State, ∃ (u v t : State), ∃ (r : List Byte), ∃ (o : List (Nat × HistSeq)), (s.kvcRuns = true) ∧ (s.takeEdit 6 = (u, some r)) ∧ (u.kvc.edits.find? (fun x => !v.editOk x) = none) ∧ (v = { u with kvc := { u.kvc with edits := [], overflow := false } }) ∧ (u.kvc.overflow = false) ∧ (crcOk r = true) ∧ (v.applyEdits v.kvc.shadow u.kvc.edits = some o) ∧ (v.batchOk o = true) ∧ (v.stage v.kvc.appends (v.kvc.batches ++ [u.kvc.edits]) = some t) :=
  ⟨Tests.edits 6, ((Tests.edits 6).takeEdit 6).1, _, Tests.staged, Tests.edit 6, [], by decide +kernel, by decide +kernel, by decide +kernel, rfl, by decide +kernel, by decide +kernel, by decide +kernel, by decide +kernel, by decide +kernel⟩
theorem wit_HistoryEditsAndGenerations_7 : ∃ s : State, ∃ (u : State), ∃ (r x : List Byte), (s.kvcRuns = true) ∧ (s.takeEdit 6 = (u, some r)) ∧ (u.kvc.edits.find? (fun x => !({ u with kvc := { u.kvc with edits := [], overflow := false } } : State).editOk x) = some x) :=
  ⟨{ Tests.edits 6 with kvc := { edits := [[]] } }, (({ Tests.edits 6 with kvc := { edits := [[]] } } : State).takeEdit 6).1, Tests.edit 6, [], by decide +kernel⟩
theorem wit_HistoryEditsAndGenerations_8 : ∃ s : State, ∃ (u v w : State), (s.kvcRuns = true) ∧ (s.changeDue = true) ∧ (u = { s with
        kvc := { s.kvc with
          current := s.kvc.shadowBank, gen := (s.kvc.gen + 1) % 2 ^ 32, lastChange := some s.now, shadowReady := false
          shadow := [], appends := [], batches := [] }
        atn := { s.atn with boundary := false } }) ∧ (v = (s.touched s.kvc.shadow).foldl (fun t p => t.updPage p (fun r => { r with zeroAt := if r.refs = 0 then some ((s.kvc.gen + 1) % 2 ^ 32) else none })) u) ∧ (w = v.writeBytes (v.dirAddr v.freeBank 0) (v.readBytes (v.dirAddr v.kvc.current 0) (v.seqs * 8))) :=
  ⟨{ Tests.up with kvc := { batches := [[]], shadowReady := true } }, _, _, _, by decide +kernel, by decide +kernel, rfl, rfl, rfl⟩
theorem wit_HistoryEditsAndGenerations_9 : ∃ s : State, (s.kvcRuns = true) :=
  ⟨Tests.up, by decide +kernel⟩
theorem wit_HistoryWalksAndMoves_0 : ∃ s : State, ∃ (step k : Nat), ∃ (st : AtnStep), (s.kvcRuns = true) ∧ (s.atn.steps.find? (fun x => x.id == step) = some st) ∧ (st.walks.any (fun w => w.1 == k) = false) ∧ (k < st.seqIds.length) ∧ (s.seqs ≤ st.seqId k) ∧ (st.run.golden = false) ∧ (s.poisoned (s.dirAddr st.bank (st.seqId k)) 8 = false) ∧ ((deValid (s.dirEntry st.bank (st.seqId k)) && s.poisoned (s.listAddr (s.dirEntry st.bank (st.seqId k))) (8 * deNent (s.dirEntry st.bank (st.seqId k)))) = false) :=
  ⟨({ Tests.up with atn := { steps := [({ id := 4, run := Tests.run, index := 0, desc := Tests.step, gen := 0, bank := 0, core := 2, seqIds := [9], masks := [], grads := [], rows := [] } : AtnStep)] } } : State).put F.KVC_CTRL_SEQS 0, 4, 0, ({ id := 4, run := Tests.run, index := 0, desc := Tests.step, gen := 0, bank := 0, core := 2, seqIds := [9], masks := [], grads := [], rows := [] } : AtnStep), by decide +kernel⟩
theorem wit_HistoryWalksAndMoves_1 : ∃ s : State, ∃ (step k : Nat), ∃ (bad : Option (Nat × Bool)), ∃ (st : AtnStep), ∃ (bank : Nat), (s.kvcRuns = true) ∧ (s.atn.steps.find? (fun x => x.id == step) = some st) ∧ (st.walks.any (fun w => w.1 == k) = false) ∧ (k < st.seqIds.length) ∧ (bank = (if st.run.golden = true then 6 else st.bank)) ∧ (st.seqId k < s.seqs) ∧ (deValid (s.dirEntry bank (st.seqId k)) = true) ∧ (s.poisoned (s.dirAddr bank (st.seqId k)) 8 = false) ∧ (s.poisoned (s.listAddr (s.dirEntry bank (st.seqId k))) (8 * deNent (s.dirEntry bank (st.seqId k))) = false) :=
  ⟨Tests.walking, 4, 0, none, { ({ id := 4, run := Tests.run, index := 0, desc := Tests.step, gen := 0, bank := 0, core := 2, seqIds := [9], masks := [], grads := [], rows := [] } : AtnStep) with seqIds := [0] }, 0, by decide +kernel⟩
theorem wit_HistoryWalksAndMoves_2 : ∃ s : State, ∃ (p : Nat), (s.kvcRuns = true) ∧ ((s.page p).state = .moving true) ∧ (s.pinned p = false) :=
  ⟨{ Tests.up with kvc := { pages := [(3, { state := .moving true })] } }, 3, by decide +kernel⟩
theorem wit_HistoryWalksAndMoves_3 : ∃ s : State, ∃ (p : Nat), (s.kvcRuns = true) ∧ ((s.page p).state = .moving false) :=
  ⟨{ Tests.up with kvc := { pages := [(3, { state := .moving false })] } }, 3, by decide +kernel⟩
theorem wit_HistoryWalksAndMoves_4 : ∃ s : State, ∃ (p : Nat), (s.kvcRuns = true) ∧ ((s.page p).state = .moving true) ∧ (s.pinned p = true) :=
  ⟨{ Tests.up with kvc := { pages := [(3, { state := .moving true })], pins := [(3, false, 4)] } }, 3, by decide +kernel⟩
theorem wit_HistoryWalksAndMoves_5 : ∃ s : State, ∃ (f : Firing), ∃ (d t k v : List Byte), ∃ (r : State × Except Nat (List Byte × List Byte × List Byte)), ∃ (i : Inst), ∃ (w : State), (s.kvcRuns = true) ∧ (s.kvcEntry 0 = some (f, d)) ∧ (crcOk d = true) ∧ (kdRows d ≠ 0) ∧ (f.run.golden = false) ∧ (r = s.appendReads f d) ∧ (r.2 = .ok (t, k, v)) ∧ (r.1.inst f.run.cycle = some i) ∧ (w = (List.range (kdRows d)).foldl (fun u r => u.appendRow (kdFmt d) (kdDim d) (kdSize d % 16) i.tov (leAt t (2 * r) 2)
      (slice k (r * ({ fmt := kdFmt d, dim := kdDim d } : PageRec).rowBytes) ({ fmt := kdFmt d, dim := kdDim d } : PageRec).rowBytes)
      (slice v (r * ({ fmt := kdFmt d, dim := kdDim d } : PageRec).rowBytes) ({ fmt := kdFmt d, dim := kdDim d } : PageRec).rowBytes)) r.1) :=
  ⟨Tests.appending, Tests.kvcFire, Tests.kvcDesc, zeroBytes 2, [], [], _, { cycle := 7, tov := 100, deadline := 200, winStart := 0, openedAt := 0 }, _, by decide +kernel, by decide +kernel, by decide +kernel, by decide +kernel, by decide +kernel, rfl, Tests.appendR, Tests.appendI, rfl⟩
theorem wit_HistoryWalksAndMoves_6 : ∃ s : State, ∃ (f : Firing), ∃ (d t : List Byte), (s.kvcRuns = true) ∧ (s.kvcEntry 1 = some (f, d)) ∧ (crcOk d = true) ∧ (f.run.golden = false) ∧ (s.ctxAllowed (kdCtx d % 16) 102 = true) ∧ (s.ctxTable (kdCtx d % 16) (leAt d 8 8) (4 * kdRows d) = .ok (t, false)) :=
  ⟨Tests.fetching, Tests.kvcFire, withCrc ([1, 0, 0, 0, 1] ++ zeroBytes 4 ++ [0x30] ++ zeroBytes 50), zeroBytes 4, by decide +kernel⟩

/-! ## Witnesses: links -/

theorem wit_LinksTrainAndFall_0 : ∃ s : State, ∃ (port : Nat), (s.bmlRuns = true) ∧ (s.portEnabled port = true) ∧ (bitSet (s.get F.BML_STATUS_FENCED) port = false) ∧ (s.linkState port = lkDOWN) ∧ ((s.lport port).tried = false) :=
  ⟨Tests.cfg Tests.up [(F.BML_PORT_CFG_ENABLE 4, 1)], 4, by decide +kernel⟩
theorem wit_LinksTrainAndFall_1 : ∃ s : State, ∃ (port peer : Nat), (port < 6) ∧ (s.bmlRuns = true) ∧ (s.linkState port = lkTRAINING) ∧ (s.pwr.refclk ≤ (s.lport port).since + 1250000) ∧ (peer % 64 = (s.put (F.BML_PORT_STAT_PEER port) peer).expectedPeer port) :=
  ⟨({ Tests.cfg Tests.up [(F.BML_PORT_CFG_ENABLE 0, 1), (F.BML_PORT_STAT_STATE 0, 1), (F.BML_CTRL_RING_SIZE, 1)] with pwr := { Tests.up.pwr with refclk := 5 } } : State), 0, 1, by decide +kernel⟩
theorem wit_LinksTrainAndFall_2 : ∃ s : State, ∃ (port peer : Nat), ∃ (ok : Bool), (port < 6) ∧ (s.bmlRuns = true) ∧ (s.linkState port = lkTRAINING) ∧ (s.pwr.refclk ≤ (s.lport port).since + 1250000) ∧ (peer % 64 ≠ (s.put (F.BML_PORT_STAT_PEER port) peer).expectedPeer port) :=
  ⟨({ Tests.cfg Tests.up [(F.BML_PORT_CFG_ENABLE 0, 1), (F.BML_PORT_STAT_STATE 0, 1)] with pwr := { Tests.up.pwr with refclk := 5 } } : State), 0, 9, true, by decide +kernel⟩
theorem wit_LinksTrainAndFall_3 : ∃ s : State, ∃ (port : Nat), (port < 6) ∧ (s.bmlRuns = true) ∧ (s.linkState port = lkTRAINING) ∧ ((s.lport port).since + 1250000 ≤ s.pwr.refclk) :=
  ⟨Tests.cfg Tests.up [(F.BML_PORT_CFG_ENABLE 0, 1), (F.BML_PORT_STAT_STATE 0, 1)], 0, by decide +kernel⟩
theorem wit_LinksTrainAndFall_4 : ∃ s : State, ∃ (port : Nat), (s.bmlRuns = true) ∧ (s.portIsUp port = true) ∧ ((s.lport port).lastRx + 25 * s.get F.BML_TIMING_LINK_TIMEOUT ≤ s.pwr.refclk) :=
  ⟨Tests.link, 0, by decide +kernel⟩
theorem wit_LinksTrainAndFall_5 : ∃ s : State, ∃ (port : Nat), (s.bmlRuns = true) ∧ (s.portIsUp port = true) :=
  ⟨Tests.link, 0, by decide +kernel⟩
theorem wit_LinksCarryFlits_0 : ∃ s : State, ∃ (port : Nat), ∃ (b : List Byte), ∃ (u v : State), (s.bmlRuns = true) ∧ (s.portIsUp port = true) ∧ (crcOk (padTo 72 b) = true) ∧ (u = (s.updPort port (fun x => { x with lastRx := s.pwr.refclk })).ackFlits port (bitsAt (leAt (padTo 72 b) 66 2) 0 12)) ∧ (bitsAt (leAt (padTo 72 b) 64 2) 13 3 = 1) ∧ (bitsAt (leAt (padTo 72 b) 64 2) 0 12 = ((u.lport port).rxSeq + 1) % 4096) ∧ (v = u.updPort port (fun x => { x with rxSeq := bitsAt (leAt (padTo 72 b) 64 2) 0 12 })) :=
  ⟨Tests.link, 0, Tests.flit, _, _, by decide +kernel, by decide +kernel, Tests.flit_ok, rfl, by decide +kernel, by decide +kernel, rfl⟩
theorem wit_LinksCarryFlits_1 : ∃ s : State, ∃ (port : Nat), ∃ (b : List Byte), ∃ (u : State), (s.bmlRuns = true) ∧ (s.portIsUp port = true) ∧ (crcOk (padTo 72 b) = false) ∧ (u = (s.updPort port (fun x => { x with lastRx := s.pwr.refclk })).satInc (F.BML_PORT_STAT_CRC_ERR port)) :=
  ⟨Tests.link, 0, Tests.badFlit, _, by decide +kernel, by decide +kernel, Tests.badFlit_bad, rfl⟩
theorem wit_LinksCarryFlits_2 : ∃ s : State, ∃ (port : Nat), ∃ (ack : Nat), ∃ (u : State), (s.bmlRuns = true) ∧ (s.portIsUp port = true) ∧ (u = (((s.updPort port (fun x => { x with lastRx := s.pwr.refclk })).ackFlits port ack).satInc (F.BML_PORT_STAT_REPLAYS port)).updPort port
      (fun x => { x with replays := x.replays + 1 })) ∧ ((u.lport port).replays < 16) :=
  ⟨Tests.link, 0, 4095, _, by decide +kernel, by decide +kernel, rfl, by decide +kernel⟩
theorem wit_LinksCarryFlits_3 : ∃ s : State, ∃ (port : Nat), ∃ (vc count ack : Nat), (s.bmlRuns = true) ∧ (s.portIsUp port = true) :=
  ⟨Tests.link, 0, 0, 1, 4095, by decide +kernel⟩
theorem wit_LinksCarryFlits_4 : ∃ s : State, ∃ (port : Nat), ∃ (ack : Nat), ∃ (peer trip : Int), ∃ (u : State), (s.bmlRuns = true) ∧ (s.portIsUp port = true) ∧ (u = ((s.updPort port (fun x => { x with lastRx := s.pwr.refclk })).ackFlits port ack).pumpAll port) ∧ ((peer + trip / 2 - u.now).natAbs ≤ (u.putI (F.BML_NBR_OFFSET_OFFSET port) (peer + trip / 2 - u.now)).get F.BML_TIMING_SKEW_LIMIT) :=
  ⟨Tests.link, 0, 4095, 5000000000, 0, _, by decide +kernel, by decide +kernel, rfl, by decide +kernel⟩
theorem wit_LinksCarryFlits_5 : ∃ s : State, ∃ (port : Nat), (s.bmlRuns = true) ∧ (s.portIsUp port = true) ∧ ((s.lport port).lastTx + 250 ≤ s.pwr.refclk) :=
  ⟨Tests.link, 0, by decide +kernel⟩
theorem wit_ExpertsServed_0 : ∃ s : State, ∃ (layer : Nat), ∃ (records : List Nat), ∃ (rows : List (List Byte)), ∃ (i : Inst), ∃ (u : State), (s.bmlRuns = true) ∧ (s.head = some i) ∧ (records.isEmpty = false) ∧ (layer ≤ s.get F.BML_EXPERT_LAYERS) ∧ (u = { s with bml := { s.bml with combine := s.bml.combine.filter (fun x => !(x.layer == layer && x.cycle == i.cycle))
        ++ [{ layer, cycle := i.cycle, stamp := ofInt 64 i.tov, slots := records.map (fun _ => List.replicate s.topk .empty) }] } }) :=
  ⟨Tests.inbox 0, 0, [5], [], { cycle := 7, tov := 100, deadline := 200, winStart := 0, openedAt := 0 }, _, by decide +kernel, by decide +kernel, by decide +kernel, by decide +kernel, rfl⟩
theorem wit_ExpertsServed_1 : ∃ s : State, ∃ (u : State), ∃ (b : List Byte), ∃ (r : Nat), (s.bmlRuns = true) ∧ (s.takePacket 0 = some (u, b)) ∧ (u.admission b = .error r) :=
  ⟨Tests.inbox 0, Tests.taken 0, Tests.pack 0 [1], 3, by decide +kernel, by decide +kernel, by decide +kernel⟩
theorem wit_ExpertsServed_2 : ∃ s : State, ∃ (u : State), ∃ (b : List Byte), ∃ (i : Inst), ∃ (es : List ExpertBuf), (s.bmlRuns = true) ∧ (s.takePacket 0 = some (u, b)) ∧ (u.admission b = .ok i) ∧ (es = (if u.bml.experts.any (fun e => e.layer == pkLayer b && e.slot == pkSlot b && e.cycle == i.cycle) = true then u.bml.experts
      else u.bml.experts ++ [({ layer := pkLayer b, slot := pkSlot b, cycle := i.cycle } : ExpertBuf)])) :=
  ⟨Tests.admitting, Tests.admitted, Tests.pack 0 [1], { cycle := 7, tov := 100, deadline := 200, winStart := 0, openedAt := 0 }, _, by decide +kernel, by decide +kernel, by decide +kernel, rfl⟩
theorem wit_ExpertsServed_3 : ∃ s : State, ∃ (layer slot : Nat), ∃ (rows : List (List Byte)), ∃ (i : Inst), ∃ (e : ExpertBuf), ∃ (u : State), (s.bmlRuns = true) ∧ (s.head = some i) ∧ (s.bml.experts.find? (fun e => e.layer == layer && e.slot == slot && e.cycle == i.cycle) = some e) ∧ (i.tov + s.get F.BML_TIMING_COLLECT_CLOSE * 1000 ≤ s.tim.time) ∧ (u = { s with bml := { s.bml with experts := s.bml.experts.filter (fun x => x != e) } }) :=
  ⟨({ Tests.inbox 0 with bml := { (Tests.inbox 0).bml with experts := [{ layer := 0, slot := 2, cycle := 7 }] } } : State), 0, 2, [], { cycle := 7, tov := 100, deadline := 200, winStart := 0, openedAt := 0 }, { layer := 0, slot := 2, cycle := 7 }, _, by decide +kernel, by decide +kernel, by decide +kernel, by decide +kernel, rfl⟩
theorem wit_ExpertsServed_4 : ∃ s : State, ∃ (u : State), ∃ (b : List Byte), ∃ (c : Combine), (s.bmlRuns = true) ∧ (s.takePacket 1 = some (u, b)) ∧ (u.combineFor b = some c) :=
  ⟨Tests.waiting 1, Tests.waitingTaken 1, Tests.pack 1 [1], Tests.combine, by decide +kernel, by decide +kernel, by decide +kernel⟩
theorem wit_ExpertsServed_5 : ∃ s : State, ∃ (u : State), ∃ (b : List Byte), (s.bmlRuns = true) ∧ (s.takePacket 1 = some (u, b)) ∧ (u.combineFor b = none) :=
  ⟨Tests.inbox 1, Tests.taken 1, Tests.pack 1 [1], by decide +kernel, by decide +kernel, by decide +kernel⟩
theorem wit_ExpertsServed_6 : ∃ s : State, ∃ (u : State), ∃ (b : List Byte), ∃ (c : Combine), (s.bmlRuns = true) ∧ (s.takePacket 2 = some (u, b)) ∧ (u.combineFor b = some c) :=
  ⟨Tests.waiting 2, Tests.waitingTaken 2, Tests.pack 2 [1], Tests.combine, by decide +kernel, by decide +kernel, by decide +kernel⟩
theorem wit_ExpertsServed_7 : ∃ s : State, ∃ (layer : Nat), ∃ (home : List (List Byte)), ∃ (c : Combine), ∃ (u v : State), (s.bmlRuns = true) ∧ (s.bml.combine.find? (fun c => c.layer == layer && !c.closed) = some c) ∧ (s.replyDeadline c ≤ s.tim.time) ∧ ((closeCombine home c).2.2 ≠ 0) ∧ (u = { s with bml := { s.bml with combine := updateFirst (fun x => x == c) (fun _ => (closeCombine home c).1) s.bml.combine } }) ∧ (v = (u.raise F.BML_EVENT_FALLBACK).satAdd F.BML_COUNTS_FALLBACKS (closeCombine home c).2.2) :=
  ⟨({ Tests.waiting 1 with tim := { Tests.up.tim with time := 5000000000 } } : State), 0, [], Tests.combine, _, _, by decide +kernel, by decide +kernel, by decide +kernel, by decide +kernel, rfl, rfl⟩
theorem wit_RemoteCopiesRun_0 : ∃ s : State, ∃ (core desc dest target : Nat), ∃ (x : LayOut), ∃ (u : State), (s.bmlRuns = true) ∧ (core < 32) ∧ (x = s.layRead (s.coreUser core) desc none) ∧ (x.code = none) ∧ (u = { x.s with bml := { x.s.bml with copies := x.s.bml.copies ++ [{ core, dest, start := x.s.pwr.refclk }] } }) :=
  ⟨Tests.lay, 0, 0x2000, 3, 0, _, _, by decide +kernel, by decide +kernel, rfl, by rw [Tests.layRead _ _ _ _ (by decide +kernel) (by decide +kernel)], rfl⟩
theorem wit_RemoteCopiesRun_1 : ∃ s : State, ∃ (u t : State), ∃ (b : List Byte), (s.bmlRuns = true) ∧ (s.takePacket 3 = some (u, b)) ∧ (u.bml.aborted.contains (pkSrc b) = false) ∧ (u.remoteWrite (bitsAt (pkTov b) 0 40) (pkPayload b) = .ok t) :=
  ⟨Tests.copyIn, Tests.copyInTaken, Tests.copyWritten, Tests.pack 3 [1], by decide +kernel, by decide +kernel, by decide +kernel, by decide +kernel⟩
theorem wit_RemoteCopiesRun_2 : ∃ s : State, ∃ (u t : State), ∃ (b : List Byte), (s.bmlRuns = true) ∧ (s.takePacket 3 = some (u, b)) ∧ (u.bml.aborted.contains (pkSrc b) = false) ∧ (u.remoteWrite (bitsAt (pkTov b) 0 40) (pkPayload b) = .ok t) :=
  ⟨Tests.copyIn, Tests.copyInTaken, Tests.copyWritten, Tests.pack 3 [1], by decide +kernel, by decide +kernel, by decide +kernel, by decide +kernel⟩
theorem wit_RemoteCopiesRun_3 : ∃ s : State, ∃ (u : State), ∃ (b : List Byte), ∃ (c : RemoteCopy), (s.bmlRuns = true) ∧ (s.takePacket 4 = some (u, b)) ∧ (u.copyTo (pkSrc b) = some c) :=
  ⟨Tests.copying 4, Tests.copyTaken 4, Tests.pack 4 [1], { core := 1, dest := 3, start := 0 }, by decide +kernel, by decide +kernel, by decide +kernel⟩
theorem wit_RemoteCopiesRun_4 : ∃ s : State, ∃ (u : State), ∃ (b : List Byte), ∃ (c : RemoteCopy), (s.bmlRuns = true) ∧ (s.takePacket 5 = some (u, b)) ∧ (u.copyTo (pkSrc b) = some c) :=
  ⟨Tests.copying 5, Tests.copyTaken 5, Tests.pack 5 [1], { core := 1, dest := 3, start := 0 }, by decide +kernel, by decide +kernel, by decide +kernel⟩
theorem wit_RemoteCopiesRun_5 : ∃ s : State, ∃ (c : RemoteCopy), (s.bmlRuns = true) ∧ (s.bml.copies.find? (fun c => decide (c.start + 25 * s.get F.BML_TIMING_COPY_TIMEOUT ≤ s.pwr.refclk)) = some c) :=
  ⟨Tests.copying 4, { core := 1, dest := 3, start := 0 }, by decide +kernel⟩

/-! ## Witnesses: safety -/

theorem wit_CheckerActs_0 : ∃ s : State, ∃ (c : Nat), ∃ (t : PTable), (s.chkOn = true) ∧ (s.power = 0) ∧ ((s.boot.step != .inReset) = true) ∧ (s.pwr.refLost = false) ∧ (s.ptable c = some t) ∧ (t.closed = true) ∧ (t.read = false) :=
  ⟨Tests.closedTable, 7, { index := 0, cycle := 7, p := 0, closed := true }, by decide +kernel⟩
theorem wit_CheckerActs_1 : ∃ s : State, ∃ (c : Nat), ∃ (i : Inst), ∃ (cs : List SentCell), (s.chkOn = true) ∧ (s.power = 0) ∧ ((s.boot.step != .inReset) = true) ∧ (s.pwr.refLost = false) ∧ (s.chk.running.contains c = true) ∧ (s.inst c = some i) :=
  ⟨({ Tests.closedTable with chk := { Tests.closedTable.chk with running := [7] } } : State), 7, { cycle := 7, tov := 100, deadline := 200, winStart := 0, openedAt := 0 }, [], by decide +kernel⟩
theorem wit_CheckerActs_2 : ∃ s : State, ∃ (n : Nat), ∃ (g : Golden), ∃ (u : State), (s.chkOn = true) ∧ (s.power = 0) ∧ ((s.boot.step != .inReset) = true) ∧ (s.pwr.refLost = false) ∧ (s.saf.golden.find? (fun g => g.num == n && g.due.isSome) = some g) ∧ (s.goldenScan (s.goldenField g.entry 16 8) (s.goldenField g.entry 28 8) (s.goldenField g.entry 24 4) 0 0 = none) ∧ (s.goldenEntryBad g.entry = false) ∧ (u = ((((((s.fresh.put F.CHK_GOLDEN_LAST_ENTRY g.entry).flag F.CHK_GOLDEN_LAST_FAILED false).flag F.CHK_GOLDEN_LAST_EXTRA g.extra).put
      F.CHK_GOLDEN_LAST_FIRST_FAIL (Config.noElement s.free)).put F.CHK_GOLDEN_LAST_FRAME n).goldenLeave [g]).goldenSpan g) :=
  ⟨Tests.goldenRun, 1, { num := 1, entry := 1, extra := false, kind := 1, due := some (0, 0) }, _, by decide +kernel, by decide +kernel, by decide +kernel, by decide +kernel, by decide +kernel, by decide +kernel, Tests.goldenRun_bad, rfl⟩
theorem wit_CheckerActs_3 : ∃ s : State, ∃ (n k : Nat), ∃ (e : Bool), ∃ (g : Golden), ∃ (u : State), (s.chkOn = true) ∧ (s.power = 0) ∧ ((s.boot.step != .inReset) = true) ∧ (s.pwr.refLost = false) ∧ (s.saf.golden.find? (fun g => g.num == n && g.due.isSome) = some g) ∧ (s.goldenScan (s.goldenField g.entry 16 8) (s.goldenField g.entry 28 8) (s.goldenField g.entry 24 4) 0 0 = some k) ∧ (u = (((((((s.put F.CHK_GOLDEN_LAST_ENTRY g.entry).flag F.CHK_GOLDEN_LAST_FAILED true).flag F.CHK_GOLDEN_LAST_EXTRA g.extra).put
      F.CHK_GOLDEN_LAST_FIRST_FAIL k).put F.CHK_GOLDEN_LAST_FRAME n).goldenLeave [g]).goldenSpan g)) :=
  ⟨Tests.goldenOut, 1, 0, false, { num := 1, entry := 1, extra := false, kind := 1, due := some (0, 0) }, _, by decide +kernel, by decide +kernel, by decide +kernel, by decide +kernel, by decide +kernel, by decide +kernel, rfl⟩
theorem wit_CheckerActs_4 : ∃ s : State, ∃ (cells : List SentCell), ∃ (t : Int), ∃ (u : State), (s.chkOn = true) ∧ (s.power = 0) ∧ ((s.boot.step != .inReset) = true) ∧ (s.pwr.refLost = false) ∧ (s.schedNow = some t) ∧ (s.boot.level = some 2) ∧ (s.on F.CHK_CTRL_GUARD_OUT = true) ∧ (s.chk.guardLast = none) ∧ ((s.safety != stHalted) = true) ∧ (u = { s with chk := { s.chk with guardLast := some t }, glz := { s.glz with nextCycle := (s.glz.nextCycle + 1) % 2 ^ 32, past := ({ cycle := s.glz.nextCycle, tov := t, ego := s.egoCell, issueOrder := List.range 256, subs := s.subsNow } :: s.glz.past).take 8 } }) :=
  ⟨Tests.guard, [], 4000000000, _, by decide +kernel, by decide +kernel, by decide +kernel, by decide +kernel, by decide +kernel, by decide +kernel, by decide +kernel, by decide +kernel, by decide +kernel, rfl⟩
theorem wit_SupervisorActs_0 : ∃ s : State, ((s.boot.step != .inReset) = true) ∧ (s.pwr.refLost = false) ∧ (s.power ≤ 1) ∧ (s.chkOn = true) :=
  ⟨Tests.up, by decide +kernel⟩
theorem wit_SupervisorActs_1 : ∃ s : State, ((s.boot.step != .inReset) = true) ∧ (s.pwr.refLost = false) ∧ (s.power ≤ 1) ∧ (s.chkOn = true) :=
  ⟨Tests.up, by decide +kernel⟩
theorem wit_SupervisorActs_2 : ∃ s : State, ((s.boot.step != .inReset) = true) ∧ (s.pwr.refLost = false) ∧ (s.power ≤ 1) :=
  ⟨Tests.up, by decide +kernel⟩
theorem wit_SupervisorActs_3 : ∃ s : State, ((s.boot.step != .inReset) = true) ∧ (s.pwr.refLost = false) ∧ (s.power ≤ 1) :=
  ⟨Tests.up, by decide +kernel⟩
theorem wit_SupervisorActs_4 : ∃ s : State, ∃ (k : Nat), ((s.boot.step != .inReset) = true) ∧ (s.pwr.refLost = false) ∧ (s.power ≤ 1) :=
  ⟨Tests.up, 3, by decide +kernel⟩
theorem wit_SupervisorActs_5 : ∃ s : State, ∃ (t : Nat), ((s.boot.step != .inReset) = true) ∧ (s.pwr.refLost = false) ∧ (s.power ≤ 1) ∧ (s.hbFrom = some t) ∧ (s.saf.hbExpired = false) ∧ (t + 25000 * s.get F.SAF_TIMING_HB_TIMEOUT ≤ s.pwr.refclk) :=
  ⟨({ Tests.up with saf := { Tests.up.saf with hbStart := some 0 } } : State), 0, by decide +kernel⟩
theorem wit_SupervisorActs_6 : ∃ s : State, ((s.boot.step != .inReset) = true) ∧ (s.pwr.refLost = false) ∧ (s.power ≤ 1) ∧ (s.boot.step = .up) ∧ (s.saf.wdtLast + 250000 ≤ s.pwr.refclk) :=
  ⟨Tests.up, by decide +kernel⟩
theorem wit_SupervisorActs_7 : ∃ s : State, ((s.boot.step != .inReset) = true) ∧ (s.pwr.refLost = false) ∧ (s.power ≤ 1) ∧ (s.boot.step = .up) ∧ (s.saf.wdtLast + 25000 * s.get F.SAF_TIMING_WDT_TIMEOUT ≤ s.pwr.refclk) :=
  ⟨Tests.up, by decide +kernel⟩
theorem wit_SupervisorActs_8 : ∃ s : State, ∃ (d : Nat), ∃ (u : State), ((s.boot.step != .inReset) = true) ∧ (s.pwr.refLost = false) ∧ (s.power ≤ 1) ∧ (s.saf.dueAt = some (d, false)) ∧ (s.power = 0) ∧ (d + 25 * s.get F.SAF_TIMING_GOLDEN_SPAN_MAX < s.pwr.refclk) ∧ (u = { s with saf := { s.saf with dueAt := some (d, true) } }) :=
  ⟨({ Tests.up with saf := { Tests.up.saf with dueAt := some (0, false) } } : State), 0, _, by decide +kernel, by decide +kernel, by decide +kernel, by decide +kernel, by decide +kernel, by decide +kernel, rfl⟩
theorem wit_SupervisorActs_9 : ∃ s : State, ∃ (n : Notice), ∃ (u : State), ((s.boot.step != .inReset) = true) ∧ (s.pwr.refLost = false) ∧ (s.power ≤ 1) ∧ (s.saf.notice = some n) ∧ (3 ≤ s.safety) ∧ (s.saf.noticeAt + 25000 * s.get F.SAF_TIMING_NOTICE_REPEAT ≤ s.pwr.refclk) ∧ (u = { s with saf := { s.saf with noticeAt := s.pwr.refclk } }) :=
  ⟨({ Tests.cfg Tests.up [(F.SAF_STATE_STATE, 3)] with saf := { Tests.up.saf with notice := some Tests.aNotice } } : State), Tests.aNotice, _, by decide +kernel, by decide +kernel, by decide +kernel, by decide +kernel, by decide +kernel, by decide +kernel, rfl⟩

/-! ## Witnesses: commits -/

theorem wit_CommitsStage_0 : ∃ s : State, ∃ (id : Nat), ∃ (items : List (Nat × Nat)), ∃ (ok : Bool), (s.takesCommits = true) :=
  ⟨Tests.up, 1, [(3, 4)], true, by decide +kernel⟩
theorem wit_CommitsStage_1 : ∃ s : State, ∃ (h : Nat × Nat × Nat), ∃ (id : Nat), ∃ (items : List (Nat × Nat)), ∃ (ok : Bool), ∃ (u : State), (s.takesCommits = true) ∧ (u = ({ s with boot := { s.boot with hostShadow := [], stageSeq := 0 } } : State).syncCommits) :=
  ⟨Tests.up, (0, 7, 1), 1, [(3, 4)], true, _, by decide +kernel, rfl⟩
theorem wit_CommitsStage_2 : ∃ s : State, ∃ (id : Nat), ∃ (t : Int), ∃ (items : List (Nat × Nat)), ∃ (ok : Bool), (s.takesCommits = true) :=
  ⟨Tests.up, 1, 6000000000, [(3, 4)], true, by decide +kernel⟩
theorem wit_CommitsStage_3 : ∃ s : State, ∃ (id k : Nat), (s.takesCommits = true) ∧ (s.commitsClosed = false) ∧ (s.boot.pending.findIdx? (fun p => p.id == id && p.host.isSome == false && decide (s.tim.time < p.applyAt)) = some k) :=
  ⟨({ Tests.up with boot := { Tests.up.boot with pending := [{ Tests.commit with applyAt := 6000000000 }] } } : State), 1, 0, by decide +kernel⟩
theorem wit_CommitsStage_4 : ∃ s : State, ∃ (id : Nat), (s.takesCommits = true) ∧ (s.commitsClosed = false) ∧ (s.boot.pending.findIdx? (fun p => p.id == id && p.host.isSome == false && decide (s.tim.time < p.applyAt)) = none) :=
  ⟨Tests.up, 1, by decide +kernel⟩
theorem wit_CommitsStage_5 : ∃ s : State, ∃ (c d : Commit), ∃ (r : List Commit), ∃ (u v : State), (s.takesCommits = true) ∧ (s.boot.checking = c :: r) ∧ (u = { s with boot := { s.boot with checking := r } }) ∧ (u.takesCommits = true) ∧ (d = u.placed c) ∧ (u.commitFault d = none) ∧ (v = ({ u with boot := { u.boot with pending := u.boot.pending ++ [d] } } : State).syncCommits) :=
  ⟨Tests.checkingCommit, Tests.tuneCommit, _, [], _, _, by decide +kernel, by decide +kernel, rfl, by decide +kernel, rfl, by decide +kernel, rfl⟩
theorem wit_CommitsStage_6 : ∃ s : State, ∃ (c d : Commit), ∃ (r : List Commit), ∃ (u : State), ∃ (f : Nat × Nat), (s.takesCommits = true) ∧ (s.boot.checking = c :: r) ∧ (u = { s with boot := { s.boot with checking := r } }) ∧ (u.takesCommits = true) ∧ (d = u.placed c) ∧ (u.commitFault d = some f) :=
  ⟨({ Tests.up with boot := { Tests.up.boot with checking := [Tests.commit] } } : State), Tests.commit, _, [], _, (8, 255), by decide +kernel, by decide +kernel, rfl, by decide +kernel, rfl, by decide +kernel⟩
theorem wit_CommitsStage_7 : ∃ s : State, (s.takesCommits = true) ∧ (s.commitsDue.isEmpty = false) ∧ ((s.safety == stHalted) = false) ∧ (s.pwr.refLost = false) :=
  ⟨({ Tests.up with boot := { Tests.up.boot with pending := [{ Tests.commit with applyAt := 10 }] } } : State), by decide +kernel⟩

/-! ## Witnesses: startup -/

theorem wit_ResetsTakeEffect_0 : ∃ s : State, (s.pwr.off = false) ∧ (s.boot.held = false) :=
  ⟨Tests.up, by decide +kernel⟩
theorem wit_ResetsTakeEffect_1 : ∃ s : State, (s.pwr.off = false) ∧ (s.boot.held = false) ∧ (s.boot.running = none) :=
  ⟨Tests.up, by decide +kernel⟩
theorem wit_ResetsTakeEffect_2 : ∃ s : State, (s.pwr.off = false) ∧ (s.boot.held = false) ∧ (s.boot.running = none) ∧ (s.pwr.mainEn = true) :=
  ⟨({ Tests.up with pwr := { Tests.up.pwr with mainEn := true } } : State), by decide +kernel⟩
theorem wit_ResetsTakeEffect_3 : ∃ s : State, (s.pwr.off = false) ∧ (s.boot.held = false) ∧ (s.boot.running = none) :=
  ⟨Tests.up, by decide +kernel⟩
theorem wit_ResetsTakeEffect_4 : ∃ s : State, (s.pwr.off = false) ∧ (s.boot.held = false) ∧ (s.boot.running = some rcPOWER_ON) :=
  ⟨State.reset, by decide +kernel⟩
theorem wit_StartSequenceRuns_0 : ∃ s : State, ∃ (fb : Nat), ∃ (u v w : State), (s.boot.step = .inReset) ∧ (s.boot.running = some rcPOWER_ON) ∧ (s.pwr.off = false) ∧ (s.pwr.refLost = false) ∧ (s.sec.tampered = false) ∧ (u = ({ s with sec := { s.sec with provEn := false, testEn := false }, boot := { s.boot with releasedAt := s.pwr.refclk } } : State).showFuses.startRomPlls) ∧ (u.sec.tampered = false) ∧ (v = u.deriveKeys.takeCak) ∧ (w = (v.chooseSlots fb).restoreAtPowerOn) :=
  ⟨State.reset, 0, _, _, _, by decide +kernel, by decide +kernel, by decide +kernel, by decide +kernel, by decide +kernel, rfl, by decide +kernel, rfl, rfl⟩
theorem wit_StartSequenceRuns_1 : ∃ s : State, ∃ (fb : Nat), ∃ (u v : State), (s.boot.step = .inReset) ∧ (s.boot.running = some rcWARM) ∧ (s.pwr.off = false) ∧ (s.pwr.refLost = false) ∧ (u = ({ s with sec := { s.sec with provEn := false, testEn := false }, boot := { s.boot with releasedAt := s.pwr.refclk } } : State).showFuses.startRomPlls) ∧ (u.sec.tampered = false) ∧ (v = u.takeCak) :=
  ⟨({ State.reset with boot := { State.reset.boot with running := some rcWARM } } : State), 0, _, _, by decide +kernel, by decide +kernel, by decide +kernel, by decide +kernel, rfl, by decide +kernel, rfl⟩
theorem wit_StartSequenceRuns_2 : ∃ s : State, ∃ (u v w : State), (s.boot.step = .chosen) ∧ (s.boot.bistDone = false) ∧ (s.boot.running = some rcPOWER_ON) ∧ (u = ({ s with boot := { s.boot with bistDone := true, cores := (List.range 32).foldl (fun m k => if bitSet 0 k = true then m else m + 2 ^ k) 0, lost := [] } } : State)) ∧ (v = ((u.put F.ARR_PRESENT_MASK (2 ^ 64 - 1)).fenceTiles 0 1).fenceTiles 0 2) ∧ (w = (((v.put F.NGT_FAIL_MASK 0).put F.NGT_STATUS_BANKS_OK 64).raise F.NGT_STATUS_READY).put F.BML_STATUS_FENCED 0) ∧ (w.aliveOk = true) :=
  ⟨({ State.reset with boot := { State.reset.boot with step := .chosen, running := some rcPOWER_ON } } : State), _, _, _, by decide +kernel, by decide +kernel, by decide +kernel, rfl, rfl, rfl, by decide +kernel⟩
theorem wit_StartSequenceRuns_3 : ∃ s : State, ∃ (m : Nat), ∃ (u : State), (s.boot.step = .chosen) ∧ (s.boot.ddrDone = false) ∧ (s.get F.DDR_CTRL_CH_EN ≠ 0) ∧ ((List.range 8).filter (fun c => bitSet (s.get F.DDR_CTRL_CH_EN) c && bitSet m c) = []) ∧ (u = (({ s with boot := { s.boot with ddrDone := true } } : State).put F.DDR_STATUS_TRAINED (s.get F.DDR_CTRL_CH_EN)).raise F.DDR_STATUS_INSTALLED) :=
  ⟨Tests.cfg { State.reset with boot := { State.reset.boot with step := .chosen } } [(F.DDR_CTRL_CH_EN, 3)], 0, _, by decide +kernel, by decide +kernel, by decide +kernel, by decide +kernel, rfl⟩
theorem wit_StartSequenceRuns_4 : ∃ s : State, ∃ (b : Bool), ∃ (latent slot : Nat), ∃ (r : List Nat), (s.loadReady = true) ∧ (s.boot.accepted = slot :: r) :=
  ⟨({ State.reset with boot := { State.reset.boot with step := .chosen, bistDone := true, accepted := [0] } } : State), false, 0, 0, [], by decide +kernel⟩

/-! ## Witnesses: security -/

theorem wit_RootOfTrustCounts_0 : ∃ s : State, ∃ (t : Nat), ∃ (u : State), (u = s.put F.SEC_ROLLBACK_CMD_TARGET (t % 128)) ∧ (u.on F.SEC_STATUS_IMAGE_LOADED = true) ∧ (u.sec.rollTarget = none) ∧ (u.fuseSvn < t % 128) ∧ (t % 128 ≤ u.boot.start.svn) :=
  ⟨Tests.rolling, 3, _, rfl, by decide +kernel, by decide +kernel, by decide +kernel, by decide +kernel⟩
theorem wit_RootOfTrustCounts_1 : ∃ s : State, ∃ (t : Nat), (s.sec.rollTarget = some t) ∧ (s.blowRollback.fuseSvn < t) :=
  ⟨({ Tests.rolling with sec := { Tests.rolling.sec with rollTarget := some 3 } } : State), 3, by decide +kernel⟩
theorem wit_RootOfTrustCounts_2 : ∃ s : State, ∃ (t : Nat), ∃ (u : State), (s.sec.rollTarget = some t) ∧ (u = s.blowRollback) ∧ (¬ u.fuseSvn < t) :=
  ⟨({ Tests.rolling with sec := { Tests.rolling.sec with rollTarget := some 1 } } : State), 1, _, by decide +kernel, rfl, by decide +kernel⟩
theorem wit_RootOfTrustCounts_3 : ∃ s : State, ∃ (port src reqId flags : Nat), ∃ (nonce : List Byte), ∃ (u : State), ∃ (q : QuoteReq), (s.hostListens port = true) ∧ ((s.needsMacsec port && !s.mkaLive port) = false) ∧ (s.serves false true false = true) ∧ (s.openRequests port < 16) ∧ (u = s.modInc (F.HST_RX_ACCEPTED port)) ∧ (nonce.length = 32) ∧ ((u.sec.fuses.lifecycle = 3) = False) ∧ (u.sec.tampered = false) ∧ (u.on F.SEC_STATUS_IDENTITY = true) ∧ (u.sec.signing = none) ∧ (q = { port, src, reqId, nonce, tuned := bitSet flags 0 }) :=
  ⟨(Tests.cfg Tests.up [(F.HST_CTRL_ENABLE_A, 1), (F.HST_STATUS_LINK_A, 1), (F.SEC_STATUS_IDENTITY, 1), (F.SEC_STATUS_IMAGE_LOADED, 1)]), 0, 7, 1, 1, (zeroBytes 32), _, _, by decide +kernel, by decide +kernel, by decide +kernel, by decide +kernel, rfl, by decide +kernel, by decide +kernel, by decide +kernel, by decide +kernel, by decide +kernel, rfl⟩
theorem wit_RootOfTrustCounts_4 : ∃ s : State, ∃ (port src reqId flags : Nat), ∃ (nonce : List Byte), ∃ (u : State), ∃ (x : QuoteReq × List Byte), (s.hostListens port = true) ∧ ((s.needsMacsec port && !s.mkaLive port) = false) ∧ (s.serves false true false = true) ∧ (s.openRequests port < 16) ∧ (u = s.modInc (F.HST_RX_ACCEPTED port)) ∧ (nonce.length = 32) ∧ ((u.sec.fuses.lifecycle = 3) = False) ∧ (u.sec.tampered = false) ∧ (u.on F.SEC_STATUS_IDENTITY = true) ∧ (u.sec.signing = some x) ∧ (u.sec.waiting = none) :=
  ⟨({ (Tests.cfg Tests.up [(F.HST_CTRL_ENABLE_A, 1), (F.HST_STATUS_LINK_A, 1), (F.SEC_STATUS_IDENTITY, 1), (F.SEC_STATUS_IMAGE_LOADED, 1)]) with sec := { Tests.up.sec with signing := some (Tests.quote, []) } } : State), 0, 7, 1, 1, (zeroBytes 32), _, (Tests.quote, []), by decide +kernel, by decide +kernel, by decide +kernel, by decide +kernel, rfl, by decide +kernel, by decide +kernel, by decide +kernel, by decide +kernel, by decide +kernel, by decide +kernel⟩
theorem wit_RootOfTrustCounts_5 : ∃ s : State, ∃ (q : QuoteReq), ∃ (b seed : List Byte), ∃ (u : State), (s.sec.signing = some (q, b)) ∧ (s.sec.seed = some seed) ∧ (s.sec.waiting = none) ∧ (u = ({ s with sec := { s.sec with signing := none, waiting := none } } : State).modInc F.SEC_COUNTS_QUOTES) :=
  ⟨({ Tests.up with sec := { Tests.up.sec with signing := some (Tests.quote, []), seed := some [] } } : State), Tests.quote, [], [], _, by decide +kernel, by decide +kernel, by decide +kernel, rfl⟩
theorem wit_DebugAndKeysAct_0 : ∃ s : State, ∃ (id : List Byte), (s.debugPort = true) ∧ (id = (if s.on F.SEC_STATUS_IDENTITY = true then sha256 s.devicePk else zeroBytes 32)) :=
  ⟨Tests.up, _, by decide +kernel, rfl⟩
theorem wit_DebugAndKeysAct_1 : ∃ s : State, ∃ (b c : List Byte), ∃ (t : Int), (s.debugPort = true) ∧ (s.sec.response = none) ∧ (s.sec.challenge = some (c, t)) :=
  ⟨({ Tests.up with sec := { Tests.up.sec with challenge := some ([1], 0) } } : State), [], [1], 0, by decide +kernel⟩
theorem wit_DebugAndKeysAct_2 : ∃ s : State, ∃ (r c : List Byte), ∃ (t : Int), ∃ (u v : State), (s.sec.response = some (r, c, t)) ∧ (s.sec.lockout = false) ∧ (c.isEmpty = false) ∧ (s.tim.time ≤ t + 60000000000) ∧ (sha256 (slice r 0 48) = s.sec.fuses.ownerHash) ∧ (s.sec.fuses.debugDisable = false) ∧ (u = ({ s with sec := { s.sec with response := none } } : State)) ∧ ((leAt r 48 2 &&& u.scopeAvail) = leAt r 48 2) ∧ (u.debugState = true) ∧ (s.sec.refusals = 0) ∧ (v = (u.raise F.SEC_EVENT_DEBUG_FAIL).satInc F.SEC_COUNTS_DEBUG_FAILS) ∧ ((s.sec.fuses.lifecycle != 0) = true) :=
  ⟨Tests.debugging, Tests.response, [1], 0, _, _, by decide +kernel, by decide +kernel, by decide +kernel, by decide +kernel, congrArg sha256 (by decide +kernel), by decide +kernel, rfl, by decide +kernel, by decide +kernel, by decide +kernel, rfl, by decide +kernel⟩
theorem wit_DebugAndKeysAct_3 : ∃ s : State, ∃ (r c : List Byte), ∃ (t : Int), ∃ (u v : State), (s.sec.response = some (r, c, t)) ∧ (s.sec.lockout = true) ∧ (u = ({ s with sec := { s.sec with response := none } } : State)) ∧ (v = (u.raise F.SEC_EVENT_DEBUG_FAIL).satInc F.SEC_COUNTS_DEBUG_FAILS) :=
  ⟨({ Tests.up with sec := { Tests.up.sec with response := some ([], [], 0), lockout := true } } : State), [], [], 0, _, _, by decide +kernel, by decide +kernel, rfl, rfl⟩
theorem wit_DebugAndKeysAct_4 : ∃ s : State, ∃ (cak ckn k : List Byte), ∃ (i : Nat), (s.scopeOpen 3 = true) ∧ (s.sec.kek = some k) ∧ (s.sec.fuses.caks.findIdx? (fun c => !c.valid) = some i) :=
  ⟨({ Tests.cfg Tests.up [(F.SEC_STATUS_DEBUG_SCOPES, 8)] with sec := { Tests.up.sec with kek := some [] } } : State), [1], [2], [], 0, by decide +kernel⟩
theorem wit_DebugAndKeysAct_5 : ∃ s : State, ∃ (k : Nat), (s.scopeOpen 3 = true) :=
  ⟨Tests.cfg Tests.up [(F.SEC_STATUS_DEBUG_SCOPES, 8)], 0, by decide +kernel⟩
theorem wit_DebugAndKeysAct_6 : ∃ s : State, (s.scopeOpen 4 = true) :=
  ⟨Tests.cfg Tests.up [(F.SEC_STATUS_DEBUG_SCOPES, 16)], by decide +kernel⟩
theorem wit_DebugAndKeysAct_7 : ∃ s : State, (s.scopeOpen 4 = true) :=
  ⟨Tests.cfg Tests.up [(F.SEC_STATUS_DEBUG_SCOPES, 16)], by decide +kernel⟩
theorem wit_DebugAndKeysAct_8 : ∃ s : State, ∃ (rail : Nat), ∃ (u : State), (s.watched 1 rail = true) ∧ (u = ((s.zeroise.put F.SEC_TAMPER_LAST_MONITOR 1).put F.SEC_TAMPER_LAST_RAIL rail).satInc F.SEC_TAMPER_TAMPERS) :=
  ⟨Tests.up, 2, _, by decide +kernel, rfl⟩
theorem wit_DebugAndKeysAct_9 : ∃ s : State, ∃ (p : Nat), (s.mkaRuns p = true) ∧ ((s.sec.mka.getD p {}).hello = none) :=
  ⟨Tests.mka, 0, by decide +kernel⟩
theorem wit_DebugAndKeysAct_10 : ∃ s : State, ∃ (p k : Nat), (s.mkaRuns p = true) :=
  ⟨Tests.mka, 0, 0, by decide +kernel⟩
theorem wit_DebugAndKeysAct_11 : ∃ s : State, ∃ (p k : Nat), (s.mkaRuns p = true) :=
  ⟨Tests.mka, 0, 5, by decide +kernel⟩
theorem wit_DebugAndKeysAct_12 : ∃ s : State, ∃ (p : Nat), (s.hostListens p = true) ∧ (s.needsMacsec p = true) :=
  ⟨Tests.mka, 0, by decide +kernel⟩

/-! ## Witnesses: hostport -/

theorem wit_HostReadsAnswered_0 : ∃ s : State, ∃ (port : Nat), ∃ (src reqId : Nat), ∃ (u : State), (s.hostListens port = true) ∧ ((s.needsMacsec port && !s.mkaLive port) = false) ∧ (s.openRequests port < 16) ∧ (u = s.modInc (F.HST_RX_ACCEPTED port)) ∧ (s.serves true true false = true) :=
  ⟨Tests.hostA, 0, 7, 1, _, by decide +kernel, by decide +kernel, by decide +kernel, rfl, by decide +kernel⟩
theorem wit_HostReadsAnswered_1 : ∃ s : State, ∃ (port : Nat), ∃ (src reqId : Nat), (s.hostListens port = true) ∧ ((s.needsMacsec port && !s.mkaLive port) = false) ∧ (s.openRequests port < 16) ∧ (s.serves true true false = true) :=
  ⟨Tests.hostA, 0, 7, 1, by decide +kernel⟩
theorem wit_HostReadsAnswered_2 : ∃ s : State, ∃ (port : Nat), ∃ (src reqId : Nat), (s.hostListens port = true) ∧ ((s.needsMacsec port && !s.mkaLive port) = false) ∧ (s.openRequests port < 16) ∧ (s.serves true true false = true) :=
  ⟨Tests.hostA, 0, 7, 1, by decide +kernel⟩
theorem wit_HostReadsAnswered_3 : ∃ s : State, ∃ (port : Nat), ∃ (src reqId fr n : Nat), ∃ (u v : State), ∃ (es : List LogEntry), ∃ (e : LogEntry), (s.hostListens port = true) ∧ ((s.needsMacsec port && !s.mkaLive port) = false) ∧ (s.openRequests port < 16) ∧ (u = s.modInc (F.HST_RX_ACCEPTED port)) ∧ (s.serves true true false = true) ∧ (0 < n) ∧ (n ≤ 4096) ∧ ((fr + 2 ^ 32 - (u.obs.ring.head?.map LogEntry.index).getD (u.get F.OBS_LOG_NEXT)) % 2 ^ 32 < 2 ^ 31) ∧ (es = (u.obs.ring.drop ((fr + 2 ^ 32 - (u.obs.ring.head?.map LogEntry.index).getD (u.get F.OBS_LOG_NEXT)) % 2 ^ 32)).take n) ∧ (es.getLast? = some e) ∧ (v = (u.sendFrames port txReply src (logFrames stOk reqId (fr % 2 ^ 32) ((u.obs.ring.head?.map LogEntry.index).getD (u.get F.OBS_LOG_NEXT)) es)).put F.OBS_LOG_READ_MARK (e.index + 1)) :=
  ⟨Tests.logged, 0, 7, 1, 0, 5, _, _, _, Tests.logEntry, by decide +kernel, by decide +kernel, by decide +kernel, rfl, by decide +kernel, by decide +kernel, by decide +kernel, by decide +kernel, rfl, by decide +kernel, rfl⟩
theorem wit_HostReadsAnswered_4 : ∃ s : State, ∃ (port : Nat), ∃ (src reqId cycle opt mask : Nat), ∃ (u : State), (s.hostListens port = true) ∧ ((s.needsMacsec port && !s.mkaLive port) = false) ∧ (s.openRequests port < 16) ∧ (u = s.modInc (F.HST_RX_ACCEPTED port)) ∧ (s.serves false false true = true) ∧ (bitSet opt 0 = false) ∧ ((mask % 2 ^ 256 = 0) = False) :=
  ⟨Tests.hostA, 0, 7, 1, 3, 0, 1, _, by decide +kernel, by decide +kernel, by decide +kernel, rfl, by decide +kernel, by decide +kernel, by decide +kernel⟩
theorem wit_HostReadsAnswered_5 : ∃ s : State, ∃ (port : Nat), ∃ (src reqId cycle opt mask : Nat), ∃ (i : Inst), ∃ (u v : State), (s.hostListens port = true) ∧ ((s.needsMacsec port && !s.mkaLive port) = false) ∧ (s.openRequests port < 16) ∧ (u = s.modInc (F.HST_RX_ACCEPTED port)) ∧ (s.serves false false true = true) ∧ (bitSet opt 0 = true) ∧ ((mask % 2 ^ 256 = 0) = False) ∧ (u.inst cycle = some i) ∧ (u.hst.waits.countP (fun (w : WaitRead) => w.port == port) < 4) ∧ (((u.tileOrder cycle (mask % 2 ^ 256) (bitSet opt 1)).filter (fun t => !u.tileIssued cycle t)).isEmpty = false) ∧ (v = u.sendTiles port src reqId cycle false ((u.tileOrder cycle (mask % 2 ^ 256) (bitSet opt 1)).filter (u.tileIssued cycle))) :=
  ⟨({ Tests.hostA with glz := Tests.opened.glz } : State), 0, 7, 1, 7, 1, 1, { cycle := 7, tov := 100, deadline := 200, winStart := 0, openedAt := 0 }, _, _, by decide +kernel, by decide +kernel, by decide +kernel, rfl, by decide +kernel, by decide +kernel, by decide +kernel, by decide +kernel, by decide +kernel, by decide +kernel, rfl⟩
theorem wit_HostCommandsTaken_0 : ∃ s : State, ∃ (port : Nat), ∃ (src reqId seq fl : Nat), ∃ (items : List (Nat × Nat)), ∃ (u : State), (s.hostListens port = true) ∧ ((s.needsMacsec port && !s.mkaLive port) = false) ∧ (s.openRequests port < 16) ∧ (u = s.modInc (F.HST_RX_ACCEPTED port)) ∧ (s.serves false false true = true) ∧ (bitSet fl 0 = true) ∧ (0 < items.length) ∧ (items.length ≤ 64) ∧ (seq = 0) :=
  ⟨Tests.hostA, 0, 7, 1, 0, 1, [(3, 4)], _, by decide +kernel, by decide +kernel, by decide +kernel, rfl, by decide +kernel, by decide +kernel, by decide +kernel, by decide +kernel, by decide +kernel⟩
theorem wit_HostCommandsTaken_1 : ∃ s : State, ∃ (port : Nat), ∃ (src reqId : Nat), ∃ (h : List Byte), ∃ (u : State), (s.hostListens port = true) ∧ ((s.needsMacsec port && !s.mkaLive port) = false) ∧ (s.openRequests port < 16) ∧ (u = s.modInc (F.HST_RX_ACCEPTED port)) ∧ (s.serves false false true = true) ∧ (h.length = 32) ∧ (leAt h 4 1 = 0) ∧ (u.hst.remembered.find? (fun r => r.1 == leAt h 0 4) = none) :=
  ⟨Tests.hostA, 0, 7, 1, (zeroBytes 32), _, by decide +kernel, by decide +kernel, by decide +kernel, rfl, by decide +kernel, by decide +kernel, by decide +kernel, by decide +kernel⟩
theorem wit_HostCommandsTaken_2 : ∃ s : State, ∃ (port : Nat), ∃ (src reqId : Nat), ∃ (h : List Byte), ∃ (u : State), (s.hostListens port = true) ∧ ((s.needsMacsec port && !s.mkaLive port) = false) ∧ (s.openRequests port < 16) ∧ (u = s.modInc (F.HST_RX_ACCEPTED port)) ∧ (s.serves false false true = true) ∧ (h.length = 32) ∧ (leAt h 4 1 = 2) :=
  ⟨Tests.hostA, 0, 7, 1, (zeroBytes 4 ++ [2] ++ zeroBytes 27), _, by decide +kernel, by decide +kernel, by decide +kernel, rfl, by decide +kernel, by decide +kernel, by decide +kernel⟩
theorem wit_HostCommandsTaken_3 : ∃ s : State, ∃ (port : Nat), ∃ (src reqId seq fl : Nat), ∃ (u : State), (s.hostListens port = true) ∧ ((s.needsMacsec port && !s.mkaLive port) = false) ∧ (s.openRequests port < 16) ∧ (s.serves false false false = true) ∧ (u = (s.modInc (F.HST_RX_ACCEPTED port)).takeHeartbeat port src) :=
  ⟨Tests.hostA, 0, 7, 1, 5, 1, _, by decide +kernel, by decide +kernel, by decide +kernel, by decide +kernel, rfl⟩
theorem wit_HostCommandsTaken_4 : ∃ s : State, ∃ (port : Nat), ∃ (src reqId seq n : Nat), ∃ (u : State), (s.hostListens port = true) ∧ ((s.needsMacsec port && !s.mkaLive port) = false) ∧ (s.openRequests port < 16) ∧ (s.serves false false false = true) ∧ (u = (s.modInc (F.HST_RX_ACCEPTED port)).takeHeartbeat port src) ∧ (u.linkResetOpen port true = true) ∧ (n = leAt (Config.random u.free) 0 8) :=
  ⟨Tests.mkaLive, 0, 7, 1, 5, _, _, by decide +kernel, by decide +kernel, by decide +kernel, by decide +kernel, rfl, by decide +kernel, rfl⟩
theorem wit_HostCommandsTaken_5 : ∃ s : State, ∃ (port : Nat), ∃ (src reqId seq n : Nat), ∃ (t : Int), ∃ (u : State), (s.hostListens port = true) ∧ ((s.needsMacsec port && !s.mkaLive port) = false) ∧ (s.openRequests port < 16) ∧ (s.serves false false false = true) ∧ (u = (s.modInc (F.HST_RX_ACCEPTED port)).takeHeartbeat port src) ∧ (u.linkResetOpen port true = true) ∧ (u.hst.nonce = some (port, n, t)) ∧ (u.tim.time ≤ t + 1000000000) :=
  ⟨({ Tests.mkaLive with hst := { Tests.mkaLive.hst with nonce := some (0, 9, 5000000000) } } : State), 0, 7, 1, 5, 9, 5000000000, _, by decide +kernel, by decide +kernel, by decide +kernel, by decide +kernel, rfl, by decide +kernel, by decide +kernel, by decide +kernel⟩
theorem wit_HostCommandsTaken_6 : ∃ s : State, ∃ (port : Nat), (s.hostListens port = true) ∧ ((s.needsMacsec port && !s.mkaLive port) = false) :=
  ⟨Tests.hostA, 0, by decide +kernel⟩
theorem wit_HostCommandsTaken_7 : ∃ s : State, ∃ (port : Nat), (s.hostListens port = true) ∧ ((s.needsMacsec port && !s.mkaLive port) = false) :=
  ⟨Tests.hostA, 0, by decide +kernel⟩
theorem wit_TrainsAndLinksAct_0 : ∃ s : State, ∃ (k c : Nat), ∃ (tov : Int), ∃ (off mask : Nat), ∃ (ts : List Nat), ∃ (u : State), (s.tovOf c = some tov) ∧ ((s.subsOf c)[k]? = some (true, off, mask)) ∧ (s.on (F.HST_SUB_CFG_DELIVERY k) = false) ∧ (s.hst.trains.contains (k, c) = false) ∧ (tov + (off : Int) * 1000 - 50000 ≤ s.tim.time) ∧ ((s.safety == stHalted) = false) ∧ (s.pwr.refLost = false) ∧ (ts = ((List.range 256).filter (bitSet mask)).filter (s.tileIssued c)) ∧ (ts.filter (s.storeHolds c) = ts) ∧ (u = (s.subPorts k).foldl (fun u p => u.queueLaunch p { time := tov + (off : Int) * 1000, dropLate := s.on (F.HST_SUB_CFG_LATE k), train := some (k, c), frames := (ts.flatMap (fun t => s.tileFrames flUnsolicited 0 c t false)).map (fun b => (s.get (F.HST_SUB_MAC_MAC k), b)) }) s) :=
  ⟨Tests.trainReady, 0, 7, 100, 0, 1, _, _, by decide +kernel, by decide +kernel, by decide +kernel, by decide +kernel, by decide +kernel, by decide +kernel, by decide +kernel, rfl, by decide +kernel, rfl⟩
theorem wit_TrainsAndLinksAct_1 : ∃ s : State, ∃ (p : Nat), ∃ (left : Bool), ∃ (q : TxPort), ∃ (u v : State), ∃ (owes : Bool), (p < 2) ∧ (q = (if left then { s.txPort p with cur := none } else s.txPort p)) ∧ (s.on (portFld p F.HST_STATUS_LINK_A F.HST_STATUS_LINK_B) = true) ∧ (owes = (q.cur.toList ++ q.queue).any (fun x => x.cls == txNotice)) ∧ (u = ((s.put (portFld p F.HST_STATUS_LINK_A F.HST_STATUS_LINK_B) 0).raise F.HST_EVENT_LINK_DOWN).updTx p (fun q => { q with queue := [], cur := none, busy := 0 })) ∧ (v = { u with
        hst := { u.hst with waits := u.hst.waits.filter (fun (w : WaitRead) => w.port != p) }
        saf := { u.saf with owed := if p = 0 then (u.saf.owed.1 || owes, u.saf.owed.2) else (u.saf.owed.1, u.saf.owed.2 || owes) } }) :=
  ⟨Tests.hostA, 0, false, _, _, _, _, by decide +kernel, rfl, by decide +kernel, rfl, rfl, rfl⟩
theorem wit_TrainsAndLinksAct_2 : ∃ s : State, ∃ (p : Nat), (p < 2) ∧ (s.pwr.refLost = false) ∧ ((s.boot.step = .inReset) = False) ∧ (s.power ≤ 1) ∧ (s.saf.notice = none) :=
  ⟨Tests.up, 0, by decide +kernel⟩

/-! ## Witnesses: power -/

theorem wit_SleepAndWake_0 : ∃ s : State, ∃ (p : Nat), (p < 2) ∧ (s.on (tc10En p) = true) ∧ (s.portUp p = true) ∧ (s.lowPower = true) :=
  ⟨({ Tests.cfg Tests.hostA [(F.HST_CTRL_TC10_EN_A, 1)] with pwr := { Tests.up.pwr with goingTo := some 2 } } : State), 0, by decide +kernel⟩
theorem wit_SleepAndWake_1 : ∃ s : State, ∃ (p : Nat), ∃ (t : Int), (p < 2) ∧ (s.hst.sleepReq.getD p none = some t) :=
  ⟨({ Tests.up with hst := { Tests.up.hst with sleepReq := [some 5] } } : State), 0, 5, by decide +kernel⟩
theorem wit_SleepAndWake_2 : ∃ s : State, ∃ (p : Nat), ∃ (t : Int), (s.hst.sleepReq.getD p none = some t) ∧ (t + 16000000 ≤ s.tim.time) :=
  ⟨({ Tests.up with hst := { Tests.up.hst with sleepReq := [some 5] } } : State), 0, 5, by decide +kernel⟩
theorem wit_SleepAndWake_3 : ∃ s : State, ∃ (p : Nat), (s.pwr.off = false) ∧ (s.pwr.refLost = false) ∧ (s.pwr.wakeSrc = none) ∧ (p < 2) ∧ (s.on (tc10En p) = true) ∧ ((s.power = 2) = True) :=
  ⟨Tests.cfg Tests.dozing [(F.HST_CTRL_TC10_EN_A, 1)], 0, by decide +kernel⟩
theorem wit_SleepAndWake_4 : ∃ s : State, ∃ (p : Nat), (s.pwr.off = false) ∧ (s.pwr.refLost = false) ∧ (s.pwr.wakeSrc = none) ∧ (p < 2) ∧ (s.on (tc10En p) = false) ∧ ((s.power = 2) = True) :=
  ⟨Tests.cfg Tests.dozing [(F.HST_CTRL_TC10_EN_A, 0)], 0, by decide +kernel⟩
theorem wit_SleepAndWake_5 : ∃ s : State, (s.pwr.off = false) ∧ (s.pwr.refLost = false) ∧ (s.pwr.wakeSrc = none) ∧ (s.on F.PWR_CTRL_WAKE_PIN_EN = true) ∧ ((s.power = 2) = True) :=
  ⟨Tests.cfg Tests.dozing [(F.PWR_CTRL_WAKE_PIN_EN, 1)], by decide +kernel⟩
theorem wit_SleepAndWake_6 : ∃ s : State, (s.pwr.off = false) ∧ (s.pwr.refLost = false) ∧ (s.pwr.wakeSrc = none) ∧ (s.on F.PWR_CTRL_WAKE_ALARM_EN = true) ∧ ((s.get F.PWR_WAKE_TIME_TIME : Int) ≤ s.tim.time) ∧ ((s.power = 2) = True) :=
  ⟨Tests.cfg Tests.dozing [(F.PWR_CTRL_WAKE_ALARM_EN, 1)], by decide +kernel⟩
theorem wit_SleepAndWake_7 : ∃ s : State, ∃ (bad : List Nat), ∃ (u : State), (s.on F.PWR_STATUS_TRANSITION = true) ∧ (s.power = 1) ∧ (s.pwr.refLost = false) ∧ (u = (s.saveErrors bad).saveState.restInDoze) ∧ (u.pwr.wakeSrc = none) :=
  ⟨Tests.dozeEntry, [], _, by decide +kernel, by decide +kernel, by decide +kernel, rfl, Tests.dozeEntry_wake⟩
theorem wit_SleepAndWake_8 : ∃ s : State, ∃ (bad : List Nat), ∃ (src : Nat), ∃ (u v : State), (s.pwr.wakeSrc = some src) ∧ (s.power = 2) ∧ (s.pwr.refLost = false) ∧ (s.get F.CLK_STATUS_READY = s.pwr.dozeEn) ∧ (u = (((s.restoreState.saveErrors bad).put F.DDR_STATUS_SELF_REFRESH 0).put F.HST_STATUS_ASLEEP_A 0).put F.HST_STATUS_ASLEEP_B 0) ∧ (v = { u with hst := { u.hst with sleepReq := [none, none] } }) :=
  ⟨({ Tests.dozing with pwr := { Tests.dozing.pwr with wakeSrc := some 3 } } : State), [], 3, _, _, by decide +kernel, by decide +kernel, by decide +kernel, by decide +kernel, rfl, rfl⟩
theorem wit_SleepAndWake_9 : ∃ s : State, ∃ (u : State), (s.power = 3) ∧ (s.pwr.mainEn = true) ∧ (s.pwr.refLost = false) ∧ (s.pwr.off = false) ∧ (u = s.standbyTicks s.obs.standbyIv s.obs.standbyIv) :=
  ⟨({ Tests.cfg Tests.up [(F.PWR_STATUS_STATE, 3)] with pwr := { Tests.up.pwr with mainEn := true } } : State), _, by decide +kernel, by decide +kernel, by decide +kernel, by decide +kernel, rfl⟩
theorem wit_ClocksAct_0 : ∃ s : State, ∃ (p t : Nat), ∃ (u v : State), (s.pwr.pllStart.getD p none = some t) ∧ (t + 8192 ≤ s.pwr.refclk) ∧ (s.pwr.refLost = false) ∧ (u = s.put F.CLK_STATUS_READY (setBit (s.get F.CLK_STATUS_READY) p)) ∧ (v = { u with pwr := { u.pwr with pllStart := modifyAt (fun _ => none) p u.pwr.pllStart } }) ∧ (v.boot.step = .up) ∧ (v.on F.PWR_STATUS_TRANSITION = false) :=
  ⟨({ Tests.up with pwr := { Tests.up.pwr with pllStart := [some 5] } } : State), 0, 5, _, _, by decide +kernel, by decide +kernel, by decide +kernel, rfl, rfl, by decide +kernel, by decide +kernel⟩
theorem wit_ClocksAct_1 : ∃ s : State, ∃ (v : Nat), (s.boot.locked = false) :=
  ⟨State.reset, 0x101, by decide +kernel⟩
theorem wit_ClocksAct_2 : ∃ s : State, (s.pwr.off = false) :=
  ⟨Tests.up, by decide +kernel⟩
theorem wit_ClocksAct_3 : ∃ s : State, ∃ (us : Nat), ∃ (u : State), (s.pwr.refLost = true) ∧ (u = { s with pwr := { s.pwr with refLost := false } }) :=
  ⟨({ Tests.up with pwr := { Tests.up.pwr with refLost := true } } : State), 7, _, by decide +kernel, rfl⟩
theorem wit_ClocksAct_4 : ∃ s : State, (s.boot.step = .up) ∧ (s.power ≤ 1) ∧ (s.pwr.refLost = false) ∧ (s.pwr.vidAt + 250000 ≤ s.pwr.refclk) :=
  ⟨Tests.up, by decide +kernel⟩
theorem wit_ClocksAct_5 : ∃ s : State, (s.boot.step = .up) ∧ (s.power ≤ 1) ∧ (s.pwr.refLost = false) ∧ (s.pwr.vidAt + 250000 ≤ s.pwr.refclk) :=
  ⟨Tests.up, by decide +kernel⟩
theorem wit_RecordsKept_0 : ∃ s : State, (s.pwr.refLost = false) ∧ (s.pwr.off = false) :=
  ⟨Tests.up, by decide +kernel⟩
theorem wit_RecordsKept_1 : ∃ s : State, ∃ (t d f : Nat), ∃ (u : State), (s.pwr.refLost = false) ∧ (s.pwr.off = false) ∧ ((s.power = 3) = False) ∧ (u = ((s.lifeTick 4 1).lifeTick (16 + 4 * (t % 16)) 1).lifeTick (80 + 4 * (d % 16)) 1) :=
  ⟨Tests.up, 3, 2, 0, _, by decide +kernel, by decide +kernel, by decide +kernel, rfl⟩
theorem wit_RecordsKept_2 : ∃ s : State, ∃ (t d f : Nat), (s.pwr.refLost = false) ∧ (s.pwr.off = false) ∧ ((s.power = 3) = True) :=
  ⟨Tests.cfg Tests.up [(F.PWR_STATUS_STATE, 3)], 3, 2, 0, by decide +kernel⟩
theorem wit_RecordsKept_3 : ∃ s : State, ∃ (k r : Nat), ∃ (u : State), (s.pwr.refLost = false) ∧ (s.pwr.off = false) ∧ (s.obs.erasing = some k) ∧ (s.obs.logRing = some r) ∧ (u = (s.flashErase (r + k * 65536)).put F.OBS_RING_ERASING 0) :=
  ⟨({ Tests.up with obs := { Tests.up.obs with erasing := some 1, logRing := some 0 } } : State), 1, 0, _, by decide +kernel, by decide +kernel, by decide +kernel, by decide +kernel, rfl⟩

/-! ## Witnesses: frames -/

theorem wit_TimeCommandsFrame_0 : ∃ s : State, ∃ (t : State), (exec .timNowLowRead s = .next t) :=
  ⟨Tests.up, (Tests.after (.timNowLowRead) Tests.up), rfl⟩
theorem wit_TimeCommandsFrame_1 : ∃ s : State, ∃ (p : Nat), ∃ (t : State), (exec (.signaling p) s = .next t) :=
  ⟨Tests.up, 0, (Tests.after (.signaling 0) Tests.up), rfl⟩
theorem wit_TimeCommandsFrame_2 : ∃ s : State, ∃ (p : Nat), ∃ (b : Bool), ∃ (t : State), (exec (.sensorPtpRx p b) s = .next t) :=
  ⟨Tests.up, 0, true, (Tests.after (.sensorPtpRx 0 true) Tests.up), rfl⟩
theorem wit_TimeCommandsFrame_3 : ∃ s : State, ∃ (t : State), (exec .slewComplete s = .next t) :=
  ⟨Tests.up, (Tests.after (.slewComplete) Tests.up), rfl⟩
theorem wit_TimeCommandsFrame_4 : ∃ s : State, ∃ (t : State), (exec .holdoverLimit s = .next t) :=
  ⟨Tests.up, (Tests.after (.holdoverLimit) Tests.up), rfl⟩
theorem wit_TimeCommandsFrame_5 : ∃ s : State, ∃ (p : Nat), ∃ (t : State), (exec (.sensorAnnounceTx p) s = .next t) :=
  ⟨Tests.up, 0, (Tests.after (.sensorAnnounceTx 0) Tests.up), rfl⟩
theorem wit_TimeCommandsFrame_6 : ∃ s : State, ∃ (p : Nat), ∃ (t : State), (exec (.sensorSyncTx p) s = .next t) :=
  ⟨Tests.up, 0, (Tests.after (.sensorSyncTx 0) Tests.up), rfl⟩
theorem wit_TimeCommandsFrame_7 : ∃ s : State, ∃ (p : Nat), ∃ (t : State), (exec (.sensorPdelayTx p) s = .next t) :=
  ⟨Tests.up, 0, (Tests.after (.sensorPdelayTx 0) Tests.up), rfl⟩
theorem wit_TimeCommandsFrame_8 : ∃ s : State, ∃ (p : Nat), ∃ (t : State), (exec (.hostPdelayTx p) s = .next t) :=
  ⟨Tests.up, 0, (Tests.after (.hostPdelayTx 0) Tests.up), rfl⟩
theorem wit_TimeCommandsFrame_9 : ∃ s : State, ∃ (p dst : Nat), ∃ (ti : Int), ∃ (dl : Bool), ∃ (pl : List Byte), ∃ (t : State), (exec (.launchRequest p ti dl dst pl) s = .next t) :=
  ⟨Tests.up, 0, 0, 0, true, [], (Tests.after (.launchRequest 0 0 true 0 []) Tests.up), rfl⟩
theorem wit_TimeCommandsFrame_10 : ∃ s : State, ∃ (o : Nat), ∃ (t : State), (exec (.triggerEdge o) s = .next t) :=
  ⟨Tests.up, 0, (Tests.after (.triggerEdge 0) Tests.up), rfl⟩
theorem wit_TimeCommandsFrame_11 : ∃ s : State, ∃ (o : Nat), ∃ (t : State), (exec (.triggerPulseEnd o) s = .next t) :=
  ⟨Tests.up, 0, (Tests.after (.triggerPulseEnd 0) Tests.up), rfl⟩
theorem wit_SecurityCommandsFrame_0 : ∃ s : State, ∃ (k : Nat), ∃ (t : State), (exec (.rollbackAdvance k) s = .next t) :=
  ⟨Tests.up, 0, (Tests.after (.rollbackAdvance 0) Tests.up), rfl⟩
theorem wit_SecurityCommandsFrame_1 : ∃ s : State, ∃ (t : State), (exec .rollbackFuseBlown s = .next t) :=
  ⟨Tests.up, (Tests.after (.rollbackFuseBlown) Tests.up), rfl⟩
theorem wit_SecurityCommandsFrame_2 : ∃ s : State, ∃ (t : State), (exec .challengeRead s = .next t) :=
  ⟨Tests.up, (Tests.after (.challengeRead) Tests.up), rfl⟩
theorem wit_SecurityCommandsFrame_3 : ∃ s : State, ∃ (b : List Byte), ∃ (t : State), (exec (.responseWrite b) s = .next t) :=
  ⟨Tests.up, [], (Tests.after (.responseWrite []) Tests.up), rfl⟩
theorem wit_SecurityCommandsFrame_4 : ∃ s : State, ∃ (t : State), (exec .debugVerifyDone s = .next t) :=
  ⟨Tests.up, (Tests.after (.debugVerifyDone) Tests.up), rfl⟩
theorem wit_SecurityCommandsFrame_5 : ∃ s : State, ∃ (k n : List Byte), ∃ (t : State), (exec (.keyProvWrite k n) s = .next t) :=
  ⟨Tests.up, [], [], (Tests.after (.keyProvWrite [] []) Tests.up), rfl⟩
theorem wit_SecurityCommandsFrame_6 : ∃ s : State, ∃ (k : Nat), ∃ (t : State), (exec (.cakRevoke k) s = .next t) :=
  ⟨Tests.up, 0, (Tests.after (.cakRevoke 0) Tests.up), rfl⟩
theorem wit_SecurityCommandsFrame_7 : ∃ s : State, ∃ (t : State), (exec .decommission s = .next t) :=
  ⟨Tests.up, (Tests.after (.decommission) Tests.up), rfl⟩
theorem wit_SecurityCommandsFrame_8 : ∃ s : State, ∃ (t : State), (exec .debugDisableBlow s = .next t) :=
  ⟨Tests.up, (Tests.after (.debugDisableBlow) Tests.up), rfl⟩
theorem wit_SecurityCommandsFrame_9 : ∃ s : State, ∃ (p : Nat), ∃ (t : State), (exec (.mkaHello p) s = .next t) :=
  ⟨Tests.up, 0, (Tests.after (.mkaHello 0) Tests.up), rfl⟩
theorem wit_SecurityCommandsFrame_10 : ∃ s : State, ∃ (p k n : Nat), ∃ (t : State), (exec (.mkpdu p k n) s = .next t) :=
  ⟨Tests.up, 0, 0, 0, (Tests.after (.mkpdu 0 0 0) Tests.up), rfl⟩
theorem wit_SecurityCommandsFrame_11 : ∃ s : State, ∃ (p : Nat), ∃ (t : State), (exec (.macsecDrop p) s = .next t) :=
  ⟨Tests.up, 0, (Tests.after (.macsecDrop 0) Tests.up), rfl⟩
theorem wit_StagingCommandsFrame_0 : ∃ s : State, ∃ (h : Option (Nat × Nat × Nat)), ∃ (k : Nat), ∃ (l : List (Nat × Nat)), ∃ (ok : Bool), ∃ (t : State), (exec (.commitNextBoundary h k l ok) s = .next t) :=
  ⟨Tests.up, none, 0, [], true, (Tests.after (.commitNextBoundary none 0 [] true) Tests.up), rfl⟩
theorem wit_StagingCommandsFrame_1 : ∃ s : State, ∃ (h : Option (Nat × Nat × Nat)), ∃ (k : Nat), ∃ (ti : Int), ∃ (l : List (Nat × Nat)), ∃ (ok : Bool), ∃ (t : State), (exec (.commitAtTime h k ti l ok) s = .next t) :=
  ⟨Tests.up, none, 0, 0, [], true, (Tests.after (.commitAtTime none 0 0 [] true) Tests.up), rfl⟩
theorem wit_StagingCommandsFrame_2 : ∃ s : State, ∃ (p : Nat), ∃ (t : State), (exec (.tc10SleepRequest p) s = .next t) :=
  ⟨Tests.up, 0, (Tests.after (.tc10SleepRequest 0) Tests.up), rfl⟩
theorem wit_StagingCommandsFrame_3 : ∃ s : State, ∃ (p : Nat), ∃ (t : State), (exec (.tc10SleepAck p) s = .next t) :=
  ⟨Tests.up, 0, (Tests.after (.tc10SleepAck 0) Tests.up), rfl⟩
theorem wit_StagingCommandsFrame_4 : ∃ s : State, ∃ (p : Nat), ∃ (t : State), (exec (.tc10SleepTimeout p) s = .next t) :=
  ⟨Tests.up, 0, (Tests.after (.tc10SleepTimeout 0) Tests.up), rfl⟩
theorem wit_StagingCommandsFrame_5 : ∃ s : State, ∃ (t : State), (exec .refclkLoss s = .next t) :=
  ⟨Tests.up, (Tests.after (.refclkLoss) Tests.up), rfl⟩
theorem wit_StagingCommandsFrame_6 : ∃ s : State, ∃ (b : Bool), ∃ (t : State), (exec (.vidStep b) s = .next t) :=
  ⟨Tests.up, true, (Tests.after (.vidStep true) Tests.up), rfl⟩
theorem wit_StagingCommandsFrame_7 : ∃ s : State, ∃ (t : State), (exec .watchdogService s = .next t) :=
  ⟨Tests.up, (Tests.after (.watchdogService) Tests.up), rfl⟩
theorem wit_StagingCommandsFrame_8 : ∃ s : State, ∃ (t : State), (exec .wakeN s = .next t) :=
  ⟨Tests.up, (Tests.after (.wakeN) Tests.up), rfl⟩

end Sys2Proof
end

section
/-! Proofs: register accesses that are discarded (R9). A read or a write that meets no register, or the window of a gated
block, answers 0 and changes nothing. -/

namespace Sys2Proof.Machine

/-! ## Which addresses act when written -/

/-- The registers whose write does more than `State.writeReg` does: the branches of `State.writeWindow`. -/
def actingAddrs : List Nat :=
  [F.CLK_SRC_SEL.addr, F.SLV_BA_CMD_START.addr, F.RST_CTRL_WARM.addr, F.SEC_ROLLBACK_CMD_ADVANCE.addr]

theorem State.writeWindow_of_not_acting {s : State} {addr value : Nat} {half : Bool} (h : addr / 8 * 8 ∉ actingAddrs) :
    s.writeWindow addr value half = if s.windowLive (addr / 8 * 8) then s.writeReg addr value half else s := by
  simp only [actingAddrs, List.mem_cons, List.not_mem_nil, or_false, not_or] at h
  obtain ⟨hclk, hba, hrst, hsec⟩ := h
  cases hlive : s.windowLive (addr / 8 * 8) <;> simp [State.writeWindow, hlive, hclk, hba, hrst, hsec]

theorem regRow_isSome_of_acting : ∀ b ∈ actingAddrs, (regRow b).isSome = true := by
  decide

/-- So no undefined offset is taken for a register that acts when written. -/
theorem not_acting_of_regRow_eq_none {b : Nat} (h : regRow b = none) : b ∉ actingAddrs := fun hb => by
  simpa [h] using regRow_isSome_of_acting b hb

/-! ## Undefined offsets -/

theorem State.readReg_of_regRow_eq_none {s : State} {addr : Nat} (h : regRow (addr / 8 * 8) = none) :
    s.readReg addr = 0 := by
  cases hw : windowOf (addr / 8 * 8) <;> simp [State.readReg, hw, h]

theorem State.writeReg_of_regRow_eq_none {s : State} {addr value : Nat} {half : Bool}
    (h : regRow (addr / 8 * 8) = none) : s.writeReg addr value half = s := by
  cases hw : windowOf (addr / 8 * 8) <;> simp [State.writeReg, hw, h]

theorem State.writeWindow_of_regRow_eq_none {s : State} {addr value : Nat} {half : Bool}
    (h : regRow (addr / 8 * 8) = none) : s.writeWindow addr value half = s := by
  rw [State.writeWindow_of_not_acting (not_acting_of_regRow_eq_none h), State.writeReg_of_regRow_eq_none h, ite_self]

/-! ## Gated windows -/

theorem State.windowLive_of_windowOf {s : State} {a w : Nat} (hw : windowOf a = some w) :
    s.windowLive a = !s.gated w := by
  simp [State.windowLive, hw]

theorem State.readReg_of_gated {s : State} {addr w : Nat} (hw : windowOf (addr / 8 * 8) = some w)
    (hg : s.gated w = true) : s.readReg addr = 0 := by
  cases hr : regRow (addr / 8 * 8) <;> simp [State.readReg, hw, hr, hg]

theorem State.writeWindow_of_gated {s : State} {addr value w : Nat} {half : Bool}
    (hw : windowOf (addr / 8 * 8) = some w) (hg : s.gated w = true) : s.writeWindow addr value half = s := by
  simp [State.writeWindow, State.windowLive_of_windowOf hw, hg]

/-! ## The command -/

theorem exec_registerWrite (addr value : Nat) (half : Bool) (s : State) :
    exec (.registerWrite addr value half) s = .next (if s.reachable then s.writeWindow addr value half else s) := rfl

theorem exec_registerWrite_of_writeWindow_eq_self {s : State} {addr value : Nat} {half : Bool}
    (h : s.writeWindow addr value half = s) : exec (.registerWrite addr value half) s = .next s := by
  rw [exec_registerWrite, h, ite_self]

/-- Settles O8: at an undefined offset no register is met, and no register that acts when written; in the window of a
gated block the access ends before any register is looked at. -/
theorem writesDiscarded : Obligations.WritesDiscarded := by
  rintro s a v w half hw (hundef | hgated)
  · exact ⟨State.readReg_of_regRow_eq_none hundef,
      exec_registerWrite_of_writeWindow_eq_self (State.writeWindow_of_regRow_eq_none hundef)⟩
  · exact ⟨State.readReg_of_gated hw hgated,
      exec_registerWrite_of_writeWindow_eq_self (State.writeWindow_of_gated hw hgated)⟩

end Sys2Proof.Machine
end

section
/-! When the next entry of a unit can fire, and the credit that a run-ahead entry leaves (R157, R158). -/

namespace Sys2Proof.Machine

/-- What R157 and R158 ask of the next entry `e` of a unit: it exists, its run may do work, its inputs are there, every
output edge has the credits of its run's class, and the unit's own conditions hold. -/
theorem State.ready_iff {s : State} {unit : Nat} {run : RunId} {e : ListEntry}
    (he : e = s.entryOf run.graph unit (s.tgs.firedCount unit run)) :
    s.ready unit run = true ↔
      s.tgs.firedCount unit run < (s.unitDir run.graph unit).2 ∧ (run.golden || s.mayRun run.cycle) = true ∧
      (e.ok = true → ∀ x ∈ e.ins, (s.tgs.input run x).isSome = true) ∧
      (∀ x ∈ e.outs, (if s.runsAhead run then 2 else 1) ≤ s.creditsLeft x) ∧ s.unitAllows unit run e = true := by
  subst he
  rw [State.ready]
  simp only [Bool.and_eq_true, decide_eq_true_eq, List.all_eq_true, Bool.or_eq_true (!_), Bool.not_eq_true',
    ← Bool.not_eq_true, ← imp_iff_not_or, and_assoc]

/-- R158 for run-ahead: a ready entry meets two credits on each output edge. -/
theorem State.two_le_creditsLeft_of_ready {s : State} {unit : Nat} {run : RunId} {e : ListEntry}
    (he : e = s.entryOf run.graph unit (s.tgs.firedCount unit run)) (hahead : s.runsAhead run = true)
    (hready : s.ready unit run = true) {x : Nat} (hx : x ∈ e.outs) : 2 ≤ s.creditsLeft x := by
  obtain ⟨-, -, -, hcredits, -⟩ := (State.ready_iff he).mp hready
  simpa only [hahead, if_true] using hcredits x hx

/-- Settles O5: a ready run-ahead entry meets two credits on each output edge, so one remains after it takes one; for the
head and for golden work the credits that `ready` asks for are one on each edge. -/
theorem runAheadLeavesACredit : Obligations.RunAheadLeavesACredit := by
  intro s unit run e he
  constructor
  · intro hahead hready x hx
    exact Nat.le_sub_one_of_lt (State.two_le_creditsLeft_of_ready he hahead hready hx)
  · intro hhead hmay hnext _ hins houts hunit
    refine (State.ready_iff he).mpr ⟨hnext, hmay, fun _ => hins, fun x hx => ?_, hunit⟩
    simpa [hhead] using houts x hx

end Sys2Proof.Machine
end

section
/-! PLLs and the sources of the clock domains (R344, R345): the bits of the masks, what enabling and disabling a PLL does to
its count and its READY bit, and that device time stays out of it. -/

namespace Sys2Proof.Machine

/-! ## Single bits of a number -/

theorem bitSet_eq_testBit {n i : Nat} : bitSet n i = n.testBit i := by
  rw [bitSet, Nat.testBit_eq_decide_div_mod_eq, beq_eq_decide]

theorem bitSet_of_lt_two_pow {n i : Nat} (h : n < 2 ^ i) : bitSet n i = false := by
  rw [bitSet_eq_testBit, Nat.testBit_lt_two_pow h]

theorem bitSet_mod_two_pow {n i w : Nat} (hi : i < w) : bitSet (n % 2 ^ w) i = bitSet n i := by
  simp [bitSet_eq_testBit, Nat.testBit_mod_two_pow, hi]

theorem bitSet_bitsAt {n lo w i : Nat} (hi : i < w) : bitSet (bitsAt n lo w) i = bitSet n (lo + i) := by
  simp [bitSet_eq_testBit, bitsAt_testBit, hi]

theorem bitSet_add_two_pow_same {n i : Nat} : bitSet (n + 2 ^ i) i = !bitSet n i := by
  simp only [bitSet_eq_testBit, Nat.add_comm n, Nat.testBit_two_pow_add_eq]

theorem bitSet_add_two_pow_of_lt {n i j : Nat} (hj : j < i) : bitSet (n + 2 ^ i) j = bitSet n j := by
  simp only [bitSet_eq_testBit, Nat.add_comm n, Nat.testBit_two_pow_add_gt hj]

theorem bitSet_setBit_same {n i : Nat} : bitSet (setBit n i) i = true := by
  cases h : bitSet n i <;> simp [setBit, h, bitSet_add_two_pow_same]

/-- A set bit is what `clearBit` takes away. -/
theorem sub_add_two_pow_of_bitSet {n i : Nat} (h : bitSet n i = true) : n - 2 ^ i + 2 ^ i = n := by
  refine Nat.sub_add_cancel (Nat.le_of_not_lt fun hlt => ?_)
  simp [bitSet_of_lt_two_pow hlt] at h

theorem bitSet_clearBit_same {n i : Nat} : bitSet (clearBit n i) i = false := by
  cases h : bitSet n i
  · simp [clearBit, h]
  · have hadd := bitSet_add_two_pow_same (n := n - 2 ^ i) (i := i)
    rw [sub_add_two_pow_of_bitSet h, h] at hadd
    simpa [clearBit, h] using hadd

theorem bitSet_clearBit_of_lt {n i j : Nat} (hj : j < i) : bitSet (clearBit n i) j = bitSet n j := by
  cases h : bitSet n i
  · simp [clearBit, h]
  · have hadd := bitSet_add_two_pow_of_lt (n := n - 2 ^ i) hj
    rw [sub_add_two_pow_of_bitSet h] at hadd
    simpa [clearBit, h] using hadd.symm

/-! ## The masks of the PLLs: the bits that a write leaves at 0, and the bits that a stop clears -/

/-- The bits below `n` that are 0 in `en`: with `n = 4`, the PLLs that `State.setSources` stops. -/
def zeroBits (en n : Nat) : Nat := (List.range n).foldl (fun m k => if bitSet en k then m else m + 2 ^ k) 0

/-- `x` with the bits of `mask` below `n` cleared: with `n = 4`, what `State.stopPlls` does to its two fields. -/
def clearBits (mask n x : Nat) : Nat := (List.range n).foldl (fun m k => if bitSet mask k then clearBit m k else m) x

theorem zeroBits_succ {en n : Nat} :
    zeroBits en (n + 1) = if bitSet en n then zeroBits en n else zeroBits en n + 2 ^ n := by
  simp [zeroBits, List.range_succ]

theorem clearBits_succ {mask n x : Nat} :
    clearBits mask (n + 1) x = if bitSet mask n then clearBit (clearBits mask n x) n else clearBits mask n x := by
  simp [clearBits, List.range_succ]

theorem zeroBits_lt {en n : Nat} : zeroBits en n < 2 ^ n := by
  induction n with
  | zero => simp [zeroBits]
  | succ n ih => rw [zeroBits_succ]; split <;> omega

theorem bitSet_zeroBits {en n p : Nat} (hp : p < n) : bitSet (zeroBits en n) p = !bitSet en p := by
  induction n with
  | zero => exact absurd hp (Nat.not_lt_zero p)
  | succ n ih =>
    rw [zeroBits_succ]
    rcases Nat.lt_succ_iff_lt_or_eq.mp hp with hlt | rfl
    · split
      · exact ih hlt
      · rw [bitSet_add_two_pow_of_lt hlt, ih hlt]
    · have hnew : bitSet (zeroBits en p) p = false := bitSet_of_lt_two_pow zeroBits_lt
      cases h : bitSet en p <;> simp [hnew, bitSet_add_two_pow_same]

theorem bitSet_clearBits {mask n x p : Nat} (hp : p < n) (hmask : bitSet mask p = true) :
    bitSet (clearBits mask n x) p = false := by
  induction n with
  | zero => exact absurd hp (Nat.not_lt_zero p)
  | succ n ih =>
    rw [clearBits_succ]
    rcases Nat.lt_succ_iff_lt_or_eq.mp hp with hlt | rfl
    · split
      · rw [bitSet_clearBit_of_lt hlt, ih hlt]
      · exact ih hlt
    · rw [if_pos hmask, bitSet_clearBit_same]

/-! ## Starting and stopping PLLs (R344), and selecting sources (R345) -/

section
variable {s : State} {en mask sel p : Nat}

@[simp] theorem State.tim_startPlls : (s.startPlls mask).tim = s.tim := rfl
@[simp] theorem State.tim_stopPlls : (s.stopPlls mask).tim = s.tim := rfl
@[simp] theorem State.tim_selectSources : (s.selectSources sel).tim = s.tim := rfl
@[simp] theorem State.pwr_selectSources : (s.selectSources sel).pwr = s.pwr := rfl

@[simp] theorem State.get_selectSources_ready :
    (s.selectSources sel).get F.CLK_STATUS_READY = s.get F.CLK_STATUS_READY := by
  rw [State.selectSources, State.get_put_ne rfl, State.get_put_ne rfl]

/-- The count of a PLL starts at its enable, and a PLL already enabled keeps the count it has. -/
theorem State.pllStart_startPlls (hp : p < 4) : (s.startPlls mask).pwr.pllStart.getD p none =
    if bitSet mask p && !bitSet (s.get F.CLK_SRC_PLL_EN) p then some s.pwr.refclk else s.pwr.pllStart.getD p none := by
  simp [State.startPlls, List.getD_eq_getElem?_getD, hp]

/-- A stopped PLL has no count. -/
theorem State.pllStart_stopPlls (hp : p < 4) : (s.stopPlls mask).pwr.pllStart.getD p none =
    if bitSet mask p then none else s.pwr.pllStart.getD p none := by
  simp [State.stopPlls, List.getD_eq_getElem?_getD, hp]

/-- A stopped PLL is not READY. -/
theorem State.not_ready_stopPlls (hp : p < 4) (hmask : bitSet mask p = true) :
    bitSet ((s.stopPlls mask).get F.CLK_STATUS_READY) p = false := by
  have hready : (s.stopPlls mask).get F.CLK_STATUS_READY = clearBits mask 4 (s.get F.CLK_STATUS_READY) % 2 ^ 4 :=
    State.get_put_same rfl
  rw [hready, bitSet_mod_two_pow hp, bitSet_clearBits hp hmask]

/-! ## A write to CLK_SRC (R345) -/

theorem State.setSources_of_accepted (hready : ∀ k < 4, bitSet sel k = true → bitSet (s.get F.CLK_STATUS_READY) k = true)
    (hactive : ∀ k < 4, bitSet (s.get F.CLK_STATUS_ACTIVE) k = true → bitSet en k = true) :
    s.setSources en sel = ((s.startPlls en).stopPlls (zeroBits en 4)).selectSources sel := by
  have hearly : (List.range 4).any (fun k => bitSet sel k && !bitSet (s.get F.CLK_STATUS_READY) k) = false := by
    simpa [List.any_eq_false] using hready
  have hinUse : (List.range 4).any (fun k => bitSet (s.get F.CLK_STATUS_ACTIVE) k && !bitSet en k) = false := by
    simpa [List.any_eq_false] using hactive
  simp [State.setSources, hearly, hinUse, zeroBits]

@[simp] theorem State.tim_setSources : (s.setSources en sel).tim = s.tim := by
  simp [State.setSources, apply_ite State.tim]

end

section
variable {s : State} {value p : Nat}

theorem exec_clkSrcWrite (value : Nat) (s : State) :
    exec (.clkSrcWrite value) s = .next (s.writeClkSrc F.CLK_SRC_SEL.addr value false) := rfl

/-- Before the lock, a write that reaches the register's lower half gives its fields new values. -/
theorem State.writeClkSrc_of_unlocked {addr : Nat} {half : Bool} (hlock : s.boot.locked = false) (haddr : addr % 8 = 0) :
    s.writeClkSrc addr value half = s.setSources (bitsAt value 0 4) (bitsAt value 8 4) := by
  have hlow : addr / 8 * 8 + 4 ≠ addr := by omega
  simp [State.writeClkSrc, hlock, hlow]

/-- A write before the lock that selects no PLL short of READY and keeps every PLL in use: the PLLs enabled by the write
start, the others stop, and the domains take their sources. -/
theorem exec_clkSrcWrite_of_accepted (hlock : s.boot.locked = false)
    (hready : ∀ k < 4, bitSet value (8 + k) = true → bitSet (s.get F.CLK_STATUS_READY) k = true)
    (hactive : ∀ k < 4, bitSet (s.get F.CLK_STATUS_ACTIVE) k = true → bitSet value k = true) :
    exec (.clkSrcWrite value) s =
      .next (((s.startPlls (bitsAt value 0 4)).stopPlls (zeroBits (bitsAt value 0 4) 4)).selectSources (bitsAt value 8 4)) := by
  have hsel : ∀ k < 4, bitSet (bitsAt value 8 4) k = true → bitSet (s.get F.CLK_STATUS_READY) k = true := by
    intro k hk
    rw [bitSet_bitsAt hk]
    exact hready k hk
  have hen : ∀ k < 4, bitSet (s.get F.CLK_STATUS_ACTIVE) k = true → bitSet (bitsAt value 0 4) k = true := by
    intro k hk
    rw [bitSet_bitsAt hk, Nat.zero_add]
    exact hactive k hk
  rw [exec_clkSrcWrite, State.writeClkSrc_of_unlocked hlock rfl, State.setSources_of_accepted hsel hen]

/-- What follows a register write touches registers of OBS alone. -/
theorem State.tim_afterWrite {a : Nat} : (s.afterWrite a).tim = s.tim := by
  unfold State.afterWrite
  split
  · dsimp only
    rw [State.tim_put, apply_ite State.tim, State.tim_put, ite_self]
  · rw [apply_ite State.tim, State.tim_put, ite_self]

theorem State.tim_writeReg {addr : Nat} {half : Bool} : (s.writeReg addr value half).tim = s.tim := by
  unfold State.writeReg
  dsimp only
  split
  · split
    · rfl
    · rw [State.tim_afterWrite]
      cases lockErr (addr / 8 * 8) <;> simp [apply_ite State.tim]
  · rfl

theorem State.tim_writeClkSrc {addr : Nat} {half : Bool} : (s.writeClkSrc addr value half).tim = s.tim := by
  rw [State.writeClkSrc, apply_ite State.tim, State.tim_writeReg, State.tim_setSources, ite_self]

/-! ## PLL_READY (R344) -/

/-- The PLL is READY and its count is over. -/
def State.setReady (s : State) (p : Nat) : State :=
  { s.put F.CLK_STATUS_READY (setBit (s.get F.CLK_STATUS_READY) p) with
    pwr := { s.pwr with pllStart := modifyAt (fun _ => none) p s.pwr.pllStart } }

theorem State.ready_setReady (hp : p < 4) : bitSet ((s.setReady p).get F.CLK_STATUS_READY) p = true := by
  have hready : (s.setReady p).get F.CLK_STATUS_READY = setBit (s.get F.CLK_STATUS_READY) p % 2 ^ 4 :=
    State.get_put_same rfl
  rw [hready, bitSet_mod_two_pow hp, bitSet_setBit_same]

theorem exec_pllReady (p : Nat) (s : State) : exec (.pllReady p) s = execPllReady p s := rfl

/-- While the count runs, the event's condition is false, and such a command changes nothing (log entry 2). -/
theorem exec_pllReady_of_early {t : Nat} (hstart : s.pwr.pllStart.getD p none = some t)
    (hearly : s.pwr.refclk < t + 8192) : exec (.pllReady p) s = .next s := by
  rw [exec_pllReady, execPllReady, hstart]
  simp [Nat.not_le.mpr hearly]

/-- A PLL whose count has run out becomes READY; during start-up and a wake its domain may go to it at once. -/
theorem exec_pllReady_of_due {t : Nat} (hstart : s.pwr.pllStart.getD p none = some t) (href : s.pwr.refLost = false)
    (hdue : t + 8192 ≤ s.pwr.refclk) :
    exec (.pllReady p) s = .next (s.setReady p) ∨ ∃ sel, exec (.pllReady p) s = .next ((s.setReady p).selectSources sel) := by
  rw [exec_pllReady, execPllReady, hstart]
  simp only [hdue, href, Bool.not_false, and_self, if_true]
  split
  · exact .inr ⟨_, rfl⟩
  · exact .inl rfl

end

/-- Settles O6: before its time PLL_READY changes nothing, and at its time it sets READY; an accepted write stops the PLLs
it leaves at 0, clearing READY and the count, and starts those it newly sets at the present REFCLK count; and no branch of
the write, refused and locked ones among them, reaches device time. -/
theorem pllsCountFromEnable : Obligations.PllsCountFromEnable := by
  intro s
  refine ⟨?early, ?due, ?disable, ?enable, ?time⟩
  case early =>
    intro p t hstart _ hearly
    exact exec_pllReady_of_early hstart hearly
  case due =>
    intro p t hstart href hdue hp
    rcases exec_pllReady_of_due hstart href hdue with hnext | ⟨sel, hnext⟩
    · exact ⟨_, hnext, State.ready_setReady hp, rfl⟩
    · exact ⟨_, hnext, by rw [State.get_selectSources_ready, State.ready_setReady hp], rfl⟩
  case disable =>
    intro v p hlock hready hactive hp hoff
    have hstop : bitSet (zeroBits (bitsAt v 0 4) 4) p = true := by
      rw [bitSet_zeroBits hp, bitSet_bitsAt hp, Nat.zero_add, hoff, Bool.not_false]
    refine ⟨_, exec_clkSrcWrite_of_accepted hlock hready hactive, ?_, ?_⟩
    · rw [State.get_selectSources_ready, State.not_ready_stopPlls hp hstop]
    · rw [State.pwr_selectSources, State.pllStart_stopPlls hp, if_pos hstop]
  case enable =>
    intro v p hlock hready hactive hp hon hold
    have hen : bitSet (bitsAt v 0 4) p = true := by rw [bitSet_bitsAt hp, Nat.zero_add, hon]
    refine ⟨_, exec_clkSrcWrite_of_accepted hlock hready hactive, ?_⟩
    rw [State.pwr_selectSources, State.pllStart_stopPlls hp, if_neg (by simp [bitSet_zeroBits hp, hen]),
      State.pllStart_startPlls hp, if_pos (by simp [hen, hold])]
  case time =>
    intro v t hnext
    rw [exec_clkSrcWrite] at hnext
    injection hnext with hnext
    rw [← hnext, State.tim_writeClkSrc]

end Sys2Proof.Machine
end

section
/-! The record of a reset (R355) and the triggers that take no effect while its sequence runs; PWR_GOOD as a source of
reset (R379). -/

namespace Sys2Proof.Machine

section
variable {s : State} {code src src' seen : Nat} {tamper : Bool}

/-! ## The stages of a reset: what each leaves of the start-up state, of power and of the record -/

@[simp] theorem State.boot_countReset : (s.countReset code).boot = s.boot := by
  unfold State.countReset
  split <;> simp [apply_ite State.boot]

@[simp] theorem State.pwr_countReset : (s.countReset code).pwr = s.pwr := by
  unfold State.countReset
  split <;> simp [apply_ite State.pwr]

/-- The counts of resets share no bit with the record of the last one. -/
@[simp] theorem State.get_countReset_last : (s.countReset code).get F.RST_CAUSE_LAST = s.get F.RST_CAUSE_LAST := by
  unfold State.countReset
  split <;> simp (disch := decide) [apply_ite (State.get · F.RST_CAUSE_LAST), State.get_put_ne]

@[simp] theorem State.boot_showAfter : (s.showAfter code).boot = s.boot := by
  unfold State.showAfter
  split <;> dsimp only <;> split <;> rfl

@[simp] theorem State.pwr_showAfter : (s.showAfter code).pwr = s.pwr := by
  unfold State.showAfter
  split <;> dsimp only <;> split <;> rfl

/-- What SEC and SAF show stands in registers of their own. -/
@[simp] theorem State.get_showAfter_last : (s.showAfter code).get F.RST_CAUSE_LAST = s.get F.RST_CAUSE_LAST := by
  unfold State.showAfter
  split <;> dsimp only <;> split <;> simp (disch := decide) [State.get_put_ne]

/-- The fields that a warm reset carries over one by one are fields of registers, so the fold leaves `boot` alone. -/
@[simp] theorem State.boot_blocksReset : (s.blocksReset code tamper).boot = s.bootAfter code := by
  unfold State.blocksReset
  split
  · exact List.foldlRecOn (motive := fun u : State => u.boot = s.bootAfter code) _ _ rfl
      fun u hu f _ => by rw [apply_ite State.boot, State.boot_put, ite_self, hu]
  · rfl

@[simp] theorem State.off_blocksReset : (s.blocksReset code tamper).pwr.off = false := by
  unfold State.blocksReset
  split
  · exact List.foldlRecOn (motive := fun u : State => u.pwr.off = false) _ _ rfl
      fun u hu f _ => by rw [apply_ite State.pwr, State.pwr_put, ite_self, hu]
  · rfl

@[simp] theorem State.running_bootAfter : (s.bootAfter code).running = some code := by
  rw [State.bootAfter, apply_ite Boot.running, ite_self]

@[simp] theorem State.held_bootAfter : (s.bootAfter code).held = false := by
  rw [State.bootAfter, apply_ite Boot.held, ite_self]

/-! ## A reset that takes effect (R355) -/

theorem State.boot_doReset : (s.doReset code src seen).boot = s.bootAfter code := by
  simp [State.doReset]

theorem State.off_doReset : (s.doReset code src seen).pwr.off = false := by
  simp [State.doReset]

/-- The code of the reset is on record, modulo the width of its field. -/
theorem State.get_doReset_last : (s.doReset code src seen).get F.RST_CAUSE_LAST = code % 8 := by
  unfold State.doReset
  rw [State.get_countReset_last, State.get_showAfter_last, State.get_put_ne rfl, State.get_put_ne rfl,
    State.get_put_same rfl]
  rfl

/-! ## Which triggers take effect (R355) -/

/-- With power and no sequence running, a device out of reset takes every trigger; a warm one ends open requests first. -/
theorem State.resetTrigger_of_idle (hoff : s.pwr.off = false) (hheld : s.boot.held = false)
    (hidle : s.boot.running = none) (hwarm : code ≠ rcWARM) : s.resetTrigger code src = s.doReset code src 0 := by
  simp [State.resetTrigger, hoff, hheld, hidle, hwarm]

/-- While a sequence of its own code runs, a trigger other than SAFETY is recorded and has no other effect. -/
theorem State.resetTrigger_of_running_same (hoff : s.pwr.off = false) (hheld : s.boot.held = false)
    (hrun : s.boot.running = some code) (hsafety : code ≠ rcSAFETY) : s.resetTrigger code src = s.resetSeen code := by
  simp [State.resetTrigger, hoff, hheld, hrun, hsafety]

/-- So a second trigger of the code just taken starts no second reset. -/
theorem State.resetTrigger_doReset_same (hsafety : code ≠ rcSAFETY) :
    (s.doReset code src seen).resetTrigger code src' = (s.doReset code src seen).resetSeen code :=
  State.resetTrigger_of_running_same State.off_doReset (by rw [State.boot_doReset, State.held_bootAfter])
    (by rw [State.boot_doReset, State.running_bootAfter]) hsafety

/-! ## The commands -/

theorem exec_resetN (s : State) : exec .resetN s = .next (s.resetTrigger rcRESET_N 0) := rfl

theorem exec_pwrGoodLow (s : State) :
    exec .pwrGoodLow s = .next (if s.pwr.mainEn then s.resetTrigger rcRESET_N 0 else s) := rfl

theorem exec_pwrGoodLow_of_mainEn (h : s.pwr.mainEn = true) : exec .pwrGoodLow s = exec .resetN s := by
  rw [exec_pwrGoodLow, exec_resetN, if_pos h]

end

/-- Settles O7: with MAIN_EN high PWR_GOOD is the trigger of RESET_N; on an idle device it starts the reset of code 2, and
RESET_N then meets a sequence of its own code, which it does not restart. -/
theorem powerGoodResets : Obligations.PowerGoodResets := by
  intro s
  refine ⟨exec_pwrGoodLow_of_mainEn, ?low, ?together⟩
  case low =>
    intro hlow
    rw [exec_pwrGoodLow, hlow]
    rfl
  case together =>
    intro t hmain hoff hheld hidle hnext
    rw [exec_pwrGoodLow_of_mainEn hmain, exec_resetN, State.resetTrigger_of_idle hoff hheld hidle (by decide)] at hnext
    injection hnext with hnext
    subst hnext
    exact ⟨State.get_doReset_last, by rw [exec_resetN, State.resetTrigger_doReset_same (by decide)]; rfl⟩

end Sys2Proof.Machine
end

section
/-! Proofs: what a step is, and the canonical form that it keeps; what a tick of REFCLK leaves alone (R16, R333, R348). -/

namespace Sys2Proof.Machine

/-! ## A step is the front command, or a tick -/

theorem step_of_nil {s : State} (h : s.pending = []) : step s = .next s.tick := by
  simp [step, h]

theorem step_of_cons {s : State} {c : Instr} {rest : List Instr} (h : s.pending = c :: rest) :
    step s = exec c { s with pending := rest } := by
  simp [step, h]

theorem step_canonical {s : State} (h : s.Canonical) : OutCanonical (step s) := by
  cases hp : s.pending with
  | nil => rw [step_of_nil hp]; exact State.tick_canonical h
  | cons c rest => rw [step_of_cons hp]; exact exec_canonical (State.canonical_mk h rfl rfl)

/-- Settles O4: a tick keeps the canonical form, and so does every command, from the state with the queue's rest. -/
theorem stepKeepsCanonical : Obligations.StepKeepsCanonical := by
  intro s h t ht
  have hout := step_canonical h
  rwa [ht] at hout

/-- Settles O1: what a step does with a command in front is its effect on the queue's rest. -/
theorem stepRunsFrontCommand : Obligations.StepRunsFrontCommand := fun _ _ _ => step_of_cons rfl

/-- Settles O3: the reset state lists nothing at all. -/
theorem resetIsCanonical : Obligations.ResetIsCanonical := State.reset_canonical

/-! ## What no operation under a tick touches: the queue of commands and the REFCLK count

A port that starts on a requested tile can meet poisoned words (R214), and the report of them runs the whole response of
SAF, up to Halted; the lemmas follow that chain. -/

/-- `t` holds the same commands waiting and the same REFCLK count as `s`. -/
structure State.SameClock (s t : State) : Prop where
  pending : t.pending = s.pending
  refclk  : t.pwr.refclk = s.pwr.refclk

namespace State.SameClock

variable {s t u : State}

theorem refl : SameClock s s := ⟨rfl, rfl⟩

theorem trans (h : SameClock s t) (h' : SameClock t u) : SameClock s u :=
  ⟨h'.pending.trans h.pending, h'.refclk.trans h.refclk⟩

theorem after (h' : SameClock t u) (h : SameClock s t) : SameClock s u := h.trans h'

theorem ite {c : Prop} [Decidable c] (h : SameClock s t) (h' : SameClock s u) : SameClock s (if c then t else u) := by
  split <;> assumption

theorem foldl {α : Type} {l : List α} {g : State → α → State} (hg : ∀ t x, SameClock t (g t x)) :
    SameClock s (l.foldl g s) :=
  foldl_inv (P := SameClock s) (fun t x h => h.trans (hg t x)) refl

/-- An update of any field but the commands waiting and the power state. -/
theorem mk' {regs tim ing queues glz pts lft spc spcGold slv tgs arr lay atn kvc bml mem saf chk boot sec hst obs out free} :
    SameClock s (State.mk s.pending regs tim ing queues glz pts lft spc spcGold slv tgs arr lay atn kvc bml mem saf chk
      boot sec hst s.pwr obs out free) := ⟨rfl, rfl⟩

theorem put {f : Fld} {n : Nat} : SameClock s (s.put f n) := mk'

theorem count {cls bit k pr : Nat} {m ad : Option Nat} : SameClock s (s.count cls bit k m ad pr) :=
  ⟨State.pending_count, by rw [State.pwr_count]⟩

theorem log {bl code sev unit det : Nat} : SameClock s (s.log bl code sev unit det) :=
  ⟨State.pending_log, by rw [State.pwr_log]⟩

theorem life {a n : Nat} : SameClock s (s.life a n) := ⟨State.pending_life, by rw [State.pwr_life]⟩

/-- What is sent changes no command and no power state. -/
theorem sends (h : State.Sends s t) : SameClock s t := by
  rw [State.Sends] at h
  rw [h]
  exact mk'

/-! ### The lifetime record's ring (R368) -/

theorem beginSector {lr sector : Nat} : SameClock s (s.beginSector lr sector) := by
  unfold State.beginSector
  extract_lets seq a b _ c d r e f
  have hb : SameClock s b := (put.trans put).trans put
  have hc : SameClock b c := mk'
  have hd : SameClock c d := ite put refl
  have hf : SameClock d f := put.after mk'
  exact (((hb.trans hc).trans hd).trans hf).trans mk'

theorem ringAppend {tb db span fails : Nat} {measured : Bool} : SameClock s (s.ringAppend tb db measured span fails) := by
  unfold State.ringAppend
  split
  · exact refl
  · refine ite refl ?_
    extract_lets ev slots bad e u need v at_ w x
    have he : SameClock s (if bitSet (e.lifeWord 8) 2 then e else e.lifeSet 8 (e.lifeWord 8 + 4) 4) :=
      ite put (put.trans mk')
    have hu : SameClock s u := ite refl (he.trans log)
    have hv : SameClock u v := ite beginSector (ite beginSector refl)
    have hx : SameClock v x := put.after mk'
    exact (hu.trans hv).trans (ite (hx.trans mk') (put.trans put))

theorem eventTick : SameClock s s.eventTick := ringAppend

/-! ### Entry to Halted (R148, R341) -/

theorem giveTables {n : Nat} : SameClock s (State.giveTables n s) := by
  induction n generalizing s with
  | zero => exact refl
  | succ n ih =>
    unfold State.giveTables
    split
    · exact ih.after (mk'.after mk')
    · exact refl

theorem discardPoints {c : Nat} : SameClock s (s.discardPoints c) := giveTables.after (mk'.after mk')

theorem setPage {p : Nat} {r : PageRec} : SameClock s (s.setPage p r) := mk'

theorem unpinInstance {c : Nat} : SameClock s (s.unpinInstance c) := (foldl fun _ _ => setPage).after mk'

theorem dropPending : SameClock s s.dropPending := (foldl fun _ _ => ite setPage refl).after mk'

theorem discardEngines {c : Nat} : SameClock s (s.discardEngines c) := by
  unfold State.discardEngines
  extract_lets mine a
  have ha : SameClock s a := unpinInstance.after (mk'.after (mk'.after discardPoints))
  exact ha.trans mk'

theorem discardAllInstances : SameClock s s.discardAllInstances := by
  unfold State.discardAllInstances
  extract_lets a _ _ _ c
  have ha : SameClock s a := foldl fun _ _ => discardEngines.trans mk'
  have hc : SameClock a c := dropPending.after mk'
  exact (ha.trans hc).trans ((put.trans put).trans put)

theorem haltHost : SameClock s s.haltHost := mk'

/-! ### A change of the safety state (R286), and a detection (R285) -/

theorem noticeOn {p : Nat} {n : Notice} : SameClock s (s.noticeOn p n) := by
  unfold State.noticeOn
  extract_lets subs dsts a
  have ha : SameClock s a := foldl fun _ _ => sends .txSend
  exact ite (ha.trans mk') (ite mk' refl)

theorem sendNotice {n : Notice} : SameClock s (s.sendNotice n) := by
  unfold State.sendNotice
  extract_lets _ a
  exact ((mk' : SameClock s a).trans noticeOn).trans noticeOn

theorem changeState {new cause unit idx : Nat} : SameClock s (s.changeState new cause unit idx) := by
  unfold State.changeState
  extract_lets old a _ _ b c d e f
  have ha : SameClock s a := ((put.trans put).trans put).trans put
  have hb : SameClock a b := ⟨rfl, rfl⟩
  have hc : SameClock b c := ite ((put.trans put).trans put) (ite put (ite put refl))
  have hd : SameClock c d := ite (life.trans eventTick) refl
  have he : SameClock d e := ite (((put.trans put).trans life).trans eventTick) refl
  have hf : SameClock e f := ite (discardAllInstances.trans haltHost) refl
  exact (((((ha.trans hb).trans hc).trans hd).trans he).trans hf).trans sendNotice

theorem armGolden {e : Nat} {extra : Bool} : SameClock s (s.armGolden e extra) := put.trans mk'

theorem armExtra : SameClock s s.armExtra := by
  unfold State.armExtra
  refine ite refl ?_
  split
  · exact refl
  · exact armGolden

theorem respond {cause unit idx : Nat} : SameClock s (s.respond cause unit idx) := by
  unfold State.respond
  extract_lets target a _ b c _ d
  clear_value target
  split
  · exact refl
  · exact put.trans put
  · have hb : SameClock s b := mk'.after (put.trans put)
    cases target with
    | none => exact hb
    | some n => exact hb.trans changeState
  · have hd : SameClock s d := mk'.after put
    cases target with
    | none => exact hd
    | some n => exact ite ((changeState.after mk').trans armExtra |>.after hd) (hd.trans changeState)
  · cases target with
    | none => exact refl
    | some n => exact changeState
  · cases target with
    | none => exact refl
    | some n => exact changeState

theorem recordFault {cause unit detail : Nat} : SameClock s (s.recordFault cause unit detail) := by
  unfold State.recordFault
  extract_lets same n a b sev
  have ha : SameClock s a := ((put.trans put).trans put).trans put
  exact (ha.trans put).trans log

theorem detectOne {cause unit detail : Nat} : SameClock s (s.detectOne cause unit detail) := recordFault.trans respond

theorem containRate : SameClock s s.containRate := by
  unfold State.containRate
  extract_lets n _ a
  exact (mk' : SameClock s a).trans (ite detectOne refl)

theorem detect {cause unit detail : Nat} : SameClock s (s.detect cause unit detail) := by
  unfold State.detect
  extract_lets a
  exact (detectOne : SameClock s a).trans (ite containRate refl)

/-! ### Poisoned words that a read meets (R214) -/

theorem memErr {a kind : Nat} : SameClock s (s.memErr a kind) :=
  ite (((put.trans put).trans put).trans put) (((put.trans put).trans put).trans put)

theorem countUncorr {a : Nat} : SameClock s (s.countUncorr a) := by
  unfold State.countUncorr
  extract_lets b
  exact (count.trans life : SameClock s b).trans (ite put put)

theorem poisonWord {w : Nat} : SameClock s (s.poisonWord w) := ite refl mk'

theorem eccUncorr {a : Nat} : SameClock s (s.eccUncorr a) := by
  unfold State.eccUncorr
  extract_lets known b c d
  have hb : SameClock s b := memErr.trans countUncorr
  have hc : SameClock b c := ite put put
  have hd : SameClock c d := ite refl log
  exact (((hb.trans hc).trans hd).trans poisonWord).trans detect

theorem reportBad {a k : Nat} : SameClock s (s.reportBad a k) := foldl fun _ _ => eccUncorr

/-! ### The tick (R16, R333) -/

theorem txRun {p : Nat} : SameClock s (s.txRun p) := by
  unfold State.txRun
  extract_lets q
  refine ite refl ?_
  split
  · split
    · extract_lets items bad a b
      have ha : SameClock s a := sends .updTx
      exact (ha.trans (ite reportBad refl : SameClock a b)).trans (sends .txTake)
    · exact sends .txTake
  · exact refl

theorem txTick {p : Nat} : SameClock s (s.txTick p) := by
  unfold State.txTick
  split
  · exact ite refl (txRun.after (sends .updTx))
  · extract_lets left
    exact ite (sends .updTx) (txRun.after (sends .updTx))

theorem advanceTime {ns adj : Int} : SameClock s (s.advanceTime ns adj) := mk'

theorem shrinkSlew {ns : Int} : SameClock s (s.shrinkSlew ns) := by
  unfold State.shrinkSlew
  extract_lets r total d r' a b
  exact ite refl ((put : SameClock s a).trans ((ite put refl : SameClock a b).trans mk'))

end State.SameClock

/-! ## The tick -/

section
variable {s : State}

/-- A REFCLK period is counted. -/
def State.refclkCounted (s : State) : State := { s with pwr := { s.pwr with refclk := s.pwr.refclk + 1 } }

/-- A tick counts one REFCLK period, and takes no command. -/
theorem State.tick_of_clocked (hlost : s.pwr.refLost = false) (hoff : s.pwr.off = false) :
    State.SameClock s.refclkCounted s.tick := by
  rw [State.tick, if_neg (by simp [hlost, hoff])]
  extract_lets _ a servo b c _ d e f
  have hb : State.SameClock a b := State.SameClock.shrinkSlew.after .advanceTime
  have hc : State.SameClock b c := .foldl fun _ _ => .txTick
  exact .ite (.ite .advanceTime .refl)
    (((((hb.trans hc).trans .mk' : State.SameClock a d).trans .count).trans .count : State.SameClock a f).trans .count)

theorem State.tick_of_refLost (h : s.pwr.refLost = true) : s.tick = s := by
  simp [State.tick, h]

/-- A port with nothing to send lets a period pass. -/
theorem State.txTick_of_idle {p : Nat} (hcur : (s.txPort p).cur = none) (hqueue : (s.txPort p).queue = []) : s.txTick p = s := by
  simp [State.txTick, hcur, hqueue]

theorem State.foldl_txTick_of_idle {l : List Nat} (h : ∀ p ∈ l, (s.txPort p).cur = none ∧ (s.txPort p).queue = []) :
    l.foldl State.txTick s = s := by
  induction l with
  | nil => rfl
  | cons p r ih =>
    have hp := h p (by simp)
    rw [List.foldl_cons, State.txTick_of_idle hp.1 hp.2]
    exact ih fun q hq => h q (by simp [hq])

theorem State.Sends.shrinkSlew {ns : Int} : State.Sends s (s.shrinkSlew ns) := by
  unfold State.shrinkSlew
  extract_lets r total d r' a b
  exact .ite .rfl ((State.Sends.put : State.Sends s a).trans ((State.Sends.ite .put .rfl : State.Sends a b).trans .tim))

theorem State.tx_shrinkSlew {ns : Int} : (s.shrinkSlew ns).tim.tx = s.tim.tx := by
  unfold State.shrinkSlew
  extract_lets r total d r' a b
  have hb : b.tim = s.tim := by simp only [b, a, apply_ite State.tim, State.tim_put, State.putI_eq, ite_self]
  split
  · rfl
  · show b.tim.tx = _
    rw [hb]

/-- With every port idle the tick moves the REFCLK count, device time and counters of OBS alone. -/
theorem State.tick_of_idle (hlost : s.pwr.refLost = false) (hoff : s.pwr.off = false)
    (hidle : ∀ p < 8, (s.txPort p).cur = none ∧ (s.txPort p).queue = []) :
    s.tick.pwr = s.refclkCounted.pwr ∧ s.tick.mem = s.mem ∧ s.tick.queues = s.queues := by
  rw [State.tick, if_neg (by simp [hlost, hoff])]
  extract_lets _ a servo b c _ d e f
  have hb : State.Sends a b := State.Sends.tim.trans .shrinkSlew
  have hc : c = b := State.foldl_txTick_of_idle fun p hp => by
    have htx : b.txPort p = s.txPort p := by
      unfold State.txPort
      rw [State.tx_shrinkSlew]
      rfl
    rw [htx]
    exact hidle p (List.mem_range.mp hp)
  have hf : f.pwr = b.pwr ∧ f.mem = b.mem ∧ f.queues = b.queues := by
    simp only [f, e, d, hc, State.pwr_count, State.mem_count, State.queues_count, and_self]
  have hsend : b.pwr = a.pwr ∧ b.mem = a.mem ∧ b.queues = a.queues := by
    rw [hb]
    exact ⟨rfl, rfl, rfl⟩
  split
  · split <;> exact ⟨rfl, rfl, rfl⟩
  · obtain ⟨hpwr, hmem, hqueues⟩ := hf
    obtain ⟨hpwr', hmem', hqueues'⟩ := hsend
    simp only [State.pwr_count, State.mem_count, State.queues_count]
    exact ⟨hpwr.trans hpwr', hmem.trans hmem', hqueues.trans hqueues'⟩

end

/-- Settles O2: a step with nothing waiting is a tick, which without REFCLK leaves everything as it is. -/
theorem emptyQueueTicks : Obligations.EmptyQueueTicks := by
  intro s hnil
  rw [step_of_nil hnil]
  refine ⟨fun hlost => by rw [State.tick_of_refLost hlost], fun hlost hoff => ?counts, fun hlost hoff hidle => ?idle⟩
  case counts =>
    obtain ⟨hpending, hrefclk⟩ := State.tick_of_clocked hlost hoff
    exact ⟨_, rfl, hrefclk, hpending.trans hnil⟩
  case idle =>
    obtain ⟨hpwr, hmem, hqueues⟩ := State.tick_of_idle hlost hoff hidle
    exact ⟨_, rfl, hpwr, (State.tick_of_clocked hlost hoff).pending.trans hnil, hmem, hqueues⟩

end Sys2Proof.Machine
end

section
/-! Proofs: registers as a map, and a register write bit by bit under the access types of its register (R6 to R8). -/

namespace Sys2Proof.Machine

/-- Settles O12: a field is a range of bits of one register, which a write replaces and nothing else. -/
theorem registerLawsHold : Obligations.RegisterLawsHold := by
  refine fun s => ⟨fun f n hfits => State.get_put_same (by simpa [Fld.fits] using hfits), fun f g n hapart hfits => ?_⟩
  refine State.get_put_ne ?_
  simp only [Fld.apart, Bool.or_eq_true, Bool.and_eq_true, decide_eq_true_eq]
  exact hapart.imp_right fun hbits => ⟨hbits, hfits⟩

/-! ## The value that a write stores -/

/-- Bits that a write reaches take the data, W1C bits written 1 clear, and every other bit keeps its value (R7, R8). -/
theorem RegRow.getLsbD_written {r : RegRow} {old data mask : BitVec 64} {locked : Bool} {i : Nat} (hi : i < 64) :
    (r.written old data mask locked).getLsbD i =
      if mask.getLsbD i && (r.rw ||| r.rws ||| (if locked then 0#64 else r.rwl)).getLsbD i then data.getLsbD i
      else old.getLsbD i && !(mask.getLsbD i && r.w1c.getLsbD i && data.getLsbD i) := by
  unfold RegRow.written
  generalize (r.rw ||| r.rws ||| (if locked then 0#64 else r.rwl)) = plain
  simp only [BitVec.getLsbD_or, BitVec.getLsbD_and, BitVec.getLsbD_not, hi, decide_true, Bool.true_and]
  cases mask.getLsbD i <;> cases plain.getLsbD i <;> cases r.w1c.getLsbD i <;> cases data.getLsbD i <;> simp

/-- After the lock a bit that is RWL alone keeps its value (R7). -/
theorem RegRow.getLsbD_written_locked {r : RegRow} {old data mask : BitVec 64} {i : Nat} (hi : i < 64)
    (hrw : r.rw.getLsbD i = false) (hrws : r.rws.getLsbD i = false) (hw1c : r.w1c.getLsbD i = false) :
    (r.written old data mask true).getLsbD i = old.getLsbD i := by
  rw [RegRow.getLsbD_written hi]
  simp [hrw, hrws, hw1c]

/-! ## Where a write stores it -/

section
variable {s : State} {addr value w a b : Nat} {half : Bool} {r : RegRow} {v : BitVec 64}

/-- The state with a register's new value, written only where it is new. -/
def State.stored (s : State) (a : Nat) (v : BitVec 64) : State := if v = s.reg a then s else s.setReg a v

theorem State.reg_stored_same : (s.stored a v).reg a = v := by
  unfold State.stored
  split
  · next h => exact h.symm
  · exact State.reg_setReg_same

theorem State.reg_stored_ne (h : b ≠ a) : (s.stored a v).reg b = s.reg b := by
  rw [State.stored, apply_ite (State.reg · b), State.reg_setReg_ne h, ite_self]

theorem State.stored_regs : s.stored a v = { s with regs := (s.stored a v).regs } := by
  unfold State.stored
  split <;> rfl

/-- Nothing follows a write outside the window of OBS. -/
theorem State.afterWrite_of_not_obs (hw : windowOf a ≠ some wOBS) : s.afterWrite a = s := by
  have hout := windowOf_ne_obs hw
  have hsel : ¬ ((F.OBS_SEL_EN 0).addr ≤ a ∧ a < (F.OBS_SEL_EN 256).addr) := by
    simp only [F.OBS_SEL_EN]
    omega
  have hctrl : a ≠ F.OBS_CTRL_ENABLE.addr := by
    simp only [F.OBS_CTRL_ENABLE]
    omega
  rw [State.afterWrite, if_neg hsel, if_neg hctrl]

/-- The LOCK_ERR bit that a write to locked bits sets (R7). -/
def State.lockChecked (s : State) (a : Nat) (reached : BitVec 64) : State :=
  if s.boot.locked && reached != 0#64 then
    match lockErr a with
    | some f => s.raise f
    | none => s
  else s

theorem State.lockChecked_of_allowed {reached : BitVec 64} (h : s.boot.locked = false ∨ reached = 0#64) :
    s.lockChecked a reached = s := by
  rcases h with h | h <;> simp [State.lockChecked, h]

theorem State.lockChecked_of_locked {reached : BitVec 64} {f : Fld} (hlock : s.boot.locked = true) (hreach : reached ≠ 0#64)
    (hf : lockErr a = some f) : s.lockChecked a reached = s.raise f := by
  simp [State.lockChecked, hlock, hreach, hf]

theorem State.boot_stored : (s.stored a v).boot = s.boot := by
  rw [State.stored_regs]

/-- A write to a register outside OBS that acts on nothing else: its new value is stored, and a write to locked bits is
noted. -/
theorem State.writeReg_of_live (hw : windowOf (addr / 8 * 8) = some w) (hr : regRow (addr / 8 * 8) = some r)
    (hlive : s.gated w = false) (hclk : addr / 8 * 8 ≠ F.CLK_EN_EN.addr) (hobs : w ≠ wOBS) :
    s.writeReg addr value half =
      (s.stored (addr / 8 * 8) (r.written (s.reg (addr / 8 * 8)) (writeData addr value half) (writeMask addr half)
        s.boot.locked)).lockChecked (addr / 8 * 8) (r.rwl &&& writeMask addr half) := by
  have hne : windowOf (addr / 8 * 8) ≠ some wOBS := by simpa [hw] using hobs
  simp only [State.writeReg, hw, hr, hlive, if_neg hclk, State.afterWrite_of_not_obs hne]
  rfl

/-- REGISTER_WRITE to such a register. -/
theorem exec_registerWrite_of_live (hreach : s.reachable = true) (hw : windowOf (addr / 8 * 8) = some w)
    (hr : regRow (addr / 8 * 8) = some r) (hlive : s.gated w = false) (hobs : w ≠ wOBS)
    (hplain : addr / 8 * 8 ∉ [F.CLK_SRC_SEL.addr, F.SLV_BA_CMD_START.addr, F.RST_CTRL_WARM.addr,
      F.SEC_ROLLBACK_CMD_ADVANCE.addr, F.CLK_EN_EN.addr]) :
    exec (.registerWrite addr value half) s =
      .next ((s.stored (addr / 8 * 8) (r.written (s.reg (addr / 8 * 8)) (writeData addr value half) (writeMask addr half)
        s.boot.locked)).lockChecked (addr / 8 * 8) (r.rwl &&& writeMask addr half)) := by
  have hacting : addr / 8 * 8 ∉ actingAddrs := fun h => hplain (List.mem_append_left [F.CLK_EN_EN.addr] h)
  have hclk : addr / 8 * 8 ≠ F.CLK_EN_EN.addr := fun h => hplain (by simp [h])
  rw [exec_registerWrite, if_pos hreach, State.writeWindow_of_not_acting hacting, State.windowLive_of_windowOf hw, hlive,
    State.writeReg_of_live hw hr hlive hclk hobs]
  rfl

end

/-- Settles O9: no locked bit is reached, so all that is left of the write is the stored value. -/
theorem registerWriteByAccessType : Obligations.RegisterWriteByAccessType := by
  intro s hreach a v w half r hw hr hlive hplain hobs hallowed
  refine ⟨_, exec_registerWrite_of_live hreach hw hr hlive hobs hplain, ?_⟩
  rw [State.lockChecked_of_allowed (by rwa [State.boot_stored])]
  refine ⟨State.stored_regs, fun b hb => State.reg_stored_ne hb, fun i hi => ?_⟩
  rw [State.reg_stored_same, RegRow.getLsbD_written hi]

/-- Settles O10: the stored value keeps the locked bits, and LOCK_ERR stands in another register. -/
theorem lockedWritesSetLockErr : Obligations.LockedWritesSetLockErr := by
  intro s hreach hlock a v w half r f hw hr hlive hplain hobs hreached hf hother ⟨hlo, hwidth⟩
  refine ⟨_, exec_registerWrite_of_live hreach hw hr hlive hobs hplain, ?_⟩
  rw [State.lockChecked_of_locked (by rwa [State.boot_stored]) hreached hf, State.raise_eq]
  refine ⟨?_, ?_, fun i hi _ hrw hrws hw1c => ?_⟩
  · rw [State.get_put_same (by simpa [Fld.fits, hwidth] using hlo), hwidth]
    rfl
  · rw [State.stored_regs]
    rfl
  · rw [State.reg_put_ne hother.symm, State.reg_stored_same, hlock, RegRow.getLsbD_written_locked hi hrw hrws hw1c]

end Sys2Proof.Machine
end

section
/-! Proofs: the commands of the stream queues (R59 to R68): marks, writes, markers, reads, timeouts and resets. -/

namespace Sys2Proof.Machine

section
variable {s : State} {q p k : Nat} {x : Queue}

/-! ## When a command acts -/

theorem State.whenQueue_of_enabled {f : State → State} (hq : q < 1024) (hen : s.on (F.SQ_QCFG_ENABLE q) = true)
    (hlive : s.gated wSQ = false) : s.whenQueue q f = f s := by
  simp [State.whenQueue, hen, hq, State.runs, hlive]

theorem State.resetting_of_none (h : (s.queue q).resetAt = none) : s.resetting q = false := by
  simp [State.resetting, h]

theorem State.whenSettled_of_not_resetting {f : State → State} (h : s.resetting q = false) : s.whenSettled q f = f s := by
  simp [State.whenSettled, h]

theorem State.whenMark_of_settled {f : State → State} (hq : q < 1024) (hk : k < 4)
    (hen : s.on (F.SQ_QCFG_ENABLE q) = true) (hrun : s.runs wSQ = true) (hset : s.resetting q = false) :
    s.whenMark q k f = f s := by
  have hlive : s.gated wSQ = false := by simpa [State.runs] using hrun
  rw [State.whenMark, State.whenQueue_of_enabled hq hen hlive, if_pos hk, State.whenSettled_of_not_resetting hset]

/-! ## Holding a queue whose words have moved (R57) -/

/-- Words in the middle are those of Nougat: `storeQueue` touches memory and the queues alone. -/
theorem State.storeQueue_frame : s.storeQueue q x = { s with queues := (s.storeQueue q x).queues, mem := (s.storeQueue q x).mem } := by
  unfold State.storeQueue
  extract_lets old out t load
  have ht : t = { s with mem := t.mem } := by
    refine foldl_inv (P := fun u : State => u = { s with mem := u.mem }) (fun u w hu => ?_) rfl
    unfold State.writeBytes
    split
    · rw [hu]
    · exact hu
  clear_value t
  rw [ht]
  rfl

@[simp] theorem State.get_storeQueue {f : Fld} : (s.storeQueue q x).get f = s.get f := by
  rw [State.storeQueue_frame]; rfl

@[simp] theorem State.tim_storeQueue : (s.storeQueue q x).tim = s.tim := by
  rw [State.storeQueue_frame]

/-- The queue held is the one given, but for the data of words read back from Nougat. -/
theorem State.queue_storeQueue_same : ∃ ws : List QWord, ws.length = x.words.length ∧
    (s.storeQueue q x).queue q = { x with words := ws, rdCopy := (x.rdWord, x.rdByte), wrCopy := x.wr } := by
  unfold State.storeQueue
  extract_lets old out t load
  refine ⟨x.words.zipIdx.map (fun w => load (x.base + w.2) w.1), by simp, ?_⟩
  rw [State.queue_setQueue_same]
  simp [Queue.wr]

theorem State.queue_storeQueue_ne (h : p ≠ q) : (s.storeQueue q x).queue p = s.queue p := by
  unfold State.storeQueue
  extract_lets old out t load
  rw [State.queue_setQueue_ne h]
  refine foldl_inv (P := fun u : State => u.queue p = s.queue p) (fun u w hu => ?_) rfl
  rw [← hu, State.queue, State.queue, State.queues_writeBytes]

/-- A queue of at most 16 words is all in its register head and tail. -/
theorem Queue.not_inMiddle_of_short {i : Nat} (h : x.words.length ≤ 16) : x.inMiddle i = false := by
  rw [Queue.inMiddle, Bool.and_eq_false_iff, decide_eq_false_iff_not, decide_eq_false_iff_not, Queue.wr]
  omega

/-- With at most 16 words before and after, no word moves to or from Nougat. -/
theorem State.storeQueue_of_short (hx : x.words.length ≤ 16) (hold : (s.queue q).words.length ≤ 16) :
    s.storeQueue q x = s.setQueue q x := by
  simp [State.storeQueue, Queue.not_inMiddle_of_short hx, Queue.not_inMiddle_of_short hold]

/-- A queue with a mark slot cleared. -/
def Queue.unmarked (x : Queue) (k : Nat) : Queue := { x with marks := modifyAt (fun _ => none) k x.marks }

theorem Queue.length_words_free : x.free.words.length ≤ x.words.length := by
  unfold Queue.free
  dsimp only
  split <;> simp

end

/-! ## Marks (R63, R64) -/

/-- Settles O21: the mark is the read position in a slot of its own; the rewind moves that position alone and counts an event;
the release frees words, of which those that come out of Nougat are read back. -/
theorem queueMarksAct : Obligations.QueueMarksAct := by
  intro s q k hq hk hen hrun hset
  refine ⟨fun hlen hfree => ?mark, fun m hm => ?rewind, fun m hm => ?release⟩
  case mark =>
    have hexec : exec (.mark q k) s = .next (s.setQueue q { s.queue q with
        marks := modifyAt (fun _ => some ((s.queue q).rdWord, (s.queue q).rdByte)) k (s.queue q).marks }) := by
      change Host.Outcome.next _ = _
      rw [State.whenMark_of_settled hq hk hen hrun hset, State.queueMark]
      simp only [hfree]
    refine ⟨_, hexec, ?_, ?_, fun p hp => State.queue_setQueue_ne hp, rfl⟩
    · rw [State.queue_setQueue_same]
      exact getD_modifyAt (by omega)
    · rw [State.queue_setQueue_same]
      rfl
  case rewind =>
    have hexec : exec (.rewind q k) s = .next ((s.setQueue q { s.queue q with
        rdWord := m.1, rdByte := m.2, again := true }).count 4 3 1) := by
      change Host.Outcome.next _ = _
      rw [State.whenMark_of_settled hq hk hen hrun hset, State.queueRewind]
      simp only [hm]
    refine ⟨_, hexec, ?_, fun p hp => ?_, ?_, fun a ha => ?_⟩
    · rw [State.queue_count, State.queue_setQueue_same]
      rfl
    · rw [State.queue_count, State.queue_setQueue_ne hp]
    · rw [State.queues_count]
      exact State.count_obs.1
    · rw [State.reg_count (windowOf_ne_obs ha), State.reg_setQueue]
  case release =>
    have hexec : exec (.release q k) s = .next (s.storeQueue q ((s.queue q).unmarked k).free) := by
      change Host.Outcome.next _ = _
      rw [State.whenMark_of_settled hq hk hen hrun hset, State.queueRelease]
      simp only [hm]
      rfl
    obtain ⟨ws, -, hsame⟩ := State.queue_storeQueue_same (s := s) (q := q) (x := ((s.queue q).unmarked k).free)
    refine ⟨_, hexec, ?_, ?_, fun p hp => State.queue_storeQueue_ne hp, State.storeQueue_frame, fun hshort => ?_⟩
    · rw [hsame]
      simp only [Queue.free_marks, Queue.unmarked]
      exact getD_modifyAt (getD_of_some hm)
    · rw [hsame]
      simp only [Queue.free_rdWord, Queue.unmarked]
    · have hfree : ((s.queue q).unmarked k).free.words.length ≤ 16 := Queue.length_words_free.trans hshort
      rw [State.storeQueue_of_short hfree hshort, State.mem_setQueue]

/-! ## Writes, markers, reads, timeouts and resets (R59 to R62, R65 to R68) -/

section
variable {s : State} {q n : Nat} {x : Queue} {w : QWord} {ws : List QWord} {c : WordChecks} {d : List Byte}

theorem Queue.flush_of_nothing_packed (h : x.packing.isEmpty = true) : x.flush = x := by
  rw [Queue.flush, if_pos h]

/-- With no drop count waiting there is no marker to store. -/
theorem State.storePending_of_none (h : (s.queue q).pendItems = 0) : s.storePending q = s := by
  simp [State.storePending, h]

/-- The marker of the pending count goes into a free word. -/
theorem State.storePending_of_room (hpack : (s.queue q).packing.isEmpty = true) (hpend : (s.queue q).pendItems ≠ 0)
    (hroom : (s.queue q).used < s.get (F.SQ_QCFG_SIZE q)) : s.storePending q = s.storeQueue q { s.queue q with
      words := (s.queue q).words ++ [mkWord (gapMarker q (s.queue q).pendItems (s.queue q).pendBytes 2) 64 true false]
      pendItems := 0, pendBytes := 0 } := by
  have hno : ¬ ((s.queue q).pendItems = 0 ∨ s.get (F.SQ_QCFG_SIZE q) < (s.queue q).used + (0 + 1)) := by omega
  simp only [State.storePending, hpack, if_true, if_neg hno, Queue.flush_of_nothing_packed hpack]
  rfl

theorem State.get_put_of_addr_ne {f g : Fld} (h : g.addr ≠ f.addr) : (s.put f n).get g = s.get g :=
  State.get_of_reg (State.reg_put_ne h)

/-- The fields of a queue's settings lie in none of the registers that a drop writes. -/
theorem State.get_size_after_drop (hq : q < 1024) :
    (((s.sqErr q F.SQ_EVENT_DROP).satInc (F.SQ_QDROP_DROPPED q)).count 4 2 1).get (F.SQ_QCFG_SIZE q) =
      s.get (F.SQ_QCFG_SIZE q) := by
  have haddr : (F.SQ_QCFG_SIZE q).addr < 0xe000e4000 ∧ 0xe000e2000 ≤ (F.SQ_QCFG_SIZE q).addr := by
    simp only [F.SQ_QCFG_SIZE]
    omega
  obtain ⟨hlt, hge⟩ := haddr
  have hdropped : (F.SQ_QCFG_SIZE q).addr ≠ (F.SQ_QDROP_DROPPED q).addr := by
    simp only [F.SQ_QCFG_SIZE, F.SQ_QDROP_DROPPED]
    omega
  have hevent : (F.SQ_QCFG_SIZE q).addr ≠ F.SQ_EVENT_DROP.addr := (Nat.lt_of_lt_of_le (by decide) hge).ne'
  have hlast : (F.SQ_QCFG_SIZE q).addr ≠ F.SQ_LAST_ERR_QUEUE.addr := (Nat.lt_of_lt_of_le (by decide) hge).ne'
  have hcause : (F.SQ_QCFG_SIZE q).addr ≠ F.SQ_LAST_ERR_CAUSE.addr := (Nat.lt_of_lt_of_le (by decide) hge).ne'
  rw [State.get_count (Or.inl (by omega)), State.satInc_eq, State.get_put_of_addr_ne hdropped, State.sqErr, State.raise_eq,
    State.get_put_of_addr_ne hcause, State.get_put_of_addr_ne hlast, State.get_put_of_addr_ne hevent]

/-- A dropped item starts a marker in the reserve word (R65). -/
theorem State.dropItem_of_room (hq : q < 1024) (hopen : (s.queue q).markerOpen = false) (hpack : (s.queue q).packing.isEmpty = true)
    (hpend : (s.queue q).pendItems = 0) (hroom : (s.queue q).used < s.get (F.SQ_QCFG_SIZE q)) :
    s.dropItem q n = (((s.sqErr q F.SQ_EVENT_DROP).satInc (F.SQ_QDROP_DROPPED q)).count 4 2 1).storeQueue q
      { s.queue q with words := (s.queue q).words ++ [mkWord (gapMarker q 1 (satNat 32 n) 0) 64 true false] } := by
  have hneed : (s.queue q).pendItems = 0 ∧ (s.queue q).used + (0 + 1) ≤ s.get (F.SQ_QCFG_SIZE q) := by omega
  simp only [State.dropItem, hopen, hpack, if_true, State.get_size_after_drop hq, if_pos hneed,
    Queue.flush_of_nothing_packed hpack]
  rfl

/-- An item is written to an enabled queue out of reset with no drop count waiting: kept if it fits, else dropped. -/
theorem State.queueWrite_of_settled (hen : s.on (F.SQ_QCFG_ENABLE q) = true) (hlive : s.gated wSQ = false)
    (hdata : d.isEmpty = false) (hset : (s.queue q).resetAt = none) (hpend : (s.queue q).pendItems = 0)
    (hfit : s.itemFits q d.length = false) : s.queueWrite q d = s.dropItem q d.length := by
  simp [State.queueWrite, hen, hlive, hdata, State.resetting_of_none hset, State.storePending_of_none hpend, State.accepts, hfit]

/-- An item that fits takes whole words of a queue that does not pack (R60, R65). -/
theorem State.queueWrite_of_fit (hen : s.on (F.SQ_QCFG_ENABLE q) = true) (hlive : s.gated wSQ = false)
    (hdata : d.isEmpty = false) (hset : (s.queue q).resetAt = none) (hpend : (s.queue q).pendItems = 0)
    (hfit : s.itemFits q d.length = true) (hpack : s.on (F.SQ_QCFG_PACKING q) = false) (hfull : (s.queue q).isEmpty = false) :
    s.queueWrite q d = ((s.storeQueue q { s.queue q with
        words := (s.queue q).words ++ itemWords d
        writes := (s.queue q).writes ++ [((s.queue q).wr, (s.queue q).packing.length, s.tim.steps)] }).modInc
      (F.SQ_QSTAT_ITEMS_IN q)).count 4 0 (((s.queue q).words ++ itemWords d).length - (s.queue q).words.length) := by
  simp [State.queueWrite, hen, hlive, hdata, State.resetting_of_none hset, State.storePending_of_none hpend, State.accepts,
    hfit, hpend, hpack, hfull, Queue.used]

/-- During its reset a queue takes no item (R68). -/
theorem State.queueWrite_of_resetting (hen : s.on (F.SQ_QCFG_ENABLE q) = true) (hlive : s.gated wSQ = false)
    (hdata : d.isEmpty = false) (hset : s.resetting q = true) : s.queueWrite q d = s.dropItem q d.length := by
  simp [State.queueWrite, hen, hlive, hdata, hset]

/-- A word that passes every check is delivered without a report (R61). -/
theorem State.deliverWord_of_good (hgood : w.bad c = false) : s.deliverWord q w c = s := by
  simp only [QWord.bad, Bool.or_eq_false_iff] at hgood
  obtain ⟨⟨-, hpar⟩, hcrc⟩ := hgood
  simp [State.deliverWord, hpar, hcrc]

theorem State.startTimer_of_no_timeout (h : s.get (F.SQ_QCFG_READ_TIMEOUT q) = 0) : s.startTimer q = s := by
  rw [State.startTimer, if_pos h]

/-- READ presents the next word and moves the read position past it (R63). -/
theorem State.queueRead_of_stored (hw : s.storedWords q = w :: ws) : s.queueRead q c =
    ((((s.emit (.word q w.data (w.sideband (w.bad c)))).storeQueue q
      { s.queue q with rdWord := (s.queue q).rdWord + 1, rdByte := 0, again := false }.free).startTimer q).count 4 1 1).deliverWord
        q w c := by
  rw [State.queueRead, hw]

/-- The timer of a queue that holds data runs out while no READ waits (R67). -/
theorem State.queueTimeout_of_due {t0 : Nat} (hnil : s.pending = []) (htimer : (s.queue q).timer = some t0)
    (hdata : (s.queue q).isEmpty = false) (hdue : t0 + 25 * s.get (F.SQ_QCFG_READ_TIMEOUT q) ≤ s.pwr.refclk) :
    s.queueTimeout q =
      ((s.storeQueue q { (s.queue q).flush with timer := none }).satInc (F.SQ_QDROP_TIMEOUTS q)).sendQueueNotice q := by
  simp [State.queueTimeout, hnil, htimer, hdata, Nat.not_lt.mpr hdue]

theorem State.whenQueue_settled {f : State → State} (hq : q < 1024) (hen : s.on (F.SQ_QCFG_ENABLE q) = true)
    (hlive : s.gated wSQ = false) (hset : (s.queue q).resetAt = none) :
    s.whenQueue q (fun s => s.whenSettled q f) = f s := by
  rw [State.whenQueue_of_enabled hq hen hlive, State.whenSettled_of_not_resetting (State.resetting_of_none hset)]

end

/-- Settles O20: each command is its queue operation behind the gate `whenQueue`; the rules above say what that operation does
under the clause's conditions. -/
theorem queueCommandsAct : Obligations.QueueCommandsAct := by
  intro s hlive
  refine ⟨fun q d hq hen hdata hpack hset hpend hfit hfull => ?write, fun q d hq hen hdata hset hpend hfit hopen hpack hroom => ?drop,
    fun q d hq hen hdata hset => ?inReset, fun q hq hen hset hpack => ?flush, fun q hq hen hset hpack hpend hroom => ?marker,
    fun q w l hq hen hset hw hgood htime => ?read, fun q w l p d e hq hen hset hw hbad => ?readBad,
    fun q t0 hq hen hset hnil htimer hdata hdue => ?timeout, fun q hq hen => ?reset,
    fun q x hx hold => State.storeQueue_of_short hx hold⟩
  case write =>
    change Host.Outcome.next _ = _
    rw [State.whenQueue_of_enabled hq hen hlive, State.queueWrite_of_fit hen hlive hdata hset hpend hfit hpack hfull]
  case drop =>
    change Host.Outcome.next _ = _
    rw [State.whenQueue_of_enabled hq hen hlive, State.queueWrite_of_settled hen hlive hdata hset hpend hfit,
      State.dropItem_of_room hq hopen hpack hpend hroom]
    rfl
  case inReset =>
    change Host.Outcome.next _ = _
    rw [State.whenQueue_of_enabled hq hen hlive, State.queueWrite_of_resetting hen hlive hdata (by simp [State.resetting, hset])]
  case flush =>
    change Host.Outcome.next _ = _
    rw [State.whenQueue_settled hq hen hlive hset, State.queueFlush, Queue.flush, hpack]
    rfl
  case marker =>
    change Host.Outcome.next _ = _
    rw [State.whenQueue_settled hq hen hlive hset, State.storePending_of_room hpack hpend hroom]
  case read =>
    change Host.Outcome.next _ = _
    rw [State.whenQueue_settled hq hen hlive hset, State.queueRead_of_stored hw, State.deliverWord_of_good hgood,
      State.startTimer_of_no_timeout (by rwa [State.get_storeQueue]), hgood]
  case readBad =>
    refine ⟨_, rfl, ?_⟩
    change Host.Outcome.next _ = _
    have hmarked : w.bad { headPar := p.head, midPar := p.mid, tailPar := p.tail, crc := d, ecc := e } = true := by
      simp only [QWord.bad, QWord.checked, Bool.or_eq_true] at hbad ⊢
      tauto
    rw [State.whenQueue_settled hq hen hlive hset, State.queueRead_of_stored hw, hmarked]
  case timeout =>
    change Host.Outcome.next _ = _
    rw [State.whenQueue_settled hq hen hlive hset, State.queueTimeout_of_due hnil htimer hdata hdue]
  case reset =>
    change Host.Outcome.next _ = _
    rw [State.whenQueue_of_enabled hq hen hlive, State.queueReset_eq]

end Sys2Proof.Machine
end

section
/-! Proofs: the time engine (02): its registers and timers, gPTP messages, the time state, and what device time sends. -/

namespace Sys2Proof.Machine

section
variable {s : State} {p k : Nat}

/-- TIM acts while it is clocked and REFCLK is there. -/
theorem State.whenTim_of_running {f : State → State} (hlive : s.gated wTIM = false) (href : s.pwr.refLost = false) :
    s.whenTim f = f s := by
  simp [State.whenTim, hlive, href]

/-- Two fields written one after the other, read at a register of neither. -/
theorem State.reg_put_put_ne {f g : Fld} {m n a : Nat} (hf : a ≠ f.addr) (hg : a ≠ g.addr) :
    ((s.put f m).put g n).reg a = s.reg a := by
  rw [State.reg_put_ne hg, State.reg_put_ne hf]

/-- A register bit raised reads 1. -/
theorem State.get_raise_same {f : Fld} (hfit : f.fits = true) (hw : f.w = 1) : (s.raise f).get f = 1 := by
  rw [State.raise_eq, State.get_put_same hfit, hw]
  rfl

end

/-- Settles O13: each command by its condition and what it writes. -/
theorem timeEngineActs : Obligations.TimeEngineActs := by
  intro s hlive href
  refine ⟨?latch, fun p => rfl, fun p b hp => ?foreign, fun hstate hremain => ?slew, fun t0 hstate hsince hdue => ?holdover⟩
  case latch =>
    change Host.Outcome.next _ = _
    rw [State.whenTim_of_running hlive href]
    rfl
  case foreign =>
    have hexec : exec (.sensorPtpRx p b) s = .next { s.raise F.TIM_EVENT_FOREIGN_MASTER with
        tim := { s.tim with foreign := s.tim.foreign + 1 } } := by
      change Host.Outcome.next _ = _
      rw [State.whenTim_of_running hlive href, if_neg (by omega)]
    exact ⟨_, hexec, (State.get_of_regs rfl).trans (State.get_raise_same (s := s) rfl rfl), rfl, rfl,
      fun a ha => State.reg_put_ne (s := s) ha⟩
  case slew =>
    have hexec : exec .slewComplete s = .next ((s.put F.TIM_STATUS_STATE tmLOCKED).put F.TIM_FREQ_ADJ_SLEW_ADJ 0) := by
      change Host.Outcome.next _ = _
      rw [State.whenTim_of_running hlive href, if_pos (by simp [State.timeState, hstate, hremain])]
    refine ⟨_, hexec, ?_, ?_, ?_, rfl, fun a ha hb => State.reg_put_put_ne ha hb⟩
    · rw [State.get_put_ne rfl, State.get_put_same rfl]
      rfl
    · rw [State.get_put_same rfl]
      rfl
    · rw [State.get_put_ne rfl, State.get_put_ne rfl]
  case holdover =>
    have hexec : exec .holdoverLimit s = .next ((s.raise F.TIM_STATUS_UNTRACEABLE).raise F.TIM_EVENT_UNTRACEABLE) := by
      change Host.Outcome.next _ = _
      rw [State.whenTim_of_running hlive href]
      simp [hsince, State.timeState, hstate, State.now, hdue]
    refine ⟨_, hexec, ?_, State.get_raise_same rfl rfl, ?_, rfl, fun a ha hb => State.reg_put_put_ne ha hb⟩
    · rw [State.raise_eq, State.get_put_ne rfl, State.get_raise_same rfl rfl]
    · rw [State.raise_eq, State.raise_eq, State.get_put_ne rfl, State.get_put_ne rfl, hstate]

/-! ## gPTP messages (R21, R22, R386) -/

section
variable {s : State} {p k : Nat}

/-- Over two ports with an Announce on each, the slave port is the one with the better vector, port A at a tie (R21). -/
theorem State.slavePort_of_both {a b : List Nat} (hA : bitSet (s.get (slotPorts k)) 0 = true)
    (hB : bitSet (s.get (slotPorts k)) 1 = true) (hv : (s.dom k).vectors = [(0, a), (1, b)]) :
    s.slavePort k = if vectorLe a b then some 0 else some 1 := by
  simp [State.slavePort, hv, hA, hB]

theorem State.passive_of_slavePort {q : Nat} (h : s.slavePort k = some q) : s.passive k p = (q != p) := by
  simp [State.passive, h]

/-- A receipt timer that has expired ages the port out, and the domain is lost when all of its timers have (R22). -/
theorem State.receiptTimeout_of_expired {n : Nat} {l : List (Nat × Time × Int)} (hen : s.on (slotEn k) = true)
    (hany : (l.filter (fun x => bitSet (s.get (slotPorts k)) x.1)).any (fun x => x.1 == p && s.rxExpired n x) = true) :
    s.receiptTimeout k n l p =
      (let u := (s.updDom k (fun x => { x with vectors := x.vectors.filter (fun v => v.1 != p) })).showSlave k
       if (l.filter (fun x => bitSet (s.get (slotPorts k)) x.1)).all (u.rxExpired n) then
         (u.raise (slotLost k)).unqualify k else u) := by
  unfold State.receiptTimeout
  simp only [hany, hen, Bool.and_self, if_true]

end

/-- Settles O14. -/
theorem ptpMessagesAct : Obligations.PtpMessagesAct := by
  intro s hlive href
  refine ⟨fun p d q k o c l u hslot hu hpass => ?sync2, fun p d q k o c l u hslot hu hpass => ?sync1,
    fun p d q k two o c l u hslot hu hpass => ?passive, fun p d q k o c rx c0 sl u hslot hfind hu hpass => ?followUp,
    fun p d cls k gm utc l hslot hcls hgm => ?announce, fun k a b hk hA hB hv => ?bmca, fun p st hp => ?request,
    fun p st t1 t2 t4 hp ht1 hresp => ?response, fun k p l hk hl hen hany => ?syncLost, fun k p l hk hl hen hany => ?announceLost⟩
  case sync2 =>
    change Host.Outcome.next _ = _
    subst hu
    rw [State.whenTim_of_running hlive href]
    simp only [hslot, State.now, hpass, Bool.false_eq_true, if_false, if_true]
  case sync1 =>
    change Host.Outcome.next _ = _
    subst hu
    rw [State.whenTim_of_running hlive href]
    simp only [hslot, State.now, hpass, Bool.false_eq_true, if_false]
  case passive =>
    change Host.Outcome.next _ = _
    subst hu
    rw [State.whenTim_of_running hlive href]
    simp only [hslot, State.now, hpass, if_true]
  case followUp =>
    change Host.Outcome.next _ = _
    subst hu
    rw [State.whenTim_of_running hlive href]
    simp only [hslot, hfind, hpass, Bool.false_eq_true, if_false]
  case announce =>
    change Host.Outcome.next _ = _
    have hkept : (decide (s.get F.TIM_QUALIFY_CLASS_LIMIT < cls) || ((s.dom k).announced && (s.dom k).gmId != gm.id)) = false := by
      simpa [Nat.not_lt.mpr hcls] using hgm
    rw [State.whenTim_of_running hlive href]
    simp only [hslot, hkept, State.now, Bool.false_eq_true, if_false]
    rfl
  case bmca =>
    have hslave := State.slavePort_of_both hA hB hv
    cases hle : vectorLe a b
    · rw [hle] at hslave
      exact ⟨State.passive_of_slavePort hslave, State.passive_of_slavePort hslave⟩
    · rw [hle] at hslave
      exact ⟨State.passive_of_slavePort hslave, State.passive_of_slavePort hslave⟩
  case request =>
    change Host.Outcome.next _ = _
    rw [State.whenTim_of_running hlive href, if_neg (by omega)]
    rfl
  case response =>
    change Host.Outcome.next _ = _
    rw [State.whenTim_of_running hlive href, if_neg (by omega)]
    simp only [State.pdelayRx, ht1, hresp, linkDelay]
  case syncLost =>
    change Host.Outcome.next _ = _
    rw [State.whenTim_of_running hlive href, if_neg (by omega), hl, State.receiptTimeout_of_expired hen hany]
  case announceLost =>
    change Host.Outcome.next _ = _
    rw [State.whenTim_of_running hlive href, if_neg (by omega), hl, State.receiptTimeout_of_expired hen hany]

/-! ## The time state (R18, R19, R23) -/

section
variable {s : State} {k : Nat}

/-- The state in which a switch of the active domain takes up its slot: the switch is counted and the servo starts anew. -/
def State.switchCounted (s : State) : State := ((s.raise F.TIM_EVENT_SWITCH).satInc F.TIM_COUNTS_SWITCH_COUNT).clearIntegral

theorem State.get_switchCounted_eq {f : Fld} :
    s.switchCounted.get f = ((s.raise F.TIM_EVENT_SWITCH).satInc F.TIM_COUNTS_SWITCH_COUNT).get f := State.get_of_regs rfl

theorem State.get_switchCounted {f : Fld} (hevent : F.TIM_EVENT_SWITCH.apart f = true) (hcount : F.TIM_COUNTS_SWITCH_COUNT.apart f = true) :
    s.switchCounted.get f = s.get f := by
  rw [State.get_switchCounted_eq, State.satInc_eq, State.get_put_ne hcount, State.raise_eq, State.get_put_ne hevent]

theorem State.getI_of_get {t : State} {f : Fld} (h : t.get f = s.get f) : t.getI f = s.getI f := by
  rw [State.getI, State.getI, h]

/-- The registers after following a slot. -/
def State.slotFollowed (s : State) (k : Nat) : State :=
  ((((s.put F.TIM_STATUS_ACTIVE_SLOT k).put F.TIM_STATUS_ACTIVE_DOMAIN (s.get (slotNumber k))).putI F.TIM_SLEW_REMAIN_VALUE 0).put
    F.TIM_FREQ_ADJ_SLEW_ADJ 0).put F.TIM_STATUS_UNTRACEABLE 0

theorem State.get_followSlot {f : Fld} : (s.followSlot k).get f = (s.slotFollowed k).get f := rfl

theorem State.get_slotFollowed {f : Fld} (hslot : F.TIM_STATUS_ACTIVE_SLOT.apart f = true)
    (hdomain : F.TIM_STATUS_ACTIVE_DOMAIN.apart f = true) (hremain : F.TIM_SLEW_REMAIN_VALUE.apart f = true)
    (hadj : F.TIM_FREQ_ADJ_SLEW_ADJ.apart f = true) (hun : F.TIM_STATUS_UNTRACEABLE.apart f = true) :
    (s.slotFollowed k).get f = s.get f := by
  rw [State.slotFollowed, State.get_put_ne hun, State.get_put_ne hadj, State.putI_eq, State.get_put_ne hremain,
    State.get_put_ne hdomain, State.get_put_ne hslot]

/-- An offset within the threshold is slewed (R20, R24). -/
theorem State.slewOrStep_of_within (hoff : s.getI (slotOffset k) ≠ 0)
    (hle : (s.getI (slotOffset k)).natAbs ≤ s.get F.TIM_DISC_THRESHOLD_THRESHOLD) :
    s.slewOrStep k = (((s.followSlot k).put F.TIM_STATUS_STATE tmSLEWING).putI F.TIM_SLEW_REMAIN_VALUE (s.getI (slotOffset k))).putI
      F.TIM_FREQ_ADJ_SLEW_ADJ (if 0 < s.getI (slotOffset k) then 655360 else -655360) := by
  have hthreshold : (s.followSlot k).get F.TIM_DISC_THRESHOLD_THRESHOLD = s.get F.TIM_DISC_THRESHOLD_THRESHOLD := by
    rw [State.get_followSlot, State.get_slotFollowed rfl rfl rfl rfl rfl]
  unfold State.slewOrStep
  simp only [hthreshold, if_pos hle, State.slewTo, if_neg hoff]

theorem State.get_followSlot_slot (hk : k < 2) : (s.followSlot k).get F.TIM_STATUS_ACTIVE_SLOT = k := by
  rw [State.get_followSlot, State.slotFollowed, State.get_put_ne rfl, State.get_put_ne rfl, State.putI_eq, State.get_put_ne rfl,
    State.get_put_ne rfl, State.get_put_same rfl]
  exact Nat.mod_eq_of_lt hk

theorem State.get_followSlot_domain : (s.followSlot k).get F.TIM_STATUS_ACTIVE_DOMAIN = s.get (slotNumber k) % 2 ^ 8 := by
  rw [State.get_followSlot, State.slotFollowed, State.get_put_ne rfl, State.get_put_ne rfl, State.putI_eq, State.get_put_ne rfl,
    State.get_put_same rfl]
  rfl

theorem slotNumber_cases {P : Fld → Prop} (h0 : P F.TIM_DOM_CFG0_DOMAIN_NUMBER) (h1 : P F.TIM_DOM_CFG1_DOMAIN_NUMBER) : P (slotNumber k) := by
  unfold slotNumber portFld
  split <;> assumption

theorem slotOffset_cases {P : Fld → Prop} (h0 : P F.TIM_DOM_OFFSET0_VALUE) (h1 : P F.TIM_DOM_OFFSET1_VALUE) : P (slotOffset k) := by
  unfold slotOffset portFld
  split <;> assumption

end

/-- Settles O15: the first two clauses are the commands' conditions; in the third, the writes of a switch within the threshold are
to fields apart from those read. -/
theorem timeStateActs : Obligations.TimeStateActs := by
  intro s hlive href
  refine ⟨fun t0 hacq hstate hdue => ?timeout, fun k t0 hpref hrev hqual hfol hsince hdue => ?revert, fun k hk hoff hle => ?slew⟩
  case timeout =>
    change Host.Outcome.next _ = _
    rw [State.whenTim_of_running hlive href]
    simp only [hacq]
    rw [if_pos (by simp [State.timeState, hstate, State.now, hdue])]
    rfl
  case revert =>
    change Host.Outcome.next _ = _
    subst hpref
    rw [State.whenTim_of_running hlive href]
    simp only [hsince]
    rw [if_pos (by simp [hrev, hqual, hfol, State.now, hdue])]
  case slew =>
    have hoffset : s.switchCounted.getI (slotOffset k) = s.getI (slotOffset k) :=
      State.getI_of_get (slotOffset_cases (P := fun f => s.switchCounted.get f = s.get f)
        (State.get_switchCounted rfl rfl) (State.get_switchCounted rfl rfl))
    have hnumber : s.switchCounted.get (slotNumber k) = s.get (slotNumber k) :=
      slotNumber_cases (P := fun f => s.switchCounted.get f = s.get f)
        (State.get_switchCounted rfl rfl) (State.get_switchCounted rfl rfl)
    have hthreshold : s.switchCounted.get F.TIM_DISC_THRESHOLD_THRESHOLD = s.get F.TIM_DISC_THRESHOLD_THRESHOLD :=
      State.get_switchCounted rfl rfl
    have hwide : s.get (slotNumber k) < 2 ^ 8 := slotNumber_cases (P := fun f => s.get f < 2 ^ 8)
      (State.get_lt.trans (by decide)) (State.get_lt.trans (by decide))
    have hswitch : s.switchTo k = (((s.switchCounted.followSlot k).put F.TIM_STATUS_STATE tmSLEWING).putI F.TIM_SLEW_REMAIN_VALUE
        (s.getI (slotOffset k))).putI F.TIM_FREQ_ADJ_SLEW_ADJ (if 0 < s.getI (slotOffset k) then 655360 else -655360) := by
      change s.switchCounted.slewOrStep k = _
      rw [State.slewOrStep_of_within (by rwa [hoffset]) (by rwa [hoffset, hthreshold]), hoffset]
    rw [hswitch]
    refine ⟨?_, ?_, ?_, ?_, rfl⟩
    · rw [State.putI_eq, State.get_put_ne rfl, State.putI_eq, State.get_put_ne rfl, State.get_put_same rfl]
      rfl
    · rw [State.putI_eq, State.get_put_ne rfl, State.putI_eq, State.get_put_ne rfl, State.get_put_ne rfl, State.get_followSlot_slot hk]
    · rw [State.putI_eq, State.get_put_ne rfl, State.putI_eq, State.get_put_ne rfl, State.get_put_ne rfl, State.get_followSlot_domain,
        hnumber, Nat.mod_eq_of_lt hwide]
    · rw [State.putI_eq, State.get_put_ne rfl, State.putI_eq, State.get_put_ne rfl, State.get_put_ne rfl,
        State.get_followSlot, State.get_slotFollowed rfl rfl rfl rfl rfl]
      rw [State.get_switchCounted_eq, State.satInc_eq, State.get_put_ne rfl, State.get_raise_same rfl rfl]

/-! ## What device time sends (R27 to R32) -/

/-- Two changes at one place of a list that agree on what stands there are the same change. -/
theorem modifyAt_congr {α : Type} {f g : α → α} {l : List α} {i : Nat} {d : α} (h : f (l.getD i d) = g (l.getD i d)) :
    modifyAt f i l = modifyAt g i l := by
  induction l generalizing i with
  | nil => simp [modifyAt]
  | cons x r ih =>
    cases i with
    | zero => simpa [modifyAt] using h
    | succ n => simpa [modifyAt] using ih (by simpa using h)

theorem modifyAt_modifyAt {α : Type} {f g : α → α} {l : List α} {i : Nat} :
    modifyAt g i (modifyAt f i l) = modifyAt (g ∘ f) i l := by
  induction l generalizing i with
  | nil => simp [modifyAt]
  | cons x r ih =>
    cases i with
    | zero => rfl
    | succ n => simpa [modifyAt] using ih

section
variable {s : State} {p : Nat}

/-- A Pdelay request leaves at its interval (R21, R27). -/
theorem State.pdelayTx_of_due {key : Nat} {interval : Int} (h : s.txDue key interval = true) :
    s.pdelayTx p key interval = (s.txSend p { cls := txStatus, kind := .ptp 2 [] }).noteTx key := by
  rw [State.pdelayTx, if_pos h]

/-- A lone gPTP message on an idle port that is up starts at once. -/
theorem State.txTake_of_lone {kind : Nat} {f : List Int} (hport : s.txPort p = { queue := [{ cls := txStatus, kind := .ptp kind f }] })
    (hup : s.txUp p = true) (hguard : s.guarded p = false) :
    s.txTake p = (s.updTx p (fun q => { q with
      queue := q.queue.erase { cls := txStatus, kind := .ptp kind f }, cur := some { cls := txStatus, kind := .ptp kind f }
      busy := min 0 q.busy + s.wireTime p (.ptp kind f) })).ptpDeparts p kind f := by
  have hnext : nextItem [({ cls := txStatus, kind := .ptp kind f } : TxItem)] = some { cls := txStatus, kind := .ptp kind f } := by
    simp [nextItem]
  have hcls : (txStatus == txTrain) = false := rfl
  unfold State.txTake
  simp only [hport, hup, hguard, hnext, TxKind.isTile, hcls, Option.isSome_none, Bool.not_true, Bool.or_self, Bool.false_and,
    Bool.false_eq_true, if_false, State.departs]

/-- A launch queue changed. -/
def State.updLaunch (s : State) (p : Nat) (f : List Launch → List Launch) : State :=
  { s with tim := { s.tim with launch := modifyAt f p s.tim.launch } }

/-- A launch queue whose head has just been judged late or in time (R30). -/
def State.judged (s : State) (p : Nat) (l : List Launch) : List Launch :=
  match l with
  | [] => []
  | e :: r => { e with late := match (s.txPort p).last with
      | some (t, l) => if t = e.time then l else s.timePassed e.time
      | none => s.timePassed e.time } :: r

theorem State.judgeHead_eq : s.judgeHead p = s.updLaunch p (s.judged p) := rfl

theorem State.updLaunch_updLaunch {f g : List Launch → List Launch} : (s.updLaunch p f).updLaunch p g = s.updLaunch p (g ∘ f) := by
  simp only [State.updLaunch, modifyAt_modifyAt]

/-- An entry queued alone, with no entry before it still leaving, is judged at once (R30). -/
theorem State.queueLaunch_of_empty {e : Launch} (hq : s.tim.launch.getD p [] = []) (hfree : s.launching p = false) :
    s.queueLaunch p e = (s.updLaunch p (insertBy (·.time) e)).judgeHead p := by
  have hdepth : ¬ launchDepth p ≤ 0 := by
    unfold launchDepth
    split <;> decide
  have hjudged : (true && !(s.updLaunch p (insertBy (·.time) e)).launching p) = true := by
    change (true && !s.launching p) = true
    rw [hfree]
    rfl
  unfold State.queueLaunch
  rw [hq]
  exact (if_neg hdepth).trans (if_pos hjudged)

/-- The head of a launch queue whose time has not passed, with none launched before it, is in time (R30). -/
theorem State.judgeHead_of_early {e : Launch} (hq : s.tim.launch.getD p [] = []) (hlast : (s.txPort p).last = none)
    (he : s.tim.time < e.time + 40) :
    (s.updLaunch p (insertBy (·.time) e)).judgeHead p = s.updLaunch p (fun _ => [{ e with late := false }]) := by
  have hlate : s.timePassed e.time = false := decide_eq_false (Int.not_le.mpr he)
  have hjudged : (s.updLaunch p (insertBy (·.time) e)).judged p = s.judged p := rfl
  rw [State.judgeHead_eq, hjudged, State.updLaunch_updLaunch, State.updLaunch, State.updLaunch,
    modifyAt_congr (d := []) (g := fun _ => [{ e with late := false }])]
  simp only [hq, Function.comp_apply, insertBy, State.judged, hlast, hlate]

end

/-- Settles O16: the commands' conditions, one by one; a message on an idle port starts in the same step, and an entry alone in
its launch queue is judged in time. -/
theorem timedOutputsAct : Obligations.TimedOutputsAct := by
  intro s hlive href
  refine ⟨fun p hmaster hdue hstate => ?announce, fun p hmaster hdue => ?sync, fun p hmaster hdue => ?pdelay,
    fun p hp hup hdue => ?hostPdelay, fun p st hmaster => ?respond, fun p kind f hp hport hup hguard hkind => ?departs,
    fun p dst ti dl pl hp hq hfree hearly hlast => ?first, fun p dst ti dl pl h r hp hq hle hroom => ?later,
    fun p e r hq htrain hdue hlate hfree => ?launch, fun o e ho hen hedge hlast hnow => ?edge, fun o e a hpulse hdue => ?pulseEnd⟩
  case announce =>
    change Host.Outcome.next _ = _
    rw [State.whenTim_of_running hlive href, if_pos (by rw [hmaster, hdue]; rfl)]
    simp only [State.timeState, hstate]
    rfl
  case sync =>
    change Host.Outcome.next _ = _
    rw [State.whenTim_of_running hlive href, if_pos (by rw [hmaster, hdue]; rfl)]
  case pdelay =>
    change Host.Outcome.next _ = _
    rw [State.whenTim_of_running hlive href, if_pos hmaster, State.pdelayTx_of_due hdue]
  case hostPdelay =>
    change Host.Outcome.next _ = _
    rw [State.whenTim_of_running hlive href, if_pos (by simp [hp, hup]), State.pdelayTx_of_due hdue]
  case respond =>
    change Host.Outcome.next _ = _
    rw [State.whenTim_of_running hlive href, if_pos hmaster]
    rfl
  case departs =>
    have hready : (s.updTx p (fun q => { q with queue := q.queue ++ [{ cls := txStatus, kind := .ptp kind f }] })).txPort p =
        { queue := [{ cls := txStatus, kind := .ptp kind f }] } := by
      unfold State.updTx State.txPort
      rw [getD_modifyAt hp]
      unfold State.txPort at hport
      rw [hport]
      rfl
    rw [State.txSend, State.txTake_of_lone hready hup hguard]
    rcases hkind with rfl | rfl
    · rfl
    · rfl
  case first =>
    change Host.Outcome.next _ = _
    rw [State.whenTim_of_running hlive href, if_neg (by omega)]
    rw [State.queueLaunch_of_empty hq hfree, State.judgeHead_of_early hq hlast hearly]
    rfl
  case later =>
    change Host.Outcome.next _ = _
    rw [State.whenTim_of_running hlive href, if_neg (by omega)]
    have hlater : ¬ ti < h.time := Int.not_lt.mpr hle
    unfold State.queueLaunch
    simp only [hq, List.length_cons, if_neg (Nat.not_le.mpr hroom), hlater, decide_false, Bool.false_and, Bool.false_eq_true, if_false]
  case launch =>
    change Host.Outcome.next _ = _
    have hnow : ¬ s.now < e.time := by simpa [State.now] using hdue
    rw [State.whenTim_of_running hlive href]
    simp only [hq, hnow, hfree, hlate, htrain, decide_false, Bool.or_self, Bool.false_and, Bool.false_eq_true, if_false,
      Option.isNone_none, if_true]
  case edge =>
    change Host.Outcome.next _ = _
    rw [State.whenTim_of_running hlive href, if_neg (by simp [ho, hen])]
    simp only [State.now, hedge, hlast]
    rw [if_pos (by rw [Bool.true_and]; exact decide_eq_true hnow)]
  case pulseEnd =>
    change Host.Outcome.next _ = _
    rw [State.whenTim_of_running hlive href]
    simp only [hpulse]
    exact congrArg Host.Outcome.next (if_pos hdue)

/-! ## What the time commands leave unchanged -/

section
variable {s t u : State}

theorem State.whenTim_cases {P : State → Prop} {f : State → State} (h : P s) (hf : P (f s)) : P (s.whenTim f) := by
  unfold State.whenTim
  split <;> assumption

/-- A command that acts if it acts at all behind TIM's gate. -/
theorem State.of_next_whenTim {P : State → Prop} {f : State → State}
    (h : (Host.Outcome.next (s.whenTim f) : Host.Outcome State Fault Refusal) = .next t) (hs : P s) (hf : P (f s)) : P t := by
  cases h
  exact State.whenTim_cases hs hf

/-- t differs from s at most in TIM's state, the registers and what has left the device. -/
def State.TimeOnly (s t : State) : Prop := t = { s with tim := t.tim, regs := t.regs, out := t.out }

theorem State.TimeOnly.refl : State.TimeOnly s s := rfl

theorem State.TimeOnly.ite {c : Prop} [Decidable c] (h : State.TimeOnly s t) (h' : State.TimeOnly s u) :
    State.TimeOnly s (if c then t else u) := by
  split <;> assumption

theorem State.TimeOnly.tim {x : Tim} : State.TimeOnly s { s with tim := x } := rfl

theorem State.TimeOnly.put {f : Fld} {n : Nat} : State.TimeOnly s (s.put f n) := rfl

theorem State.TimeOnly.put_put {f g : Fld} {m n : Nat} : State.TimeOnly s ((s.put f m).put g n) := rfl

theorem State.TimeOnly.put_tim {f : Fld} {n : Nat} {x : Tim} : State.TimeOnly s { s.put f n with tim := x } := rfl

theorem State.TimeOnly.queueLaunch {p : Nat} {e : Launch} : State.TimeOnly s (s.queueLaunch p e) := by
  unfold State.queueLaunch
  extract_lets q first _ b
  exact .ite .put_put (.ite .tim .tim)

/-- A frame leaves on a port, and the instant is noted. -/
theorem State.Sends.txSend_noteTx {p k : Nat} {x : TxItem} : State.Sends s ((s.txSend p x).noteTx k) :=
  State.Sends.txSend.trans .noteTx

theorem State.Sends.pdelayTx {p k : Nat} {i : Int} : State.Sends s (s.pdelayTx p k i) :=
  .ite .txSend_noteTx .rfl

end

/-- Settles O57: the commands that send do so by `txSend`, whose frame `State.Sends` says; the others write TIM's registers and
state alone. -/
theorem timeCommandsFrame : Obligations.TimeCommandsFrame := by
  intro s
  refine ⟨fun t h => ?latch, fun p t h => ?signaling, fun p b t h => ?foreign, fun t h => ?slew, fun t h => ?holdover,
    fun p t h => ?announce, fun p t h => ?sync, fun p t h => ?sensorPdelay, fun p t h => ?hostPdelay,
    fun p dst ti dl pl t h => ?launchRequest, fun o t h => ?edge, fun o t h => ?pulseEnd⟩
  case latch => exact State.of_next_whenTim (P := State.TimeOnly s) h .refl .tim
  case signaling =>
    cases h
    exact State.TimeOnly.refl
  case foreign => exact State.of_next_whenTim (P := State.TimeOnly s) h .refl (.ite .refl .put_tim)
  case slew => exact State.of_next_whenTim (P := State.TimeOnly s) h .refl (.ite .put_put .refl)
  case holdover =>
    refine State.of_next_whenTim (P := State.TimeOnly s) h .refl ?_
    split
    · exact .refl
    · exact .ite .put_put .refl
  case announce => exact State.of_next_whenTim (P := State.Sends s) h .rfl (.ite .txSend_noteTx .rfl)
  case sync => exact State.of_next_whenTim (P := State.Sends s) h .rfl (.ite .txSend_noteTx .rfl)
  case sensorPdelay => exact State.of_next_whenTim (P := State.Sends s) h .rfl (.ite .pdelayTx .rfl)
  case hostPdelay => exact State.of_next_whenTim (P := State.Sends s) h .rfl (.ite .pdelayTx .rfl)
  case launchRequest => exact State.of_next_whenTim (P := State.TimeOnly s) h .refl (.ite .refl .queueLaunch)
  case edge =>
    refine State.of_next_whenTim (P := State.TimeOnly s) h .refl (.ite .refl ?_)
    split
    · exact .refl
    · exact .ite .tim .refl
  case pulseEnd =>
    refine State.of_next_whenTim (P := State.TimeOnly s) h .refl ?_
    split
    · exact .refl
    · exact .ite .tim .refl

end Sys2Proof.Machine
end

section
/-! Proofs: the root of trust (19): anti-rollback and quotes, and what SEC's own commands leave unchanged. -/

namespace Sys2Proof.Machine

section
variable {s t u : State} {p : Nat}

/-! ## A host frame that is served (R326) -/

theorem State.hostFrame_of_served {served : Bool} {f : State → State} (hlisten : s.hostListens p = true)
    (hmac : (s.needsMacsec p && !s.mkaLive p) = false) (hserved : served = true) (hopen : s.openRequests p < 16) :
    s.hostFrame p served f = f (s.modInc (F.HST_RX_ACCEPTED p)) := by
  simp only [State.hostFrame, hlisten, hmac, hserved, decide_eq_false (Nat.not_le.mpr hopen), Bool.not_true, Bool.or_self,
    Bool.false_eq_true, if_false]

/-! ## The frame of SEC's commands -/

/-- t differs from s at most in SEC's state, the registers, what has left the device and the count of free values. -/
def State.SecOnly (s t : State) : Prop := t = { s with sec := t.sec, regs := t.regs, out := t.out, free := t.free }

theorem State.SecOnly.refl : State.SecOnly s s := rfl

theorem State.SecOnly.trans (h : State.SecOnly s t) (h' : State.SecOnly t u) : State.SecOnly s u := by
  refine Eq.trans h' ?_
  rw [h]

theorem State.SecOnly.ite {c : Prop} [Decidable c] (h : State.SecOnly s t) (h' : State.SecOnly s u) :
    State.SecOnly s (if c then t else u) := by
  split <;> assumption

theorem State.SecOnly.put {f : Fld} {n : Nat} : State.SecOnly s (s.put f n) := rfl

theorem State.SecOnly.sec {x : Sec} : State.SecOnly s { s with sec := x } := rfl

theorem State.SecOnly.emit {o : Out} : State.SecOnly s (s.emit o) := rfl

theorem State.SecOnly.fresh : State.SecOnly s s.fresh := rfl

theorem State.SecOnly.updFuses {f : Fuses → Fuses} : State.SecOnly s (s.updFuses f) := .sec

theorem State.SecOnly.updMka {f : Mka → Mka} : State.SecOnly s (s.updMka p f) := .sec

theorem State.SecOnly.showFuses : State.SecOnly s s.showFuses :=
  ((((State.SecOnly.put.trans .put).trans .put).trans .put).trans .put)

theorem State.SecOnly.advanceRollback {n : Nat} : State.SecOnly s (s.advanceRollback n) :=
  .ite (State.SecOnly.put.trans .put) (.ite (State.SecOnly.put.trans .put) ((State.SecOnly.put.trans .put).trans .sec))

theorem State.SecOnly.blowRollback : State.SecOnly s s.blowRollback := State.SecOnly.sec.trans .put

end

/-- Settles O49: each clause is its command's branch under the conditions it names. -/
theorem rootOfTrustCounts : Obligations.RootOfTrustCounts := by
  intro s
  refine ⟨fun t u hu himage hidle hlow hhigh => ?advance, fun t htarget hlow => ?fuse, fun t u htarget hu hdone => ?last,
    fun port src reqId flags nonce u q hlisten hmac hserved hopen hu hlen hlife htamper hid hsign hq => ?quote,
    fun port src reqId flags nonce u x hlisten hmac hserved hopen hu hlen hlife htamper hid hsign hwait => ?second,
    fun q b seed u hsign hseed hwait hu => ?ready⟩
  case advance =>
    change Host.Outcome.next _ = _
    subst hu
    have hallowed : (!(s.put F.SEC_ROLLBACK_CMD_TARGET (t % 128)).on F.SEC_STATUS_IMAGE_LOADED
        || (s.put F.SEC_ROLLBACK_CMD_TARGET (t % 128)).sec.rollTarget.isSome
        || decide (t % 128 < (s.put F.SEC_ROLLBACK_CMD_TARGET (t % 128)).fuseSvn)
        || decide ((s.put F.SEC_ROLLBACK_CMD_TARGET (t % 128)).boot.start.svn < t % 128)) = false := by
      rw [himage, hidle, decide_eq_false (by omega), decide_eq_false (by omega)]
      rfl
    unfold State.advanceRollback
    simp only [hallowed, Bool.false_eq_true, if_false, if_neg hlow.ne']
  case fuse =>
    change Host.Outcome.next _ = _
    simp only [htarget, if_pos hlow]
  case last =>
    change Host.Outcome.next _ = _
    subst hu
    simp only [htarget, if_neg hdone]
  case quote =>
    change Host.Outcome.next _ = _
    subst hu hq
    rw [State.hostFrame_of_served hlisten hmac hserved hopen]
    simp only [hlen, hlife, htamper, hid, hsign, ne_eq, not_true_eq_false, decide_false, Bool.not_true, Bool.or_self, Bool.false_eq_true,
      if_false, Option.isNone_none, if_true]
  case second =>
    change Host.Outcome.next _ = _
    subst hu
    rw [State.hostFrame_of_served hlisten hmac hserved hopen]
    simp only [hlen, hlife, htamper, hid, hsign, hwait, ne_eq, not_true_eq_false, decide_false, Bool.not_true, Bool.or_self,
      Bool.false_eq_true, if_false, Option.isNone_none, Option.isNone_some, if_true]
  case ready =>
    change Host.Outcome.next _ = _
    subst hu
    simp only [hsign, hseed, hwait]

/-- Settles O58: each command is a chain of writes to registers and to SEC's state, of an output or a free value drawn; an MKA
hello is sent as `State.Sends` says. -/
theorem securityCommandsFrame : Obligations.SecurityCommandsFrame := by
  intro s
  refine ⟨fun k t h => ?advance, fun t h => ?fuse, fun t h => ?challenge, fun b t h => ?response, fun t h => ?verify,
    fun k n t h => ?key, fun k t h => ?revoke, fun t h => ?decommission, fun t h => ?disable, fun p t h => ?hello,
    fun p k n t h => ?mkpdu, fun p t h => ?drop⟩ <;> cases h
  case advance => exact State.SecOnly.advanceRollback
  case fuse =>
    change State.SecOnly s _
    split
    · exact .refl
    · exact .ite .blowRollback (((State.SecOnly.blowRollback.trans .put).trans .put).trans .sec)
  case challenge => exact State.SecOnly.ite .refl ((State.SecOnly.fresh.trans .emit).trans .sec)
  case response => exact State.SecOnly.ite .refl .sec
  case verify =>
    change State.SecOnly s _
    split
    · exact .refl
    next r c t _ =>
      refine .ite (((State.SecOnly.sec.trans .put).trans .put).trans .sec) (State.SecOnly.trans ?_ .sec)
      exact .ite (((State.SecOnly.sec.trans .put).trans .put).trans .put) ((State.SecOnly.sec.trans .put).trans .put)
  case key =>
    change State.SecOnly s _
    refine .ite .refl ?_
    split
    · exact .refl
    · split
      · exact .put
      · exact .updFuses
  case revoke => exact State.SecOnly.ite .updFuses .refl
  case decommission => exact State.SecOnly.ite (State.SecOnly.updFuses.trans .showFuses) .refl
  case disable => exact State.SecOnly.ite (State.SecOnly.updFuses.trans .showFuses) .refl
  case hello => exact State.Sends.ite (State.Sends.txSend.trans .sec) .rfl
  case mkpdu => exact State.SecOnly.ite .refl (.ite (State.SecOnly.put.trans .updMka) (State.SecOnly.put.trans .updMka))
  case drop => exact State.SecOnly.ite (State.SecOnly.put.trans .put) .refl

end Sys2Proof.Machine
end

section
/-! Proofs: the host interface (20): requests that read, requests that act, trains and links. -/

namespace Sys2Proof.Machine

/-- Settles O51: each request is served (`State.hostFrame_of_served`) and takes the branch its operands name. -/
theorem hostReadsAnswered : Obligations.HostReadsAnswered := by
  intro s port hlisten hmac
  refine ⟨fun src reqId u hopen hu hserved => ?status, fun src reqId hopen hserved => ?start,
    fun src reqId hopen hserved => ?lifetime, fun src reqId fr n u v es e hopen hu hserved hpos hle hskip hes hlast hv => ?log,
    fun src reqId cycle opt mask u hopen hu hserved hwait hmask => ?tiles,
    fun src reqId cycle opt mask i u v hopen hu hserved hwait hmask hinst hfew hlater hv => ?waits⟩
  case status =>
    change Host.Outcome.next _ = _
    rw [State.hostFrame_of_served hlisten hmac hserved hopen, hu]
  case start =>
    change Host.Outcome.next _ = _
    rw [State.hostFrame_of_served hlisten hmac hserved hopen]
  case lifetime =>
    change Host.Outcome.next _ = _
    rw [State.hostFrame_of_served hlisten hmac hserved hopen]
  case log =>
    change Host.Outcome.next _ = _
    subst hu hv hes
    have hcount : ¬ (n = 0 ∨ 4096 < n) := by omega
    rw [State.hostFrame_of_served hlisten hmac hserved hopen]
    simp only [if_neg hcount, decide_eq_false (Nat.not_le.mpr hskip), Bool.false_eq_true, if_false, hlast]
  case tiles =>
    change Host.Outcome.next _ = _
    subst hu
    rw [State.hostFrame_of_served hlisten hmac hserved hopen]
    simp only [hwait, Bool.not_false, if_true, hmask, if_false]
  case waits =>
    change Host.Outcome.next _ = _
    subst hu hv
    rw [State.hostFrame_of_served hlisten hmac hserved hopen]
    simp only [hwait, Bool.not_true, Bool.false_eq_true, if_false, hmask, hinst, Option.isNone_some, Nat.not_le.mpr hfew, hlater]

/-- Settles O52: each request is served and takes the branch its operands name. -/
theorem hostCommandsTaken : Obligations.HostCommandsTaken := by
  intro s port hlisten hmac
  refine ⟨fun src reqId seq fl items u hopen hu hserved hclear hpos hle hseq => ?stage,
    fun src reqId h u hopen hu hserved hlen hmode hnew => ?commit, fun src reqId h u hopen hu hserved hlen hmode => ?cancel,
    fun src reqId seq fl u hopen hserved hu => ?heartbeat, fun src reqId seq n u hopen hserved hu hreset hn => ?request,
    fun src reqId seq n t u hopen hserved hu hreset hnonce htime => ?confirm, ?malformed, ?dropped⟩
  case stage =>
    change Host.Outcome.next _ = _
    subst hu hseq
    rw [State.hostFrame_of_served hlisten hmac hserved hopen]
    simp only [hclear, hpos.ne', false_or, Bool.not_true, Bool.false_and, Bool.false_eq_true, if_true, if_false, ne_eq, not_true_eq_false,
      List.length_nil, Nat.zero_add, Nat.not_lt.mpr hle, List.nil_append]
  case commit =>
    change Host.Outcome.next _ = _
    rw [State.hostFrame_of_served hlisten hmac hserved hopen, ← hu]
    simp [hlen, hmode, hnew]
  case cancel =>
    change Host.Outcome.next _ = _
    rw [State.hostFrame_of_served hlisten hmac hserved hopen, ← hu]
    simp [hlen, hmode]
  case heartbeat =>
    change Host.Outcome.next _ = _
    subst hu
    rw [State.hostFrame_of_served hlisten hmac hserved hopen]
  case request =>
    change Host.Outcome.next _ = _
    subst hu hn
    rw [State.hostFrame_of_served hlisten hmac hserved hopen]
    simp only [hreset, Bool.not_true, Bool.false_eq_true, if_false]
    rfl
  case confirm =>
    change Host.Outcome.next _ = _
    rw [State.hostFrame_of_served hlisten hmac hserved hopen, ← hu]
    have hnow : decide (u.now ≤ t + 1000000000) = true := decide_eq_true htime
    simp only [hreset, hnonce, hnow, beq_self_eq_true, Bool.and_self, if_true]
  case malformed =>
    change Host.Outcome.next _ = _
    rw [hlisten]
    rfl
  case dropped =>
    change Host.Outcome.next _ = _
    rw [hlisten]
    rfl

/-- Settles O53: each clause is its command's branch under the conditions it names. -/
theorem trainsAndLinksAct : Obligations.TrainsAndLinksAct := by
  intro s
  refine ⟨fun k c tov off mask ts u htov hsub hdeliver hnew hdue hsafe href hts hheld hu => ?train,
    fun p left q u v owes hp hq hlink howes hu hv => ?down, fun p hp href hstep hpower hnotice => ?up⟩
  case train =>
    change Host.Outcome.next _ = _
    have hnow : ¬ s.now < tov + (off : Int) * 1000 - 50000 := Int.not_lt.mpr hdue
    simp only [htov, hsub]
    rw [if_neg (by rw [hdeliver, hnew, hsafe, href, decide_eq_false hnow]; exact Bool.false_ne_true), ← hts, hheld, hu, Nat.sub_self, if_pos rfl]
  case down =>
    change Host.Outcome.next _ = _
    subst hv hu howes hq
    simp only [Nat.not_le.mpr hp, hlink, Bool.not_true, Bool.false_eq_true, or_self, if_false]
  case up =>
    change Host.Outcome.next _ = _
    have hgo : ¬ (2 ≤ p ∨ s.pwr.refLost = true ∨ s.boot.step = .inReset ∨ 2 ≤ s.power) := by
      rw [href, hstep]
      simp only [Bool.false_eq_true, false_or]
      omega
    rw [if_neg hgo]
    simp only [State.saf_put, State.raise_eq, hnotice]

end Sys2Proof.Machine
end

section
/-! Proofs: sleep and wake, clocks, power rails, the records of OBS, and the loss of a unit (17, 21, 22). -/

namespace Sys2Proof.Machine

section
variable {s : State} {k p : Nat}

/-- A wake event of Doze begins the wake (R352). -/
theorem State.wakeEvent_of_doze (hoff : s.pwr.off = false) (href : s.pwr.refLost = false) (hnone : s.pwr.wakeSrc = none)
    (hdoze : s.power = 2) : s.wakeEvent k = s.startWake k := by
  rw [State.wakeEvent, hoff, href, hnone, if_neg (by decide), if_pos hdoze]

/-- The state that the device at rest in Doze shows (R351). -/
theorem State.restInDoze_shows : s.restInDoze.get F.PWR_STATUS_STATE = 2 ∧ s.restInDoze.get F.PWR_STATUS_TRANSITION = 0 ∧
    s.restInDoze.get F.PWR_EVENT_DOZE = 1 := by
  unfold State.restInDoze
  extract_lets a b c
  rw [State.satInc_eq, State.raise_eq]
  refine ⟨?_, ?_, ?_⟩
  · rw [State.get_put_ne rfl, State.get_put_ne rfl, State.get_put_ne rfl, State.get_put_same rfl]
    rfl
  · rw [State.get_put_ne rfl, State.get_put_ne rfl, State.get_put_same rfl]
    rfl
  · rw [State.get_put_ne rfl, State.get_put_same rfl]
    rfl

theorem State.goingTo_restInDoze : s.restInDoze.pwr.goingTo = none := rfl

end

/-- Settles O54: each clause is its command's branch under the conditions it names; what a Doze entry shows is the last it writes. -/
theorem sleepAndWake : Obligations.SleepAndWake := by
  intro s
  refine ⟨fun p hp hen hup hlow => ?request, fun p t hp hreq => ?ack, fun p t hreq htime => ?timeout,
    fun p hoff href hnone hp hen hdoze => ?tc10, fun p hoff href hnone hp hen hdoze => ?energy,
    fun hoff href hnone hen hdoze => ?pin, fun hoff href hnone hen htime hdoze => ?alarm,
    fun bad u htrans hpow href hu hnone => ?rest, fun bad src u v hsrc hpow href hready hu hv => ?awake,
    fun u hpow hmain href hoff hu => ?standby⟩
  case request =>
    change Host.Outcome.next _ = _
    rw [if_pos ⟨hp, hen, hup, hlow⟩]
  case ack =>
    change Host.Outcome.next _ = _
    rw [if_pos ⟨hp, by rw [hreq]; rfl⟩]
  case timeout =>
    change Host.Outcome.next _ = _
    simp only [hreq]
    exact congrArg Host.Outcome.next (if_pos htime)
  case tc10 =>
    change Host.Outcome.next _ = _
    rw [if_pos ⟨hp, hen⟩, State.wakeEvent_of_doze hoff href hnone (of_eq_true hdoze)]
  case energy =>
    change Host.Outcome.next _ = _
    rw [if_pos ⟨hp, by rw [hen]; rfl⟩, State.wakeEvent_of_doze hoff href hnone (of_eq_true hdoze)]
  case pin =>
    change Host.Outcome.next _ = _
    rw [if_pos hen, State.wakeEvent_of_doze hoff href hnone (of_eq_true hdoze)]
  case alarm =>
    change Host.Outcome.next _ = _
    rw [if_pos ⟨hen, htime⟩, State.wakeEvent_of_doze hoff href hnone (of_eq_true hdoze)]
  case rest =>
    have hexec : exec (.dozeEntryDone bad) s = .next u := by
      change Host.Outcome.next _ = _
      rw [if_neg (by simp [htrans, hpow, href]), ← hu]
      simp only [hnone]
    obtain ⟨hstate, htransition, hevent⟩ := State.restInDoze_shows (s := (s.saveErrors bad).saveState)
    rw [← hu] at hstate htransition hevent
    exact ⟨hexec, hstate, htransition, hevent, by rw [hu, State.goingTo_restInDoze]⟩
  case awake =>
    change Host.Outcome.next _ = _
    subst hv hu
    simp only [hsrc]
    rw [if_neg (by simp [hpow, href, hready])]
  case standby =>
    change Host.Outcome.next _ = _
    subst hu
    rw [if_neg (by simp [hpow, hmain, href, hoff])]

/-- Settles O55: each clause is its command's branch under the conditions it names; a write of CLK_SRC before the lock is
`State.writeClkSrc_of_unlocked`. -/
theorem clocksAct : Obligations.ClocksAct := by
  intro s
  refine ⟨fun p t u v hstart hdue href hu hv hup htrans => ?ready, fun v hlock => ?source, fun hoff => ?loss,
    fun us u hlost hu => ?recovery, fun hup hpow href hdue => ?stepUp, fun hup hpow href hdue => ?stepDown, rfl⟩
  case ready =>
    obtain rfl : v = s.setReady p := by
      rw [hv, hu]
      rfl
    have hstays : ¬ (decide ((s.setReady p).boot.step ≠ .up) && !(s.setReady p).on F.PWR_STATUS_TRANSITION
        || (s.setReady p).on F.PWR_STATUS_TRANSITION && bitSet (s.setReady p).pwr.dozeSel p) = true := by
      simp [hup, htrans]
    rw [exec_pllReady, execPllReady, hstart]
    simp only [hdue, href, Bool.not_false, and_self, if_true]
    exact congrArg Host.Outcome.next (if_neg hstays)
  case source => rw [exec_clkSrcWrite, State.writeClkSrc_of_unlocked hlock rfl]
  case loss =>
    change Host.Outcome.next _ = _
    rw [hoff]
    rfl
  case recovery =>
    change Host.Outcome.next _ = _
    subst hu
    rw [hlost]
    rfl
  case stepUp =>
    change Host.Outcome.next _ = _
    rw [if_pos ⟨.inr hup, hpow, by rw [href]; rfl, hdue⟩]
    rfl
  case stepDown =>
    change Host.Outcome.next _ = _
    rw [if_pos ⟨.inr hup, hpow, by rw [href]; rfl, hdue⟩]
    rfl

/-- Settles O56: each clause is its command's branch under the conditions it names. -/
theorem recordsKept : Obligations.RecordsKept := by
  intro s href hoff
  have hruns : ¬ (s.pwr.refLost || s.pwr.off) = true := by simp [href, hoff]
  refine ⟨?drain, fun t d f u hpow hu => ?interval, fun t d f hpow => ?asleep, fun k r u herase hring hu => ?erased⟩
  case drain =>
    change Host.Outcome.next _ = _
    rw [if_neg hruns]
  case interval =>
    change Host.Outcome.next _ = _
    subst hu
    rw [if_neg hruns, if_neg (of_eq_false hpow)]
    rfl
  case asleep =>
    change Host.Outcome.next _ = _
    rw [if_neg hruns, if_pos (of_eq_true hpow)]
  case erased =>
    change Host.Outcome.next _ = _
    subst hu
    simp only [herase, hring]
    rw [if_neg hruns]

/-! ## The loss of a required unit (R3) -/

section
variable {s : State} {u : ReqUnit} {old new : Nat}

theorem State.loseUnit_of_lower (hold : (s.addLost u).boot.level = some old) (hnew : (s.addLost u).levelNow = some new) (h : new < old) :
    s.loseUnit u = ({ s.addLost u with boot := { (s.addLost u).boot with level := some new } } : State).detect cUNIT_LOST 0xFF new := by
  simp only [State.loseUnit, hold, hnew, if_pos h]

theorem State.loseUnit_of_not_lower (hold : (s.addLost u).boot.level = some old) (hnew : (s.addLost u).levelNow = some new)
    (h : old ≤ new) : s.loseUnit u = s.addLost u := by
  simp only [State.loseUnit, hold, hnew, if_neg (Nat.not_lt.mpr h)]

end

/-- Settles O11: with power and REFCLK there the command is `State.loseUnit`. -/
theorem unitLossActs : Obligations.UnitLossActs := by
  intro s hoff href
  have hexec : ∀ u, exec (.requiredUnitLoss u) s = .next (s.loseUnit u) := fun u => by
    change Host.Outcome.next _ = _
    rw [if_neg (by simp [hoff, href])]
  refine ⟨fun u old new hold hnew hlt => ?_, fun u old new hold hnew hle => ?_⟩
  · rw [hexec, State.loseUnit_of_lower hold hnew hlt]
  · rw [hexec, State.loseUnit_of_not_lower hold hnew hle]

end Sys2Proof.Machine
end

section
/-! Proofs: memory accesses and patrols (13, 22) and the history cache (15). -/

namespace Sys2Proof.Machine

/-! ## A core's accesses (R6, R211, R362) -/

section
variable {s : State} {core priv addr size value err : Nat} {store : Bool}

/-- What an access that a running core makes at an address of a window or of memory comes to. -/
def State.access (s : State) (core priv : Nat) (store : Bool) (addr size value err : Nat) : State :=
  if inWindows addr then
    if (size ≠ 4 ∧ size ≠ 8) ∨ addr % size ≠ 0 then s
    else if s.userDenied priv store addr then s.accessFault core priv addr
    else if store then s.writeWindow addr value (size == 4)
    else (s.coreLoad addr size).1.emit (.load core (s.coreLoad addr size).2 false)
  else if !s.populatedRange addr size then
    if store then (s.hole addr).accessFault core priv addr else ((s.hole addr).accessFault core priv addr).emit (.load core 0 false)
  else if store then (s.countAccess core priv true addr).writeLe addr size value
  else
    let v := s.readLe addr size
    let s := s.countAccess core priv false addr
    let bad := s.badWords addr size
    let s := if err = 1 ∧ bad.isEmpty then s.eccCorrected addr 0 else s
    let s := if err = 2 ∧ bad.isEmpty then s.eccUncorr addr else bad.foldl State.eccUncorr s
    s.emit (.load core v (err == 2 || !bad.isEmpty))

theorem exec_pralineAccess_of_running (hreach : s.reachable = true) (hcore : bitSet s.boot.cores core = true) (hpriv : priv ≤ 2)
    (hentry : s.boot.entry.isNone = false) :
    exec (.pralineAccess core priv store addr size value err) s = .next ((s.count 5 1 1 (some (64 + core)) (some addr) priv).access core priv store addr size value err) := by
  change Host.Outcome.next _ = _
  rw [if_neg (by simp [hreach, hcore, hentry, hpriv])]
  rfl

theorem State.access_of_denied (hwin : inWindows addr = true) (hsize : size = 4 ∨ size = 8) (halign : addr % size = 0)
    (hdenied : s.userDenied priv store addr = true) : s.access core priv store addr size value err = s.accessFault core priv addr := by
  rw [State.access, if_pos hwin, if_neg (by omega), if_pos hdenied]

theorem State.access_of_window (hwin : inWindows addr = true) (hsize : size = 4 ∨ size = 8) (halign : addr % size = 0)
    (hallowed : s.userDenied priv store addr = false) :
    s.access core priv store addr size value err = if store then s.writeWindow addr value (size == 4)
      else (s.coreLoad addr size).1.emit (.load core (s.coreLoad addr size).2 false) := by
  rw [State.access, if_pos hwin, if_neg (by omega), if_neg (by simp [hallowed])]

theorem State.access_of_hole (hwin : inWindows addr = false) (hhole : s.populatedRange addr size = false) :
    s.access core priv true addr size value err = (s.hole addr).accessFault core priv addr := by
  simp only [State.access, hwin, hhole, Bool.not_false, Bool.false_eq_true, if_true, if_false]

theorem State.access_of_store (hwin : inWindows addr = false) (hmem : s.populatedRange addr size = true) :
    s.access core priv true addr size value err = (s.countAccess core priv true addr).writeLe addr size value := by
  simp only [State.access, hwin, hmem, Bool.not_true, Bool.false_eq_true, if_true, if_false]

/-- A load of sound words. -/
theorem State.access_of_load (hwin : inWindows addr = false) (hmem : s.populatedRange addr size = true)
    (hsound : (s.countAccess core priv false addr).badWords addr size = []) :
    s.access core priv false addr size value 0 = (s.countAccess core priv false addr).emit (.load core (s.readLe addr size) false) := by
  simp [State.access, hwin, hmem, hsound]

end

/-- Settles O35: an access of a running core is `State.access`, whose branches the rules above name. -/
theorem memoryAccessesAct : Obligations.MemoryAccessesAct := by
  intro s
  refine ⟨fun core priv addr size value err hreach hcore hpriv hentry hwin hmem => ?store,
    fun core priv addr size value err u hreach hcore hpriv hentry hwin hmem hu hsound => ?load,
    fun core priv addr size value err hreach hcore hpriv hentry hwin hhole => ?hole,
    fun core priv addr size value err hreach hcore hpriv hentry hwin hsize halign hdenied => ?denied,
    fun core priv addr size value err hreach hcore hpriv hentry hwin hsize halign hallowed => ?windowStore,
    fun core priv addr size value err hreach hcore hpriv hentry hwin hsize halign hallowed => ?windowLoad⟩
  case store => rw [exec_pralineAccess_of_running hreach hcore hpriv hentry, State.access_of_store hwin hmem]
  case load =>
    subst hu
    rw [exec_pralineAccess_of_running hreach hcore hpriv hentry, State.access_of_load hwin hmem hsound]
  case hole => rw [exec_pralineAccess_of_running hreach hcore hpriv hentry, State.access_of_hole hwin hhole]
  case denied => rw [exec_pralineAccess_of_running hreach hcore hpriv hentry, State.access_of_denied hwin hsize halign hdenied]
  case windowStore =>
    rw [exec_pralineAccess_of_running hreach hcore hpriv hentry, State.access_of_window hwin hsize halign hallowed, if_pos rfl]
  case windowLoad =>
    rw [exec_pralineAccess_of_running hreach hcore hpriv hentry, State.access_of_window hwin hsize halign hallowed,
      if_neg Bool.false_ne_true]

/-! ## The memory's own commands (R214, R215, R220) -/

/-- Settles O36: each clause is its command's branch under the conditions it names. -/
theorem memoryPatrolsAct : Obligations.MemoryPatrolsAct := by
  intro s
  refine ⟨fun bank => rfl, fun bank hbank hen hready hpow hgood => ?clean, fun bank hbank hen hready hpow hgood => ?corrected,
    fun bank hbank hen hready hpow hgood hfresh => ?uncorr, fun channel hch hen hinst hawake hlive => ?burst,
    fun channel hch hen hinst hawake hlive => ⟨_, rfl, ?burstCorrected⟩, fun channel addr hch hen hinst => ⟨_, rfl, ?retry⟩,
    fun channel addr hch hen hinst hlast => ⟨_, rfl, ?third⟩⟩
  case clean =>
    change Host.Outcome.next _ = _
    rw [if_neg (by simp [hbank, hen, hready, hpow, hgood])]
    rfl
  case corrected =>
    change Host.Outcome.next _ = _
    rw [if_neg (by simp [hbank, hen, hready, hpow, hgood])]
    simp only [if_true]
  case uncorr =>
    change Host.Outcome.next _ = _
    rw [if_neg (by simp [hbank, hen, hready, hpow, hgood])]
    simp only [hfresh, OfNat.ofNat_ne_one, if_false, decide_true, Bool.not_false, Bool.and_self, if_true]
  case burst =>
    change Host.Outcome.next _ = _
    rw [if_neg (by simp [hch, hen, hinst, hawake, hlive])]
    rfl
  case burstCorrected =>
    change Host.Outcome.next _ = _
    rw [if_neg (by simp [hch, hen, hinst, hawake, hlive])]
    rfl
  case retry =>
    change Host.Outcome.next _ = _
    rw [if_neg (by simp [hch, hen, hinst])]
    rfl
  case third =>
    change Host.Outcome.next _ = _
    rw [if_neg (by simp [hch, hen, hinst])]
    simp only [hlast, if_true, Nat.reduceAdd, le_refl, lt_self_iff_false, if_false]

end Sys2Proof.Machine
end

section
/-! Proofs: the history cache (15): edits and generations, and a PREFETCH that spills. -/

namespace Sys2Proof.Machine

section
variable {s u : State} {op : Nat} {r : List Byte}

/-- An edit record that fits joins the batch (R245). -/
theorem State.editRecord_of_room (hruns : s.kvcRuns = true) (htake : s.takeEdit op = (u, some r)) (hroom : u.kvc.edits.length < 1024) :
    s.editRecord op = { u with kvc := { u.kvc with edits := u.kvc.edits ++ [r] } } := by
  simp only [State.editRecord, hruns, htake, Bool.not_true, Bool.false_eq_true, if_false, Nat.not_le.mpr hroom]

/-- A full edit buffer refuses the record and counts it (R246). -/
theorem State.editRecord_of_full (hruns : s.kvcRuns = true) (htake : s.takeEdit op = (u, some r)) (hfull : 1024 ≤ u.kvc.edits.length) :
    s.editRecord op = { u.satInc F.KVC_COUNTS_REJECTED with kvc := { u.kvc with overflow := true } } := by
  simp only [State.editRecord, hruns, htake, Bool.not_true, Bool.false_eq_true, if_false, if_pos hfull]

end

/-- Settles O37: an edit is `State.editRecord`; a commit, a change and a copy's end take the branch that their conditions name. -/
theorem historyEditsAndGenerations : Obligations.HistoryEditsAndGenerations := by
  intro s hruns
  refine ⟨fun u r htake hroom => ?drop, fun u r htake hroom => ?share, fun u r htake hroom => ?renumber, fun u r htake hroom => ?clear,
    fun u r htake hroom => ?undefine, fun u r htake hfull => ?full,
    fun u v t r o htake hedits hv hover hcrc happly hbatch hstage => ?commit, fun u r x htake hbad => ?reject,
    fun u v w hdue hu hv hw => ?change, ?copied⟩
  case drop => exact congrArg Host.Outcome.next (State.editRecord_of_room hruns htake hroom)
  case share => exact congrArg Host.Outcome.next (State.editRecord_of_room hruns htake hroom)
  case renumber => exact congrArg Host.Outcome.next (State.editRecord_of_room hruns htake hroom)
  case clear => exact congrArg Host.Outcome.next (State.editRecord_of_room hruns htake hroom)
  case undefine => exact congrArg Host.Outcome.next (State.editRecord_of_room hruns htake hroom)
  case full => exact congrArg Host.Outcome.next (State.editRecord_of_full hruns htake hfull)
  case commit =>
    change Host.Outcome.next _ = _
    subst hv
    simp only [hruns, htake, hedits, hover, hcrc, happly, hbatch, hstage, Bool.not_true, Bool.or_self, Bool.false_eq_true, if_false]
  case reject =>
    change Host.Outcome.next _ = _
    simp only [hruns, htake, hbad, Bool.not_true, Bool.false_eq_true, if_false]
  case change =>
    change Host.Outcome.next _ = _
    subst hw hv hu
    rw [if_neg (by simp [hdue])]
  case copied =>
    change Host.Outcome.next _ = _
    rw [if_pos hruns]

/-! ## A PREFETCH that spills (R252, R253) -/

/-- The descriptor of a PREFETCH entry of no rows. -/
def prefetchDesc : List Byte := withCrc (1 :: zeroBytes 59)

/-- A fired PREFETCH entry: the first of the history cache's list. -/
def prefetchFiring : Firing := { unit := 102, run := { graph := 0, slot := 0, epoch := 0, cycle := 0 }, index := 0, error := false }

/-- A state with that entry to execute, spilling enabled, fewer granules free than SPILL_LOW, and a resident CLEAN page. -/
def State.prefetchBelowLow : State :=
  let s := [(F.CLK_EN_EN, 2 ^ 25 - 1), (F.KVC_CTRL_ENABLE, 1), (F.KVC_CTRL_SPILL_EN, 1), (F.KVC_CTRL_SPILL_LOW, 1), (F.DDR_STATUS_INSTALLED, 1),
    (F.LAY_CTX_CFG_ENABLE 0, 1), (F.LAY_ALLOW_MASK2 25, 1), (F.NGT_CTRL_HIST_BANKS, 0)].foldl (fun (t : State) (p : Fld × Nat) => t.put p.1 p.2)
      State.reset
  { s.writeBytes 0 (padTo 64 [1] ++ prefetchDesc) with
    tgs := { firing := [prefetchFiring] }
    kvc := { s.kvc with pages := [(0, { state := .resident, clean := true })] } }

/-- The state of a page after a command. -/
def pageStateAfter (q : Nat) (o : Host.Outcome State Fault Refusal) : Option PageState :=
  match o with
  | .next t => some (t.page q).state
  | _ => none

/-- Refutes O38: its clause of PREFETCH leaves out the spilling below SPILL_LOW (R252), with which the model's command ends; in
`State.prefetchBelowLow` the command releases page 0, and the clause's state still has it resident. -/
theorem not_historyWalksAndMoves : ¬ Obligations.HistoryWalksAndMoves := by
  intro h
  have hruns : State.prefetchBelowLow.kvcRuns = true := by decide +kernel
  obtain ⟨-, -, -, -, -, -, hprefetch⟩ := h State.prefetchBelowLow hruns
  have hclause := hprefetch prefetchFiring prefetchDesc [] (by decide +kernel) (by decide +kernel) rfl (by decide +kernel) (by decide +kernel)
  have hspilled : pageStateAfter 0 (exec .prefetch State.prefetchBelowLow) = some .spilled := by decide +kernel
  rw [hclause] at hspilled
  exact absurd hspilled (by decide +kernel)

end Sys2Proof.Machine
end

section
/-! Proofs: BML's links and flits (16). -/

namespace Sys2Proof.Machine

section
variable {s : State} {port : Nat}

/-- BML acts on a port that is up. -/
theorem State.not_linkSilent (hruns : s.bmlRuns = true) (hup : s.portIsUp port = true) : ¬ (!s.bmlRuns || !s.portIsUp port) = true := by
  simp [hruns, hup]

/-- A training that has not lasted 50 ms may end. -/
theorem State.not_trainingOver (hport : port < 6) (hruns : s.bmlRuns = true) (hstate : s.linkState port = lkTRAINING)
    (htime : s.pwr.refclk ≤ (s.lport port).since + 1250000) :
    ¬ (!decide (port < 6) || !s.bmlRuns || (s.linkState port != lkTRAINING && s.linkState port != lkRETRAIN)
      || decide ((s.lport port).since + 1250000 < s.pwr.refclk)) = true := by
  simp [hport, hruns, hstate, htime]

end

/-- Settles O39: each clause is its command's branch under the conditions it names. -/
theorem linksTrainAndFall : Obligations.LinksTrainAndFall := by
  intro s
  refine ⟨fun port hruns hen hfence hdown htried => ?start, fun port peer hport hruns hstate htime hpeer => ⟨_, rfl, ?done⟩,
    fun port peer ok hport hruns hstate htime hpeer => ?failed, fun port hport hruns hstate htime => ?timeout,
    fun port hruns hup htime => ?silent, fun port hruns hup => ?lanes⟩
  case start =>
    change Host.Outcome.next _ = _
    rw [if_pos (by simp [hruns, hen, hfence, hdown, htried])]
  case done =>
    change Host.Outcome.next _ = _
    have hgood : ¬ peer % 64 ≠ (s.put (F.BML_PORT_STAT_PEER port) peer).expectedPeer port := not_not.mpr hpeer
    rw [if_neg (State.not_trainingOver hport hruns hstate htime)]
    simp only [if_neg hgood, Bool.not_true, Bool.false_eq_true, if_false, ne_eq, not_true_eq_false]
  case failed =>
    change Host.Outcome.next _ = _
    rw [if_neg (State.not_trainingOver hport hruns hstate htime)]
    simp only [if_pos hpeer, ne_eq, one_ne_zero, not_false_eq_true, if_true]
  case timeout =>
    change Host.Outcome.next _ = _
    rw [if_pos (by simp [hport, hruns, hstate, htime])]
  case silent =>
    change Host.Outcome.next _ = _
    rw [if_pos (by simp [hruns, hup, htime])]
  case lanes =>
    change Host.Outcome.next _ = _
    rw [if_pos (by simp [hruns, hup])]

/-- Settles O40: on a port that is up each clause is its command's branch under the conditions it names. -/
theorem linksCarryFlits : Obligations.LinksCarryFlits := by
  intro s port hruns hup
  have hlive := State.not_linkSilent hruns hup
  refine ⟨fun b u v hcrc hu hdata hseq hv => ?data, fun b u hcrc hu => ?bad, fun ack u hu hfew => ?nack, fun vc count ack => ?credit,
    fun ack peer trip u hu hskew => ?keepalive, fun hidle => ?send⟩
  case data =>
    change Host.Outcome.next _ = _
    subst hv
    rw [if_neg hlive]
    simp only [hcrc, ← hu, hdata, ← hseq, ne_eq, not_true_eq_false, decide_false, Bool.or_self, Bool.not_true, Bool.false_eq_true, if_false]
  case bad =>
    change Host.Outcome.next _ = _
    subst hu
    rw [if_neg hlive]
    simp only [hcrc, Bool.not_false, if_true]
  case nack =>
    change Host.Outcome.next _ = _
    rw [if_neg hlive]
    simp only [← hu, if_neg (Nat.not_le.mpr hfew)]
  case credit =>
    change Host.Outcome.next _ = _
    rw [if_neg hlive]
  case keepalive =>
    change Host.Outcome.next _ = _
    rw [if_neg hlive]
    simp only [← hu, if_neg (Nat.not_lt.mpr hskew)]
  case send =>
    change Host.Outcome.next _ = _
    rw [if_pos (by simp [hruns, hup, hidle])]
    rfl

end Sys2Proof.Machine
end

section
/-! Proofs: BML's experts and remote copies (16). -/

namespace Sys2Proof.Machine

/-- Settles O41: each clause is its command's branch under the conditions it names. -/
theorem expertsServed : Obligations.ExpertsServed := by
  intro s hruns
  refine ⟨fun layer records rows i u hhead hsome hlayer hu => ?command, fun u b r htake hadmit => ?refused,
    fun u b i es htake hadmit hes => ?admitted, fun layer slot rows i e u hhead hfind htime hu => ?serve,
    fun u b c htake hfor => ?result, fun u b htake hfor => ?late, fun u b c htake hfor => ?refuse,
    fun layer home c u v hfind htime hfall hu hv => ?deadline⟩
  case command =>
    change Host.Outcome.next _ = _
    subst hu
    simp only [hhead]
    rw [if_neg (by simp [hruns, hsome, hlayer])]
  case refused =>
    change Host.Outcome.next _ = _
    simp only [hruns, htake, hadmit, Bool.not_true, Bool.false_eq_true, if_false]
  case admitted =>
    change Host.Outcome.next _ = _
    subst hes
    simp only [hruns, htake, hadmit, Bool.not_true, Bool.false_eq_true, if_false]
  case serve =>
    change Host.Outcome.next _ = _
    subst hu
    have hnow : ¬ s.now < i.tov + s.get F.BML_TIMING_COLLECT_CLOSE * 1000 := Int.not_lt.mpr htime
    simp only [hhead, hfind]
    rw [if_neg (by simp [hruns, hnow])]
  case result =>
    change Host.Outcome.next _ = _
    simp only [hruns, htake, hfor, Bool.not_true, Bool.false_eq_true, if_false]
  case late =>
    change Host.Outcome.next _ = _
    simp only [hruns, htake, hfor, Bool.not_true, Bool.false_eq_true, if_false]
  case refuse =>
    change Host.Outcome.next _ = _
    simp only [hruns, htake, hfor, Bool.not_true, Bool.false_eq_true, if_false]
  case deadline =>
    change Host.Outcome.next _ = _
    subst hv hu
    have hnow : ¬ s.now < s.replyDeadline c := Int.not_lt.mpr htime
    simp only [hfind]
    rw [if_neg (by simp [hruns, hnow]), if_neg hfall]

/-- Settles O42: each clause is its command's branch under the conditions it names. -/
theorem remoteCopiesRun : Obligations.RemoteCopiesRun := by
  intro s hruns
  refine ⟨fun core desc dest target x u hcore hx hok hu => ?send, fun u t b htake hgoing hwrite => ?piece,
    fun u t b htake hgoing hwrite => ?last, fun u b c htake hto => ?done, fun u b c htake hto => ?nack, fun c hfind => ?timeout⟩
  case send =>
    change Host.Outcome.next _ = _
    subst hu
    rw [if_neg (by simp [hruns, hcore]), ← hx]
    simp only [LayOut.sendRemote, hok]
  case piece =>
    change Host.Outcome.next _ = _
    simp only [hruns, htake, hgoing, hwrite, Bool.not_true, Bool.false_eq_true, if_false]
  case last =>
    change Host.Outcome.next _ = _
    simp only [hruns, htake, hgoing, hwrite, Bool.not_true, Bool.false_eq_true, if_false, if_true]
  case done =>
    change Host.Outcome.next _ = _
    simp only [hruns, htake, hto, Bool.not_true, Bool.false_eq_true, if_false]
  case nack =>
    change Host.Outcome.next _ = _
    simp only [hruns, htake, hto, Bool.not_true, Bool.false_eq_true, if_false]
  case timeout =>
    change Host.Outcome.next _ = _
    simp only [hfind, hruns, if_true]

end Sys2Proof.Machine
end

section
/-! Proofs: the checker and SAF (17), staged commits and the start sequence (18). -/

namespace Sys2Proof.Machine

section
variable {s : State} {f : State → State}

/-- SAF runs out of reset, with REFCLK, in Active and Idle (R348, R354). -/
theorem State.whenSaf_of_running (hout : (s.boot.step != .inReset) = true) (href : s.pwr.refLost = false) (hpow : s.power ≤ 1) :
    s.whenSaf f = f s := by
  simp only [State.whenSaf, hout, href, decide_eq_true hpow, Bool.not_false, Bool.and_self, if_true]

/-- The checker runs in Active while it is enabled and SAF runs. -/
theorem State.whenChk_of_running (hon : s.chkOn = true) (hactive : s.power = 0) (hout : (s.boot.step != .inReset) = true)
    (href : s.pwr.refLost = false) : s.whenChk f = f s := by
  rw [State.whenChk, hon, hactive, if_pos (by decide), State.whenSaf_of_running hout href (by omega)]

/-- A sentinel run that met no error leaves no trace of one. -/
theorem State.sentMet_of_sound {c : Nat} : s.sentMet c 0 = s := rfl

end

/-- Settles O43: while the checker runs each clause is its command's branch under the conditions it names. -/
theorem checkerActs : Obligations.CheckerActs := by
  intro s hon hactive hout href
  have hwhen : ∀ f, s.whenChk f = f s := fun f => State.whenChk_of_running hon hactive hout href
  refine ⟨fun c t htable hclosed hread => ⟨_, rfl, ?run⟩, fun c i cs hrunning hinst => ⟨_, rfl, ?done⟩,
    fun n g u hfind hscan hgood hu => ?passed, fun n k e g u hfind hscan hu => ?failed,
    fun cells t u hsched hlevel hguard hlast hsafe hu => ?guard⟩
  case run =>
    change Host.Outcome.next _ = _
    rw [hwhen]
    simp only [htable, hclosed, hread, Bool.not_true, Bool.or_self, Bool.false_eq_true, if_false]
  case done =>
    change Host.Outcome.next _ = _
    rw [hwhen]
    simp only [hrunning, hinst, Option.isNone_some, Bool.not_true, Bool.or_self, Bool.false_eq_true, if_false,
      State.sentMet_of_sound, OfNat.zero_ne_ofNat]
  case passed =>
    change Host.Outcome.next _ = _
    subst hu
    rw [hwhen]
    simp only [hfind, hscan, hgood, Option.isSome_none, Option.getD_none, Bool.or_self, Bool.false_eq_true, if_false]
  case failed =>
    change Host.Outcome.next _ = _
    subst hu
    rw [hwhen]
    simp only [hfind, hscan, Option.isSome_some, Option.getD_some, Bool.or_true, if_true]
  case guard =>
    change Host.Outcome.next _ = _
    subst hu
    rw [hwhen]
    simp only [hsched, hlevel, hguard, hlast, hsafe, beq_self_eq_true, Bool.and_self, if_true]

/-- Settles O44: while SAF runs each clause is its command's branch under the conditions it names. -/
theorem supervisorActs : Obligations.SupervisorActs := by
  intro s hout href hpow
  have hwhen : ∀ f, s.whenSaf f = f s := fun f => State.whenSaf_of_running hout href hpow
  refine ⟨fun hon => ?lockstepA, fun hon => ?lockstepB, ?self, ?path, fun k => ?env, fun t hfrom hlate htime => ?heartbeat,
    fun hup htime => ?service, fun hup htime => ?expiry, fun d u hdue hactive htime hu => ?span, fun n u hnotice hsafe htime hu => ?again⟩
  case lockstepA =>
    change Host.Outcome.next _ = _
    rw [if_pos hon, hwhen]
    rfl
  case lockstepB =>
    change Host.Outcome.next _ = _
    rw [if_pos hon, hwhen]
    rfl
  case self =>
    change Host.Outcome.next _ = _
    rw [hwhen]
  case path =>
    change Host.Outcome.next _ = _
    rw [hwhen]
  case env =>
    change Host.Outcome.next _ = _
    rw [hwhen]
  case heartbeat =>
    change Host.Outcome.next _ = _
    rw [hwhen]
    simp only [hfrom]
    rw [if_pos (by simp [hlate, htime])]
  case service =>
    change Host.Outcome.next _ = _
    rw [hwhen, if_pos ⟨.inr hup, htime⟩]
  case expiry =>
    change Host.Outcome.next _ = _
    rw [hwhen, if_pos ⟨.inr hup, htime⟩]
  case span =>
    change Host.Outcome.next _ = _
    subst hu
    rw [hwhen]
    simp only [hdue]
    rw [if_pos (by simp [hactive, htime])]
  case again =>
    change Host.Outcome.next _ = _
    subst hu
    rw [hwhen]
    simp only [hnotice]
    rw [if_pos ⟨hsafe, htime⟩]

/-! ## Staged commits (R304 to R307) -/

section
variable {s : State} {c : Commit}

/-- A request of firmware's own channel keeps its items and leaves the host's shadow (R304). -/
theorem State.requestCommit_of_firmware (htakes : s.takesCommits = true) (hhost : c.host = none) :
    s.requestCommit c = { s with boot := { s.boot with checking := s.boot.checking ++ [c] } } := by
  simp only [State.requestCommit, htakes, hhost, State.emptyShadow, Option.isSome_none, Bool.not_true, Bool.false_eq_true, if_false]

/-- A CANCEL of firmware's own channel that names a commit still pending there (R307). -/
theorem State.requestCancel_of_pending {k : Nat} (htakes : s.takesCommits = true) (hhost : c.host = none) (hcrc : c.crcOk = true)
    (hopen : s.commitsClosed = false)
    (hfind : s.boot.pending.findIdx? (fun p => p.id == c.id && p.host.isSome == false && decide (s.now < p.applyAt)) = some k) :
    s.requestCancel c = s.cancelFrom k := by
  simp only [State.requestCancel, htakes, hhost, hcrc, hopen, hfind, State.emptyShadow, Option.isSome_none, Bool.not_true,
    Bool.false_eq_true, if_false]

/-- A CANCEL of firmware's own channel that names none. -/
theorem State.requestCancel_of_unknown (htakes : s.takesCommits = true) (hhost : c.host = none) (hcrc : c.crcOk = true)
    (hopen : s.commitsClosed = false)
    (hfind : s.boot.pending.findIdx? (fun p => p.id == c.id && p.host.isSome == false && decide (s.now < p.applyAt)) = none) :
    s.requestCancel c = s.sendResult c true (commitResult c.id 9 0xFF 0 0 0) := by
  simp only [State.requestCancel, htakes, hhost, hcrc, hopen, hfind, State.emptyShadow, Option.isSome_none, Bool.not_true,
    Bool.false_eq_true, if_false]

end

/-- Settles O45: each clause is its command's branch under the conditions it names. -/
theorem commitsStage : Obligations.CommitsStage := by
  intro s htakes
  refine ⟨fun id items ok => ?next, fun h id items ok u hu => ?host, fun id t items ok => ?atTime, fun id k hopen hfind => ?cancel,
    fun id hopen hfind => ?unknown, fun c d r u v hcheck hu hstill hd hfault hv => ?pending,
    fun c d r u f hcheck hu hstill hd hfault => ?rejected, fun hdue hsafe href => ?apply⟩
  case next => exact congrArg Host.Outcome.next (State.requestCommit_of_firmware htakes rfl)
  case host =>
    change Host.Outcome.next _ = _
    subst hu
    simp only [State.requestCommit, htakes, State.emptyShadow, Option.isSome_some, Bool.not_true, Bool.false_eq_true, if_false, if_true]
  case atTime => exact congrArg Host.Outcome.next (State.requestCommit_of_firmware htakes rfl)
  case cancel => exact congrArg Host.Outcome.next (State.requestCancel_of_pending htakes rfl rfl hopen hfind)
  case unknown => exact congrArg Host.Outcome.next (State.requestCancel_of_unknown htakes rfl rfl hopen hfind)
  case pending =>
    change Host.Outcome.next _ = _
    subst hv hd hu
    simp only [hcheck, hstill, hfault, Bool.not_true, Bool.false_eq_true, if_false]
  case rejected =>
    change Host.Outcome.next _ = _
    subst hd hu
    simp only [hcheck, hstill, hfault, Bool.not_true, Bool.false_eq_true, if_false]
  case apply =>
    change Host.Outcome.next _ = _
    rw [hdue, hsafe, href]
    rfl

/-! ## The start sequence (R296 to R303) -/

/-- With no bit in a mask, a walk over its bits changes nothing. -/
theorem foldl_bitSet_zero {α : Type} {l : List Nat} {g : α → Nat → α} {x : α} :
    l.foldl (fun t p => if bitSet 0 p then g t p else t) x = x :=
  foldl_inv (P := fun t => t = x) (fun t p ht => by simp [bitSet, ht]) rfl

/-- Settles O48: each clause is its command's branch under the conditions it names. -/
theorem startSequenceRuns : Obligations.StartSequenceRuns := by
  intro s
  refine ⟨fun fb u v w hstep hrun hoff href htamper hu htamper' hv hw => ?release, fun fb u v hstep hrun hoff href hu htamper hv => ?warm,
    fun u v w hstep hbist hrun hu hv hw halive => ?bist, fun m u hstep hddr hen hbad hu => ?ddr,
    fun b latent slot r hready haccepted => ?load⟩
  case release =>
    have hkeys : (rcPOWER_ON == rcPOWER_ON || rcPOWER_ON == rcRESET_N || rcPOWER_ON == rcSTANDBY_WAKE) = true := rfl
    have hcold : isWarm rcPOWER_ON = false := rfl
    change Host.Outcome.next _ = _
    subst hw hv
    simp only [hstep, hrun, hoff, href] at hu ⊢
    simp only [← hu, htamper', hkeys, hcold, Bool.or_self, Bool.and_false, Bool.false_and, Bool.false_eq_true,
      if_false, if_true]
  case warm =>
    have hkeys : (rcWARM == rcPOWER_ON || rcWARM == rcRESET_N || rcWARM == rcSTANDBY_WAKE) = false := rfl
    have hwarm : isWarm rcWARM = true := rfl
    change Host.Outcome.next _ = _
    subst hv
    simp only [hstep, hrun, hoff, href] at hu ⊢
    simp only [← hu, htamper, hkeys, hwarm, Bool.or_self, Bool.false_and, Bool.false_eq_true,
      if_false, if_true]
  case bist =>
    have hpresent : (if (List.range 32).foldl (fun m k => if bitSet 0 k then m else m + 2 ^ k) 0 = 0 then [ReqUnit.pralineCores] else []) = [] := by
      decide
    have hcold : isWarm rcPOWER_ON = false := rfl
    have hbanks : 64 - popCount 64 0 = 64 := by decide
    change Host.Outcome.next _ = _
    subst hw hv hu
    rw [hrun, if_neg (by simp [hstep, hbist, hcold])]
    simp only [hpresent, hbanks, List.nil_append, Nat.zero_mod, foldl_bitSet_zero, if_pos halive]
  case ddr =>
    change Host.Outcome.next _ = _
    subst hu
    rw [if_neg (by simp [hstep, hddr, hen])]
    simp only [hbad, List.getLast?_nil]
  case load =>
    change Host.Outcome.next _ = _
    rw [if_pos hready]
    rcases hrest : s.loadRest slot with ⟨t, _ | reason⟩ <;> simp only [haccepted, hrest]

end Sys2Proof.Machine
end

section
/-! Proofs: fusion's commands (01, 09) and the scheduler's (10). -/

namespace Sys2Proof.Machine

section
variable {s : State} {f : State → State}

/-- GLZ acts while it is enabled and clocked and REFCLK is there. -/
theorem State.whenGlz_of_running (hen : s.on F.GLZ_CTRL_ENABLE = true) (hlive : s.gated wGLZ = false) (href : s.pwr.refLost = false) :
    s.whenGlz f = f s := by
  simp [State.whenGlz, State.runs, hen, hlive, href]

end

/-- Settles O28: while GLZ runs each clause is its command's branch under the conditions it names. -/
theorem fusionOpensAndWarps : Obligations.FusionOpensAndWarps := by
  intro s hen hlive href
  have hwhen : ∀ f, s.whenGlz f = f s := fun f => State.whenGlz_of_running hen hlive href
  refine ⟨fun hdue hnone hstill => ?opens, fun hdue hsome => ?commits, fun hidle => ?tov, fun i hfind htov hcover => ?warp,
    fun i hfind hearly => ?early⟩
  case opens =>
    change Host.Outcome.next _ = _
    rw [hwhen]
    simp only [hdue, hnone, Bool.not_true, Bool.false_eq_true, if_false, if_true, State.openDueInstance, hwhen, hstill]
  case commits =>
    change Host.Outcome.next _ = _
    rw [hwhen]
    simp only [hdue, hsome, Bool.not_true, Bool.false_eq_true, if_false]
  case tov =>
    change Host.Outcome.next _ = _
    rw [hwhen]
    simp only [hidle, Bool.not_false, if_true]
  case warp =>
    change Host.Outcome.next _ = _
    have hnow : decide (i.tov ≤ s.now) = true := decide_eq_true htov
    rw [hwhen]
    simp only [hfind, hnow, hcover, Bool.true_or, Bool.and_self, if_true]
  case early =>
    change Host.Outcome.next _ = _
    have hnow : decide (i.tov ≤ s.now) = false := decide_eq_false (Int.not_le.mpr hearly)
    rw [hwhen]
    simp only [hfind, hnow, Bool.false_and, Bool.false_eq_true, if_false]

/-- Settles O29: while GLZ runs each clause is its command's branch under the conditions it names. -/
theorem fusionComparesTiles : Obligations.FusionComparesTiles := by
  intro s hen hlive href
  have hwhen : ∀ f, s.whenGlz f = f s := fun f => State.whenGlz_of_running hen hlive href
  refine ⟨fun cycle tile cells bad i t u v w hinst htile hwarped hwaiting hreuse hfront horder hmay hgood hinput hw ht hu hv hchk => ?starts,
    fun cycle tile cells bad i t u v w hinst htile hwarped hwaiting hreuse hfront horder hmay hgood hinput hw ht hu hv hchk => ?unchecked,
    fun cycle tile i x t hinst hsent hphase htile hchk => ?compared, fun cycle tile i x t hinst hsent hphase htile hchk => ?reissued⟩
  case starts =>
    change Host.Outcome.next _ = _
    have hgo : ¬ (decide (256 ≤ tile) || !i.warped || decide ((i.tile tile).phase ≠ .waiting) || (i.reuseDone && s.isHead cycle)
        || !s.frontDone i || !s.inOrder i tile || !s.mayRun cycle) = true := by
      simp [htile, hwarped, hwaiting, hreuse, hfront, horder, hmay]
    rw [hwhen]
    simp only [hinst]
    rw [if_neg hgo]
    simp only [hgood, hinput, Bool.or_false, ← hw, ← ht, ← hu, ← hv, hchk, if_true]
  case unchecked =>
    change Host.Outcome.next _ = _
    have hgo : ¬ (decide (256 ≤ tile) || !i.warped || decide ((i.tile tile).phase ≠ .waiting) || (i.reuseDone && s.isHead cycle)
        || !s.frontDone i || !s.inOrder i tile || !s.mayRun cycle) = true := by
      simp [htile, hwarped, hwaiting, hreuse, hfront, horder, hmay]
    rw [hwhen]
    simp only [hinst]
    rw [if_neg hgo]
    simp only [hgood, hinput, Bool.or_false, ← hw, ← ht, ← hu, ← hv, hchk, Bool.false_eq_true, if_false]
  case compared =>
    change Host.Outcome.next _ = _
    rw [hwhen]
    simp only [hinst, hsent, hphase, htile, hchk, Bool.not_true, Bool.false_eq_true, if_false]
    obtain ⟨r, disagrees⟩ := s.compare i t x
    cases disagrees
    · simp only [Bool.false_eq_true, if_false]
    · simp only [if_true]
  case reissued =>
    change Host.Outcome.next _ = _
    rw [hwhen]
    simp only [hinst, hsent, hphase, htile, hchk, Bool.not_true, Bool.false_eq_true, if_false]
    obtain ⟨r, disagrees⟩ := s.compare i t x
    cases disagrees
    · simp only [Bool.false_eq_true, if_false]
    · simp only [if_true]

/-- With no late contribution missed, none is counted. -/
theorem countP_not_of_all {α : Type} {l : List (α × Bool)} (h : l.all (·.2) = true) : l.countP (fun x => !x.2) = 0 := by
  rw [List.countP_eq_zero]
  intro x hx
  simp [List.all_eq_true.mp h x hx]

theorem any_not_of_all {α : Type} {l : List (α × Bool)} (h : l.all (·.2) = true) : l.any (fun x => !x.2) = false := by
  rw [List.any_eq_false]
  intro x hx
  simp [List.all_eq_true.mp h x hx]

/-- Settles O30: while GLZ runs each clause is its command's branch under the conditions it names. -/
theorem fusionAmendsAndReuses : Obligations.FusionAmendsAndReuses := by
  intro s hen hlive href
  have hwhen : ∀ f, s.whenGlz f = f s := fun f => State.whenGlz_of_running hen hlive href
  refine ⟨fun hany => ?window, fun tile cells i old t v w hhead hold hclosed hreuse hpend hphase hout hgood hinput hw ht hv hchk => ?recompute,
    fun i m w v hhead hreuse htime hsafe hlost hlate hw hm hv hchk hsent => ?reuse⟩
  case window =>
    change Host.Outcome.next _ = _
    rw [hwhen]
    exact congrArg Host.Outcome.next (if_pos hany)
  case recompute =>
    change Host.Outcome.next _ = _
    have hgo : ¬ (!i.amendClosed || i.reuseDone || !(i.tile tile).pendingAmend || decide ((i.tile tile).phase ≠ .issued)
        || s.amendOutstanding i) = true := by
      simp [hclosed, hreuse, hpend, hphase, hout]
    rw [hwhen]
    simp only [hhead, hold]
    rw [if_neg hgo]
    simp only [hgood, hinput, Bool.or_false, ← hw, ← ht, ← hv, hchk, if_true]
  case reuse =>
    change Host.Outcome.next _ = _
    have hnow : ¬ s.now < i.deadline - s.get F.GLZ_DEADLINE_REUSE_LEAD * 1000 := Int.not_lt.mpr htime
    rw [hwhen]
    simp only [hhead]
    rw [if_neg (by simp [hreuse, hnow, hsafe])]
    simp only [hlost, if_true, countP_not_of_all hlate, any_not_of_all hlate, Bool.false_eq_true, if_false]
    simp only [← hm, ← hw]
    simp only [← hv, hchk, hsent, Bool.and_self, if_true]

/-- Settles O32: each clause is its command's branch under the conditions it names. -/
theorem schedulerRunsEntries : Obligations.SchedulerRunsEntries := by
  intro s
  refine ⟨fun unit graph slot tile run e hrun htgs hgraph hlow hunit hready hpicked hroom he hok hcount hins => ?fire,
    fun unit graph slot error arg run f r hrun hfind htgs hout => ?complete, fun unit graph slot error arg run f hrun hfind hout => ?none,
    fun slots cs t u v hsquash hu hv => ?squash⟩
  case fire =>
    change Host.Outcome.next _ = _
    have hgo : ¬ (!s.tgsRuns || decide (s.graphs ≤ graph) || decide (104 ≤ unit) || !s.ready unit run || !s.picked tile unit run) = true := by
      simp [htgs, hgraph, hunit, hready, hpicked]
    subst he
    simp only [hrun]
    rw [if_neg hgo]
    have hnone : ∀ g, (∀ x, g x = (s.tgs.input run x).any (fun k => k.kind == 3)) →
        (s.entryOf graph unit (s.tgs.firedCount unit run)).ins.any g = false := fun g hg => by
      rw [List.any_eq_false]
      intro x hx
      simpa [hg x] using List.all_eq_true.mp hins x hx
    rw [hnone]
    · simp only [hroom, hok, bne_iff_ne.mpr hcount, decide_eq_false (Nat.not_lt.mpr hlow), Bool.not_true, Bool.not_false, Bool.and_self,
        Bool.false_and, Bool.false_eq_true, if_false, if_true]
    · intro x
      cases s.tgs.input run x <;> rfl
  case complete =>
    change Host.Outcome.next _ = _
    simp only [hrun, hfind, htgs, hout, Bool.not_true, Bool.false_eq_true, if_false]
  case none =>
    change Host.Outcome.next _ = _
    simp only [hrun, hfind, hout, ite_self]
  case squash =>
    change Host.Outcome.next _ = _
    subst hv hu
    simp only [hsquash]

end Sys2Proof.Machine
end

section
/-! Proofs: the array's tiles (11) and the attention engine (14). -/

namespace Sys2Proof.Machine

section
variable {s : State} {o : ArrOp} {b : ArrBuf}

/-! ## The array (R173 to R187) -/

/-- A command of the array that met nothing leaves no trace of an error. -/
theorem State.arrMet_of_sound : s.arrMet o 0 = s := rfl

/-- An operation on sound operands accumulates (R173). -/
theorem State.opEnd_of_sound (hcode : b.code = none) (hbad : b.bad = false) : s.opEnd o b 0 = s.opAdvance o b := by
  simp [State.opEnd, hcode, hbad, State.arrMet_of_sound]

/-- The last store of an entry, without saturation and NaN, frees its set and ends the entry (R174). -/
theorem State.storeEnd_of_last {golden : Bool} (hlast : o.count ≤ o.rep + 1) :
    s.storeEnd o golden none 0 0 = ((s.freeSetOf o).count 2 2 1 (some o.unit)).updOp { o with phase := .ended none } := by
  simp only [State.storeEnd, if_true, if_neg (Nat.not_lt.mpr hlast)]

end

/-- Settles O33: a tile operation is `State.opEnd`, a store `State.storeChain`, on operands without an error. -/
theorem arrayTilesAct : Obligations.ArrayTilesAct := by
  intro s
  refine ⟨fun tile o b t hruns ht hop hfind hcode hbad => ?operation,
    fun tile g te o a w rows out hfind hruns hread hcode hpoison hq hout hfmt hw hlost hwrote hsats hnans hlast => ?store⟩
  case operation =>
    change Host.Outcome.next _ = _
    subst ht
    simp only [hruns, hop, hfind, Bool.not_true, Bool.false_eq_true, if_false, State.opEnd_of_sound hcode hbad]
  case store =>
    have hstore : s.storeChain o g te = w.s.storeEnd o g none 0 0 := by
      unfold State.storeChain
      simp only [hread, hcode, hpoison, hq, hfmt, ← hout, ← hw, hlost, hwrote, hsats, hnans, Bool.false_and, Bool.false_eq_true,
        if_false, if_true]
    change Host.Outcome.next _ = _
    simp only [hfind, hruns, Bool.not_true, Bool.false_eq_true, if_false, State.arrMet_of_sound, hstore, State.storeEnd_of_last hlast,
      OfNat.zero_ne_ofNat]

/-! ## Attention (R231 to R236) -/

/-- What becomes of a block whose last phase gave the code `c` and whose rows were written as `w` (R231, R239). -/
def PhaseRun.ended (x : PhaseRun) (c : Option Nat) (w : LayOut) (b : AtnBlock) (st : AtnStep) : State :=
  match c with
  | some c => x.s.atnFault st c x.seq
  | none => match w.code with
    | some c => w.s.atnFault st c (b.rows.headD default).seq
    | none => w.s.blockDone b st

theorem State.rowsWritten_eq {x : PhaseRun × List (AtnRow × List Byte)} {b : AtnBlock} {st : AtnStep} {at_ : Nat} {fin : Bool} :
    State.rowsWritten x b st at_ fin = x.1.ended x.1.code (x.1.s.stepWrite st at_ x.2 fin) b st := rfl

/-- A block that met no fault is done. -/
theorem PhaseRun.ended_of_sound {x : PhaseRun} {w : LayOut} {b : AtnBlock} {st : AtnStep} (hwrote : w.code = none) :
    x.ended none w b st = w.s.blockDone b st := by
  unfold PhaseRun.ended
  rw [hwrote]

/-- Settles O34: each phase of a block is its run, and what follows a run without a fault. -/
theorem attentionBlocksAct : Obligations.AttentionBlocksAct := by
  intro s hruns
  refine ⟨fun st slot rows r x hchoice hrows hsome hpages hr hcodes hpoisons hx hcode => ⟨_, rfl, ?score⟩,
    fun slot g b st x hblock hturn hx hcode => ?norm, fun slot g b st x w hblock hforward hx hcode hw hwrote => ?value,
    fun slot g b st q dO x w hblock hback hq hdO hreads hx hcode hw hwrote => ?gradient⟩
  case score =>
    obtain ⟨hq, hk, hv⟩ := hcodes
    obtain ⟨hqs, hks, hvs⟩ := hpoisons
    change Host.Outcome.next _ = _
    simp only [hruns, hchoice, ← hrows, hsome, hpages, ← hr, hq, hk, hv, hqs, hks, hvs, ← hx, Option.or_none, Bool.or_self, Bool.not_true,
      Bool.false_eq_true, if_false, PhaseRun.scored, hcode]
  case norm =>
    change Host.Outcome.next _ = _
    simp only [hblock, hruns, hturn, ← hx, Bool.not_true, Bool.or_self, Bool.false_eq_true, if_false, PhaseRun.normed, hcode]
  case value =>
    change Host.Outcome.next _ = _
    simp only [hblock, hruns, hforward, ← hx, Bool.not_true, Bool.or_self, Bool.false_eq_true, if_false]
    rw [State.rowsWritten_eq, hcode, ← hw, PhaseRun.ended_of_sound hwrote]
  case gradient =>
    obtain ⟨hqc, hdc, hqp, hdp⟩ := hreads
    change Host.Outcome.next _ = _
    simp only [hblock, hruns, hback, ← hq, ← hdO, hqc, hdc, hqp, hdp, ← hx, Option.or_none, Bool.not_true, Bool.or_self, Bool.false_eq_true,
      if_false]
    rw [State.rowsWritten_eq, hcode, ← hw, PhaseRun.ended_of_sound hwrote]

end Sys2Proof.Machine
end

section
/-! Proofs: the point engine (05). -/

namespace Sys2Proof.Machine

section
variable {s : State} {f : State → State}

/-- PTS acts while it is enabled and clocked and REFCLK is there. -/
theorem State.whenPts_of_running (hen : s.on F.PTS_CTRL_ENABLE = true) (hlive : s.gated wPTS = false) (href : s.pwr.refLost = false) :
    s.whenPts f = f s := by
  simp [State.whenPts, State.runs, hen, hlive, href]

/-- A read whose last word passes its checks finds no failed check. -/
theorem itemChecks_of_good {k : Nat} : itemChecks ⟨k, false, false⟩ = {} := rfl

theorem itemChecks_eq {k : Nat} {a b : Bool} : itemChecks ⟨k, a, b⟩ = { tailPar := a, crc := b } := rfl

end

/-- Settles O22: while PTS runs each clause is its command's branch under the conditions it names. -/
theorem pointEngineActs : Obligations.PointEngineActs := by
  intro s hen hlive href
  have hwhen : ∀ f, s.whenPts f = f s := fun f => State.whenPts_of_running hen hlive href
  have hread : ∀ k < 16, s.on (F.PTS_LIDAR_CFG_ENABLE k) = true → ¬ (decide (16 ≤ k) || !s.on (F.PTS_LIDAR_CFG_ENABLE k)) = true := by
    intro k hk hon
    simp [hk, hon]
  refine ⟨fun k l c stream hd pl steps late hk hon hpeek hstream hslot hreal hgolden hwin hexcl => ?item,
    fun k l hd pl steps a b hk hon hpeek hslot => ?bad, fun k items reset hk hon hpeek => ?gap,
    fun w a close t hfind hwindow htable htime hwaited => ?intake, fun k p hfind hcover => ?compensate,
    fun k p hfind hcover htime => ?predict, fun t hfind => ⟨_, _, rfl, rfl, ?close⟩, fun t hfind => ?free⟩
  case item =>
    change Host.Outcome.next _ = _
    subst hstream
    rw [hwhen, if_neg (hread k hk hon), itemChecks_of_good]
    simp only [hpeek, hslot, hreal, hgolden, hwin, hexcl, Bool.false_eq_true, if_false]
  case bad =>
    change Host.Outcome.next _ = _
    rw [hwhen, if_neg (hread k hk hon), itemChecks_eq]
    simp only [hpeek, hslot, if_true]
  case gap =>
    change Host.Outcome.next _ = _
    rw [hwhen, if_neg (hread k hk hon), itemChecks_of_good]
    simp only [hpeek]
  case intake =>
    change Host.Outcome.next _ = _
    have hnow : decide (s.now < close + 50000) = false := decide_eq_false (Int.not_lt.mpr htime)
    have hgo : ¬ ((s.ptable w.cycle).isNone || decide (s.now < close + 50000) || (w.waited && !s.drainedTo close)) = true := by
      simp [htable, hnow, hwaited]
    rw [hwhen]
    simp only [hfind, hwindow]
    exact congrArg Host.Outcome.next (if_neg hgo)
  case compensate =>
    change Host.Outcome.next _ = _
    rw [hwhen]
    simp only [hfind, hcover, if_true]
  case predict =>
    change Host.Outcome.next _ = _
    have hnow : decide (p.doneAt + s.get F.PTS_CTRL_POSE_WAIT * 1000 ≤ s.now) = true := decide_eq_true htime
    rw [hwhen]
    simp only [hfind, hcover, hnow, Bool.not_false, Bool.and_self, if_true]
  case close =>
    change Host.Outcome.next _ = _
    rw [hwhen]
    simp only [hfind]
  case free =>
    change Host.Outcome.next _ = _
    rw [hwhen]
    simp only [hfind]

end Sys2Proof.Machine
end

section
/-! Proofs: sensor ingest (03). -/

namespace Sys2Proof.Machine

section
variable {s : State} {f : State → State} {rx vc dt i p n e : Nat}

/-! ## Where ING acts (R36, R40, R51) -/

/-- ING acts while it is clocked, REFCLK is there and streams have come up. -/
theorem State.whenIng_of_running (hlive : s.gated wING = false) (href : s.pwr.refLost = false) (hup : s.tim.streamsUp = true) :
    s.whenIng f = f s := by
  simp [State.whenIng, State.runs, hlive, href, hup]

/-- An enabled receiver does what ING does. -/
theorem State.whenRx_of_enabled (hrx : rx < 12) (hen : bitSet (s.get F.ING_CTRL_CSI_EN) rx = true) (hwhen : ∀ f, s.whenIng f = f s) :
    s.whenRx rx f = f s := by
  simp [State.whenRx, hwhen, hen, hrx]

/-- An enabled sensor port does what ING does. -/
theorem State.whenPort_of_enabled (hp : p < 6) (hen : bitSet (s.get F.ING_CTRL_ETH_EN) p = true) (hwhen : ∀ f, s.whenIng f = f s) :
    s.whenPort p f = f s := by
  simp [State.whenPort, hwhen, hen, hp]

/-! ## Frames (R36 to R39, R56, R388) -/

/-- A Frame Start abandons nothing where no golden burst runs on its receiver. -/
theorem State.abortBurst_of_idle (hidle : s.ing.bursts.any (fun b => b.rx == rx) = false) : s.abortBurst rx = s := by
  simp [State.abortBurst, hidle]

/-- A numbered Frame Start of a stream without an open frame opens one. -/
theorem State.startFrame_of_closed (hclosed : s.frameOf i = none) (hpos : 0 < n) (hn : n < 65536) :
    s.startFrame i n = (({ s with ing := { s.ing with
      frames := s.ing.frames ++ [{ stream := i, arrival := s.tim.time }], frameAt := setKey s.ing.frameAt i s.tim.time
      missed := s.ing.missed + missedFrames ((s.ing.frameNo.lookup i).getD 0) n, frameNo := setKey s.ing.frameNo i n
      lastRx := setKey s.ing.lastRx i s.tim.time } } : State).frameItem { stream := i, arrival := s.tim.time } ifFrameStart []) := by
  simp only [State.startFrame, hclosed, Nat.mod_eq_of_lt hn, if_neg (Nat.pos_iff_ne_zero.mp hpos), State.now]

/-- A whole line of an open frame, which the receive buffer takes, is an item of the frame. -/
theorem State.lineOf_of_taken {d : List Byte} {g : OpenFrame} {u : State} (hopen : s.frameOf i = some g) (hlines : g.lines < 2160)
    (hlen : d.length ≤ lineLimit dt) (hu : u = s.updOpen i (fun f => { f with lines := f.lines + 1 }))
    (htaken : (u.bufferTake rx (linePixels dt d)).2 = true) :
    s.lineOf rx dt i d true = (u.bufferTake rx (linePixels dt d)).1.frameItem g 0 (natLe 2 g.lines ++ d) := by
  simp only [State.lineOf, hopen, if_true, if_neg (Nat.not_le.mpr hlines), if_neg (Nat.not_lt.mpr hlen), List.take_of_length_le hlen,
    ← hu, htaken, Bool.not_true, Bool.false_eq_true, if_false]

/-- An open frame with the embedded time of its first embedded packet (R388). -/
def State.stampedFrame (s : State) (i : Nat) (g : OpenFrame) (d : List Byte) : OpenFrame :=
  { g with
    embedded := embeddedTime false (bitsAt (s.get (F.ING_STR_MATCH_SEL_B i)) 16 2) (bitsAt (s.get (F.ING_STR_MATCH_SEL_B i)) 0 16) d
    embSeen := true }

/-- The first embedded packet of a frame that waits for one supplies its time and releases what it held. -/
theorem State.embeddedPacket_of_first {d : List Byte} {g : OpenFrame} (hcam : s.camsOf rx vc = [i]) (hopen : s.frameOf i = some g)
    (hcheck : s.get (F.ING_STR_CFG_CHECK i) = 2) (hseen : g.embSeen = false) :
    s.embeddedPacket rx vc d true =
      (s.releaseHeld (s.stampedFrame i g d)).updOpen i (fun _ => { s.stampedFrame i g d with held := [] }) := by
  have hwaits : ¬ (s.get (F.ING_STR_CFG_CHECK i) ≠ 2 || g.embSeen) = true := by simp [hcheck, hseen]
  simp only [State.embeddedPacket, hcam, List.foldl_cons, List.foldl_nil, Bool.true_or, if_true, State.embeddedOf, hopen,
    if_neg hwaits, State.stampedFrame]

/-! ## Encoder edges (R46) -/

section
variable {g : EncSt → EncSt}

/-- What an update of an encoder input leaves. -/
@[simp] theorem State.updEnc_time : (s.updEnc e g).tim.time = s.tim.time := rfl
@[simp] theorem State.updEnc_lastRx : (s.updEnc e g).ing.lastRx = s.ing.lastRx := rfl
@[simp] theorem State.updEnc_get {fld : Fld} : (s.updEnc e g).get fld = s.get fld := rfl
@[simp] theorem State.updEnc_streamsOf {kind source : Nat} : (s.updEnc e g).streamsOf kind source = s.streamsOf kind source := rfl

end

/-- Outside the quadrature mode no edge is an illegal transition. -/
theorem State.edgeErr_of_mode_zero (hmode : s.get (F.ING_ENC_CFG_MODE (s.encInput e)) = 0) : s.edgeErr e = false := by
  simp [State.edgeErr, hmode]

/-- In MODE 0 a rising edge counts one up. -/
theorem State.edgeStep_of_mode_zero (hmode : s.get (F.ING_ENC_CFG_MODE (s.encInput e)) = 0) : s.edgeStep e true = some 1 := by
  simp [State.edgeStep, hmode]

end

/-- Settles O17: each clause is the branch of its packet at an enabled receiver; the rules above say what a Frame Start, a line and
an embedded packet do. -/
theorem camerasAct : Obligations.CamerasAct := by
  intro s hlive href hup
  have hing : ∀ f, s.whenIng f = f s := fun f => State.whenIng_of_running hlive href hup
  refine ⟨fun rx vc n i hrx hen hidle hcam hclosed hpos hn _ => ?start, fun rx vc n hrx hen hidle hcam => ?unmatched,
    fun rx vc dt i d g u hrx hen hgolden hemb hstart hend hcam hopen hlines hlen hu htaken => ?line,
    fun rx vc dt d c hrx hen hdt hvc => ?ignored,
    fun rx vc i d g hrx hen hcam hopen hcheck hseen => ⟨s.stampedFrame i g d, rfl, rfl, rfl, ?embedded⟩,
    fun rx vc n g hrx hen hopen => ?frameEnd, fun i g hopen hlate => ?timeout⟩
  case start =>
    change Host.Outcome.next _ = _
    rw [State.whenRx_of_enabled hrx hen hing]
    simp only [State.abortBurst_of_idle hidle, hcam, List.foldl_cons, List.foldl_nil, State.startFrame_of_closed hclosed hpos hn]
  case unmatched =>
    change Host.Outcome.next _ = _
    rw [State.whenRx_of_enabled hrx hen hing]
    simp only [State.abortBurst_of_idle hidle, hcam]
  case line =>
    change Host.Outcome.next _ = _
    rw [State.whenRx_of_enabled hrx hen hing]
    simp only [Bool.not_true, Bool.false_eq_true, if_false, hstart, hend, hemb, hgolden, decide_false, Bool.or_self, Bool.false_and,
      hcam, State.lineOf_of_taken hopen hlines hlen hu htaken]
  case ignored =>
    change Host.Outcome.next _ = _
    have hline : ((dt = 0x02 || dt = 0x03) && decide (vc < 4)) = true := by simpa [hvc] using hdt
    rw [State.whenRx_of_enabled hrx hen hing]
    simp only [Bool.not_true, Bool.false_eq_true, if_false, hline, if_true]
  case embedded =>
    change Host.Outcome.next _ = _
    rw [State.whenRx_of_enabled hrx hen hing, State.embeddedPacket_of_first hcam hopen hcheck hseen]
  case frameEnd =>
    change Host.Outcome.next _ = _
    rw [State.whenRx_of_enabled hrx hen hing]
    simp only [hopen, List.foldl_cons, List.foldl_nil]
  case timeout =>
    change Host.Outcome.next _ = _
    rw [hing]
    simp only [hopen]
    exact congrArg Host.Outcome.next (if_pos hlate)

/-- Settles O18: each clause is its event's branch while ING runs, under the conditions it names. -/
theorem sensorsAct : Obligations.SensorsAct := by
  intro s hlive href hup
  have hing : ∀ f, s.whenIng f = f s := fun f => State.whenIng_of_running hlive href hup
  refine ⟨fun p ip dst i fr d hp hen haccept hlidar => ?lidar, fun p fr hp hen haccept => ?foreign, fun p a b hp hen => ?arp,
    fun c id i ide d hc hen hon hlen hid hmine => ?can, fun c hc hen => ?busOff, fun c => ?recovery,
    fun k hk hen hnone => ?ready, fun k i t d l hread hstream => ?spi,
    fun e i held l u he hheld hin hen hmode hlevel hu hstream hsince => ?edge, fun e held rising he hheld => ?glitch,
    fun e held rising he hlevel => ?same, fun i hmine hen hne hsince => ?idle, fun i t hi hstate hne hlast hlate => ?absent,
    fun hgrace => ?grace⟩
  case lidar =>
    change Host.Outcome.next _ = _
    rw [State.whenPort_of_enabled hp hen hing]
    simp only [haccept, hlidar, State.rxStamp, State.now]
  case foreign =>
    change Host.Outcome.next _ = _
    rw [State.whenPort_of_enabled hp hen hing]
    simp only [haccept]
  case arp =>
    change Host.Outcome.next _ = _
    rw [State.whenPort_of_enabled hp hen hing]
  case can =>
    change Host.Outcome.next _ = _
    have hacts : (decide (4 ≤ c) || !bitSet (s.get F.ING_CTRL_CAN_EN) c || s.ing.busOff.getD c false) = false := by
      simp only [decide_eq_false (Nat.not_le.mpr hc), hen, hon, Bool.not_true, Bool.or_self]
    rw [hing]
    simp only [hacts, Bool.false_and, Bool.false_or, Bool.false_eq_true, if_false, decide_eq_false (Nat.not_lt.mpr hlen),
      Nat.mod_eq_of_lt hid, hmine, List.isEmpty_cons, List.foldl_cons, List.foldl_nil, Nat.add_zero, State.now]
  case busOff =>
    change Host.Outcome.next _ = _
    rw [hing, if_neg (by simp [hc, hen])]
  case recovery =>
    change Host.Outcome.next _ = _
    rw [hing]
  case ready =>
    change Host.Outcome.next _ = _
    rw [hing, if_neg (by simp [hk, hen])]
    simp only [hnone, Option.isSome_none, Bool.false_eq_true, if_false, State.now]
  case spi =>
    change Host.Outcome.next _ = _
    have hkept : ({ s with ing := { s.ing with spiRead := modifyAt (fun _ => none) k s.ing.spiRead } } : State).streamsOf 3 k
        = i :: l := hstream
    rw [hing]
    simp only [hread, hkept]
  case edge =>
    change Host.Outcome.next _ = _
    have hmode' : s.get (F.ING_ENC_CFG_MODE (s.encInput e)) = 0 := by rw [hin, hmode]
    have hcounts : ¬ (decide (8 ≤ e) || !bitSet (s.get F.ING_CTRL_ENC_EN) e || decide (held < s.get (F.ING_ENC_CFG_FILTER e))
        || (!false && (s.encIn e).level == some true)) = true := by
      simp [he, hen, hheld, hlevel]
    have hkept : u.streamsOf 4 e = i :: l := by rw [hu, State.updEnc_streamsOf, State.updEnc_streamsOf, hstream]
    have hdue : (u.ing.lastRx.lookup i).getD u.tim.time + u.get (F.ING_ENC_CFG_INTERVAL e) * 1000 ≤ u.tim.time := by
      simpa only [hu, State.updEnc_time, State.updEnc_lastRx, State.updEnc_get] using hsince
    rw [hing]
    simp only [hin, if_neg hcounts, State.edgeStep_of_mode_zero hmode', State.edgeErr_of_mode_zero hmode', Bool.or_self,
      Bool.false_eq_true, if_false, State.now, State.updEnc_time, ← hu, hkept, if_pos hdue]
  case glitch =>
    change Host.Outcome.next _ = _
    rw [hing, if_pos (by simp [hheld])]
  case same =>
    change Host.Outcome.next _ = _
    rw [hing, if_pos (by simp [hlevel])]
  case idle =>
    change Host.Outcome.next _ = _
    rw [hing]
    simp only [hmine, hen, Bool.not_true, Bool.or_self, Bool.false_eq_true, if_false]
    refine congrArg Host.Outcome.next (if_pos ⟨Nat.mul_ne_zero hne (by decide), ?_⟩)
    rwa [Nat.cast_mul]
  case absent =>
    change Host.Outcome.next _ = _
    have hcounts : ¬ (decide (64 ≤ i) || s.get (F.ING_STR_STAT_STATE i) != 2 || s.get (F.ING_STR_TIME_ABSENT_PERIODS i) == 0) = true := by
      simp [hi, hstate, hne]
    rw [hing, if_neg hcounts]
    simp only [hlast]
    exact congrArg Host.Outcome.next (if_pos hlate)
  case grace =>
    change Host.Outcome.next _ = _
    rw [if_neg (by simp [hgrace])]

/-- Settles O19: a golden item is written, then the burst goes on, or the frame is due with its last item. -/
theorem goldenInjectionActs : Obligations.GoldenInjectionActs := by
  intro s hlive href hup hgold hpow
  have hing : ∀ f, s.whenIng f = f s := fun f => State.whenIng_of_running hlive href hup
  have hinject : ¬ (!s.on F.ING_CTRL_GOLDEN_EN || decide (s.power ≠ 0)) = true := by simp [hgold, hpow]
  refine ⟨fun rx i b l hrx hen hburst hcams hmore => ⟨_, rfl, ?line⟩, fun rx i b l hrx hen hburst hcams hlast => ⟨_, rfl, ?last⟩,
    fun p i g l hp hen hfind hstream => ?packets⟩
  case line =>
    change Host.Outcome.next _ = _
    rw [State.whenRx_of_enabled hrx hen hing, if_neg hinject]
    simp only [hburst, hcams, decide_eq_false (Nat.not_le.mpr hmore), Bool.false_eq_true, if_false]
  case last =>
    change Host.Outcome.next _ = _
    rw [State.whenRx_of_enabled hrx hen hing, if_neg hinject]
    simp only [hburst, hcams, decide_eq_true hlast, if_true]
  case packets =>
    change Host.Outcome.next _ = _
    rw [State.whenPort_of_enabled hp hen hing, if_neg hinject]
    simp only [hfind, hstream]

end Sys2Proof.Machine
end

section
/-! Proofs: the solver (08). -/

namespace Sys2Proof.Machine

section
variable {s t : State}

/-! ## What the solver's state survives (R132, R214, R285)

Reporting a poisoned word detects a contained fault; the most that it leads to is Degraded, which touches no solve. -/

@[simp] theorem State.slv_raise {f : Fld} : (s.raise f).slv = s.slv := State.slv_put
@[simp] theorem State.slv_flag {f : Fld} {b : Bool} : (s.flag f b).slv = s.slv := State.slv_put
@[simp] theorem State.slv_satAdd {f : Fld} {n : Nat} : (s.satAdd f n).slv = s.slv := State.slv_put
@[simp] theorem State.slv_satInc {f : Fld} : (s.satInc f).slv = s.slv := State.slv_put

theorem State.slv_sends (h : State.Sends s t) : t.slv = s.slv := by
  unfold State.Sends at h
  rw [h]

/-- t has the solver's state of s. As a definition of its own it keeps the kernel from evaluating what a fold writes. -/
def State.SameSlv (s t : State) : Prop := t.slv = s.slv

theorem State.SameSlv.refl : State.SameSlv s s := rfl

theorem State.SameSlv.trans {u : State} (h : State.SameSlv s t) (h' : State.SameSlv t u) : State.SameSlv s u := Eq.trans h' h

theorem State.SameSlv.ite {c : Prop} [Decidable c] {u : State} (h : State.SameSlv s t) (h' : State.SameSlv s u) :
    State.SameSlv s (if c then t else u) := by
  split <;> assumption

theorem State.SameSlv.put {f : Fld} {n : Nat} : State.SameSlv s (s.put f n) := State.slv_put

theorem State.SameSlv.writeBytes {a : Nat} {l : List Byte} : State.SameSlv s (s.writeBytes a l) := State.slv_writeBytes

theorem State.SameSlv.foldl {α : Type} {f : State → α → State} (h : ∀ u a, State.SameSlv u (f u a)) {l : List α} :
    State.SameSlv s (l.foldl f s) := by
  induction l generalizing s with
  | nil => exact .refl
  | cons a l ih => exact (h s a).trans ih

@[simp] theorem State.slv_noticeOn {p : Nat} {n : Notice} : (s.noticeOn p n).slv = s.slv :=
  State.SameSlv.ite (State.SameSlv.foldl fun _ _ => State.slv_sends .txSend) (State.SameSlv.ite rfl rfl)

@[simp] theorem State.slv_sendNotice {n : Notice} : (s.sendNotice n).slv = s.slv := by
  simp [State.sendNotice]

/-- A change to Degraded by a detection leaves the solver as it is. -/
theorem State.slv_changeState_degraded {cause unit idx : Nat} (hcause : cause ≠ cNONE) :
    (s.changeState stDegraded cause unit idx).slv = s.slv := by
  simp [State.changeState, hcause]

theorem State.slv_respond_rate {unit idx : Nat} : (s.respond cCONTAIN_RATE unit idx).slv = s.slv := by
  have htarget : s.responseTarget cCONTAIN_RATE = if s.safety = stNormal then some stDegraded else none := rfl
  have hresponse : responseOf cCONTAIN_RATE = .degrade := rfl
  simp only [State.respond, hresponse, htarget]
  by_cases h : s.safety = stNormal
  · simp only [h, if_true]
    exact State.slv_changeState_degraded (by decide)
  · simp only [h, if_false]
    rfl

theorem State.slv_recordFault {cause unit detail : Nat} : (s.recordFault cause unit detail).slv = s.slv := by
  simp [State.recordFault, State.putI]

theorem State.slv_containRate : s.containRate.slv = s.slv := by
  unfold State.containRate
  exact State.SameSlv.ite (State.slv_respond_rate.trans State.slv_recordFault) rfl

theorem State.slv_respond_contained {unit idx : Nat} : (s.respond cCONTAINED unit idx).slv = s.slv := by
  have hresponse : responseOf cCONTAINED = .contain := rfl
  simp [State.respond, hresponse]

/-- A contained fault leaves the solver as it is. -/
theorem State.slv_detect_contained {unit detail : Nat} : (s.detect cCONTAINED unit detail).slv = s.slv := by
  have hresponse : responseOf cCONTAINED = .contain := rfl
  simp only [State.detect, hresponse, if_true, State.slv_containRate, State.detectOne, State.slv_respond_contained,
    State.slv_recordFault]

@[simp] theorem State.slv_memErr {a kind : Nat} : (s.memErr a kind).slv = s.slv := State.SameSlv.ite rfl rfl

@[simp] theorem State.slv_countUncorr {a : Nat} : (s.countUncorr a).slv = s.slv := by
  unfold State.countUncorr
  extract_lets u
  have hu : u.slv = s.slv := by simp [u]
  exact State.SameSlv.ite (State.slv_satInc.trans hu) (State.slv_satInc.trans hu)

@[simp] theorem State.slv_poisonWord {w : Nat} : (s.poisonWord w).slv = s.slv := State.SameSlv.ite rfl rfl

theorem State.slv_eccUncorr {a : Nat} : (s.eccUncorr a).slv = s.slv := by
  unfold State.eccUncorr
  extract_lets known u v w
  have hu : u.slv = s.slv := State.slv_countUncorr.trans State.slv_memErr
  have hv : v.slv = u.slv := State.SameSlv.ite rfl rfl
  have hw : w.slv = v.slv := State.SameSlv.ite rfl State.slv_log
  rw [State.slv_detect_contained, State.slv_poisonWord, hw, hv, hu]

@[simp] theorem State.slv_reportBad {a k : Nat} : (s.reportBad a k).slv = s.slv := State.SameSlv.foldl fun _ _ => State.slv_eccUncorr

@[simp] theorem State.slv_slvSats {n : Nat} : (s.slvSats n).slv = s.slv := State.SameSlv.ite rfl rfl

@[simp] theorem State.slv_writeReduced {b : BaStep} {red : List (List Int)} : (s.writeReduced b red).slv = s.slv := by
  unfold State.writeReduced
  exact State.SameSlv.foldl fun _ _ => State.SameSlv.foldl fun _ _ => State.SameSlv.writeBytes

/-- A step of bundle adjustment that ends leaves its signature. -/
@[simp] theorem State.slv_baEnd {b : BaStep} {result skipped maxStep : Nat} {sat reg : Bool} :
    (s.baEnd b result skipped maxStep sat reg).slv = { s.slv with ba := none, baSig := some b.sig } := by
  unfold State.baEnd
  extract_lets a runs fl hd u v w x y
  have hu : State.SameSlv s u := .writeBytes
  have hv : State.SameSlv u v := (State.SameSlv.put.trans .put).trans .put
  have hw : State.SameSlv v w := (State.SameSlv.put.trans .put).trans .put
  have hx : State.SameSlv w x := .ite (State.SameSlv.put.trans .put) .refl
  have hy : State.SameSlv x y := (State.SameSlv.put.trans .put).trans .put
  exact congrArg (fun l : Slv => { l with ba := none, baSig := some b.sig }) ((((hu.trans hv).trans hw).trans hx).trans hy)

/-! ## Where the solver acts -/

/-- The ego kind acts while it runs. -/
theorem State.whenEgo_of_on {f : State → State} (hon : s.egoOn = true) : s.whenEgo f = f s := by
  simp [State.whenEgo, hon]

/-- A write of SLV_BA_CMD in a device that is up goes to the command (R131, R133). -/
theorem State.writeWindow_baCmd (hlive : s.gated wSLV = false) {value : Nat} :
    s.writeWindow F.SLV_BA_CMD_START.addr value false = s.writeBaCmd F.SLV_BA_CMD_START.addr value false := by
  have hwindow : windowOf F.SLV_BA_CMD_START.addr = some wSLV := by decide
  have haddr : F.SLV_BA_CMD_START.addr / 8 * 8 = F.SLV_BA_CMD_START.addr := by decide
  have hsrc : F.SLV_BA_CMD_START.addr ≠ F.CLK_SRC_SEL.addr := by decide
  simp only [State.writeWindow, haddr, State.windowLive, hwindow, hlive, Bool.not_false, Bool.not_true, Bool.false_eq_true, if_false,
    hsrc, if_true]

/-- A step that ends is `State.baEnd` on a state with the same solver. -/
theorem execBaStepDone_eq_baEnd {b : BaStep} (hba : s.slv.ba = some b) (hrun : b.paused = false) (hclock : s.runs wSLV = true)
    (hstep : execBaStepDone s = .next t) :
    ∃ (u : State) (result skipped far : Nat) (sat reg : Bool), u.slv = s.slv ∧ t = u.baEnd b result skipped far sat reg := by
  have hgo : ¬ (b.paused || !s.runs wSLV) = true := by simp [hrun, hclock]
  unfold execBaStepDone at hstep
  simp -zeta only [hba, if_neg hgo] at hstep
  extract_lets a obs skipped scale sy e f regs lost x d dl sats u v conv w y at hstep
  have hu : State.SameSlv s u := State.slv_writeReduced.trans (State.slv_slvSats.trans State.slv_reportBad)
  have hv : State.SameSlv s v := .ite hu ((hu.trans .put).trans .put)
  split at hstep
  · exact ⟨v, _, _, _, _, _, hv, (Host.Outcome.next.inj hstep).symm⟩
  · exact ⟨y, _, _, _, _, _, (hv.trans .writeBytes).trans .writeBytes, (Host.Outcome.next.inj hstep).symm⟩

/-! ## The ego solve (R118, R124, R130) -/

/-- A solve starts with its window of `w` nodes: the solver's state after the intake close, and the registers that show it. -/
def State.startSolve (s : State) (l : Slv) (w : Nat) : State :=
  ((({ s with slv := l } : State).put F.SLV_STATUS_NODES w).raise F.SLV_STATUS_EGO_BUSY).flag F.SLV_STATUS_RESIDENT false

theorem State.slv_startSolve {l : Slv} {w : Nat} : (s.startSolve l w).slv = l := by
  simp [State.startSolve]

/-- The estimate of a solve that has not ended is a prediction at its node's time. -/
theorem State.egoResult_time_of_running {x : EgoSolve} (hrun : x.ended = false) : (s.egoResult x).time = x.time := by
  simp only [State.egoResult, hrun, Bool.not_false, if_true, Est.predict]

/-- What the publication of a solve's estimate leaves in the solver (R120, R130). -/
structure State.Published (s : State) (x : EgoSolve) (u : State) (e : Est) : Prop where
  seq : e.seq = s.slv.seq
  time : e.time = (s.egoResult x).time
  place : e.p = (s.egoResult x).p
  turn : e.q = (s.egoResult x).q
  free : u.slv.solve = none
  last : u.slv.last = some e
  missed : u.slv.missed = !x.ended
  late : u.slv.late = false
  solved : x.ended = true → x.failed = false → u.slv.solved = some e

/-- At its deadline a solve's estimate is published; a solve that has not ended is missed, which SAF learns. -/
theorem execEgoPublish_eq {x : EgoSolve} (hon : s.egoOn = true) (hsolve : s.slv.solve = some x)
    (hdue : x.time + s.egoDeadline ≤ s.tim.time) :
    ∃ (u : State) (e : Est) (c : Nat), s.Published x u e ∧ (c = cEGO_SPAN ∨ c = cCONTAINED) ∧
      execEgoPublish s = .next (if x.ended then u
        else (((u.egoIdle.raise F.SLV_EVENT_MISSED).satInc F.SLV_COUNTS_MISSES).detect c 4 (ofInt 64 x.time))) := by
  have hnow : ¬ s.now < x.time + s.egoDeadline := Int.not_lt.mpr hdue
  obtain ⟨t, ht⟩ : ∃ t, execEgoPublish s = .next t := ⟨_, rfl⟩
  rw [ht]
  unfold execEgoPublish at ht
  rw [State.whenEgo_of_on hon] at ht
  simp -zeta only [hsolve, if_neg hnow] at ht
  extract_lets miss e0 fl0 fl e u1 u2 u3 u4 again since u5 u6 u7 at ht
  have hpub : s.Published x u6 e :=
    { seq := rfl, time := rfl, place := rfl, turn := rfl, free := rfl, last := rfl, missed := rfl, late := rfl
      solved := fun hended hgood => by simp [u6, hended, hgood] }
  rw [← ht]
  by_cases hended : x.ended = true
  · exact ⟨u6, e, cCONTAINED, hpub, .inr rfl, by simp only [miss, hended, Bool.not_true, Bool.not_false, if_true]⟩
  · by_cases hspan : (again && decide ((x.set.predictMax : Int) * 1000000 < since)) = true
    · refine ⟨u6, e, cEGO_SPAN, hpub, .inl rfl, ?_⟩
      simp only [miss, hended, hspan, Bool.not_false, Bool.not_true, Bool.false_eq_true, if_false, if_true, u7]
    · refine ⟨u6, e, cCONTAINED, hpub, .inr rfl, ?_⟩
      simp only [miss, hended, hspan, Bool.not_false, Bool.not_true, Bool.false_eq_true, if_false, u7]

/-- What an iteration leaves of a solve (R124, R127, R128). -/
structure EgoSolve.Iterated (x y : EgoSolve) : Prop where
  iters : y.iters = x.iters + 1
  time : y.time = x.time
  sig : y.sig = x.sig
  last : x.set.iters ≤ x.iters + 1 → y.finished = true
  cut : x.cut.isSome = true → y.finished = true
  fail : y.failed = true → y.finished = true ∧ y.nodes = x.nodes

/-- An iteration of a solve that has not finished. -/
theorem execEgoIterationDone_eq {x : EgoSolve} (hon : s.egoOn = true) (hsolve : s.slv.solve = some x) (hrun : x.finished = false) :
    ∃ (t : State) (y : EgoSolve), execEgoIterationDone s = .next t ∧ t.slv.solve = some y ∧ x.Iterated y := by
  obtain ⟨t, ht⟩ : ∃ t, execEgoIterationDone s = .next t := ⟨_, rfl⟩
  rw [ht]
  unfold execEgoIterationDone at ht
  rw [State.whenEgo_of_on hon] at ht
  simp -zeta only [hsolve, hrun, Bool.false_eq_true, if_false] at ht
  extract_lets w scale iters lost u _ part e f d0 dsat d upd ssat fail conv sats fl0 fl y _ v at ht
  split at ht
  · refine ⟨t, _, rfl, by rw [← Host.Outcome.next.inj ht, State.slv_slvSats], ?_⟩
    exact { iters := rfl, time := rfl, sig := rfl, last := fun _ => rfl, cut := fun _ => rfl, fail := fun _ => ⟨rfl, rfl⟩ }
  · have hv : v.slv.solve = some y := by simp only [v, State.slv_slvSats]
    have ht' : t.slv = v.slv := by
      rw [← Host.Outcome.next.inj ht]
      exact State.SameSlv.ite .refl (State.SameSlv.put.trans .put)
    refine ⟨t, y, rfl, by rw [ht', hv], ?_⟩
    have hfin : ∀ {b : Bool}, b = true → (fail = b ∨ x.cut.isSome = b ∨ decide (x.set.iters ≤ iters) = b) → y.finished = true := by
      rintro _ rfl (h | h | h) <;> simp only [y, h, Bool.or_true, Bool.true_or]
    exact { iters := rfl, time := rfl, sig := rfl
            last := fun h => hfin rfl (.inr (.inr (decide_eq_true h)))
            cut := fun h => hfin rfl (.inr (.inl h))
            fail := fun h => ⟨hfin rfl (.inl h), if_pos h⟩ }

end

/-- Settles O25: each clause is its command's branch while the ego kind runs, under the conditions it names. -/
theorem solverTakesItsInputs : Obligations.SolverTakesItsInputs := by
  intro s hon
  have hwhen : ∀ f, s.whenEgo f = f s := fun f => State.whenEgo_of_on hon
  refine ⟨fun q u hd pl steps x hqueue htake hreal hgolden herr hitem hclosed => ?sample,
    fun q u hd pl steps x c hqueue htake hreal hgolden herr hitem hclosed hlate => ?late,
    fun u b htake hcrc hnone hclosed => ?join, fun u b htake hcrc hnode => ?node, fun u b htake hcrc => ?bad,
    fun u b hasm htake => ?poisoned, fun u b hasm htake hcrc hslot hkind => ?update⟩
  case sample =>
    change Host.Outcome.next _ = _
    rw [hwhen, if_neg (by simp [hqueue]), itemChecks_of_good]
    simp only [htake, hreal, hgolden, herr, hitem, hclosed, Bool.or_self, Bool.false_eq_true, if_false]
  case late =>
    change Host.Outcome.next _ = _
    rw [hwhen, if_neg (by simp [hqueue]), itemChecks_of_good]
    simp only [htake, hreal, hgolden, herr, hitem, hclosed, decide_eq_true hlate, Bool.or_self, Bool.false_eq_true, if_false, if_true]
  case join =>
    change Host.Outcome.next _ = _
    rw [hwhen]
    simp only [htake, hcrc, hnone, hclosed, Bool.not_true, Bool.or_self, Bool.false_eq_true, if_false]
  case node =>
    change Host.Outcome.next _ = _
    rw [hwhen]
    simp only [htake, hcrc, hnode, Bool.not_true, Bool.or_self, Bool.false_eq_true, if_false, if_true]
  case bad =>
    change Host.Outcome.next _ = _
    rw [hwhen]
    simp only [htake, hcrc, Bool.not_false, Bool.or_true, if_true]
  case poisoned =>
    change Host.Outcome.next _ = _
    rw [hwhen, if_neg (by simp [hasm])]
    simp only [htake, Bool.true_or, if_true]
  case update =>
    change Host.Outcome.next _ = _
    have hvector : (leAt (s.peekBytes (s.get F.SLV_QUEUES_UPD_Q) 64) 10 1 != 0) = true := by simp [hkind]
    rw [hwhen, if_neg (by simp [hasm])]
    simp only [htake, hcrc, hslot, hvector, Bool.true_or, Bool.and_self, Bool.not_true, Bool.or_self, Bool.false_eq_true, if_false]

/-- Settles O27: START and ABORT are what the write of SLV_BA_CMD does; every end of a step is `State.baEnd`. -/
theorem bundleAdjustmentActs : Obligations.BundleAdjustmentActs := by
  intro s hlive
  refine ⟨fun value hreach habort hstart => ?start, fun value hreach habort hstart => ?abort, fun b hba hrun hclock => ?step,
    fun b hba hlate hclock => ?timeout⟩
  case start =>
    change Host.Outcome.next _ = _
    rw [if_pos hreach, State.writeWindow_baCmd hlive]
    simp only [State.writeBaCmd, if_neg habort, if_pos hstart]
  case abort =>
    change Host.Outcome.next _ = _
    rw [if_pos hreach, State.writeWindow_baCmd hlive]
    simp only [State.writeBaCmd, if_pos habort, if_neg hstart]
  case step =>
    obtain ⟨t, ht⟩ : ∃ t, execBaStepDone s = .next t := ⟨_, rfl⟩
    refine ⟨t, ht, ?_⟩
    obtain ⟨u, result, skipped, far, sat, reg, hu, rfl⟩ := execBaStepDone_eq_baEnd hba hrun hclock ht
    rw [State.slv_baEnd, hu]
    exact ⟨rfl, rfl, rfl, rfl⟩
  case timeout =>
    change Host.Outcome.next _ = _
    have hnow : decide (s.now < b.start + b.set.baTimeout * 1000000) = false := decide_eq_false (Int.not_lt.mpr hlate)
    simp only [hba, hnow, hclock, Bool.not_true, Bool.or_self, Bool.false_eq_true, if_false]

/-- Settles O26: a solve starts, is cut, iterates, ends and is published as its command's branch says. -/
theorem solverSolves : Obligations.SolverSolves := by
  intro s hon
  have hwhen : ∀ f, s.whenEgo f = f s := fun f => State.whenEgo_of_on hon
  refine ⟨fun u n nodes prior hfree htime hform hasm hwin hsig hlast => ?close, fun x k hsolve hrun hcut htime hasm => ?budget,
    fun x hsolve hrun => ?iterate, fun x hsolve hrun hfin hgood hsound hkept => ?done, fun x hsolve hended htime => ?publish,
    fun x hsolve hrun htime => ?miss⟩
  case close =>
    have hnow : decide (s.now < s.nextNode + s.egoIntake) = false := decide_eq_false (Int.not_lt.mpr htime)
    have hcold : (u.slv.sig != some (egoSignature nodes)) = true := by rw [hsig]; rfl
    have hfirst : u.slv.sig.isSome = false := by rw [hsig]; rfl
    obtain ⟨t, ht⟩ : ∃ t, execEgoIntakeClose s = .next t := ⟨_, rfl⟩
    have hexec := ht
    unfold execEgoIntakeClose at ht
    rw [hwhen] at ht
    simp only [hnow, hfree, Option.isSome_none, Bool.or_self, Bool.or_false, Bool.and_false, Bool.not_true, Bool.false_eq_true, if_false,
      hform, hasm, if_true, hwin, hcold, hfirst, hlast] at ht
    change Host.Outcome.next (u.startSolve _ (s.slvSetAt s.nextNode).window) = .next t at ht
    obtain rfl := Host.Outcome.next.inj ht
    refine ⟨_, _, hexec, congrArg Slv.solve State.slv_startSolve, congrArg Slv.closed State.slv_startSolve,
      congrArg Slv.passed State.slv_startSolve, rfl, rfl, rfl, rfl, rfl, rfl, rfl, ?_⟩
    rw [State.slv_startSolve, State.startSolve]
  case budget =>
    change Host.Outcome.next _ = _
    have hnow : decide (s.now < x.start + x.set.asmBudget * 1000) = false := decide_eq_false (Int.not_lt.mpr htime)
    rw [hwhen]
    simp only [hsolve, hrun, hcut, hnow, hasm, Option.isSome_none, Bool.not_true, Bool.or_self, Bool.false_eq_true, if_false]
  case iterate =>
    obtain ⟨t, y, ht, hy, hit⟩ := execEgoIterationDone_eq hon hsolve hrun
    exact ⟨t, y, ht, hy, hit.iters, hit.time, hit.sig, hit.last, hit.cut, hit.fail⟩
  case done =>
    change Host.Outcome.next _ = _
    rw [hwhen]
    simp only [hsolve, hrun, hfin, hgood, hsound, hkept, Bool.not_true, Bool.or_self, Bool.or_false, Bool.false_eq_true, if_false,
      State.now]
  case publish =>
    obtain ⟨u, e, c, hpub, hc, ht⟩ := execEgoPublish_eq hon hsolve htime
    exact ⟨u, e, by rw [if_pos hended] at ht; exact ht, hpub.free, hpub.last, hpub.seq, hpub.time, hpub.place, hpub.turn,
      hpub.missed.trans (by rw [hended]; rfl), hpub.late, hpub.solved hended⟩
  case miss =>
    obtain ⟨u, e, c, hpub, hc, ht⟩ := execEgoPublish_eq hon hsolve htime
    exact ⟨u, e, c, by rw [hrun] at ht; exact ht, hc, hpub.free, hpub.last, hpub.seq,
      hpub.time.trans (State.egoResult_time_of_running hrun), hpub.missed.trans (by rw [hrun]; rfl)⟩

end Sys2Proof.Machine
end
